-- ==== Sys2Proof/Word.lean ====
section
/-!
DEFINITION. The plain word types of the model: a byte, and the finite index types the commands' operands use. Addresses,
counts and register values are natural numbers; what the specification stores as bytes is `Byte`.
-/
namespace Sys2Proof

/-- One byte of memory, of a packet or of a structure in memory. -/
abbrev Byte := BitVec 8

/-- A local port, 0 to 15 (R20). -/
abbrev Port := Fin 16
/-- A link of the lane layer: 0 to 15 the Urone ports, 16 the Seam link (R211). -/
abbrev Link := Fin 17
/-- A lane of the LANE_ block: 64 local lanes, then 8 Seam lanes (R34, R185). -/
abbrev Lane := Fin 72
/-- An FN_ sub-block index: PF0 to PF3, then VF 0 to VF 2,047 (R34, R78). -/
abbrev Fn := Fin 2052
/-- A context, 0 to 4,095. -/
abbrev Ctx := Fin 4096
/-- A DMA channel. -/
abbrev Chan := Fin 256
/-- A control core. -/
abbrev Core := Fin 4
/-- An interrupt source. -/
abbrev Src := Fin 16384

end Sys2Proof
end

