-- ==== Sys2Proof/Packets.lean ====
section
/-!
DEFINITION. The requests and packets the block exchanges: who makes a request, a request on its way through the bridge,
the packets of the Urone link (R218) and the outcome of a memory read (R450).
-/
namespace Sys2Proof

/-- Who makes a request: the requester classes of R36, with the function, port, channel or core. -/
inductive Who where
  | host (f : Nat)
  | port (p : Nat)
  | dma (c : Nat)
  | core (c : Nat)
  | seam
  deriving DecidableEq, Repr

/-- The atomic operations of R226. -/
inductive AtomOp where
  | fetchAdd | swap | cas
  deriving DecidableEq, Repr

/-- What a request does. -/
inductive Kind where
  | read
  | write
  | atomic (op : AtomOp)
  /-- An explicit Starch lock request and its release (R228). -/
  | lock
  | unlock
  deriving DecidableEq, Repr

/-- The BAR a host request addresses (R91); `rom` is PF0's expansion ROM. -/
inductive Bar where
  | bar0 | bar2 | bar4 | rom
  deriving DecidableEq, Repr

/-- What a read of the SRAM or the store finds in the granule of its first byte (R450). -/
inductive MemErr where
  | clean | correctable | transient | lasting
  deriving DecidableEq, Repr

/-- A request. The first group is the request as received; the second is what the translate-and-check stage adds. -/
structure Req where
  who : Who
  kind : Kind
  /-- Address in the requester's own space: BAR offset, local address, or BAS address. -/
  addr : Nat
  /-- Bytes read or written; for an atomic, the operand size s (R226). -/
  len : Nat
  /-- Write data, or the operands of an atomic. -/
  data : List Byte := []
  /-- Byte enables of a write; the empty list enables every byte. -/
  be : List Bool := []
  /-- Poisoned granules, counted from the granule of the first byte (R225). -/
  pois : List Nat := []
  priv : Bool := false
  exec : Bool := false
  /-- Issuing function and slice of a host request (R81, R82). -/
  fn : Nat := 0
  slice : Option Nat := none
  bar : Bar := .bar0
  /-- The requester's tag: host tag, Urone tag, DMA beat number. -/
  tag : Nat := 0
  /-- Relaxed Ordering on a host request. -/
  ro : Bool := false
  /-- The T bit and the IDE stream a host request arrived on; 0 is none, 1 the link stream, 2 to 9 the selective
  streams (R362, R368). For a request of a local port, how often the port had gone DOWN when it arrived. -/
  tbit : Bool := false
  stream : Nat := 0
  /-- Stamps of R30, window number (255 for a fixed window), window table index, ATTR (R120). -/
  xe : Nat := 0
  ge : Nat := 0
  /-- How many guard commits there had been at stamping, which fixes the guard regions in force (R30). -/
  gv : Nat := 0
  win : Nat := 255
  idx : Nat := 0
  attr : Nat := 0
  /-- Translated first byte: BAS address, or host address when `toHost`. -/
  dst : Nat := 0
  toHost : Bool := false
  /-- Function and slice a host-bound request is issued for (R120). -/
  hfn : Nat := 0
  hslice : Option Nat := none
  /-- Bytes by which a read was extended for prefetch (R132). -/
  ext : Nat := 0
  /-- Order number of a host request to a local port (R148). -/
  ord : Nat := 0
  /-- Number of the whole access this request is a piece of (R137); 0 for a whole access. -/
  grp : Nat := 0
  /-- Space of a DMA address (R254): 0 BAS, 1 HOST, 2 BAR2. -/
  space : Nat := 0
  /-- Guard key (R342), none for what has no BAS address; the fixed system window it came through (R346): 0 none,
  1 BAR0 of a data PF or VF, 2 a BAR or the ROM of PF0, 3 the local doorbell, 4 the port's own mailboxes, 5 the host
  route of a DMA owner, 6 a local delivery of the interrupt controller (R297). -/
  key : Option Nat := none
  fixed : Nat := 0
  /-- Register view of a host request (R100): 0 none, 1 privileged, 2 the unprivileged view of `fn`. -/
  view : Nat := 0
  /-- What a read of the SRAM or the store finds in the granule of its first byte, should it reach one (R450). -/
  err : MemErr := .clean
  /-- The lookup was accepted and its epochs stamped; the translation is done and the request waits behind a miss
  (R29). -/
  stamped : Bool := false
  ready : Bool := false
  /-- When the request reached the Basket, where it waits for service (R325). -/
  born : Nat := 0
  deriving DecidableEq, Repr

/-- The PASID of a host request: its value, Privileged Mode Requested, Execute Requested (R81). -/
abbrev Pasid : Type := Option (Fin 1048576 × Bool × Bool)

/-- The header of a host memory request: its function and BAR offset, tag, PASID, Relaxed Ordering, EP and T bits, IDE
stream (0 none, 1 the link stream, 2 to 9 the selective streams) and the check it failed on that stream (0 none, 1 MAC,
2 PCRC, 3 sequence, 4 key not programmed). -/
structure HostTlp where
  fn : Fn
  bar : Bar
  off : Nat
  tag : Nat := 0
  pasid : Pasid := none
  ro : Bool := false
  ep : Bool := false
  tbit : Bool := false
  stream : Nat := 0
  ideCause : Nat := 0
  deriving DecidableEq, Repr

/-- An equalisation at one rate code in a training of the host link or in Recovery (R49, R50): whether it completed, the
phases that succeeded (bit k − 1 for phase k), whether another one is asked for, the results by lane. -/
structure EqRun where
  rate : Fin 8
  complete : Bool := true
  phases : Fin 8 := 7
  request : Bool := false
  results : List Nat := []
  deriving DecidableEq, Repr

/-- What a training of the host link, or a Recovery, comes to at the two ends of the link (R45 to R50, R62, R63): the rate
code and the width that the partner takes, the partner's lane numbering in reverse, the mask of lanes with inverted
polarity, precoding asked for, the retimers found, how equalisation went (0 in full, 1 bypassed to the highest rate, 2 not
needed) and at which rates, the physical lanes that failed to reach lock or equalisation, whether the partner can widen the
link again, and how many flits or TLPs were replayed. -/
structure HostTrain where
  rate : Fin 8
  width : Fin 17
  reversed : Bool := false
  inverted : Fin 65536 := 0
  precode : Bool := false
  retimers : Fin 3 := 0
  eqMode : Fin 3 := 0
  eq : List EqRun := []
  failed : List (Fin 16) := []
  upcfg : Bool := true
  replayed : Nat := 0
  deriving DecidableEq, Repr

/-- What carries an MCTP message to the endpoint (R433): the binding (0 SMBus, 1 PCI Express), whether every SMBus packet
had a good PEC, the IC bit. -/
structure MctpHdr where
  binding : Fin 2
  pec : Bool := true
  ic : Bool := false
  deriving DecidableEq, Repr

/-- Who writes IRQ_DOORBELL (R285): the host through PF0's view, a control core, a design of a port with its tag, a DMA
channel, the Seam engine. -/
inductive DbWriter where
  | host
  | core (c : Core)
  | port (p : Port) (tag : Fin 4096)
  | dma (c : Chan)
  | seam
  deriving DecidableEq, Repr

/-- A TRAIN block (R193). -/
structure TrainBlk where
  lane : Nat
  width : Nat
  rates : Nat
  target : Nat := 0
  preReq : Nat := 0
  postReq : Nat := 0
  preSts : Nat := 0
  postSts : Nat := 0
  rxReady : Bool := false
  readySeen : Bool := false
  phase : Nat := 0
  linkId : Nat
  deriving DecidableEq, Repr

/-- A MARKER block (R193): its lane, ACTIVE, RX_OK, CMD, ARG, MCOUNT. -/
structure MarkBlk where
  lane : Nat
  active : Nat
  rxok : Nat
  cmd : Nat
  arg : Nat := 0
  mcount : Nat := 0
  deriving DecidableEq, Repr

/-- What a lane's receiver finds while TRAIN blocks come in (R196, R198, R201): for how many ns the amplitude has been above
the detect threshold; the frequency error in ppm and for how many ns the loop has had it, with the phase detector in range;
consecutive valid sync headers; the polarity under which the blocks are good; the lane's skew in units of 100 ps; whether
the lane is equalised; the coefficient requests it would make (R193). -/
structure LaneRx where
  signal : Nat := 100
  ppm : Nat := 0
  ppmTime : Nat := 1000
  headers : Nat := 64
  inverted : Bool := false
  skew : Nat := 0
  equalised : Bool := true
  askPre : Fin 4 := 0
  askPost : Fin 4 := 0
  deriving DecidableEq, Repr

/-- What a lane's receiver finds when it may lose lane lock (R196): for how many ns the amplitude has been below the
threshold; the frequency error in ppm and for how many ns; sync header errors within the last 256 blocks. -/
structure LaneLoss where
  dark : Nat := 0
  ppm : Nat := 0
  ppmTime : Nat := 0
  headerErrs : Nat := 0
  deriving DecidableEq, Repr

/-- What a 1 ms trial window came to on a lane (R206): how many µs after its start lane lock was gained, if it was, and its
sync header errors. -/
structure TrialWin where
  lockAt : Option Nat := some 20
  syncErrs : Nat := 0
  deriving DecidableEq, Repr

/-- The packets of the Seam link (R394). -/
inductive SeamPkt where
  | hello (version mirrorVer mode : Nat) (leading : Bool) (fwVer serial : Nat)
  | heartbeat (count : Nat) (leading contained : Bool) (sync mseq : Nat)
  | mirror (rtype mseq arg : Nat) (payload : List Nat)
  | mirrorAck (mseq : Nat)
  | handover (op mseq : Nat)
  | pairCtl (op : Nat)
  deriving DecidableEq, Repr

/-- The packets of the Urone link (R218), with the fields of R220, R223, R229, R233, R236, R238, R242 and R244. `mask` is the
poison-mask block of a packet with POIS = 1 (R225). `aop` and `asz` are the codes of R223. `base` is the address, modulo 64,
that byte 0 of a RESPONSE's request lies at, by which its data are laid out (R230). `bad` is a packet with a reserved
KIND. -/
inductive UrPkt where
  | flow (vc hdrLimit dataLimit : Nat)
  | hello (version : Nat) (atomic seqAware dual dozeOk deepOk : Bool) (sbMin design : Nat)
  | read (tag len addr : Nat) (priv exec : Bool)
  | write (tag init seq addr : Nat) (retry priv exec : Bool) (data : List Byte) (mask : Option Nat)
  | atomic (tag aop asz addr : Nat) (priv exec : Bool) (ops : List Byte)
  | lock (tag addr : Nat) (priv exec : Bool)
  | unlock (tag addr : Nat) (priv exec : Bool)
  | streamSync (init first : Nat)
  | response (tag status off : Nat) (last : Bool) (data : List Byte) (mask : Option Nat) (base : Nat)
  | sbPoll (id : Nat)
  | sbState (id : Nat) (unsol : Bool) (lines : Nat)
  | sbCfg (latch : Nat)
  | req (line count : Nat)
  | reqDone (line count : Nat)
  | lateError (init seq status : Nat)
  | bad (kind : Nat)
  | seam (k : SeamPkt)
  deriving DecidableEq, Repr

end Sys2Proof
end

