-- ==== Sys2Proof/Syntax.lean ====
section
/-!
DEFINITION. The commands of the block: one constructor per row of the opcode table, with the operands the event brings. A row
is an event of the block's outside or of one of its engines; what the environment decides (a check that failed, a choice the
specification leaves to the hardware) is an operand (log entry 2).
-/
namespace Sys2Proof

/-- The commands, in the order of the opcode table. -/
inductive Instr where
  /-- POWER_UP (R376): VIN within range with PWR_EN high takes the module from OFF into BOOT and starts the power-up
  sequence. -/
  | powerUp
  /-- POWER_DOWN (R376): VIN below its undervoltage limit, PWR_EN low or removal at J7 turns the rails off and takes
  the module to OFF without saving anything. -/
  | powerDown
  /-- OVERVOLTAGE (R501): VIN rising above VOVP takes the module to OFF and latches the overvoltage in the converter
  housekeeping. -/
  | overvoltage
  /-- THERMAL_WARNING (R515): A sensor crossing its warning limit sends a PLDM event, asserts PWR_ALERT_N and writes a
  class 7 log entry. -/
  | thermalWarning (i : Fin 3)
  /-- THERMAL_CRITICAL (R515): A sensor crossing its critical limit acts as a warning and also writes a class 4 log
  entry. -/
  | thermalCritical (i : Fin 3)
  /-- THERMAL_TRIP (R515): A sensor reaching its fatal limit removes every rail within tTRIP and latches the trip. -/
  | thermalTrip (i : Fin 3)
  /-- THERMAL_TRIP_CLEAR (R516): With PWR_EN low for tOFFMIN and every sensor below warning, the latched thermal trip
  clears. -/
  | thermalTripClear
  /-- IMAGE_VERIFIED (R384): The boot ROM finishes selecting and verifying an image and starts it, or sets BOOT_FAIL.
  -/
  | imageVerified (okA okB : Bool) (ver : BitVec 32) (mirrorVer : BitVec 8)
  /-- STORE_TRAINED (R379): Store training ends; firmware writes the system-area bases, clears the table bitmap and
  shadow after a cold boot and powers XLAT. -/
  | storeTrained
  /-- FW_READY (R379): Firmware finishes provisioning and builds the BDT, then sets FW_READY; RRS ends and the module
  enters LEAD or FOLLOW. -/
  | fwReady
  /-- BOOT_WATCHDOG_EXPIRE (R384): The boot watchdog expires before FW_READY; the expiry is recorded against the image
  and the module resets. -/
  | bootWatchdogExpire
  /-- RRS_TIMEOUT (R382): tRRSMAX passes after PERST# deasserts without FW_READY, and the minimal face of PF0 is
  served. -/
  | rrsTimeout
  /-- MODULE_RESET_EVENT (R377): A module reset restarts every domain except AON and DRAM, keeping the store, the
  fault log and DBG_STS, and enters BOOT. -/
  | moduleResetEvent (cause : Fin 9)
  /-- STANDBY_ENTRY (R386): L2 entry or the STANDBY command hands over the lead, drains DMA and ledger, retains the
  store if asked and powers down all but AON. -/
  | standbyEntry
  /-- STANDBY_LEDGER_TIMEOUT (R386): After 100 ms of ledger run-on in STANDBY entry, the ports go DOWN and the
  remaining entries end with LINK_DOWN. -/
  | standbyLedgerTimeout
  /-- MODULE_WAKE (R387): A wake event or PERST# deassertion in STANDBY starts a warm or cold module reset within
  tWAKEB and asserts WAKE#. -/
  | moduleWake (src : BitVec 8)
  /-- PERST_ASSERT (R64): PERST# assertion resets the host face, or the whole module under R378, with the reads
  outstanding discarded and their tags quarantined. -/
  | perstAssert
  /-- PERST_DEASSERT (R54): PERST# deassertion selects the clock mode, takes FN_VF_TOTAL and starts the LTSSM toward
  Detect. -/
  | perstDeassert
  /-- HOT_RESET_RX (R64): TS1 or TS2 with Hot Reset resets all functions, starting rinse, and the link retrains. -/
  | hotResetRx
  /-- LINK_DISABLE_RX (R64): TS1 or TS2 with Disable Link disables the link and resets the functions as a hot reset on
  leaving Disabled. -/
  | linkDisableRx
  /-- DL_DOWN (R64): The data link layer goes down, and the cause is sorted as orderly or as a surprise link loss. -/
  | dlDown
  /-- DL_UP (R70): The data link layer comes up, raising HST_EVT.DL_UP, and the module stays contained if it was. -/
  | dlUp (t : HostTrain) (flit l0p : Bool)
  /-- REFCLK_LOSS (R55): REFCLK lost in common clock mode fails the link as a surprise link loss. -/
  | refclkLoss
  /-- LANE_ERR_WINDOW_END (R62): At each 1 ms window boundary, per-lane corrected symbol counts are tested against the
  threshold and restarted. -/
  | laneErrWindowEnd (errs margin : List Nat) (replayed : Nat)
  /-- RECOVERY_DONE (R72): Recovery, with or without down-configuration, completes and the link returns to L0. -/
  | recoveryDone (t : HostTrain)
  /-- AUTO_REWIDEN (R63): Once per second with AUTO_REWIDEN set, excluded lanes are cleared and tried with one
  Recovery. -/
  | autoRewiden
  /-- HST_RETRAIN (R48): A write of HST_LINK_CTL.RETRAIN starts Recovery with the current limits and exclusions. -/
  | hstRetrain
  /-- L0P_DEMAND_CHECK (R57): Host-link demand measured over the governor window or epoch leads the endpoint to
  request a narrower or wider L0p width. -/
  | l0pDemandCheck (window epoch : Nat)
  /-- L0P_WIDTH_CHANGE_DONE (R59): An L0p narrowing or widening completes and HST_EVT.L0P_CHG is raised. -/
  | l0pWidthChangeDone (width : Fin 17)
  /-- ASPM_L1_ENTRY (R58): After L1_IDLE microseconds of unbroken idleness, the endpoint starts ASPM L1 entry. -/
  | aspmL1Entry (accepted unacked : Bool)
  /-- L1_EXIT (R59): A TLP to send or the partner's exit signalling takes the link from L1 or an L1 substate back to
  L0. -/
  | l1Exit
  /-- PME_TURN_OFF_RX (R60): On PME_Turn_Off, the endpoint stops issuing new host-bound requests from all functions.
  -/
  | pmeTurnOffRx
  /-- PME_TO_ACK_SEND (R60): When the Basket is empty or 1 ms has passed, PME_TO_Ack is sent, the outstanding reads
  are quarantined and the link enters L2. -/
  | pmeToAckSend (expired : Bool)
  /-- HOST_POSTED_WRITE_RX (R144): A host posted memory write is translated and checked, then carried to its target or
  dropped and logged. -/
  | hostPostedWriteRx (h : HostTlp) (data : List Byte) (be : List Bool) (err : MemErr)
  /-- HOST_MEMORY_READ_RX (R144): A host memory read is translated and checked, then served from a unit or carried to
  a local port. -/
  | hostMemoryReadRx (h : HostTlp) (len : Nat) (err : MemErr)
  /-- HOST_ATOMICOP_RX (R144): A host AtomicOp is carried under Starch as a Urone atomic, as an emulation or as a
  fabric access. -/
  | hostAtomicopRx (h : HostTlp) (op : AtomOp) (size : Nat) (data : List Byte) (err : MemErr)
  /-- MEMORY_READ_LOCK_RX (R145): A Memory Read Lock request is completed with Unsupported Request and takes no lock.
  -/
  | memoryReadLockRx (h : HostTlp)
  /-- CONFIG_READ (R381): A configuration read is answered by the hardware configuration responder according to the
  phase. -/
  | configRead (f : Nat) (dw : Fin 1024) (tag : Nat)
  /-- CONFIG_WRITE (R381): A configuration write is stored and applied, or held during rinse, and PF0 captures its
  routing ID. -/
  | configWrite (f : Nat) (rid : Fin 65536) (dw : Fin 1024) (v : Fin 4294967296) (be : Fin 16) (tag : Nat)
  /-- FLR (R102): Initiate FLR moves a function into RINSE with a 90 ms deadline and its VFs into RINSE_HIDDEN. -/
  | flr (f : Fn)
  /-- VF_ENABLE_SET (R108): VF Enable 0 to 1 makes the non-rinsing VFs ACTIVE and returns the rinsing VFs to RINSE. -/
  | vfEnableSet (pf : Fin 4)
  /-- VF_ENABLE_CLEAR (R102): VF Enable 1 to 0 moves the PF's VFs to RINSE_HIDDEN with a 90 ms deadline. -/
  | vfEnableClear (pf : Fin 4)
  /-- BME_CLEAR (R110): Bus Master Enable 1 to 0 stops new host-bound requests, stops channels with MASTER_OFF and
  holds event entries. -/
  | bmeClear (f : Fn)
  /-- BME_SET (R110): Bus Master Enable 0 to 1 writes the held event entries and records and restarts nothing. -/
  | bmeSet (f : Fn)
  /-- PASID_ENABLE_CLEAR (R84): Clearing PASID Enable makes the function's slice entries inactive, with their bindings
  kept. -/
  | pasidEnableClear (f : Fn)
  /-- RESIZABLE_BAR_WRITE (R93): A BAR Size write to PF or VF BAR2 is accepted only while Memory Space Enable or VF
  Enable is 0. -/
  | resizableBarWrite (pf : Fin 4) (vf : Bool) (size : Fin 64)
  /-- RINSE_DRAINED (R104): Once channels have stopped, contexts are released and ledger entries have retired, rinse
  ends and the stored configuration takes effect. -/
  | rinseDrained (f : Fn)
  /-- RINSE_DEADLINE (R106): At the 90 ms deadline, rinse ends and the unretired ledger entries of the function are
  abandoned. -/
  | rinseDeadline (f : Fn)
  /-- FN_SLICE_WRITE (R80): A write of a slice table entry is taken, or dropped with FN_SLICE_ERR.DUP as a duplicate
  or locked binding. -/
  | fnSliceWrite (k : Fin 256) (v : BitVec 64)
  /-- FN_RES_WRITE (R113): A write of FN_RES is taken, or dropped whole with RES_DROP when it breaks its limits. -/
  | fnResWrite (f : Fn) (first count : Fin 4096)
  /-- BDT_REBUILD (R99): Firmware builds a new Bridge Descriptor Table in a second buffer, switches the ROM and
  increments the generation. -/
  | bdtRebuild
  /-- WALK_SLOT_START (R28): A miss that waited for a free walk slot starts its window table walk. -/
  | walkSlotStart
  /-- WINDOW_WALK_DONE (R125): A window table walk completes, installs the covering entry and forwards, or ends the
  access with NO_WINDOW or TABLE_ERR. -/
  | windowWalkDone (tbl : Nat) (bad : List Nat)
  /-- XLT_UPD_WRITE (R139): XLT_UPD_CMD with OP WRITE and GO checks the entry, refusing it or passing to HOLD. -/
  | xltUpdWrite (core : Option Core) (i : Fin 524288)
  /-- XLT_UPD_COMMIT (R139): Once the recorded walks have read the table, the entry is committed to the store, the
  cache copy invalidated and mirrored or finished. -/
  | xltUpdCommit
  /-- XLT_UPD_INVAL_ENTRY (R139): XLT_UPD_CMD with OP INVAL_ENTRY drops the cached copies of one entry and reloads a
  pinned copy. -/
  | xltUpdInvalEntry (core : Option Core) (i : Fin 524288)
  /-- XLT_UPD_INVAL_TABLE (R139): XLT_UPD_CMD with OP INVAL_TABLE drops the cached copies of one table and reloads the
  pinned ones. -/
  | xltUpdInvalTable (core : Option Core) (i : Fin 524288)
  /-- XLT_UPD_INVAL_ALL (R139): XLT_UPD_CMD with OP INVAL_ALL drops every cached copy and reloads the pinned entries.
  -/
  | xltUpdInvalAll (core : Option Core) (i : Fin 524288)
  /-- XLT_INVAL_DONE (R139): An invalidation completes within tINV or tINVA, with RESULT OK and BUSY 0. -/
  | xltInvalDone
  /-- XLT_TBL_BASE_WRITE (R118): A write of XLT_TBL_BASE is accepted and invalidates the whole cache, or is ignored
  with BASE_REFUSED. -/
  | xltTblBaseWrite (core : Option Core) (base : Fin 16777216)
  /-- XLT_EPOCH_ADVANCE (R140): A write of ADVANCE advances the translation epoch for later lookups, unless a ninth
  live epoch would arise. -/
  | xltEpochAdvance (core : Option Core)
  /-- XLT_EPOCH_ADVANCE_APPLY (R140): A deferred ADVANCE takes effect once the oldest live epoch has retired. -/
  | xltEpochAdvanceApply
  /-- XLT_EPOCH_DRAIN_READ (R141): A read of XLT_EPOCH_DRAIN is accepted and held with the threshold CURRENT. -/
  | xltEpochDrainRead (core : Option Core) (tag : Nat)
  /-- XLT_EPOCH_DRAIN_RETURN (R141): The held drain read returns DRAINED 1 once no access older than its threshold
  remains. -/
  | xltEpochDrainReturn
  /-- XLT_EPOCH_DRAIN_TIMEOUT (R141): tDRN expires and the held drain read returns with DRAINED 0. -/
  | xltEpochDrainTimeout
  /-- LEDGER_ENTRY_OPEN (R157): A write to a port opens a ledger entry with the next SEQ of its pair once a free entry
  and a pair slot exist, and mirrors it. -/
  | ledgerEntryOpen (p : Port) (init : Fin 19)
  /-- LEDGER_ISSUE (R157): An OPEN entry is sent as a Urone WRITE on VC0, once a tag is free and its stream allows it,
  and the timer starts. -/
  | ledgerIssue (p : Port) (init : Fin 19) (tag : Nat)
  /-- LEDGER_RETRY_REISSUE (R157): Once no entry of the stream is ISSUED, the stream's RETRY entries are reissued in
  SEQ order with their original SEQ. -/
  | ledgerRetryReissue (p : Port) (init : Fin 19)
  /-- LEDGER_WRITE_TIMEOUT (R161): WR_TMO expires for an issued write entry, which is ANSWERED with TIMEOUT. -/
  | ledgerWriteTimeout (p : Port) (tag : Nat)
  /-- PORT_READ_TIMEOUT (R161): RD_TMO expires for a read to a local port, which ends with TIMEOUT or is retried once.
  -/
  | portReadTimeout (p : Port) (tag : Nat)
  /-- HELD_READ_RELEASE (R148): A host read or atomic held at the ledger is issued once every earlier posted write of
  its domain has retired. -/
  | heldReadRelease
  /-- CPL_TO_PORT_RELEASE (R148): Host completions for a port's read go to the port once the earlier host posted
  writes to that port have retired. -/
  | cplToPortRelease
  /-- BASKET_READ_ISSUE (R41): A host-bound read waiting at the Basket is issued, in arrival order, once a tag and
  completion store space are reserved. -/
  | basketReadIssue
  /-- PORT_READ_ISSUE (R176): A read to a local port is issued in arrival order once its response space in the port's
  64 KiB buffer is reserved. -/
  | portReadIssue (p : Port) (tag : Nat)
  /-- HOST_COMPLETION_RX (R177): A completion from the host is delivered for an ISSUED tag, discarded for a HELD or
  QUARANTINE tag, or taken as unexpected. -/
  | hostCompletionRx (tag status : Nat) (data : List Byte) (ep last : Bool)
  /-- BASKET_TAG_TIMEOUT (R178): A tag's completion timer expires: AER, CPL_TIMEOUT, the request ends, and the tag
  goes to QUARANTINE. -/
  | basketTagTimeout (tag : Nat)
  /-- BASKET_QUARANTINE_EXPIRE (R177): The quarantine timer of twice the completion timeout expires and the tag
  becomes FREE. -/
  | basketQuarantineExpire (tag : Nat)
  /-- STARCH_GRANT (R171): A waiting atomic is granted the Starch lock on its granule, with host atomics first under
  HOST_RUN, and is issued. -/
  | starchGrant (gran hfn : Nat)
  /-- STARCH_HOLD_EXPIRE (R174): An explicit lock held past HOLD_MAX is released by force and FORCED is set. -/
  | starchHoldExpire (p : Port) (gran hfn : Nat)
  /-- LATE_ERROR_RX (R166): A LATE_ERROR packet is matched to the history, held for an open entry, or logged as
  unmatched. -/
  | lateErrorRx (p : Port) (init seq status : Nat)
  /-- LANE_ENABLE (R197): Setting LANE_LINK_CTL.ENABLE starts DETECT on the link's lanes, sending TRAIN at rate code
  0; clearing it turns them OFF. -/
  | laneEnable (l : Link) (on : Bool)
  /-- LANE_RETRAIN (R197): A write of LANE_LINK_CTL.RETRAIN restarts training of the link from DETECT. -/
  | laneRetrain (l : Link)
  /-- TRAIN_BLOCK_RX (R197): TRAIN blocks received drive a lane through DETECT, EXCHANGE, EQUALISE and READY, and
  carry coefficient requests. `word` is the payload of a lane control block that arrives out of its periodic place, and `rx`
  what the receiver finds. -/
  | trainBlockRx (i : Lane) (word : Nat) (rx : LaneRx)
  /-- LANE_EQ_TIMEOUT (R197): A lane that has not reached READY 2 ms after entering EQUALISE fails. -/
  | laneEqTimeout (i : Lane)
  /-- LINK_TRAIN_DECIDE (R199): The link becomes ACTIVE with a STRIPE marker when enough lanes are READY, or drops to
  the next lower rate. -/
  | linkTrainDecide (l : Link)
  /-- DETECT_TIMEOUT (R200): When no lane leaves DETECT within 10 ms, the link restarts training; a lag lane is
  counted not READY. -/
  | detectTimeout (l : Link)
  /-- TRAIN_RESTART_TIMEOUT (R199): 10 ms after a failed training at rate code 0, training restarts from DETECT. -/
  | trainRestartTimeout (l : Link)
  /-- TRAIN_BEACON_TICK (R200): With no signal on any lane, the transmitters send TRAIN blocks for 1 ms of every 10
  ms. -/
  | trainBeaconTick (l : Link) (on : Bool)
  /-- LANE_SIGNAL_DETECT (R200): The first signal detect on a lane makes the link's transmitters send TRAIN blocks
  without a break. -/
  | laneSignalDetect (i : Lane)
  /-- LANE_LOCK_LOSS (R196): A receive lane loses lane lock and an ACTIVE lane is darned. -/
  | laneLockLoss (i : Lane) (w : LaneLoss)
  /-- LANE_SYNC_ERR_WINDOW (R208): At each 1 ms window, a lane whose sync header errors reached ERR_THR is darned. -/
  | laneSyncErrWindow (i : Lane) (errs : Nat)
  /-- LANE_FORCE_DARN_WRITE (R208): A write of FORCE_DARN darns an ACTIVE lane while DARN_MIN allows it, or lets
  trials begin when cleared. -/
  | laneForceDarnWrite (i : Lane) (v : Bool)
  /-- TRIAL_NOW (R206): A write of LANE_CTL.TRIAL_NOW starts a trial window at once and restarts the 1 ms cadence. -/
  | trialNow (i : Lane)
  /-- TRIAL_WINDOW_END (R206): A trial window ends clean or not; after three clean windows, ADD_REQ is sent. -/
  | trialWindowEnd (i : Lane) (w : TrialWin)
  /-- MARKER_RX (R194): A periodic marker is received, used for deskew and alignment, or discarded for a bad CRC. `word` is
  the payload of the lane control block in the marker's place, if one came, `skew` the lane's skew in units of 100 ps. -/
  | markerRx (i : Lane) (word : Option Nat) (skew : Nat)
  /-- DARN_REQ_RX (R205): A received DARN_REQ is answered within tSTR by a STRIPE marker that excludes the named lanes
  if one remains ACTIVE. `add` and `rxok` are those of an ADD_REQ that awaits its answer at the same time (R210), else 0. -/
  | darnReqRx (l : Link) (arg add rxok : Nat)
  /-- ADD_REQ_RX (R206): A received ADD_REQ is answered by a STRIPE marker that includes the lane, unless its RX_OK
  bit is 0. `darn` is the ARG of a DARN_REQ that awaits its answer at the same time (R210), else 0. -/
  | addReqRx (l : Link) (arg rxok darn : Nat)
  /-- STRIPE_RX (R195): A received STRIPE marker changes the active stripe set from the next block, and reinstates or
  confirms lanes. -/
  | stripeRx (l : Link) (active skew : Nat)
  /-- DOZE_MARKER_RX (R202): A DOZE marker puts the receive lanes into doze with their loops kept running. -/
  | dozeMarkerRx (l : Link)
  /-- DEEP_MARKER_RX (R203): A DEEP marker puts the receive lanes into deep sleep with their clock recovery stopped.
  -/
  | deepMarkerRx (l : Link)
  /-- DARN_REQ_REPEAT (R205): With no answering STRIPE, the DARN_REQ is sent again every 0.5 µs. -/
  | darnReqRepeat (l : Link)
  /-- DARN_GIVE_UP (R205): 10 µs without a STRIPE takes the link down for retraining. -/
  | darnGiveUp (l : Link)
  /-- PERIODIC_MARKER_TX (R194): Every 16,384th block, a marker with CMD NONE is sent on every driven lane and MCOUNT
  advances. -/
  | periodicMarkerTx (l : Link)
  /-- DOZE_ENTRY (R246): After DOZE_IDLE of idle sending with everything acknowledged, a transmitter sends DOZE and
  idles its lanes. `far` is LANE_LINK_CTL.DOZE_EN of the Seam link's far end (R204). -/
  | dozeEntry (l : Link) (far : Bool)
  /-- DEEP_ENTRY (R246): After DEEP_IDLE under the same conditions, a transmitter sends DEEP and stops its transmit
  clocking. `far` is LANE_LINK_CTL.DEEP_EN of the Seam link's far end (R204). -/
  | deepEntry (l : Link) (far : Bool)
  /-- LOW_POWER_EXIT (R202): A transmitter with a packet to send leaves doze or deep sleep with 64 TRAIN blocks, then
  STRIPE, then data. -/
  | lowPowerExit (l : Link)
  /-- LOW_POWER_EXIT_DONE (R197): Each lane regains lock at exit and returns to ACTIVE, or is darned with WAKE_FAIL.
  -/
  | lowPowerExitDone (l : Link) (failed : Nat)
  /-- BUNDLE_RX (R215): A bundle is accepted in order and its packets delivered, discarded as a replay copy, or
  discarded with a NAK due. `data` are the data blocks since the last control block, `ctl` is the control block that ends
  the bundle (R213). -/
  | bundleRx (l : Link) (data : List Nat) (ctl : Nat)
  /-- ACK_NAK_ONLY_RX (R215): An ACK_ONLY or NAK_ONLY block frees the acknowledged replay bundles and may start a
  replay. `word` is a control block between bundles. -/
  | ackNakOnlyRx (l : Link) (word : Nat)
  /-- REPLAY_TIMEOUT (R216): REPLAY_TMO passes with no ACKSEQ progress; the transmitter replays or takes the link down
  at REPLAY_MAX. -/
  | replayTimeout (l : Link)
  /-- NAK_HOLDOFF_EXPIRE (R215): tNAKH passes after a NAK with no bundle accepted, so the receiver may NAK again. -/
  | nakHoldoffExpire (l : Link)
  /-- FLOW_RX (R220): A FLOW packet raises the cumulative header and data credit limits of VC0 or VC2. -/
  | flowRx (l : Link) (vc hdr data : Nat)
  /-- FLOW_TX (R220): A FLOW packet is sent when a VC's limit has advanced and 1 µs has passed or an eighth of the
  buffer was freed. -/
  | flowTx (l : Link) (vc2 : Bool)
  /-- HELLO_RX (R243): The design's HELLO is recorded, and with the minimum credits the port goes UP, sending
  STREAM_SYNC, SB_CFG and SB_STATE. -/
  | helloRx (p : Port) (version : Nat) (atomic seqAware dual dozeOk deepOk : Bool) (sbMin design : Nat) (twin : Option
  Nat)
  /-- HELLO_TIMEOUT (R243): tHELLO passes without the far HELLO or the minimum credits; the port goes DOWN with
  HELLO_TMO and retrains. -/
  | helloTimeout (p : Port)
  /-- ULK_RESET (R243): A write of ULK_CTL.RESET takes the port DOWN and retrains its lanes. -/
  | ulkReset (p : Port)
  /-- ULK_EN_WRITE (R243): Setting ULK_CTL.EN starts the link layer once the lanes are ACTIVE; clearing it takes the
  port DOWN. -/
  | ulkEnWrite (p : Port) (on : Bool)
  /-- UR_READ_RX (R223): A READ from a design is checked at its port's set, translated and carried to its destination.
  -/
  | urReadRx (p : Port) (tag : Fin 4096) (len : Nat) (addr : Fin 1099511627776) (priv exec : Bool) (err : MemErr)
  /-- UR_WRITE_RX (R144): A WRITE from a design is checked, translated and carried to the host, another port or a
  unit. -/
  | urWriteRx (p : Port) (tag : Fin 4096) (init seq : Nat) (addr : Fin 1099511627776) (retry priv exec : Bool) (data :
  List Byte) (mask : Option Nat) (err : MemErr)
  /-- UR_ATOMIC_RX (R226): An ATOMIC from a design is checked, translated and issued under Starch. -/
  | urAtomicRx (p : Port) (tag : Fin 4096) (aop : Fin 16) (asz : Fin 4) (addr : Fin 1099511627776) (priv exec : Bool)
  (ops : List Byte) (err : MemErr)
  /-- UR_LOCK_RX (R228): A LOCK request takes an explicit Starch lock on the granule, or is answered TARGET_ERROR for
  a fifth. -/
  | urLockRx (p : Port) (tag : Fin 4096) (addr : Fin 1099511627776) (priv exec : Bool)
  /-- UR_UNLOCK_RX (R228): An UNLOCK releases an explicit lock, or is answered LOCK_LOST. -/
  | urUnlockRx (p : Port) (tag : Fin 4096) (addr : Fin 1099511627776) (priv exec : Bool)
  /-- UR_RESPONSE_RX (R229): A RESPONSE answers a bridge request by its tag, setting the ledger state or relaying the
  read data. -/
  | urResponseRx (p : Port) (tag status off : Nat) (last : Bool) (data : List Byte) (mask : Option Nat)
  /-- SB_POLL_TICK (R239): Each effective period P, the bridge sends SB_POLL, or counts a skip if the last poll is
  unanswered. -/
  | sbPollTick (p : Port)
  /-- SB_STATE_RX (R239): An SB_STATE answer is written to ULK_SB_IN in one step and sets ULK_SB_EVT bits for changed
  or latched lines. -/
  | sbStateRx (p : Port) (id : Nat) (unsol : Bool) (lines : Nat)
  /-- SB_OUT_SEND (R241): The current ULK_SB_OUT is sent in SB_STATE, at most once per period P. -/
  | sbOutSend (p : Port)
  /-- ULK_SB_LATCH_WRITE (R241): A write of ULK_SB_LATCH sends SB_CFG to the design at once. -/
  | ulkSbLatchWrite (p : Port) (v : Nat)
  /-- REQ_RX (R242): A REQ packet adds its COUNT to the line's PENDING, saturating and counting the excess. -/
  | reqRx (p : Port) (line : Fin 16) (count : Nat)
  /-- DMA_CH_START (R259): A write of DMA_CH_CTL.START starts an IDLE DIRECT channel from a copy of its image, or is
  dropped with START_DROP. -/
  | dmaChStart (core : Option Core) (c : Chan)
  /-- DMA_CH_ABORT (R275): A write of DMA_CH_CTL.ABORT soft-aborts the channel at the next beat boundary. -/
  | dmaChAbort (core : Option Core) (c : Chan)
  /-- DMA_CH_RESUME (R260): A write of DMA_CH_CTL.RESUME restarts a HALTED channel at ERR_OFFSET after MASTER_OFF or a
  software abort. -/
  | dmaChResume (core : Option Core) (c : Chan)
  /-- DMA_CH_CLEAR (R260): A write of DMA_CH_CTL.CLEAR returns a HALTED channel to IDLE and clears its status. -/
  | dmaChClear (core : Option Core) (c : Chan)
  /-- DMA_CH_CFG_WRITE (R251): A write that changes DMA_CH_CFG.MODE takes effect only while the channel is IDLE, and
  is otherwise dropped. -/
  | dmaChCfgWrite (core : Option Core) (c : Chan) (v : BitVec 64)
  /-- DMA_GRANT_WRITE (R253): A write of DMA_GRANT from the privileged view grants a DIRECT IDLE channel to a PF slot,
  or is refused. -/
  | dmaGrantWrite (core : Option Core) (pf : Fin 3) (j : Fin 64) (v : BitVec 32)
  /-- DOORBELL_WRITE (R316): A context doorbell write updates SQ_TAIL and CQ_HEAD and rings the SQ, or is dropped and
  counted. -/
  | doorbellWrite (f : Fn) (k : Fin 1024) (v : BitVec 64)
  /-- DESC_FETCH_DONE (R264): The descriptor read returns; the produced descriptors are taken, or an error halts the
  SQ with FETCH_ERROR. -/
  | descFetchDone (x : Ctx)
  /-- RING_DISPATCH (R264): A produced descriptor is dispatched to an IDLE pool channel once PAR, FENCE, a CQ slot and
  governor service allow. -/
  | ringDispatch (x : Ctx)
  /-- DMA_BEAT_ISSUE (R268): Each half issues a source and a destination beat of the highest-priority eligible channel
  per cycle. -/
  | dmaBeatIssue (half : Fin 2) (err : MemErr)
  /-- DMA_REQ_TAKE (R269): A channel in WAIT_REQ takes one request from its line's PENDING, highest priority first,
  and returns to RUN. -/
  | dmaReqTake (line : Fin 256)
  /-- DMA_BEAT_READ_DONE (R258): A beat's source data arrives into its staging slot, or the beat fails and the channel
  makes a soft stop. -/
  | dmaBeatReadDone (c : Chan)
  /-- DMA_BEAT_ARRIVED (R266): A written beat arrives, and when it is the last the transfer is done and its record is
  written. -/
  | dmaBeatArrived (c : Chan)
  /-- DMA_SOFT_STOP_DONE (R272): Every issued beat has retired after a failure or an abort; the channel writes STATUS
  and its record and halts or idles. -/
  | dmaSoftStopDone (c : Chan)
  /-- DMA_HARD_ABORT_DONE (R275): After a hard abort, the buffered beats before the first abandoned one have arrived
  and the channel ends. -/
  | dmaHardAbortDone (c : Chan)
  /-- REQ_DONE_SEND (R269): After DONE_COAL from the first served unit, REQ_DONE is sent with the units served on the
  line. -/
  | reqDoneSend (p : Port) (line : Fin 16)
  /-- DMA_RING_RESUME_WRITE (R265): A write of DMA_RING_CTL.RESUME takes a HALTED SQ to IDLE. -/
  | dmaRingResumeWrite (core : Option Core) (x : Ctx)
  /-- DMA_RING_RESET_WRITE (R282): A write of DMA_RING_CTL.RESET with no descriptor running zeroes HEAD, TAIL and CQ
  HEAD and sets both phases to 1. -/
  | dmaRingResetWrite (core : Option Core) (x : Ctx)
  /-- IRQ_DOORBELL_WRITE (R284): A doorbell write asserts or de-asserts a source if the writer's class is permitted,
  or is refused and counted. -/
  | irqDoorbellWrite (w : DbWriter) (v : BitVec 32)
  /-- IRQ_RAISE (R283): A unit raises a source internally, setting its PENDING bit. -/
  | irqRaise (i : Src)
  /-- IRQ_LEVEL_FALL (R287): A level source's input falls, clearing PENDING and withdrawing its presentation unless
  IN_SERVICE. -/
  | irqLevelFall (i : Src)
  /-- IRQ_ARRAY_WRITE (R292): A committed write to the arrays, plain or alias, is observed and the sources of the
  words are re-evaluated. -/
  | irqArrayWrite (c : Core) (al : Fin 3) (off : Fin 65536) (data : List Byte)
  /-- IRQ_PEND_SET (R291): A write of IRQ_PEND_SET sets the masked PENDING bits through the bit-set alias. -/
  | irqPendSet (core : Option Core) (n : Fin 512) (v : BitVec 32)
  /-- IRQ_PEND_CLR (R291): A write of IRQ_PEND_CLR clears the masked PENDING bits through the bit-clear alias. -/
  | irqPendClr (core : Option Core) (n : Fin 512) (v : BitVec 32)
  /-- IRQ_EN_SET (R291): A write of IRQ_EN_SET sets the masked ENABLE bits through the bit-set alias. -/
  | irqEnSet (core : Option Core) (n : Fin 512) (v : BitVec 32)
  /-- IRQ_EN_CLR (R291): A write of IRQ_EN_CLR clears the masked ENABLE bits through the bit-clear alias. -/
  | irqEnClr (core : Option Core) (n : Fin 512) (v : BitVec 32)
  /-- IRQ_ROUTE_WRITE (R306): A route write moves unclaimed presentations to the new target within tRTG. -/
  | irqRouteWrite (core : Option Core) (i : Src) (v : BitVec 64)
  /-- IRQ_CORE_CLAIM (R300): A read of IRQ_CORE_CLAIM by a core claims the best eligible source, pushes its priority
  and returns it, or returns NONE. -/
  | irqCoreClaim (c : Core)
  /-- IRQ_CORE_COMPLETE (R301): A write of IRQ_CORE_COMPLETE pops the stack when it names the top source, or sets
  BAD_CPL. -/
  | irqCoreComplete (core : Option Core) (c : Core) (i : Src)
  /-- IRQ_CORE_THR_WRITE (R302): A write of IRQ_CORE_CTL.THR changes stack entry 0 and the running priority when DEPTH
  is 0. -/
  | irqCoreThrWrite (core : Option Core) (c : Core) (thr : Fin 16)
  /-- MSIX_MESSAGE_SEND (R295): An unmasked entry with MSI-X and Bus Master enabled sends its message and clears
  PENDING of the sources it covers. -/
  | msixMessageSend (f : Fn) (e : Fin 2048)
  /-- LOCAL_IRQ_DELIVERY (R297): A source is delivered to a local target by one 4-byte Urone WRITE with a ledger
  entry, clearing PENDING. -/
  | localIrqDelivery (i : Src)
  /-- STORM_WINDOW_END (R309): At each storm window end, counts restart and a source raised fewer than RELEASE times
  leaves STORM. -/
  | stormWindowEnd
  /-- IRQ_STORM_WRITE (R309): Writing 1 to a bit of IRQ_STORM clears it and ends STORM for the source. -/
  | irqStormWrite (core : Option Core) (n : Fin 512) (v : BitVec 32)
  /-- GOV_EPOCH (R329): Each 1 µs epoch the governor grants credit by class per resource, applies committed shares and
  sets fabric weights. -/
  | govEpoch
  /-- GOV_WINDOW_END (R318): Each 100 µs window end updates every context's measured status fields together. -/
  | govWindowEnd
  /-- GOV_STEP (R332): Each 1 ms step takes capacity, sets level and FACTOR per resource, updates BE_PCT and
  entitlements. -/
  | govStep
  /-- SHR_UPD_CMD (R331): SHR_UPD_CMD with GO checks the share and admission, refusing it or committing it. -/
  | shrUpdCmd (core : Option Core) (acct : Fin 8192)
  /-- SHR_UPD_DONE (R331): A share update commits solo, or on the follower's acknowledgement, and BUSY falls. -/
  | shrUpdDone
  /-- SHR_CTX_BIND_WRITE (R315): A write of SHR_CTX_BIND binds a context, or is dropped with BIND_DROP. -/
  | shrCtxBindWrite (core : Option Core) (x : Ctx) (v : BitVec 32)
  /-- SPILL_RETURN (R326): A spilled inbound request is taken back from the spill area in arrival order. -/
  | spillReturn (f : Fn)
  /-- GRD_UPD_CMD (R352): GRD_UPD_CMD with GO checks the region word, refusing it or committing it. -/
  | grdUpdCmd (core : Option Core) (set region : Fin 32)
  /-- GRD_UPD_DONE (R352): The committed region is written to the live set and shadow, and mirrored or finished. -/
  | grdUpdDone
  /-- GRD_EPOCH_ADVANCE (R353): A write of GRD_EPOCH.ADVANCE advances the guard epoch under the rules of the
  translation epoch. -/
  | grdEpochAdvance (core : Option Core)
  /-- GRD_EPOCH_DRAIN_READ (R353): A read of GRD_EPOCH_DRAIN is held until older guard epochs retire or tGDRN passes.
  -/
  | grdEpochDrainRead (core : Option Core) (tag : Nat)
  /-- GRD_EPOCH_DRAIN_RETURN (R353): The held guard drain read returns once older epochs have retired or tGDRN has
  passed. -/
  | grdEpochDrainReturn (late : Bool)
  /-- DEBUG_ACCESS (R358): A JTAG debug access is performed subject to set 18, or refused with DBG_FAULT by the lock
  state. -/
  | debugAccess (addr : Fin 281474976710656) (data : List Byte) (len : Nat) (err : MemErr)
  /-- RELOCK (R374): A write of DBG_CTL.RELOCK clears DBG_STS.OPEN. -/
  | relock
  /-- GET_VERSION (R360): The SPDM GET_VERSION request is answered over DOE. -/
  | getVersion
  /-- GET_CAPABILITIES (R360): The SPDM GET_CAPABILITIES request is answered with the supported flags. -/
  | getCapabilities
  /-- NEGOTIATE_ALGORITHMS (R360): The SPDM NEGOTIATE_ALGORITHMS request fixes signature, hash, key exchange and AEAD.
  -/
  | negotiateAlgorithms (sig hash dhe aead : Bool)
  /-- GET_DIGESTS (R360): The SPDM GET_DIGESTS request returns the certificate chain digests. -/
  | getDigests
  /-- GET_CERTIFICATE (R360): The SPDM GET_CERTIFICATE request returns the certificate of slot 0 or 1. -/
  | getCertificate (slot off len : Nat)
  /-- CHALLENGE (R360): The SPDM CHALLENGE request is answered with a signed response. -/
  | challenge (slot : Nat)
  /-- GET_MEASUREMENTS (R361): The SPDM GET_MEASUREMENTS request returns the measurement blocks 1 to 5. -/
  | getMeasurements (index : Nat) (sign : Bool)
  /-- KEY_EXCHANGE (R360): The SPDM KEY_EXCHANGE request opens a secured session, or is answered Busy at the fifth. -/
  | keyExchange (slot : Nat)
  /-- FINISH (R360): The SPDM FINISH request completes the secured session handshake. -/
  | finish (id : Nat) (ok : Bool)
  /-- SPDM_HEARTBEAT (R360): The SPDM HEARTBEAT request keeps a secured session alive. -/
  | spdmHeartbeat (id : Nat)
  /-- KEY_UPDATE (R360): The SPDM KEY_UPDATE request updates the session keys. -/
  | keyUpdate (id op : Nat)
  /-- END_SESSION (R360): The SPDM END_SESSION request closes a secured session. -/
  | endSession (id : Nat)
  /-- IDE_KM_QUERY (R363): The IDE_KM QUERY message is answered on a secured session. -/
  | ideKmQuery (id : Nat)
  /-- KEY_PROG (R363): The IDE_KM KEY_PROG message programs a key set, or is refused when the set is in use. -/
  | keyProg (id stream kset dir sub key : Nat)
  /-- K_SET_GO (R363): The IDE_KM K_SET_GO message switches key sets at the next TLP boundary and sets the stream
  Secure. -/
  | kSetGo (id stream kset dir sub : Nat)
  /-- K_SET_STOP (R363): The IDE_KM K_SET_STOP message stops a key set of a stream. -/
  | kSetStop (id stream kset dir sub : Nat)
  /-- GET_TDISP_VERSION (R366): The TDISP GET_TDISP_VERSION request is answered. -/
  | getTdispVersion (id : Nat) (f : Fn)
  /-- GET_TDISP_CAPABILITIES (R366): The TDISP GET_TDISP_CAPABILITIES request is answered. -/
  | getTdispCapabilities (id : Nat) (f : Fn)
  /-- LOCK_INTERFACE (R366): LOCK_INTERFACE naming a Secure selective stream moves the TDI to CONFIG_LOCKED and sets
  PROV_LOCK. -/
  | lockInterface (id : Nat) (f : Fn) (stream : Nat)
  /-- GET_DEVICE_INTERFACE_REPORT (R366): The TDISP interface report lists the function's BAR0 and one range per valid
  inbound window. -/
  | getDeviceInterfaceReport (id : Nat) (f : Fn)
  /-- GET_DEVICE_INTERFACE_STATE (R366): The TDISP GET_DEVICE_INTERFACE_STATE request returns the TDI state. -/
  | getDeviceInterfaceState (id : Nat) (f : Fn)
  /-- START_INTERFACE (R366): START_INTERFACE moves a CONFIG_LOCKED TDI to RUN. -/
  | startInterface (id : Nat) (f : Fn) (nonce : Nat)
  /-- STOP_INTERFACE (R366): STOP_INTERFACE returns the TDI to CONFIG_UNLOCKED and ends its function's containment
  from ERROR. -/
  | stopInterface (id : Nat) (f : Fn)
  /-- SEAM_HELLO_RX (R391): The twin's SEAM_HELLO forms the pair, settling leader and follower, or refuses it with
  MISMATCH or CONFLICT. -/
  | seamHelloRx (version mver mode : Nat) (leading : Bool) (fw serial : Nat) (far : List (Nat × Nat))
  /-- HEARTBEAT_TX (R394): Every 10 µs, dedicated logic sends HEARTBEAT over the Seam link. -/
  | heartbeatTx
  /-- HEARTBEAT_RX (R400): A twin HEARTBEAT clears the miss count and SUSPECT. -/
  | heartbeatRx (count : Nat) (leading contained : Bool) (sync mseq : Nat)
  /-- HEARTBEAT_MISS (R400): Each 10 µs without a heartbeat counts a miss, and at MISS the follower becomes SUSPECT
  and the outcomes of R401 are decided. -/
  | heartbeatMiss
  /-- PAIR_ALIVE_TOGGLE (R390): Every 10 µs, the always-on domain toggles PAIR_ALIVE while the module is in LEAD,
  FOLLOW or CONTAIN. -/
  | pairAliveToggle
  /-- ALIVE_WIN_EXPIRE (R401): No PAIR_ALIVE edge within ALIVE_WIN clears TWIN_ALIVE and decides takeover, DETACHED or
  ALIVE_FAULT. -/
  | aliveWinExpire
  /-- TWIN_PRESENT_CHANGE (R401): PAIR_PRESENT_N going high loses the twin; going low starts pairing or a
  twin-inserted wake. -/
  | twinPresentChange (present : Bool)
  /-- MIRROR_RX (R395): The follower applies a MIRROR record in MSEQ order and acknowledges it within tMACK. -/
  | mirrorRx (rtype mseq arg : Nat) (payload : List Nat)
  /-- MIRROR_ACK_RX (R397): A MIRROR_ACK lets waiting entries issue or retire, and waiting records and updates leave
  or finish. -/
  | mirrorAckRx (mseq : Nat)
  /-- HANDOVER_RX (R406): A HANDOVER OFFER, ACCEPT or ABORT packet moves the handover on either module. -/
  | handoverRx (op : Fin 8) (mseq : Nat)
  /-- PAIR_CTL_RX (R401): A PAIR_CTL packet reports CONTAINED, LEAVE or SNAP_REQ, causing takeover, solo lead or a
  snapshot. -/
  | pairCtlRx (op : Fin 8)
  /-- SEM_CTL_HANDOVER (R406): A write of SEM_CTL.HANDOVER at the leader starts HO_DRAIN, or is refused when the
  follower is not SYNCED. -/
  | semCtlHandover (core : Option Core)
  /-- SEM_CTL_LEAVE (R401): A write of SEM_CTL.LEAVE sends PAIR_CTL LEAVE and leaves the pair. -/
  | semCtlLeave (core : Option Core)
  /-- SEM_CTL_SNAP (R393): A write of SEM_CTL.SNAP at a DETACHED follower sends SNAP_REQ. -/
  | semCtlSnap (core : Option Core)
  /-- HO_DRAIN_DONE (R406): With nothing running, open or unacknowledged, the leader sends OFFER and holds new
  requests. -/
  | hoDrainDone
  /-- HO_DRAIN_TIMEOUT (R406): DRAIN_MAX passes in HO_DRAIN, ABORT is sent, dispatch resumes and HO_FAIL is raised. -/
  | hoDrainTimeout
  /-- MBX_POST (R412): An ACT POST queues the mailbox, advances GEN and writes POST_TIME, or is counted as an error.
  -/
  | mbxPost (m : Fin 2109)
  /-- MBX_RELEASE (R412): An ACT RELEASE returns a DONE mailbox to IDLE and lowers its completion source. -/
  | mbxRelease (m : Fin 2109)
  /-- MBX_CANCEL (R412): An ACT CANCEL ends a POSTED mailbox CANCELLED, or sets CANCEL_REQ on a BUSY one. -/
  | mbxCancel (m : Fin 2109)
  /-- MBX_CLAIM (R414): A core's read of MBX_CLAIM hands it the oldest POSTED mailbox, which becomes BUSY. -/
  | mbxClaim (c : Core)
  /-- MBX_DONE (R412): Firmware's write of MBX_DONE makes a BUSY mailbox DONE and signals its completion. -/
  | mbxDone (m : Fin 2109)
  /-- NOP (R420): The NOP command returns its request payload unchanged. -/
  | nop (m : Fin 2109)
  /-- GET_INFO (R420): The GET_INFO command returns the version, highest opcode, firmware, mode, role and requester.
  -/
  | getInfo (m : Fin 2109)
  /-- FN_QUERY (R421): The FN_QUERY command returns FN_ID, FN_STS, FN_RES and FUNC_STATE of a function. -/
  | fnQuery (m : Fin 2109)
  /-- FN_SET_RES (R421): The FN_SET_RES command sets a function's context range after checking range and bindings. -/
  | fnSetRes (m : Fin 2109)
  /-- SLICE_BIND (R421): The SLICE_BIND command writes a slice table entry. -/
  | sliceBind (m : Fin 2109)
  /-- SLICE_UNBIND (R421): The SLICE_UNBIND command invalidates a slice table entry. -/
  | sliceUnbind (m : Fin 2109)
  /-- FN_LOCK (R421): The FN_LOCK command sets or clears PROV_LOCK, refusing to unlock a locked TDI. -/
  | fnLock (m : Fin 2109)
  /-- VF_TOTAL (R421): The VF_TOTAL command writes FN_VF_TOTAL and the Evoset record. -/
  | vfTotal (m : Fin 2109)
  /-- CTX_BIND (R422): The CTX_BIND command binds a context under R315. -/
  | ctxBind (m : Fin 2109)
  /-- CTX_UNBIND (R422): The CTX_UNBIND command unbinds a context under R315. -/
  | ctxUnbind (m : Fin 2109)
  /-- CTX_SETUP (R422): The CTX_SETUP command resets and configures a context's rings and optionally enables them. -/
  | ctxSetup (m : Fin 2109)
  /-- CTX_QUERY (R422): The CTX_QUERY command returns a context's status record and ring status. -/
  | ctxQuery (m : Fin 2109)
  /-- RING_RESUME (R422): The RING_RESUME command resumes a HALTED SQ. -/
  | ringResume (m : Fin 2109)
  /-- RING_RESET (R422): The RING_RESET command resets a context's rings when no descriptor is running. -/
  | ringReset (m : Fin 2109)
  /-- WIN_WRITE (R423): The WIN_WRITE command writes a window entry through the update unit. -/
  | winWrite (m : Fin 2109)
  /-- WIN_READ (R423): The WIN_READ command returns a window entry as held in the table. -/
  | winRead (m : Fin 2109)
  /-- WIN_INVAL (R423): The WIN_INVAL command runs an invalidation through the update unit. -/
  | winInval (m : Fin 2109)
  /-- EPOCH_SYNC (R423): The EPOCH_SYNC command advances an epoch and reads its drain register once. -/
  | epochSync (m : Fin 2109) (late : Bool)
  /-- GRD_WRITE (R423): The GRD_WRITE command writes a guard region through the guard update unit. -/
  | grdWrite (m : Fin 2109)
  /-- GRD_READ (R423): The GRD_READ command returns a region word. -/
  | grdRead (m : Fin 2109)
  /-- IRQ_SET (R424): The IRQ_SET command writes a source's priority, route and enable. -/
  | irqSet (m : Fin 2109)
  /-- IRQ_GET (R424): The IRQ_GET command returns a source's route, priority, enable and status. -/
  | irqGet (m : Fin 2109)
  /-- IRQ_LT_SET (R424): The IRQ_LT_SET command writes a local target. -/
  | irqLtSet (m : Fin 2109)
  /-- DMA_GRANT (R425): The DMA_GRANT command makes a channel DIRECT and grants it to a PF slot. -/
  | dmaGrant (m : Fin 2109)
  /-- DMA_REVOKE (R425): The DMA_REVOKE command aborts and clears a granted channel and returns it to POOL. -/
  | dmaRevoke (m : Fin 2109)
  /-- DMA_ABORT (R425): The DMA_ABORT command soft-aborts a channel and returns its status and residue. -/
  | dmaAbort (m : Fin 2109)
  /-- SHARE_SET (R426): The SHARE_SET command runs a share update under R331. -/
  | shareSet (m : Fin 2109)
  /-- SHARE_GET (R426): The SHARE_GET command returns an account's committed share and mask. -/
  | shareGet (m : Fin 2109)
  /-- RES_QUERY (R426): The RES_QUERY command returns a resource's status, sums and measurement. -/
  | resQuery (m : Fin 2109)
  /-- PAIR_STATUS (R427): The PAIR_STATUS command returns the SEM_ status and identity registers. -/
  | pairStatus (m : Fin 2109)
  /-- PAIR_HANDOVER (R427): The PAIR_HANDOVER command starts a handover and ends at HO_DONE or HO_FAIL. -/
  | pairHandover (m : Fin 2109)
  /-- PAIR_LEAVE (R427): The PAIR_LEAVE command writes SEM_CTL.LEAVE. -/
  | pairLeave (m : Fin 2109)
  /-- PAIR_SNAP (R427): The PAIR_SNAP command writes SEM_CTL.SNAP at a DETACHED follower. -/
  | pairSnap (m : Fin 2109)
  /-- PAIR_TAKE (R427): The PAIR_TAKE command promotes a withheld follower through the takeover when the leader's
  PAIR_ALIVE is silent. -/
  | pairTake (m : Fin 2109)
  /-- FW_STAGE_BEGIN (R429): The FW_STAGE_BEGIN command opens a staging into the image slot that is not running. -/
  | fwStageBegin (m : Fin 2109)
  /-- FW_STAGE_DATA (R429): The FW_STAGE_DATA command appends image bytes at the expected offset. -/
  | fwStageData (m : Fin 2109)
  /-- FW_STAGE_COMMIT (R429): The FW_STAGE_COMMIT command verifies the image, writes it to flash and sets it as TRY.
  -/
  | fwStageCommit (m : Fin 2109) (good : Bool) (ver : BitVec 32)
  /-- FW_STAGE_ABORT (R429): The FW_STAGE_ABORT command discards the open staging. -/
  | fwStageAbort (m : Fin 2109)
  /-- MODULE_RESET (R429): The MODULE_RESET command ends OK and arms a module reset DELAY ms later. -/
  | moduleReset (m : Fin 2109)
  /-- MODULE_RESET_DELAY_EXPIRE (R429): The armed delay of MODULE_RESET or RST_CTL expires and the module resets. -/
  | moduleResetDelayExpire
  /-- EVOSET_WRITE (R429): The EVOSET_WRITE command edits the new record buffer and on COMMIT writes the other copy.
  -/
  | evosetWrite (m : Fin 2109)
  /-- STANDBY (R430): The STANDBY command ends OK and then starts STANDBY entry. -/
  | standby (m : Fin 2109)
  /-- DOMAIN_POWER (R430): The DOMAIN_POWER command powers a permitted domain on or off. -/
  | domainPower (m : Fin 2109)
  /-- PORT_ENABLE (R430): The PORT_ENABLE command writes ULK_CTL.EN and LANE_LINK_CTL.ENABLE of the masked ports. -/
  | portEnable (m : Fin 2109)
  /-- LOG_READ (R430): The LOG_READ command returns fault log entries from the working copy. -/
  | logRead (m : Fin 2109)
  /-- LOG_CLEAR (R430): The LOG_CLEAR command removes entries below UPTO from all three levels. -/
  | logClear (m : Fin 2109)
  /-- WAKE_SRC (R430): The WAKE_SRC command returns the last wake source record. -/
  | wakeSrc (m : Fin 2109)
  /-- TIME_GET (R430): The TIME_GET command returns device time, POST_TIME and TIME_APPROX. -/
  | timeGet (m : Fin 2109)
  /-- TIME_SYNC (R430): The TIME_SYNC command steps device time by HOST_NS less POST_TIME and clears TIME_APPROX. -/
  | timeSync (m : Fin 2109)
  /-- NONCE_GET (R431): The NONCE_GET command returns a fresh nonce, invalidating the previous one. -/
  | nonceGet (m : Fin 2109)
  /-- LIFECYCLE_ADVANCE (R432): The LIFECYCLE_ADVANCE command checks the authorisation and records a forward lifecycle
  move for the next module reset. -/
  | lifecycleAdvance (m : Fin 2109) (sigOk : Bool)
  /-- DEBUG_UNLOCK (R432): The DEBUG_UNLOCK command checks the authorisation and sets DBG_STS.OPEN in PRODUCTION. -/
  | debugUnlock (m : Fin 2109) (sigOk : Bool)
  /-- MCTP_MESSAGE_RX (R434): A reassembled type 0x7E message is copied into mailbox 0 and posted, held, or answered
  BUSY. -/
  | mctpMessageRx (h : MctpHdr) (opcode abi : BitVec 16) (tag : BitVec 32) (payload : List Byte)
  /-- SET_ENDPOINT_ID (R433): The MCTP Set Endpoint ID command sets MGT_EID. -/
  | setEndpointId (h : MctpHdr) (eid owner : BitVec 8)
  /-- GET_ENDPOINT_ID (R433): The MCTP Get Endpoint ID command returns the endpoint ID. -/
  | getEndpointId (h : MctpHdr)
  /-- GET_ENDPOINT_UUID (R433): The MCTP Get Endpoint UUID command returns the UUID. -/
  | getEndpointUuid (h : MctpHdr)
  /-- GET_MCTP_VERSION_SUPPORT (R433): The MCTP Get MCTP Version Support command is answered. -/
  | getMctpVersionSupport (h : MctpHdr) (typ : BitVec 8)
  /-- GET_MESSAGE_TYPE_SUPPORT (R433): The MCTP Get Message Type Support command returns types 0x00, 0x01 and 0x7E. -/
  | getMessageTypeSupport (h : MctpHdr)
  /-- GET_VENDOR_DEFINED_MESSAGE_SUPPORT (R433): The MCTP Get Vendor Defined Message Support command is answered. -/
  | getVendorDefinedMessageSupport (h : MctpHdr)
  /-- GET_TID (R435): The PLDM GetTID command returns the terminus ID. -/
  | getTid (h : MctpHdr)
  /-- SET_TID (R435): The PLDM SetTID command sets the terminus ID. -/
  | setTid (h : MctpHdr) (tid : BitVec 8)
  /-- GET_PLDM_VERSION (R435): The PLDM GetPLDMVersion command is answered. -/
  | getPldmVersion (h : MctpHdr) (typ : BitVec 8)
  /-- GET_PLDM_TYPES (R435): The PLDM GetPLDMTypes command returns types 0 and 2. -/
  | getPldmTypes (h : MctpHdr)
  /-- GET_PLDM_COMMANDS (R435): The PLDM GetPLDMCommands command lists the supported commands. -/
  | getPldmCommands (h : MctpHdr) (typ : BitVec 8)
  /-- GET_SENSOR_READING (R435): The PLDM GetSensorReading command returns a numeric sensor. -/
  | getSensorReading (h : MctpHdr) (sensor : BitVec 16)
  /-- GET_STATE_SENSOR_READINGS (R435): The PLDM GetStateSensorReadings command returns mode, role or health. -/
  | getStateSensorReadings (h : MctpHdr) (sensor : BitVec 16)
  /-- SET_NUMERIC_SENSOR_ENABLE (R435): The PLDM SetNumericSensorEnable command enables or disables a numeric sensor.
  -/
  | setNumericSensorEnable (h : MctpHdr) (sensor : BitVec 16) (on : Bool)
  /-- GET_PDR_REPOSITORY_INFO (R435): The PLDM GetPDRRepositoryInfo command is answered. -/
  | getPdrRepositoryInfo (h : MctpHdr)
  /-- GET_PDR (R435): The PLDM GetPDR command returns a platform descriptor record. -/
  | getPdr (h : MctpHdr) (handle : BitVec 32)
  /-- SET_EVENT_RECEIVER (R435): The PLDM SetEventReceiver command sets the receiver of platform events. -/
  | setEventReceiver (h : MctpHdr) (eid : BitVec 8)
  /-- PLDM_SENSOR_REFRESH (R435): Every PERIOD ms the readings are refreshed and PlatformEventMessage is sent on
  crossings and changes. -/
  | pldmSensorRefresh (r1 r2 r3 r4 r5 r6 : BitVec 16)
  /-- PATROL_SCRUB (R452): The scrubber reads the next granule, resolving errors under R450 and skipping held
  granules. -/
  | patrolScrub (store : Bool) (gran : Fin 524288) (held : Bool) (err : MemErr)
  /-- CE_RATE_WINDOW (R452): Each second, correctable errors reaching CE_THR raise CE_STORM. -/
  | ceRateWindow
  /-- DRS_ZERO_GO (R448): A write of DRS_ZERO_CTL.GO starts zeroing the range, or is refused with ZERO_REFUSED. -/
  | drsZeroGo
  /-- DRS_ZERO_ABORT (R448): A write of DRS_ZERO_CTL.ABORT stops the zero engine at a granule boundary. -/
  | drsZeroAbort
  /-- ZERO_COMPLETE (R448): The zero engine reaches the end of its range and raises ZERO_DONE. -/
  | zeroComplete
  /-- MEM_CNT_SNAP (R444): A write of MEM_CNT_CTL.SNAP copies and clears every live counter in one cycle and records
  the time. -/
  | memCntSnap
  /-- PWR_DOM_REQ (R462): A PWR_DOM_REQ GO starts a drain, forced abort or power-up, or is refused, dropped or failed
  on dependency. -/
  | pwrDomReq (core : Option Core) (dom : Fin 32) (op : Fin 4) (force : Bool)
  /-- DOMAIN_DRAINED (R462): The domain's drained condition holds within 1 ms, or a forced abort settles; the clamps
  close and the rail goes off or to retention. -/
  | domainDrained (d : Fin 20)
  /-- DOMAIN_DRAIN_TIMEOUT (R462): 1 ms passes without draining; the request ends BUSY and the units resume. -/
  | domainDrainTimeout (d : Fin 20)
  /-- DOMAIN_POWERED (R462): A powering domain's rail is stable and its state reset or restored; the clamps open. -/
  | domainPowered (d : Fin 20)
  /-- CORE_WAIT (R463): A core executes the wait instruction and opens its entry window under its PWR_CORE_CTL.MODE.
  -/
  | coreWait (c : Core)
  /-- CORE_ENTRY_WINDOW_END (R464): Eight power-controller cycles after the wait, the core clock is gated and an edge
  latched with REPLAY is replayed. -/
  | coreEntryWindowEnd (c : Core)
  /-- CORE_WAKE (R465): A wake input powers and starts a resting core on the fast oscillator and writes the wake
  record. -/
  | coreWake (c : Core) (debug : Bool)
  /-- PWR_CORE_WAKE_WRITE (R464): A write of PWR_CORE_CTL.WAKE gives the core an edge wake input. -/
  | pwrCoreWakeWrite (core : Option Core) (c : Core)
  /-- CLK_CORE_SEL_WRITE (R465): A write of CLK_CORE_SEL.SEL switches the core's clock glitch-free within tCSW. -/
  | clkCoreSelWrite (by_ c : Core) (pll : Bool)
  /-- WAKE_TIMER_FIRE (R467): TIM_AON.COUNT reaching AT while ARMED wakes the target once and clears ARMED. -/
  | wakeTimerFire
  /-- WDOG_KICK (R468): A write of 0xA5A5 to PWR_WDOG_KICK restarts the firmware watchdog count. -/
  | wdogKick (core : Option Core) (key : BitVec 16)
  /-- WDOG_WARN (R468): Half of PERIOD passes without a kick and PWR_EVT.WDOG_WARN is set. -/
  | wdogWarn
  /-- WDOG_EXPIRE (R468): All of PERIOD passes without a kick; a log entry is made and the module resets. -/
  | wdogExpire
  /-- PLL_LOSS_OF_LOCK (R469): Loss of the fabric, cluster or time base PLL or of the reference oscillator logs a
  fault and resets the module. -/
  | pllLossOfLock (which : Fin 4)
  /-- LANE_PLL_UNLOCK (R469): Loss of the host or a local or Seam lane PLL fails the affected links and sets CLK_EVT.
  -/
  | lanePllUnlock (d : Fin 20)
  /-- RST_CTL_KEY (R479): A write of 0x5A to RST_CTL.KEY arms a module reset after DELAY with cause 3. -/
  | rstCtlKey (core : Core) (delay : Fin 1024)
  /-- TIM_STEP_WRITE (R474): A write of TIM_STEP moves device time by DELTA in one cycle, setting STEPPED_BACK if
  negative. -/
  | timStepWrite (core : Core) (delta : BitVec 64)
  /-- PTM_DIALOG (R475): Every PERIOD ms a PTM dialog runs; on success device time is stepped or slewed and
  TIME_APPROX cleared. -/
  | ptmDialog (good : Bool) (ofs : BitVec 64)
  /-- DATAPATH_ERROR (R486): An unattributable parity or check failure in the datapath, or a lasting SRAM firmware
  error, enters CONTAIN. -/
  | datapathError (sram : Bool)
  /-- HST_CONT_ENTER (R486): A write of HST_CONT_REL.ENTER enters CONTAIN with cause 4. -/
  | hstContEnter (core : Option Core)
  /-- CONTAIN_RELEASE (R488): A write of HST_CONT_REL with KEY 0xC3 releases containment in order, or is refused with
  REL_RESULT. -/
  | containRelease (core : Option Core) (key : BitVec 8) (ledgerFail dmaAbort : Bool)
  /-- FN_CONT_REQUEST (R497): A write of FN_CONT.REQUEST contains the function with cause 3. -/
  | fnContRequest (core : Option Core) (f : Fn)
  /-- FN_CONT_RELEASE (R490): A write of FN_CONT.RELEASE returns a contained function to ACTIVE, or is refused while
  draining or in TDI ERROR. -/
  | fnContRelease (core : Option Core) (f : Fn)
  /-- FAULT_LOG_COPY (R485): Firmware copies new ring entries to the working copy within 1 ms. -/
  | faultLogCopy
  /-- FAULT_LOG_FLUSH (R485): Every 10 s, at once for classes 3, 5 and 6, and at STANDBY entry, new entries go to
  flash retention. -/
  | faultLogFlush
  /-- RAW_STATUS (R493): The raw-mode STATUS block read returns 16 bytes of module status. -/
  | rawStatus (pec : Bool)
  /-- RAW_WAKE_LAST (R493): The raw-mode WAKE_LAST block read returns PWR_WAKE_LAST. -/
  | rawWakeLast (pec : Bool)
  /-- RAW_LOG_SEEK (R493): The raw-mode LOG_SEEK block write selects the ring entry to read next. -/
  | rawLogSeek (pec : Bool) (num : BitVec 32)
  /-- RAW_LOG_READ (R493): The raw-mode LOG_READ block read returns the selected entry and advances the selection. -/
  | rawLogRead (pec : Bool)
  /-- RAW_WAKE (R493): The raw-mode WAKE block write wakes the module from STANDBY when enabled. -/
  | rawWake (pec : Bool) (data : List Byte)
  /-- RAW_RESET (R493): The raw-mode RESET block write causes a module reset with cause 4. -/
  | rawReset (pec : Bool) (data : List Byte)
  /-- RAW_CONTAIN (R493): The raw-mode CONTAIN block write enters CONTAIN with cause 4 in LEAD or FOLLOW. -/
  | rawContain (pec : Bool) (data : List Byte)
  /-- REGISTER_WRITE (R11): A write to a register that has no row of its own takes effect by field type. -/
  | registerWrite (core : Option Core) (dw : Fin 5767168) (wide : Bool) (v : BitVec 64)
  /-- PAIR_ALIVE_EDGE (R390): An edge on PAIR_ALIVE_IN from the twin sets SEM_STS.TWIN_ALIVE and restarts the
  ALIVE_WIN window. -/
  | pairAliveEdge
  /-- PAIR_ROLE_CHANGE (R390): The twin's PAIR_ROLE line changes level and SEM_STS.TWIN_LEADS follows it, which the
  containment release consults. -/
  | pairRoleChange (high : Bool)
  /-- LINK_DISABLE_EXIT (R64): The link leaves Disabled, all functions are reset as for a hot reset, and the link
  retrains within tHRT. -/
  | linkDisableExit
  /-- RECOVERY_ENTRY (R74): The partner takes the link from L0 into Recovery, for a retrain or rate change, raising
  HST_EVT.RECOVERY and counting in HST_RECOV_CNT. -/
  | recoveryEntry
  /-- L1_SUBSTATE_ENTRY (R56): With L1 entered and CLKREQ# released by both sides, the link enters L1.1, or L1.2 when
  the LTR threshold is met. -/
  | l1SubstateEntry (ltrMet : Bool)
  /-- POSTED_CREDIT_GRANT (R181): The host returns posted credit on the link, letting waiting host-bound writes leave
  J1 and their local initiators receive OK. -/
  | postedCreditGrant (n : Nat)
  /-- GRD_EPOCH_ADVANCE_APPLY (R353): A deferred GRD_EPOCH ADVANCE takes effect once the oldest live guard epoch has
  retired. -/
  | grdEpochAdvanceApply
  /-- DOE_DISCOVERY (R359): A DOE Discovery data object is answered with the supported protocols. -/
  | doeDiscovery (index : Nat)
  /-- THERMAL_LIMIT_CLEARED (R514): A sensor falls 5 °C below a limit it had crossed, clearing that limit and
  releasing PWR_ALERT_N once no condition remains. -/
  | thermalLimitCleared (i : Fin 3) (warning : Bool)
  /-- INPUT_POWER_WARNING (R503): The 100 ms mean input power reaches 140 W, or falls back below it, asserting or
  releasing PWR_ALERT_N within 1 ms. -/
  | inputPowerWarning (high : Bool)
  /-- VIN_OUT_OF_RANGE (R503): VIN leaves, or returns to, 9.0 to 60.0 V while the module is not OFF, asserting or
  releasing PWR_ALERT_N. -/
  | vinOutOfRange (outside : Bool)
  /-- REFCLK_RETURN (R54): REFCLK returns to within ±300 ppm of 100 MHz for 100 µs and HST_CLK_CFG.REFCLK_OK reads 1.
  -/
  | refclkReturn
  /-- SLEW_COMPLETE (R475): A PTM slew has removed its offset; SLEWING clears and TIM_ADJ returns to 0. -/
  | slewComplete
  deriving DecidableEq, Repr

end Sys2Proof
end

