-- ==== Sys2Proof/Decode.lean ====
section
/-!
DEFINITION. Decoding of command words. The opcode table of this block gives no row any bits: a command is an event with its
operands, not a word, so no word spells one.
-/
namespace Sys2Proof

/-- The command that the low `nbits` bits of `w` spell by the opcode table: none, since no row of the table gives bits. -/
def decodeTableWord (_nbits _w : Nat) : Option Instr := none

end Sys2Proof
end

