-- ==== Sys2Proof/Config.lean ====
section
/-!
DEFINITION. What one implementation fixes, and the free values: constants without a body, so that no proof can see what
they are (the assumption log names each).
-/
namespace Sys2Proof.Config

/-- The serial number of the module (R85, R95), which the specification does not give. -/
opaque serial : Nat
/-- Replays of the Seam link without progress before it goes down (R216, R394), which the specification does not give. -/
opaque seamReplayMax : Nat
/-- A free value of 64 bits for the `n`-th draw (assumption 6): the specification states no value there. -/
opaque freeWord : Nat → BitVec 64
/-- What the MCTP and PLDM discovery commands answer and the specification does not give (R433, R435): the endpoint's UUID,
the versions of each MCTP message type and of each PLDM type, the vendor-defined command set version, and the sizes that
GetPDRRepositoryInfo reports. -/
opaque uuid : BitVec 128
opaque mctpVersion : Nat → BitVec 32
opaque pldmVersion : Nat → BitVec 32
opaque vendorVersion : BitVec 16
opaque pdrSizes : BitVec 64

end Sys2Proof.Config
end

