-- ==== Sys2Proof/Registers.lean ====
section
/-!
DEFINITION. The registers of the 22 register blocks (R33) and their fields, by the names the specification gives them
(R8), with the access types of R11. The numbers of a field (position, width, type, reset) stand in
Machine/RegTable.lean.
-/
namespace Sys2Proof

/-- The register blocks of R33, in the order of their base addresses. -/
inductive Block where
  | IRQ
  | HST
  | FN
  | XLT
  | GRD
  | LDG
  | BSK
  | DMA
  | SHR
  | ULK
  | SEM
  | LANE
  | MEM
  | DRS
  | MBX
  | PWR
  | CLK
  | TIM
  | RST
  | SEC
  | DBG
  | MGT
  deriving DecidableEq, Repr

/-- The access types of R11. -/
inductive Access where
  | RW | RO | WO | W1C | W1S | RC | RWP
  deriving DecidableEq, Repr

/-- Every register of the 22 blocks. A register with instances is one name here, its instance an index beside it. -/
inductive Reg where
  | IRQ_CFG
  | IRQ_STS
  | IRQ_FALLBACK
  | IRQ_DB_DENY
  | IRQ_ERR_CNT
  | IRQ_STORM_CFG
  | IRQ_CORE_CLAIM
  | IRQ_CORE_COMPLETE
  | IRQ_CORE_CTL
  | IRQ_CORE_STS
  | IRQ_CORE_STACK
  | IRQ_LT
  | IRQ_INTX_STS
  | IRQ_PEND_SET
  | IRQ_PEND_CLR
  | IRQ_EN_SET
  | IRQ_EN_CLR
  | IRQ_STORM
  | IRQ_DOORBELL
  | IRQ_ROUTE
  | IRQ_SRC_STS
  | HST_LINK_CAP
  | HST_LINK_CTL
  | HST_LINK_STS
  | HST_LANE_FAIL
  | HST_LANE_ERR_THR
  | HST_PM_CTL
  | HST_CLK_CFG
  | HST_EVT
  | HST_EVT_EN
  | HST_RECOV_CNT
  | HST_FLIT_CNT
  | HST_LANE_ERR_CNT
  | HST_CONT_STS
  | HST_CONT_TIME
  | HST_CONT_REL
  | HST_CONT_DROP
  | FN_ID
  | FN_STS
  | FN_CTL
  | FN_RINSE
  | FN_RINSE_DROP
  | FN_RINSE_LATE
  | FN_ADV_CNT
  | FN_VIEW_DENY
  | FN_EVQ_BASE
  | FN_EVQ_CFG
  | FN_EVQ_HEAD
  | FN_EVQ_TAIL
  | FN_RES
  | FN_CONT
  | FN_VF_TOTAL
  | FN_SLICE_ERR
  | FN_SLICE
  | XLT_CFG
  | XLT_TBL_BASE
  | XLT_EPOCH
  | XLT_EPOCH_DRAIN
  | XLT_UPD_DATA
  | XLT_UPD_CMD
  | XLT_UPD_STS
  | XLT_PREF_CFG
  | XLT_PIN_CNT
  | XLT_FAULT_ADDR
  | XLT_FAULT_INFO
  | XLT_HIT_CNT
  | XLT_MISS_CNT
  | XLT_SLOW_CNT
  | XLT_STRADDLE_CNT
  | XLT_SPLIT_CNT
  | XLT_PREF_HIT_CNT
  | XLT_PROT_DROP
  | GRD_STS
  | GRD_EPOCH
  | GRD_EPOCH_DRAIN
  | GRD_UPD_DATA
  | GRD_UPD_CMD
  | GRD_UPD_STS
  | GRD_SHADOW_BASE
  | GRD_FAULT_ADDR
  | GRD_FAULT_INFO
  | GRD_FAULT_CNT
  | GRD_NOTICE_CNT
  | GRD_SET_CFG
  | GRD_REGION
  | LDG_CFG
  | LDG_TMO
  | LDG_OVF_BASE
  | LDG_STS
  | LDG_ERR_CNT
  | LDG_RETRY_CNT
  | LDG_LATE_CNT
  | LDG_NOTICE_MISS
  | LDG_STARCH_CFG
  | LDG_STARCH_STS
  | LDG_SEQ
  | BSK_CFG
  | BSK_STS
  | BSK_CPL_STS
  | BSK_TMO_CNT
  | BSK_UNEXP_CNT
  | BSK_DISCARD_CNT
  | BSK_WAIT_CNT
  | DMA_CFG
  | DMA_STS
  | DMA_ERR_CNT
  | DMA_ABORT_CNT
  | DMA_PREEMPT_CNT
  | DMA_GRANT
  | DMA_CH_OP
  | DMA_CH_COUNT
  | DMA_CH_SRC
  | DMA_CH_DST
  | DMA_CH_STRIDE
  | DMA_CH_PATTERN
  | DMA_CH_CTL
  | DMA_CH_STS
  | DMA_CH_RESIDUE
  | DMA_CH_ERR_OFF
  | DMA_CH_CFG
  | DMA_CH_WB
  | DMA_CH_RUNS
  | DMA_SQ_BASE
  | DMA_SQ_CFG
  | DMA_SQ_STS
  | DMA_CQ_BASE
  | DMA_CQ_CFG
  | DMA_CQ_PTR
  | DMA_RING_CTL
  | SHR_CFG
  | SHR_STS
  | SHR_SPILL_BASE
  | SHR_SPILL_USE
  | SHR_UPD_DATA
  | SHR_UPD_RES
  | SHR_UPD_CMD
  | SHR_UPD_STS
  | SHR_TICK
  | SHR_DB_DROP
  | SHR_RES_STS
  | SHR_RES_SUM
  | SHR_RES_CFG
  | SHR_RES_MEAS
  | SHR_PORT_SHARE
  | SHR_PORT_RES
  | SHR_CTX_BIND
  | SHR_CTX_SHARE
  | SHR_CTX_RES
  | SHR_CTX_STS0
  | SHR_CTX_STS1
  | SHR_CTX_STS2
  | SHR_CTX_STS3
  | ULK_CTL
  | ULK_STS
  | ULK_EVT
  | ULK_EVT_EN
  | ULK_FAR
  | ULK_CREDIT
  | ULK_RETRY_CFG
  | ULK_PM_CFG
  | ULK_SB_CFG
  | ULK_SB_LATCH
  | ULK_SB_IN
  | ULK_SB_OUT
  | ULK_SB_EVT
  | ULK_REPLAY_CNT
  | ULK_PROTO_ERR
  | ULK_SB_SKIP
  | ULK_REQ_CNT
  | SEM_CTL
  | SEM_STS
  | SEM_EVT
  | SEM_EVT_EN
  | SEM_HB_CFG
  | SEM_HO_CFG
  | SEM_TWIN
  | SEM_TWIN_FW
  | SEM_PAIR_ID
  | SEM_MSEQ
  | SEM_LAG
  | SEM_HB_CNT
  | SEM_TAKE
  | SEM_FOLLOW_DROP
  | LANE_STS
  | LANE_CTL
  | LANE_TXEQ
  | LANE_ERR_CNT
  | LANE_DARN_CNT
  | LANE_FAR
  | LANE_LINK_CTL
  | LANE_LINK_STS
  | LANE_LINK_EVT
  | LANE_LINK_EVT_EN
  | LANE_SKEW
  | LANE_LINK_REMAP
  | MEM_CFG
  | MEM_EVT
  | MEM_EVT_EN
  | MEM_ERR_ADDR
  | MEM_ERR_CNT
  | MEM_TRANS_CNT
  | MEM_PROT_DROP
  | MEM_CNT_CTL
  | MEM_SNAP_TIME
  | MEM_MST_ACC
  | MEM_MST_WAIT
  | MEM_BANK_BUSY
  | DRS_CFG
  | DRS_STS
  | DRS_EVT
  | DRS_EVT_EN
  | DRS_ERR_ADDR
  | DRS_ERR_CNT
  | DRS_TRANS_CNT
  | DRS_PROT_DROP
  | DRS_SYS_BASE
  | DRS_ZERO_BASE
  | DRS_ZERO_LEN
  | DRS_ZERO_CTL
  | DRS_ZERO_POS
  | DRS_SCRUB_POS
  | DRS_PKG_STS
  | MBX_CFG
  | MBX_STS
  | MBX_CLAIM
  | MBX_DONE
  | MBX_ACT_ERR
  | MBX_WR_DROP
  | MBX_POST_CNT
  | MBX_MB
  | PWR_CTL
  | PWR_STS
  | PWR_EVT
  | PWR_EVT_EN
  | PWR_DOM_STS
  | PWR_DOM_REQ
  | PWR_DOM_RESULT
  | PWR_WAKE_EN
  | PWR_WAKE_LAST
  | PWR_WAKE_TIMER
  | PWR_WDOG_CFG
  | PWR_WDOG_KICK
  | PWR_OFF_ACCESS_CNT
  | PWR_CORE_CTL
  | CLK_STS
  | CLK_EVT
  | CLK_EVT_EN
  | CLK_CORE_SEL
  | TIM_NOW
  | TIM_STEP
  | TIM_ADJ
  | TIM_STS
  | TIM_AON
  | TIM_RATIO
  | TIM_SAVE
  | TIM_SAVE_AON
  | TIM_PTM_CFG
  | TIM_PTM_OFS
  | RST_CAUSE
  | RST_CTL
  | SEC_LIFECYCLE
  | SEC_STS
  | SEC_IDE_STS
  | SEC_TDI
  | DBG_CTL
  | DBG_STS
  | DBG_FAULT_ADDR
  | MGT_CFG
  | MGT_EID
  | MGT_STS
  | MGT_PLDM_CFG
  | MGT_ERR_CNT
  | MGT_LOG_STS
  | MGT_LOG_NEXT
  | MGT_RING0
  | MGT_RING1
  | MGT_RING2
  | MGT_RING3
  deriving DecidableEq, Repr

/-- Every field of every register: REGISTER_FIELD for the specification's REGISTER.FIELD. -/
inductive Fld where
  | IRQ_CFG_EN
  | IRQ_STS_STRANDED
  | IRQ_STS_STRANDED_SEEN
  | IRQ_STS_STORM_ACTIVE
  | IRQ_STS_STORM_NEW
  | IRQ_STS_DELIVERY_ERR
  | IRQ_STS_LAST_SRC
  | IRQ_FALLBACK_KIND
  | IRQ_FALLBACK_FUNC
  | IRQ_FALLBACK_INDEX
  | IRQ_DB_DENY_CNT
  | IRQ_DB_DENY_CLASS
  | IRQ_DB_DENY_LAST_SRC
  | IRQ_DB_DENY_LAST_PORT
  | IRQ_ERR_CNT_DELIVERY
  | IRQ_ERR_CNT_SPURIOUS
  | IRQ_STORM_CFG_THRESH
  | IRQ_STORM_CFG_WINDOW
  | IRQ_STORM_CFG_RELEASE
  | IRQ_CORE_CLAIM_SRC
  | IRQ_CORE_CLAIM_PRIO
  | IRQ_CORE_CLAIM_NONE
  | IRQ_CORE_COMPLETE_SRC
  | IRQ_CORE_CTL_THR
  | IRQ_CORE_CTL_WAKE_EN
  | IRQ_CORE_STS_RUN_PRIO
  | IRQ_CORE_STS_DEPTH
  | IRQ_CORE_STS_PRESENT
  | IRQ_CORE_STS_BAD_CPL
  | IRQ_CORE_STS_ASLEEP
  | IRQ_CORE_STS_TOP_SRC
  | IRQ_CORE_STACK_STACK
  | IRQ_LT_VALID
  | IRQ_LT_PORT
  | IRQ_LT_ADDR
  | IRQ_INTX_STS_WIRE
  | IRQ_INTX_STS_HELD
  | IRQ_PEND_SET_MASK
  | IRQ_PEND_CLR_MASK
  | IRQ_EN_SET_MASK
  | IRQ_EN_CLR_MASK
  | IRQ_STORM_FLAG
  | IRQ_DOORBELL_VALUE
  | IRQ_ROUTE_KIND
  | IRQ_ROUTE_FUNC
  | IRQ_ROUTE_INDEX
  | IRQ_ROUTE_LEVEL
  | IRQ_ROUTE_STORM_EN
  | IRQ_ROUTE_DB_HOST
  | IRQ_ROUTE_DB_CORE
  | IRQ_ROUTE_DB_DMA
  | IRQ_ROUTE_DB_PORT_ANY
  | IRQ_ROUTE_DB_PORT_ONE
  | IRQ_ROUTE_DB_PORT
  | IRQ_SRC_STS_STATE
  | IRQ_SRC_STS_LEVEL_IN
  | IRQ_SRC_STS_STORM
  | IRQ_SRC_STS_WIN_CNT
  | IRQ_SRC_STS_HOLD
  | IRQ_SRC_STS_CORE
  | HST_LINK_CAP_MAX_RATE
  | HST_LINK_CAP_MAX_WIDTH
  | HST_LINK_CAP_FLIT
  | HST_LINK_CAP_L0P
  | HST_LINK_CAP_L1SS
  | HST_LINK_CAP_UPCFG
  | HST_LINK_CAP_SRIS
  | HST_LINK_CAP_MARGIN
  | HST_LINK_CTL_RATE_LIMIT
  | HST_LINK_CTL_WIDTH_LIMIT
  | HST_LINK_CTL_L0P_AUTO
  | HST_LINK_CTL_L1_AUTO
  | HST_LINK_CTL_AUTO_REWIDEN
  | HST_LINK_CTL_LANE_ACT
  | HST_LINK_CTL_RETRAIN
  | HST_LINK_CTL_L0P_MIN
  | HST_LINK_STS_RATE
  | HST_LINK_STS_WIDTH
  | HST_LINK_STS_FLIT
  | HST_LINK_STS_REVERSED
  | HST_LINK_STS_DL_UP
  | HST_LINK_STS_L0P_WIDTH
  | HST_LINK_STS_LTSSM
  | HST_LINK_STS_CONTAINED
  | HST_LANE_FAIL_FAILED
  | HST_LANE_FAIL_EXCLUDE
  | HST_LANE_ERR_THR_THRESHOLD
  | HST_PM_CTL_L1_IDLE
  | HST_PM_CTL_L0P_LOW
  | HST_PM_CTL_L0P_HIGH
  | HST_CLK_CFG_MODE
  | HST_CLK_CFG_ACTIVE
  | HST_CLK_CFG_REFCLK_OK
  | HST_EVT_DL_UP
  | HST_EVT_DL_DOWN
  | HST_EVT_SURPRISE_LOSS
  | HST_EVT_HOT_RESET
  | HST_EVT_PERST_ASSERT
  | HST_EVT_PERST_DEASSERT
  | HST_EVT_RATE_CHG
  | HST_EVT_WIDTH_CHG
  | HST_EVT_L0P_CHG
  | HST_EVT_LANE_FAIL
  | HST_EVT_RECOVERY
  | HST_EVT_LINK_DISABLE
  | HST_EVT_L2_ENTRY
  | HST_EVT_EN_MASK
  | HST_RECOV_CNT_RECOVERY
  | HST_RECOV_CNT_DOWNCFG
  | HST_FLIT_CNT_REPLAY
  | HST_LANE_ERR_CNT_CORR
  | HST_CONT_STS_CONTAINED
  | HST_CONT_STS_CAUSE
  | HST_CONT_STS_MORE
  | HST_CONT_STS_FN_CONT_SEEN
  | HST_CONT_STS_REL_RESULT
  | HST_CONT_TIME_TIME
  | HST_CONT_REL_KEY
  | HST_CONT_REL_LEDGER_FAIL
  | HST_CONT_REL_DMA_ABORT
  | HST_CONT_REL_ENTER
  | HST_CONT_DROP_DROPS
  | FN_ID_RID
  | FN_ID_KIND
  | FN_ID_PARENT
  | FN_ID_VF_INDEX
  | FN_STS_STATE
  | FN_STS_BME
  | FN_STS_MSE
  | FN_STS_MASTER_OFF
  | FN_STS_EVQ_OVF
  | FN_STS_ABANDONED
  | FN_STS_RES_DROP
  | FN_CTL_EVT_VEC
  | FN_CTL_EVT_EN
  | FN_CTL_ADVISORY_EN
  | FN_CTL_PROV_LOCK
  | FN_RINSE_LEFT
  | FN_RINSE_CAUSE
  | FN_RINSE_DEADLINE
  | FN_RINSE_DROP_DROP
  | FN_RINSE_LATE_LATE
  | FN_ADV_CNT_DISCARD
  | FN_ADV_CNT_UNEXP
  | FN_VIEW_DENY_CNT
  | FN_VIEW_DENY_LAST_OFF
  | FN_EVQ_BASE_BASE
  | FN_EVQ_CFG_LOG2N
  | FN_EVQ_CFG_EN
  | FN_EVQ_HEAD_HEAD
  | FN_EVQ_TAIL_TAIL
  | FN_RES_FIRST_CTX
  | FN_RES_CTX_COUNT
  | FN_CONT_CAUSE
  | FN_CONT_REQUEST
  | FN_CONT_RELEASE
  | FN_CONT_REL_RESULT
  | FN_CONT_DROPS
  | FN_VF_TOTAL_PF1
  | FN_VF_TOTAL_PF2
  | FN_VF_TOTAL_PF3_HI
  | FN_VF_TOTAL_PF3_LO
  | FN_SLICE_ERR_DUP
  | FN_SLICE_ERR_LAST
  | FN_SLICE_VALID
  | FN_SLICE_PRIV_OK
  | FN_SLICE_EXEC_OK
  | FN_SLICE_ACTIVE
  | FN_SLICE_FUNC
  | FN_SLICE_PASID
  | XLT_CFG_CACHE_EN
  | XLT_CFG_PREF_EN
  | XLT_CFG_STRADDLE_FAULT
  | XLT_TBL_BASE_BASE
  | XLT_EPOCH_CURRENT
  | XLT_EPOCH_ADVANCE
  | XLT_EPOCH_LIVE
  | XLT_EPOCH_DRAIN_OLDEST
  | XLT_EPOCH_DRAIN_DRAINED
  | XLT_UPD_DATA_WORD
  | XLT_UPD_CMD_INDEX
  | XLT_UPD_CMD_OP
  | XLT_UPD_CMD_GO
  | XLT_UPD_STS_BUSY
  | XLT_UPD_STS_RESULT
  | XLT_UPD_STS_DROPPED
  | XLT_UPD_STS_UNMIRRORED
  | XLT_UPD_STS_BASE_REFUSED
  | XLT_UPD_STS_LAST_INDEX
  | XLT_PREF_CFG_LIFE
  | XLT_PIN_CNT_PINNED
  | XLT_FAULT_ADDR_ADDR
  | XLT_FAULT_INFO_CAUSE
  | XLT_FAULT_INFO_CLASS
  | XLT_FAULT_INFO_REQ
  | XLT_FAULT_INFO_WRITE
  | XLT_FAULT_INFO_VALID
  | XLT_HIT_CNT_HIT
  | XLT_MISS_CNT_MISS
  | XLT_SLOW_CNT_SLOW
  | XLT_STRADDLE_CNT_STRADDLE
  | XLT_SPLIT_CNT_SPLIT
  | XLT_PREF_HIT_CNT_PREF_HIT
  | XLT_PROT_DROP_PROT_DROP
  | GRD_STS_NOTICE
  | GRD_STS_SHADOW_ERR
  | GRD_EPOCH_CURRENT
  | GRD_EPOCH_ADVANCE
  | GRD_EPOCH_LIVE
  | GRD_EPOCH_DRAIN_OLDEST
  | GRD_EPOCH_DRAIN_DRAINED
  | GRD_UPD_DATA_WORD
  | GRD_UPD_CMD_REGION
  | GRD_UPD_CMD_SET
  | GRD_UPD_CMD_GO
  | GRD_UPD_STS_BUSY
  | GRD_UPD_STS_RESULT
  | GRD_UPD_STS_DROPPED
  | GRD_UPD_STS_UNMIRRORED
  | GRD_UPD_STS_LAST_REGION
  | GRD_UPD_STS_LAST_SET
  | GRD_SHADOW_BASE_BASE
  | GRD_FAULT_ADDR_ADDR
  | GRD_FAULT_INFO_CAUSE
  | GRD_FAULT_INFO_CLASS
  | GRD_FAULT_INFO_REQ
  | GRD_FAULT_INFO_WRITE
  | GRD_FAULT_INFO_EXEC
  | GRD_FAULT_INFO_PRIV
  | GRD_FAULT_INFO_SET
  | GRD_FAULT_INFO_REGION
  | GRD_FAULT_INFO_REGION_HIT
  | GRD_FAULT_INFO_VALID
  | GRD_FAULT_CNT_FAULTS
  | GRD_NOTICE_CNT_NOTICES
  | GRD_SET_CFG_DEF_EN
  | GRD_SET_CFG_SPAN_FAULT
  | GRD_SET_CFG_HOST_PR
  | GRD_SET_CFG_HOST_PW
  | GRD_SET_CFG_HOST_UR
  | GRD_SET_CFG_HOST_UW
  | GRD_REGION_WORD
  | LDG_CFG_CPL_ORDER
  | LDG_CFG_PAIR_MAX
  | LDG_CFG_OVF_EN
  | LDG_TMO_WR_TMO
  | LDG_TMO_RD_TMO
  | LDG_OVF_BASE_BASE
  | LDG_STS_OPEN
  | LDG_STS_OVF_IN_USE
  | LDG_STS_FULL_SEEN
  | LDG_STS_OVF_ERR
  | LDG_ERR_CNT_ERR
  | LDG_RETRY_CNT_RETRY
  | LDG_LATE_CNT_LATE
  | LDG_NOTICE_MISS_MISS
  | LDG_STARCH_CFG_HOLD_MAX
  | LDG_STARCH_CFG_HOST_RUN
  | LDG_STARCH_STS_HELD
  | LDG_STARCH_STS_FULL_SEEN
  | LDG_STARCH_STS_FORCED
  | LDG_SEQ_NEXT
  | LDG_SEQ_OLDEST
  | LDG_SEQ_OPEN
  | BSK_CFG_FN_MAX
  | BSK_STS_FREE
  | BSK_STS_QUAR
  | BSK_CPL_STS_FREE_UNITS
  | BSK_CPL_STS_WAITING
  | BSK_TMO_CNT_TMO
  | BSK_UNEXP_CNT_UNEXP
  | BSK_DISCARD_CNT_DISCARD
  | BSK_WAIT_CNT_WAIT
  | DMA_CFG_EN
  | DMA_CFG_DONE_COAL
  | DMA_CFG_HI_RESV
  | DMA_STS_POOL_IDLE
  | DMA_STS_RUNNING
  | DMA_STS_DRAINING
  | DMA_ERR_CNT_ERR
  | DMA_ABORT_CNT_ABORT
  | DMA_PREEMPT_CNT_PREEMPT
  | DMA_GRANT_CHANNEL
  | DMA_GRANT_VALID
  | DMA_GRANT_SLICE_EN
  | DMA_GRANT_SLICE
  | DMA_CH_OP_WORD
  | DMA_CH_COUNT_WORD
  | DMA_CH_SRC_WORD
  | DMA_CH_DST_WORD
  | DMA_CH_STRIDE_WORD
  | DMA_CH_PATTERN_WORD
  | DMA_CH_CTL_START
  | DMA_CH_CTL_ABORT
  | DMA_CH_CTL_RESUME
  | DMA_CH_CTL_CLEAR
  | DMA_CH_STS_STATE
  | DMA_CH_STS_STATUS
  | DMA_CH_STS_FLAGS
  | DMA_CH_STS_START_DROP
  | DMA_CH_STS_REC_HELD
  | DMA_CH_RESIDUE_RESIDUE
  | DMA_CH_ERR_OFF_OFFSET
  | DMA_CH_CFG_MODE
  | DMA_CH_CFG_SLICE_EN
  | DMA_CH_CFG_OWNER
  | DMA_CH_CFG_SLICE
  | DMA_CH_CFG_IRQ_EN
  | DMA_CH_CFG_WB_EN
  | DMA_CH_CFG_WB_SPACE
  | DMA_CH_CFG_IRQ_SRC
  | DMA_CH_WB_ADDR
  | DMA_CH_RUNS_RUNS
  | DMA_SQ_BASE_BASE
  | DMA_SQ_CFG_LOG2N
  | DMA_SQ_CFG_SPACE
  | DMA_SQ_CFG_EN
  | DMA_SQ_CFG_PAR
  | DMA_SQ_STS_HEAD
  | DMA_SQ_STS_PHASE
  | DMA_SQ_STS_STATE
  | DMA_SQ_STS_FETCH_ERR
  | DMA_SQ_STS_DESC_ERR
  | DMA_SQ_STS_RUNNING
  | DMA_CQ_BASE_BASE
  | DMA_CQ_CFG_LOG2N
  | DMA_CQ_CFG_SPACE
  | DMA_CQ_CFG_EN
  | DMA_CQ_PTR_TAIL
  | DMA_CQ_PTR_HEAD
  | DMA_CQ_PTR_PHASE
  | DMA_RING_CTL_RESUME
  | DMA_RING_CTL_RESET
  | SHR_CFG_EN
  | SHR_CFG_C2_RSV
  | SHR_CFG_CARRY
  | SHR_CFG_CLEAN_STEPS
  | SHR_CFG_BE_MIN
  | SHR_CFG_IN_FN_MAX
  | SHR_STS_SPILL_IN_USE
  | SHR_STS_SPILL_FULL
  | SHR_STS_LEVEL_CHG
  | SHR_STS_ADMIT_REFUSED
  | SHR_STS_BIND_DROP
  | SHR_STS_WORST_LEVEL
  | SHR_STS_WORST_RES
  | SHR_SPILL_BASE_BASE
  | SHR_SPILL_USE_USED
  | SHR_UPD_DATA_SHARE
  | SHR_UPD_RES_MASK
  | SHR_UPD_CMD_ACCT
  | SHR_UPD_CMD_GO
  | SHR_UPD_STS_BUSY
  | SHR_UPD_STS_RESULT
  | SHR_UPD_STS_RES
  | SHR_UPD_STS_DROPPED
  | SHR_UPD_STS_UNMIRRORED
  | SHR_UPD_STS_LAST_ACCT
  | SHR_TICK_EPOCHS
  | SHR_TICK_STEPS
  | SHR_DB_DROP_CNT
  | SHR_RES_STS_CAP
  | SHR_RES_STS_PRESENT
  | SHR_RES_STS_LEVEL
  | SHR_RES_STS_FACTOR
  | SHR_RES_STS_BE_PCT
  | SHR_RES_SUM_G0
  | SHR_RES_SUM_G1
  | SHR_RES_SUM_STEP_CAP
  | SHR_RES_CFG_CAP_OVR
  | SHR_RES_MEAS_USED
  | SHR_RES_MEAS_C0_LAT_MAX
  | SHR_PORT_SHARE_SHARE
  | SHR_PORT_RES_MASK
  | SHR_CTX_BIND_VALID
  | SHR_CTX_BIND_SLICE_EN
  | SHR_CTX_BIND_SLICE
  | SHR_CTX_BIND_FUNC
  | SHR_CTX_BIND_CHARGE_IN
  | SHR_CTX_SHARE_SHARE
  | SHR_CTX_RES_MASK
  | SHR_CTX_STS0_WORD
  | SHR_CTX_STS1_WORD
  | SHR_CTX_STS2_WORD
  | SHR_CTX_STS3_WORD
  | ULK_CTL_EN
  | ULK_CTL_RESET
  | ULK_CTL_ATOM_EMUL
  | ULK_STS_STATE
  | ULK_STS_SB_VALID
  | ULK_STS_DUAL_OK
  | ULK_STS_ATOM_NATIVE
  | ULK_STS_TX_UNACK
  | ULK_STS_HELD_TAGS
  | ULK_STS_DOWN_CAUSE
  | ULK_EVT_UP
  | ULK_EVT_DOWN
  | ULK_EVT_REPLAY
  | ULK_EVT_PROTO_ERR
  | ULK_EVT_SB_CHG
  | ULK_EVT_LATE_NOTICE
  | ULK_EVT_DUAL_REFUSED
  | ULK_EVT_REQ_OVF
  | ULK_EVT_EN_MASK
  | ULK_FAR_DESIGN_ID
  | ULK_FAR_VERSION
  | ULK_FAR_ATOMIC
  | ULK_FAR_SEQ_AWARE
  | ULK_FAR_DUAL
  | ULK_FAR_DOZE_OK
  | ULK_FAR_DEEP_OK
  | ULK_FAR_SB_MIN
  | ULK_CREDIT_VC0_HDR
  | ULK_CREDIT_VC0_DATA
  | ULK_CREDIT_VC2_HDR
  | ULK_RETRY_CFG_REPLAY_TMO
  | ULK_RETRY_CFG_REPLAY_MAX
  | ULK_PM_CFG_DOZE_IDLE
  | ULK_PM_CFG_DEEP_IDLE
  | ULK_SB_CFG_PERIOD
  | ULK_SB_CFG_POLL_EN
  | ULK_SB_CFG_EFFECTIVE
  | ULK_SB_LATCH_LATCH
  | ULK_SB_IN_LINES
  | ULK_SB_OUT_LINES
  | ULK_SB_EVT_CHG
  | ULK_REPLAY_CNT_REPLAYS
  | ULK_REPLAY_CNT_NAKS_SENT
  | ULK_PROTO_ERR_CNT
  | ULK_PROTO_ERR_LAST_CAUSE
  | ULK_SB_SKIP_SKIP
  | ULK_REQ_CNT_PENDING
  | ULK_REQ_CNT_OVF
  | SEM_CTL_PAIR_EN
  | SEM_CTL_HANDOVER
  | SEM_CTL_LEAVE
  | SEM_CTL_SNAP
  | SEM_CTL_AUTO_TAKE
  | SEM_STS_ROLE
  | SEM_STS_SYNC
  | SEM_STS_TWIN_PRESENT
  | SEM_STS_TWIN_ALIVE
  | SEM_STS_TWIN_LEADS
  | SEM_STS_SEAM_UP
  | SEM_STS_SUSPECT
  | SEM_STS_HO_BUSY
  | SEM_STS_MIRROR_VER
  | SEM_STS_TWIN_MVER
  | SEM_STS_TWIN_MODE
  | SEM_STS_LAST_LOSS
  | SEM_EVT_ROLE_CHANGE
  | SEM_EVT_TWIN_JOINED
  | SEM_EVT_SYNCED
  | SEM_EVT_TWIN_LOST
  | SEM_EVT_SPLIT
  | SEM_EVT_SUSPECT
  | SEM_EVT_HO_DONE
  | SEM_EVT_HO_FAIL
  | SEM_EVT_CONFLICT
  | SEM_EVT_MISMATCH
  | SEM_EVT_ALIVE_FAULT
  | SEM_EVT_EN_MASK
  | SEM_HB_CFG_MISS
  | SEM_HB_CFG_ALIVE_WIN
  | SEM_HO_CFG_DRAIN_MAX
  | SEM_TWIN_SERIAL
  | SEM_TWIN_FW_FW_VER
  | SEM_PAIR_ID_PAIR_ID
  | SEM_MSEQ_TX
  | SEM_MSEQ_ACK
  | SEM_LAG_OUTSTANDING
  | SEM_LAG_ACK_MAX
  | SEM_HB_CNT_MISSES
  | SEM_HB_CNT_SUSPECTS
  | SEM_TAKE_LAST_US
  | SEM_TAKE_TAKEOVERS
  | SEM_FOLLOW_DROP_DROPS
  | LANE_STS_STATE
  | LANE_STS_SIG
  | LANE_STS_CDR_LOCK
  | LANE_STS_BLOCK_LOCK
  | LANE_STS_INVERTED
  | LANE_STS_CLEAN
  | LANE_STS_CLK_SRC
  | LANE_STS_TX_DARNED
  | LANE_STS_FAIL_CAUSE
  | LANE_CTL_FORCE_DARN
  | LANE_CTL_TRIAL_EN
  | LANE_CTL_TRIAL_NOW
  | LANE_CTL_ERR_THR
  | LANE_TXEQ_PRE
  | LANE_TXEQ_POST
  | LANE_TXEQ_PRE_INIT
  | LANE_TXEQ_POST_INIT
  | LANE_TXEQ_HOLD
  | LANE_ERR_CNT_SYNC_ERR
  | LANE_ERR_CNT_MARKER_ERR
  | LANE_DARN_CNT_DARNS
  | LANE_DARN_CNT_REINSTATES
  | LANE_FAR_LINK_ID
  | LANE_FAR_LANE
  | LANE_FAR_RATES
  | LANE_FAR_WIDTH
  | LANE_LINK_CTL_RATE_MAX
  | LANE_LINK_CTL_DARN_MIN
  | LANE_LINK_CTL_DOZE_EN
  | LANE_LINK_CTL_DEEP_EN
  | LANE_LINK_CTL_ENABLE
  | LANE_LINK_CTL_RETRAIN
  | LANE_LINK_CTL_LINK_ID
  | LANE_LINK_STS_STATE
  | LANE_LINK_STS_RATE
  | LANE_LINK_STS_RX_ACTIVE
  | LANE_LINK_STS_TX_ACTIVE
  | LANE_LINK_STS_DEGRADED
  | LANE_LINK_EVT_UP
  | LANE_LINK_EVT_DOWN
  | LANE_LINK_EVT_DARN
  | LANE_LINK_EVT_REINSTATE
  | LANE_LINK_EVT_RATE_LOW
  | LANE_LINK_EVT_MISWIRE
  | LANE_LINK_EVT_WAKE_FAIL
  | LANE_LINK_EVT_EN_MASK
  | LANE_SKEW_SKEW
  | LANE_LINK_REMAP_LAST
  | LANE_LINK_REMAP_MAX
  | MEM_CFG_SCRUB_EN
  | MEM_CFG_SCRUB_S
  | MEM_EVT_CE
  | MEM_EVT_UE
  | MEM_EVT_PROT_DROP
  | MEM_EVT_EN_MASK
  | MEM_ERR_ADDR_ADDR
  | MEM_ERR_ADDR_LASTING
  | MEM_ERR_ADDR_MASTER
  | MEM_ERR_ADDR_VALID
  | MEM_ERR_CNT_CE
  | MEM_ERR_CNT_UE
  | MEM_TRANS_CNT_TRANS
  | MEM_PROT_DROP_CNT
  | MEM_PROT_DROP_LAST_MST
  | MEM_CNT_CTL_SNAP
  | MEM_SNAP_TIME_TIME
  | MEM_MST_ACC_COUNT
  | MEM_MST_WAIT_CYCLES
  | MEM_BANK_BUSY_BUSY
  | MEM_BANK_BUSY_ALIAS
  | DRS_CFG_SCRUB_EN
  | DRS_CFG_SCRUB_H
  | DRS_CFG_CE_THR
  | DRS_STS_TRAINED
  | DRS_STS_CACHED
  | DRS_STS_SELF_REFRESH
  | DRS_STS_ZERO_BUSY
  | DRS_STS_PKG_OK
  | DRS_EVT_CE
  | DRS_EVT_UE
  | DRS_EVT_CE_STORM
  | DRS_EVT_ZERO_DONE
  | DRS_EVT_ZERO_REFUSED
  | DRS_EVT_PROT_DROP
  | DRS_EVT_EN_MASK
  | DRS_ERR_ADDR_ADDR
  | DRS_ERR_ADDR_LASTING
  | DRS_ERR_ADDR_MASTER
  | DRS_ERR_ADDR_PACKAGE
  | DRS_ERR_ADDR_VALID
  | DRS_ERR_CNT_CE
  | DRS_ERR_CNT_UE
  | DRS_TRANS_CNT_TRANS
  | DRS_PROT_DROP_CNT
  | DRS_PROT_DROP_LAST_MST
  | DRS_SYS_BASE_BASE
  | DRS_ZERO_BASE_BASE
  | DRS_ZERO_LEN_LEN
  | DRS_ZERO_CTL_GO
  | DRS_ZERO_CTL_ABORT
  | DRS_ZERO_POS_POS
  | DRS_SCRUB_POS_POS
  | DRS_SCRUB_POS_PASSES
  | DRS_PKG_STS_TEMP
  | DRS_PKG_STS_TRAINED
  | DRS_PKG_STS_SR
  | MBX_CFG_EN
  | MBX_CFG_WR_GUARD
  | MBX_STS_QUEUED
  | MBX_STS_BUSY
  | MBX_CLAIM_INDEX
  | MBX_CLAIM_NONE
  | MBX_DONE_INDEX
  | MBX_ACT_ERR_CNT
  | MBX_ACT_ERR_LAST
  | MBX_WR_DROP_CNT
  | MBX_WR_DROP_LAST
  | MBX_POST_CNT_POSTS
  | MBX_MB_CONTROL
  | MBX_MB_CORE
  | PWR_CTL_REPLAY
  | PWR_STS_MODE
  | PWR_STS_REQ_BUSY
  | PWR_EVT_REQ_DONE
  | PWR_EVT_REQ_FAIL
  | PWR_EVT_WDOG_WARN
  | PWR_EVT_LOST_EDGE
  | PWR_EVT_MOD_WAKE
  | PWR_EVT_EN_MASK
  | PWR_DOM_STS_ON
  | PWR_DOM_STS_RETAINED
  | PWR_DOM_STS_DRAINING
  | PWR_DOM_REQ_DOMAIN
  | PWR_DOM_REQ_OP
  | PWR_DOM_REQ_FORCE
  | PWR_DOM_REQ_GO
  | PWR_DOM_RESULT_RESULT
  | PWR_DOM_RESULT_LAST
  | PWR_WAKE_EN_RAW
  | PWR_WAKE_EN_TIMER
  | PWR_WAKE_EN_TWIN
  | PWR_WAKE_LAST_RECORD
  | PWR_WAKE_TIMER_AT
  | PWR_WAKE_TIMER_TARGET
  | PWR_WAKE_TIMER_ARMED
  | PWR_WDOG_CFG_EN
  | PWR_WDOG_CFG_PERIOD
  | PWR_WDOG_KICK_KEY
  | PWR_OFF_ACCESS_CNT_CNT
  | PWR_OFF_ACCESS_CNT_LAST_DOM
  | PWR_CORE_CTL_MODE
  | PWR_CORE_CTL_WAKE
  | PWR_CORE_CTL_ASLEEP
  | CLK_STS_REF_OK
  | CLK_STS_FIO_OK
  | CLK_STS_AON_OK
  | CLK_STS_FAB_LOCK
  | CLK_STS_CPU_LOCK
  | CLK_STS_DRAM_LOCK
  | CLK_STS_TB_LOCK
  | CLK_STS_HOST_LOCK
  | CLK_STS_LANE_LOCK
  | CLK_EVT_HOST_UNLOCK
  | CLK_EVT_LANE_UNLOCK
  | CLK_EVT_EN_MASK
  | CLK_CORE_SEL_SEL
  | CLK_CORE_SEL_ACTIVE
  | TIM_NOW_NOW
  | TIM_STEP_DELTA
  | TIM_ADJ_PPB
  | TIM_STS_TIME_APPROX
  | TIM_STS_PTM_VALID
  | TIM_STS_STEPPED_BACK
  | TIM_STS_SLEWING
  | TIM_AON_COUNT
  | TIM_RATIO_RATIO
  | TIM_SAVE_TIME
  | TIM_SAVE_AON_COUNT
  | TIM_PTM_CFG_FOLLOW
  | TIM_PTM_CFG_PERIOD
  | TIM_PTM_CFG_STEP_THR
  | TIM_PTM_OFS_OFS
  | RST_CAUSE_CAUSE
  | RST_CAUSE_COUNT
  | RST_CTL_DELAY
  | RST_CTL_KEY
  | SEC_LIFECYCLE_STATE
  | SEC_LIFECYCLE_ADVANCING
  | SEC_STS_FW_AUTH
  | SEC_STS_IMAGE_B
  | SEC_STS_SESSIONS
  | SEC_STS_IDE_FAIL
  | SEC_STS_TDI_ERR
  | SEC_IDE_STS_EN
  | SEC_IDE_STS_STATE
  | SEC_IDE_STS_STREAM_ID
  | SEC_IDE_STS_TX_KSET
  | SEC_IDE_STS_RX_KSET
  | SEC_IDE_STS_FAIL
  | SEC_IDE_STS_FAIL_CAUSE
  | SEC_TDI_STATE
  | SEC_TDI_STREAM
  | SEC_TDI_ERR_CAUSE
  | DBG_CTL_RELOCK
  | DBG_STS_DBG_FAULT
  | DBG_STS_LC
  | DBG_STS_OPEN
  | DBG_STS_JTAG_ACTIVE
  | DBG_STS_FAULT_CNT
  | DBG_FAULT_ADDR_ADDR
  | DBG_FAULT_ADDR_WRITE
  | MGT_CFG_SMB_ADDR
  | MGT_CFG_RAW_ADDR
  | MGT_CFG_SMB_MCTP_EN
  | MGT_CFG_VDM_EN
  | MGT_EID_EID
  | MGT_EID_OWNER_EID
  | MGT_STS_SMB_BUSY
  | MGT_STS_VDM_BUSY
  | MGT_STS_RAW_ACTIVE
  | MGT_STS_HELD
  | MGT_PLDM_CFG_PERIOD
  | MGT_PLDM_CFG_EVT_EN
  | MGT_ERR_CNT_PEC_ERR
  | MGT_ERR_CNT_BUSY_ANS
  | MGT_LOG_STS_AON_USED
  | MGT_LOG_STS_NEW
  | MGT_LOG_STS_OVERRUN
  | MGT_LOG_STS_HEAD
  | MGT_LOG_NEXT_NEXT
  | MGT_RING0_WORD
  | MGT_RING1_WORD
  | MGT_RING2_WORD
  | MGT_RING3_WORD
  deriving DecidableEq

end Sys2Proof
end

