-- ==== Sys2Proof/Machine/RegTable.lean ====
section
/-!
DEFINITION. The register tables of the specification as data: where each register lies in its block (R33, R34 and the
offset table of each chapter) and where each field lies in its register, with its type and its reset value.
-/
namespace Sys2Proof.Machine

/-- Where a register lies: its block, the offset of instance 0, and two levels of instances. -/
structure RegInfo where
  block : Block
  off : Nat
  stride : Nat
  count : Nat
  stride2 : Nat
  count2 : Nat
  deriving DecidableEq, Repr

/-- A field of a register: its register, lowest bit, width, access type and reset value. -/
structure FldInfo where
  reg : Reg
  lo : Nat
  w : Nat
  ty : Access
  rst : Nat
  deriving DecidableEq, Repr

/-- The offset tables of R74, R113, R143, R183, R184, R211, R250, R282, R314, R340, R372 to R374, R408, R438, R439,
R456, R457, R478, R479 and R496 to R498. -/
def regInfo : Reg → RegInfo
  | .IRQ_CFG => ⟨.IRQ, 0x0, 0x0, 1, 0x0, 1⟩
  | .IRQ_STS => ⟨.IRQ, 0x8, 0x0, 1, 0x0, 1⟩
  | .IRQ_FALLBACK => ⟨.IRQ, 0x10, 0x0, 1, 0x0, 1⟩
  | .IRQ_DB_DENY => ⟨.IRQ, 0x18, 0x0, 1, 0x0, 1⟩
  | .IRQ_ERR_CNT => ⟨.IRQ, 0x20, 0x0, 1, 0x0, 1⟩
  | .IRQ_STORM_CFG => ⟨.IRQ, 0x28, 0x0, 1, 0x0, 1⟩
  | .IRQ_CORE_CLAIM => ⟨.IRQ, 0x1000, 0x40, 4, 0x0, 1⟩
  | .IRQ_CORE_COMPLETE => ⟨.IRQ, 0x1008, 0x40, 4, 0x0, 1⟩
  | .IRQ_CORE_CTL => ⟨.IRQ, 0x1010, 0x40, 4, 0x0, 1⟩
  | .IRQ_CORE_STS => ⟨.IRQ, 0x1018, 0x40, 4, 0x0, 1⟩
  | .IRQ_CORE_STACK => ⟨.IRQ, 0x1020, 0x40, 4, 0x0, 1⟩
  | .IRQ_LT => ⟨.IRQ, 0x2000, 0x8, 64, 0x0, 1⟩
  | .IRQ_INTX_STS => ⟨.IRQ, 0x3000, 0x8, 4, 0x0, 1⟩
  | .IRQ_PEND_SET => ⟨.IRQ, 0x4000, 0x4, 512, 0x0, 1⟩
  | .IRQ_PEND_CLR => ⟨.IRQ, 0x4800, 0x4, 512, 0x0, 1⟩
  | .IRQ_EN_SET => ⟨.IRQ, 0x5000, 0x4, 512, 0x0, 1⟩
  | .IRQ_EN_CLR => ⟨.IRQ, 0x5800, 0x4, 512, 0x0, 1⟩
  | .IRQ_STORM => ⟨.IRQ, 0x6000, 0x4, 512, 0x0, 1⟩
  | .IRQ_DOORBELL => ⟨.IRQ, 0x10000, 0x0, 1, 0x0, 1⟩
  | .IRQ_ROUTE => ⟨.IRQ, 0x20000, 0x8, 16384, 0x0, 1⟩
  | .IRQ_SRC_STS => ⟨.IRQ, 0x40000, 0x4, 16384, 0x0, 1⟩
  | .HST_LINK_CAP => ⟨.HST, 0x0, 0x0, 1, 0x0, 1⟩
  | .HST_LINK_CTL => ⟨.HST, 0x8, 0x0, 1, 0x0, 1⟩
  | .HST_LINK_STS => ⟨.HST, 0x10, 0x0, 1, 0x0, 1⟩
  | .HST_LANE_FAIL => ⟨.HST, 0x18, 0x0, 1, 0x0, 1⟩
  | .HST_LANE_ERR_THR => ⟨.HST, 0x20, 0x0, 1, 0x0, 1⟩
  | .HST_PM_CTL => ⟨.HST, 0x28, 0x0, 1, 0x0, 1⟩
  | .HST_CLK_CFG => ⟨.HST, 0x30, 0x0, 1, 0x0, 1⟩
  | .HST_EVT => ⟨.HST, 0x38, 0x0, 1, 0x0, 1⟩
  | .HST_EVT_EN => ⟨.HST, 0x40, 0x0, 1, 0x0, 1⟩
  | .HST_RECOV_CNT => ⟨.HST, 0x48, 0x0, 1, 0x0, 1⟩
  | .HST_FLIT_CNT => ⟨.HST, 0x50, 0x0, 1, 0x0, 1⟩
  | .HST_LANE_ERR_CNT => ⟨.HST, 0x100, 0x4, 16, 0x0, 1⟩
  | .HST_CONT_STS => ⟨.HST, 0x200, 0x0, 1, 0x0, 1⟩
  | .HST_CONT_TIME => ⟨.HST, 0x208, 0x0, 1, 0x0, 1⟩
  | .HST_CONT_REL => ⟨.HST, 0x210, 0x0, 1, 0x0, 1⟩
  | .HST_CONT_DROP => ⟨.HST, 0x218, 0x0, 1, 0x0, 1⟩
  | .FN_ID => ⟨.FN, 0x0, 0x100, 2052, 0x0, 1⟩
  | .FN_STS => ⟨.FN, 0x8, 0x100, 2052, 0x0, 1⟩
  | .FN_CTL => ⟨.FN, 0x10, 0x100, 2052, 0x0, 1⟩
  | .FN_RINSE => ⟨.FN, 0x18, 0x100, 2052, 0x0, 1⟩
  | .FN_RINSE_DROP => ⟨.FN, 0x20, 0x100, 2052, 0x0, 1⟩
  | .FN_RINSE_LATE => ⟨.FN, 0x28, 0x100, 2052, 0x0, 1⟩
  | .FN_ADV_CNT => ⟨.FN, 0x30, 0x100, 2052, 0x0, 1⟩
  | .FN_VIEW_DENY => ⟨.FN, 0x38, 0x100, 2052, 0x0, 1⟩
  | .FN_EVQ_BASE => ⟨.FN, 0x40, 0x100, 2052, 0x0, 1⟩
  | .FN_EVQ_CFG => ⟨.FN, 0x48, 0x100, 2052, 0x0, 1⟩
  | .FN_EVQ_HEAD => ⟨.FN, 0x50, 0x100, 2052, 0x0, 1⟩
  | .FN_EVQ_TAIL => ⟨.FN, 0x58, 0x100, 2052, 0x0, 1⟩
  | .FN_RES => ⟨.FN, 0x60, 0x100, 2052, 0x0, 1⟩
  | .FN_CONT => ⟨.FN, 0x68, 0x100, 2052, 0x0, 1⟩
  | .FN_VF_TOTAL => ⟨.FN, 0xF0000, 0x0, 1, 0x0, 1⟩
  | .FN_SLICE_ERR => ⟨.FN, 0xF0008, 0x0, 1, 0x0, 1⟩
  | .FN_SLICE => ⟨.FN, 0xF1000, 0x8, 256, 0x0, 1⟩
  | .XLT_CFG => ⟨.XLT, 0x0, 0x0, 1, 0x0, 1⟩
  | .XLT_TBL_BASE => ⟨.XLT, 0x8, 0x0, 1, 0x0, 1⟩
  | .XLT_EPOCH => ⟨.XLT, 0x10, 0x0, 1, 0x0, 1⟩
  | .XLT_EPOCH_DRAIN => ⟨.XLT, 0x18, 0x0, 1, 0x0, 1⟩
  | .XLT_UPD_DATA => ⟨.XLT, 0x20, 0x8, 4, 0x0, 1⟩
  | .XLT_UPD_CMD => ⟨.XLT, 0x40, 0x0, 1, 0x0, 1⟩
  | .XLT_UPD_STS => ⟨.XLT, 0x48, 0x0, 1, 0x0, 1⟩
  | .XLT_PREF_CFG => ⟨.XLT, 0x50, 0x0, 1, 0x0, 1⟩
  | .XLT_PIN_CNT => ⟨.XLT, 0x58, 0x0, 1, 0x0, 1⟩
  | .XLT_FAULT_ADDR => ⟨.XLT, 0x60, 0x0, 1, 0x0, 1⟩
  | .XLT_FAULT_INFO => ⟨.XLT, 0x68, 0x0, 1, 0x0, 1⟩
  | .XLT_HIT_CNT => ⟨.XLT, 0x80, 0x0, 1, 0x0, 1⟩
  | .XLT_MISS_CNT => ⟨.XLT, 0x88, 0x0, 1, 0x0, 1⟩
  | .XLT_SLOW_CNT => ⟨.XLT, 0x90, 0x0, 1, 0x0, 1⟩
  | .XLT_STRADDLE_CNT => ⟨.XLT, 0x98, 0x0, 1, 0x0, 1⟩
  | .XLT_SPLIT_CNT => ⟨.XLT, 0xA0, 0x0, 1, 0x0, 1⟩
  | .XLT_PREF_HIT_CNT => ⟨.XLT, 0xA8, 0x0, 1, 0x0, 1⟩
  | .XLT_PROT_DROP => ⟨.XLT, 0xB0, 0x0, 1, 0x0, 1⟩
  | .GRD_STS => ⟨.GRD, 0x8, 0x0, 1, 0x0, 1⟩
  | .GRD_EPOCH => ⟨.GRD, 0x10, 0x0, 1, 0x0, 1⟩
  | .GRD_EPOCH_DRAIN => ⟨.GRD, 0x18, 0x0, 1, 0x0, 1⟩
  | .GRD_UPD_DATA => ⟨.GRD, 0x20, 0x0, 1, 0x0, 1⟩
  | .GRD_UPD_CMD => ⟨.GRD, 0x28, 0x0, 1, 0x0, 1⟩
  | .GRD_UPD_STS => ⟨.GRD, 0x30, 0x0, 1, 0x0, 1⟩
  | .GRD_SHADOW_BASE => ⟨.GRD, 0x38, 0x0, 1, 0x0, 1⟩
  | .GRD_FAULT_ADDR => ⟨.GRD, 0x40, 0x0, 1, 0x0, 1⟩
  | .GRD_FAULT_INFO => ⟨.GRD, 0x48, 0x0, 1, 0x0, 1⟩
  | .GRD_FAULT_CNT => ⟨.GRD, 0x50, 0x0, 1, 0x0, 1⟩
  | .GRD_NOTICE_CNT => ⟨.GRD, 0x58, 0x0, 1, 0x0, 1⟩
  | .GRD_SET_CFG => ⟨.GRD, 0x1000, 0x8, 19, 0x0, 1⟩
  | .GRD_REGION => ⟨.GRD, 0x2000, 0x100, 19, 0x8, 32⟩
  | .LDG_CFG => ⟨.LDG, 0x0, 0x0, 1, 0x0, 1⟩
  | .LDG_TMO => ⟨.LDG, 0x8, 0x0, 1, 0x0, 1⟩
  | .LDG_OVF_BASE => ⟨.LDG, 0x10, 0x0, 1, 0x0, 1⟩
  | .LDG_STS => ⟨.LDG, 0x18, 0x0, 1, 0x0, 1⟩
  | .LDG_ERR_CNT => ⟨.LDG, 0x20, 0x0, 1, 0x0, 1⟩
  | .LDG_RETRY_CNT => ⟨.LDG, 0x28, 0x0, 1, 0x0, 1⟩
  | .LDG_LATE_CNT => ⟨.LDG, 0x30, 0x0, 1, 0x0, 1⟩
  | .LDG_NOTICE_MISS => ⟨.LDG, 0x38, 0x0, 1, 0x0, 1⟩
  | .LDG_STARCH_CFG => ⟨.LDG, 0x40, 0x0, 1, 0x0, 1⟩
  | .LDG_STARCH_STS => ⟨.LDG, 0x48, 0x0, 1, 0x0, 1⟩
  | .LDG_SEQ => ⟨.LDG, 0x1000, 0x100, 16, 0x8, 19⟩
  | .BSK_CFG => ⟨.BSK, 0x0, 0x0, 1, 0x0, 1⟩
  | .BSK_STS => ⟨.BSK, 0x8, 0x0, 1, 0x0, 1⟩
  | .BSK_CPL_STS => ⟨.BSK, 0x10, 0x0, 1, 0x0, 1⟩
  | .BSK_TMO_CNT => ⟨.BSK, 0x18, 0x0, 1, 0x0, 1⟩
  | .BSK_UNEXP_CNT => ⟨.BSK, 0x20, 0x0, 1, 0x0, 1⟩
  | .BSK_DISCARD_CNT => ⟨.BSK, 0x28, 0x0, 1, 0x0, 1⟩
  | .BSK_WAIT_CNT => ⟨.BSK, 0x30, 0x0, 1, 0x0, 1⟩
  | .DMA_CFG => ⟨.DMA, 0x0, 0x0, 1, 0x0, 1⟩
  | .DMA_STS => ⟨.DMA, 0x8, 0x0, 1, 0x0, 1⟩
  | .DMA_ERR_CNT => ⟨.DMA, 0x10, 0x0, 1, 0x0, 1⟩
  | .DMA_ABORT_CNT => ⟨.DMA, 0x18, 0x0, 1, 0x0, 1⟩
  | .DMA_PREEMPT_CNT => ⟨.DMA, 0x20, 0x0, 1, 0x0, 1⟩
  | .DMA_GRANT => ⟨.DMA, 0x1000, 0x8, 192, 0x0, 1⟩
  | .DMA_CH_OP => ⟨.DMA, 0x10000, 0x100, 256, 0x0, 1⟩
  | .DMA_CH_COUNT => ⟨.DMA, 0x10008, 0x100, 256, 0x0, 1⟩
  | .DMA_CH_SRC => ⟨.DMA, 0x10010, 0x100, 256, 0x0, 1⟩
  | .DMA_CH_DST => ⟨.DMA, 0x10018, 0x100, 256, 0x0, 1⟩
  | .DMA_CH_STRIDE => ⟨.DMA, 0x10020, 0x100, 256, 0x0, 1⟩
  | .DMA_CH_PATTERN => ⟨.DMA, 0x10028, 0x100, 256, 0x0, 1⟩
  | .DMA_CH_CTL => ⟨.DMA, 0x10040, 0x100, 256, 0x0, 1⟩
  | .DMA_CH_STS => ⟨.DMA, 0x10048, 0x100, 256, 0x0, 1⟩
  | .DMA_CH_RESIDUE => ⟨.DMA, 0x10050, 0x100, 256, 0x0, 1⟩
  | .DMA_CH_ERR_OFF => ⟨.DMA, 0x10058, 0x100, 256, 0x0, 1⟩
  | .DMA_CH_CFG => ⟨.DMA, 0x10060, 0x100, 256, 0x0, 1⟩
  | .DMA_CH_WB => ⟨.DMA, 0x10068, 0x100, 256, 0x0, 1⟩
  | .DMA_CH_RUNS => ⟨.DMA, 0x10070, 0x100, 256, 0x0, 1⟩
  | .DMA_SQ_BASE => ⟨.DMA, 0x20000, 0x40, 4096, 0x0, 1⟩
  | .DMA_SQ_CFG => ⟨.DMA, 0x20008, 0x40, 4096, 0x0, 1⟩
  | .DMA_SQ_STS => ⟨.DMA, 0x20010, 0x40, 4096, 0x0, 1⟩
  | .DMA_CQ_BASE => ⟨.DMA, 0x20018, 0x40, 4096, 0x0, 1⟩
  | .DMA_CQ_CFG => ⟨.DMA, 0x20020, 0x40, 4096, 0x0, 1⟩
  | .DMA_CQ_PTR => ⟨.DMA, 0x20028, 0x40, 4096, 0x0, 1⟩
  | .DMA_RING_CTL => ⟨.DMA, 0x20030, 0x40, 4096, 0x0, 1⟩
  | .SHR_CFG => ⟨.SHR, 0x0, 0x0, 1, 0x0, 1⟩
  | .SHR_STS => ⟨.SHR, 0x8, 0x0, 1, 0x0, 1⟩
  | .SHR_SPILL_BASE => ⟨.SHR, 0x10, 0x0, 1, 0x0, 1⟩
  | .SHR_SPILL_USE => ⟨.SHR, 0x18, 0x0, 1, 0x0, 1⟩
  | .SHR_UPD_DATA => ⟨.SHR, 0x20, 0x0, 1, 0x0, 1⟩
  | .SHR_UPD_RES => ⟨.SHR, 0x28, 0x0, 1, 0x0, 1⟩
  | .SHR_UPD_CMD => ⟨.SHR, 0x30, 0x0, 1, 0x0, 1⟩
  | .SHR_UPD_STS => ⟨.SHR, 0x38, 0x0, 1, 0x0, 1⟩
  | .SHR_TICK => ⟨.SHR, 0x40, 0x0, 1, 0x0, 1⟩
  | .SHR_DB_DROP => ⟨.SHR, 0x48, 0x0, 1, 0x0, 1⟩
  | .SHR_RES_STS => ⟨.SHR, 0x1000, 0x20, 36, 0x0, 1⟩
  | .SHR_RES_SUM => ⟨.SHR, 0x1008, 0x20, 36, 0x0, 1⟩
  | .SHR_RES_CFG => ⟨.SHR, 0x1010, 0x20, 36, 0x0, 1⟩
  | .SHR_RES_MEAS => ⟨.SHR, 0x1018, 0x20, 36, 0x0, 1⟩
  | .SHR_PORT_SHARE => ⟨.SHR, 0x2000, 0x10, 16, 0x0, 1⟩
  | .SHR_PORT_RES => ⟨.SHR, 0x2008, 0x10, 16, 0x0, 1⟩
  | .SHR_CTX_BIND => ⟨.SHR, 0x20000, 0x20, 4096, 0x0, 1⟩
  | .SHR_CTX_SHARE => ⟨.SHR, 0x20008, 0x20, 4096, 0x0, 1⟩
  | .SHR_CTX_RES => ⟨.SHR, 0x20010, 0x20, 4096, 0x0, 1⟩
  | .SHR_CTX_STS0 => ⟨.SHR, 0x40000, 0x20, 4096, 0x0, 1⟩
  | .SHR_CTX_STS1 => ⟨.SHR, 0x40008, 0x20, 4096, 0x0, 1⟩
  | .SHR_CTX_STS2 => ⟨.SHR, 0x40010, 0x20, 4096, 0x0, 1⟩
  | .SHR_CTX_STS3 => ⟨.SHR, 0x40018, 0x20, 4096, 0x0, 1⟩
  | .ULK_CTL => ⟨.ULK, 0x0, 0x10000, 16, 0x0, 1⟩
  | .ULK_STS => ⟨.ULK, 0x8, 0x10000, 16, 0x0, 1⟩
  | .ULK_EVT => ⟨.ULK, 0x10, 0x10000, 16, 0x0, 1⟩
  | .ULK_EVT_EN => ⟨.ULK, 0x18, 0x10000, 16, 0x0, 1⟩
  | .ULK_FAR => ⟨.ULK, 0x20, 0x10000, 16, 0x0, 1⟩
  | .ULK_CREDIT => ⟨.ULK, 0x28, 0x10000, 16, 0x0, 1⟩
  | .ULK_RETRY_CFG => ⟨.ULK, 0x30, 0x10000, 16, 0x0, 1⟩
  | .ULK_PM_CFG => ⟨.ULK, 0x38, 0x10000, 16, 0x0, 1⟩
  | .ULK_SB_CFG => ⟨.ULK, 0x40, 0x10000, 16, 0x0, 1⟩
  | .ULK_SB_LATCH => ⟨.ULK, 0x48, 0x10000, 16, 0x0, 1⟩
  | .ULK_SB_IN => ⟨.ULK, 0x50, 0x10000, 16, 0x0, 1⟩
  | .ULK_SB_OUT => ⟨.ULK, 0x58, 0x10000, 16, 0x0, 1⟩
  | .ULK_SB_EVT => ⟨.ULK, 0x60, 0x10000, 16, 0x0, 1⟩
  | .ULK_REPLAY_CNT => ⟨.ULK, 0x68, 0x10000, 16, 0x0, 1⟩
  | .ULK_PROTO_ERR => ⟨.ULK, 0x70, 0x10000, 16, 0x0, 1⟩
  | .ULK_SB_SKIP => ⟨.ULK, 0x78, 0x10000, 16, 0x0, 1⟩
  | .ULK_REQ_CNT => ⟨.ULK, 0x100, 0x10000, 16, 0x8, 16⟩
  | .SEM_CTL => ⟨.SEM, 0x0, 0x0, 1, 0x0, 1⟩
  | .SEM_STS => ⟨.SEM, 0x8, 0x0, 1, 0x0, 1⟩
  | .SEM_EVT => ⟨.SEM, 0x10, 0x0, 1, 0x0, 1⟩
  | .SEM_EVT_EN => ⟨.SEM, 0x18, 0x0, 1, 0x0, 1⟩
  | .SEM_HB_CFG => ⟨.SEM, 0x20, 0x0, 1, 0x0, 1⟩
  | .SEM_HO_CFG => ⟨.SEM, 0x28, 0x0, 1, 0x0, 1⟩
  | .SEM_TWIN => ⟨.SEM, 0x30, 0x0, 1, 0x0, 1⟩
  | .SEM_TWIN_FW => ⟨.SEM, 0x38, 0x0, 1, 0x0, 1⟩
  | .SEM_PAIR_ID => ⟨.SEM, 0x40, 0x0, 1, 0x0, 1⟩
  | .SEM_MSEQ => ⟨.SEM, 0x48, 0x0, 1, 0x0, 1⟩
  | .SEM_LAG => ⟨.SEM, 0x50, 0x0, 1, 0x0, 1⟩
  | .SEM_HB_CNT => ⟨.SEM, 0x58, 0x0, 1, 0x0, 1⟩
  | .SEM_TAKE => ⟨.SEM, 0x60, 0x0, 1, 0x0, 1⟩
  | .SEM_FOLLOW_DROP => ⟨.SEM, 0x68, 0x0, 1, 0x0, 1⟩
  | .LANE_STS => ⟨.LANE, 0x0, 0x2000, 72, 0x0, 1⟩
  | .LANE_CTL => ⟨.LANE, 0x8, 0x2000, 72, 0x0, 1⟩
  | .LANE_TXEQ => ⟨.LANE, 0x10, 0x2000, 72, 0x0, 1⟩
  | .LANE_ERR_CNT => ⟨.LANE, 0x18, 0x2000, 72, 0x0, 1⟩
  | .LANE_DARN_CNT => ⟨.LANE, 0x20, 0x2000, 72, 0x0, 1⟩
  | .LANE_FAR => ⟨.LANE, 0x28, 0x2000, 72, 0x0, 1⟩
  | .LANE_LINK_CTL => ⟨.LANE, 0xC0000, 0x100, 17, 0x0, 1⟩
  | .LANE_LINK_STS => ⟨.LANE, 0xC0008, 0x100, 17, 0x0, 1⟩
  | .LANE_LINK_EVT => ⟨.LANE, 0xC0010, 0x100, 17, 0x0, 1⟩
  | .LANE_LINK_EVT_EN => ⟨.LANE, 0xC0018, 0x100, 17, 0x0, 1⟩
  | .LANE_SKEW => ⟨.LANE, 0xC0020, 0x100, 17, 0x0, 1⟩
  | .LANE_LINK_REMAP => ⟨.LANE, 0xC0028, 0x100, 17, 0x0, 1⟩
  | .MEM_CFG => ⟨.MEM, 0x0, 0x0, 1, 0x0, 1⟩
  | .MEM_EVT => ⟨.MEM, 0x8, 0x0, 1, 0x0, 1⟩
  | .MEM_EVT_EN => ⟨.MEM, 0x10, 0x0, 1, 0x0, 1⟩
  | .MEM_ERR_ADDR => ⟨.MEM, 0x18, 0x0, 1, 0x0, 1⟩
  | .MEM_ERR_CNT => ⟨.MEM, 0x20, 0x0, 1, 0x0, 1⟩
  | .MEM_TRANS_CNT => ⟨.MEM, 0x28, 0x0, 1, 0x0, 1⟩
  | .MEM_PROT_DROP => ⟨.MEM, 0x30, 0x0, 1, 0x0, 1⟩
  | .MEM_CNT_CTL => ⟨.MEM, 0x38, 0x0, 1, 0x0, 1⟩
  | .MEM_SNAP_TIME => ⟨.MEM, 0x40, 0x0, 1, 0x0, 1⟩
  | .MEM_MST_ACC => ⟨.MEM, 0x1000, 0x10, 27, 0x0, 1⟩
  | .MEM_MST_WAIT => ⟨.MEM, 0x1008, 0x10, 27, 0x0, 1⟩
  | .MEM_BANK_BUSY => ⟨.MEM, 0x2000, 0x8, 16, 0x0, 1⟩
  | .DRS_CFG => ⟨.DRS, 0x0, 0x0, 1, 0x0, 1⟩
  | .DRS_STS => ⟨.DRS, 0x8, 0x0, 1, 0x0, 1⟩
  | .DRS_EVT => ⟨.DRS, 0x10, 0x0, 1, 0x0, 1⟩
  | .DRS_EVT_EN => ⟨.DRS, 0x18, 0x0, 1, 0x0, 1⟩
  | .DRS_ERR_ADDR => ⟨.DRS, 0x20, 0x0, 1, 0x0, 1⟩
  | .DRS_ERR_CNT => ⟨.DRS, 0x28, 0x0, 1, 0x0, 1⟩
  | .DRS_TRANS_CNT => ⟨.DRS, 0x30, 0x0, 1, 0x0, 1⟩
  | .DRS_PROT_DROP => ⟨.DRS, 0x38, 0x0, 1, 0x0, 1⟩
  | .DRS_SYS_BASE => ⟨.DRS, 0x40, 0x0, 1, 0x0, 1⟩
  | .DRS_ZERO_BASE => ⟨.DRS, 0x48, 0x0, 1, 0x0, 1⟩
  | .DRS_ZERO_LEN => ⟨.DRS, 0x50, 0x0, 1, 0x0, 1⟩
  | .DRS_ZERO_CTL => ⟨.DRS, 0x58, 0x0, 1, 0x0, 1⟩
  | .DRS_ZERO_POS => ⟨.DRS, 0x60, 0x0, 1, 0x0, 1⟩
  | .DRS_SCRUB_POS => ⟨.DRS, 0x68, 0x0, 1, 0x0, 1⟩
  | .DRS_PKG_STS => ⟨.DRS, 0x100, 0x8, 8, 0x0, 1⟩
  | .MBX_CFG => ⟨.MBX, 0x0, 0x0, 1, 0x0, 1⟩
  | .MBX_STS => ⟨.MBX, 0x8, 0x0, 1, 0x0, 1⟩
  | .MBX_CLAIM => ⟨.MBX, 0x10, 0x0, 1, 0x0, 1⟩
  | .MBX_DONE => ⟨.MBX, 0x18, 0x0, 1, 0x0, 1⟩
  | .MBX_ACT_ERR => ⟨.MBX, 0x20, 0x0, 1, 0x0, 1⟩
  | .MBX_WR_DROP => ⟨.MBX, 0x28, 0x0, 1, 0x0, 1⟩
  | .MBX_POST_CNT => ⟨.MBX, 0x30, 0x0, 1, 0x0, 1⟩
  | .MBX_MB => ⟨.MBX, 0x1000, 0x8, 2109, 0x0, 1⟩
  | .PWR_CTL => ⟨.PWR, 0x0, 0x0, 1, 0x0, 1⟩
  | .PWR_STS => ⟨.PWR, 0x8, 0x0, 1, 0x0, 1⟩
  | .PWR_EVT => ⟨.PWR, 0x10, 0x0, 1, 0x0, 1⟩
  | .PWR_EVT_EN => ⟨.PWR, 0x18, 0x0, 1, 0x0, 1⟩
  | .PWR_DOM_STS => ⟨.PWR, 0x20, 0x0, 1, 0x0, 1⟩
  | .PWR_DOM_REQ => ⟨.PWR, 0x28, 0x0, 1, 0x0, 1⟩
  | .PWR_DOM_RESULT => ⟨.PWR, 0x30, 0x0, 1, 0x0, 1⟩
  | .PWR_WAKE_EN => ⟨.PWR, 0x38, 0x0, 1, 0x0, 1⟩
  | .PWR_WAKE_LAST => ⟨.PWR, 0x40, 0x0, 1, 0x0, 1⟩
  | .PWR_WAKE_TIMER => ⟨.PWR, 0x48, 0x0, 1, 0x0, 1⟩
  | .PWR_WDOG_CFG => ⟨.PWR, 0x50, 0x0, 1, 0x0, 1⟩
  | .PWR_WDOG_KICK => ⟨.PWR, 0x58, 0x0, 1, 0x0, 1⟩
  | .PWR_OFF_ACCESS_CNT => ⟨.PWR, 0x60, 0x0, 1, 0x0, 1⟩
  | .PWR_CORE_CTL => ⟨.PWR, 0x100, 0x8, 4, 0x0, 1⟩
  | .CLK_STS => ⟨.CLK, 0x0, 0x0, 1, 0x0, 1⟩
  | .CLK_EVT => ⟨.CLK, 0x8, 0x0, 1, 0x0, 1⟩
  | .CLK_EVT_EN => ⟨.CLK, 0x10, 0x0, 1, 0x0, 1⟩
  | .CLK_CORE_SEL => ⟨.CLK, 0x100, 0x8, 4, 0x0, 1⟩
  | .TIM_NOW => ⟨.TIM, 0x0, 0x0, 1, 0x0, 1⟩
  | .TIM_STEP => ⟨.TIM, 0x8, 0x0, 1, 0x0, 1⟩
  | .TIM_ADJ => ⟨.TIM, 0x10, 0x0, 1, 0x0, 1⟩
  | .TIM_STS => ⟨.TIM, 0x18, 0x0, 1, 0x0, 1⟩
  | .TIM_AON => ⟨.TIM, 0x20, 0x0, 1, 0x0, 1⟩
  | .TIM_RATIO => ⟨.TIM, 0x28, 0x0, 1, 0x0, 1⟩
  | .TIM_SAVE => ⟨.TIM, 0x30, 0x0, 1, 0x0, 1⟩
  | .TIM_SAVE_AON => ⟨.TIM, 0x38, 0x0, 1, 0x0, 1⟩
  | .TIM_PTM_CFG => ⟨.TIM, 0x40, 0x0, 1, 0x0, 1⟩
  | .TIM_PTM_OFS => ⟨.TIM, 0x48, 0x0, 1, 0x0, 1⟩
  | .RST_CAUSE => ⟨.RST, 0x0, 0x0, 1, 0x0, 1⟩
  | .RST_CTL => ⟨.RST, 0x8, 0x0, 1, 0x0, 1⟩
  | .SEC_LIFECYCLE => ⟨.SEC, 0x0, 0x0, 1, 0x0, 1⟩
  | .SEC_STS => ⟨.SEC, 0x8, 0x0, 1, 0x0, 1⟩
  | .SEC_IDE_STS => ⟨.SEC, 0x100, 0x8, 9, 0x0, 1⟩
  | .SEC_TDI => ⟨.SEC, 0x10000, 0x4, 2052, 0x0, 1⟩
  | .DBG_CTL => ⟨.DBG, 0x0, 0x0, 1, 0x0, 1⟩
  | .DBG_STS => ⟨.DBG, 0x8, 0x0, 1, 0x0, 1⟩
  | .DBG_FAULT_ADDR => ⟨.DBG, 0x10, 0x0, 1, 0x0, 1⟩
  | .MGT_CFG => ⟨.MGT, 0x0, 0x0, 1, 0x0, 1⟩
  | .MGT_EID => ⟨.MGT, 0x8, 0x0, 1, 0x0, 1⟩
  | .MGT_STS => ⟨.MGT, 0x10, 0x0, 1, 0x0, 1⟩
  | .MGT_PLDM_CFG => ⟨.MGT, 0x18, 0x0, 1, 0x0, 1⟩
  | .MGT_ERR_CNT => ⟨.MGT, 0x20, 0x0, 1, 0x0, 1⟩
  | .MGT_LOG_STS => ⟨.MGT, 0x28, 0x0, 1, 0x0, 1⟩
  | .MGT_LOG_NEXT => ⟨.MGT, 0x30, 0x0, 1, 0x0, 1⟩
  | .MGT_RING0 => ⟨.MGT, 0x1000, 0x20, 128, 0x0, 1⟩
  | .MGT_RING1 => ⟨.MGT, 0x1008, 0x20, 128, 0x0, 1⟩
  | .MGT_RING2 => ⟨.MGT, 0x1010, 0x20, 128, 0x0, 1⟩
  | .MGT_RING3 => ⟨.MGT, 0x1018, 0x20, 128, 0x0, 1⟩

/-- The field tables of the same rules. A reset value of 0 also stands where the table says "—" and the register's
description names the source, which `State.reset` or the read of the register then supplies. -/
def fldInfo : Fld → FldInfo
  | .IRQ_CFG_EN => ⟨.IRQ_CFG, 0, 1, .RW, 1⟩
  | .IRQ_STS_STRANDED => ⟨.IRQ_STS, 0, 1, .RO, 0⟩
  | .IRQ_STS_STRANDED_SEEN => ⟨.IRQ_STS, 1, 1, .W1C, 0⟩
  | .IRQ_STS_STORM_ACTIVE => ⟨.IRQ_STS, 2, 1, .RO, 0⟩
  | .IRQ_STS_STORM_NEW => ⟨.IRQ_STS, 3, 1, .W1C, 0⟩
  | .IRQ_STS_DELIVERY_ERR => ⟨.IRQ_STS, 4, 1, .W1C, 0⟩
  | .IRQ_STS_LAST_SRC => ⟨.IRQ_STS, 16, 14, .RO, 0⟩
  | .IRQ_FALLBACK_KIND => ⟨.IRQ_FALLBACK, 0, 3, .RW, 3⟩
  | .IRQ_FALLBACK_FUNC => ⟨.IRQ_FALLBACK, 3, 12, .RW, 0⟩
  | .IRQ_FALLBACK_INDEX => ⟨.IRQ_FALLBACK, 15, 11, .RW, 0⟩
  | .IRQ_DB_DENY_CNT => ⟨.IRQ_DB_DENY, 0, 24, .RC, 0⟩
  | .IRQ_DB_DENY_CLASS => ⟨.IRQ_DB_DENY, 24, 3, .RO, 0⟩
  | .IRQ_DB_DENY_LAST_SRC => ⟨.IRQ_DB_DENY, 32, 14, .RO, 0⟩
  | .IRQ_DB_DENY_LAST_PORT => ⟨.IRQ_DB_DENY, 46, 4, .RO, 0⟩
  | .IRQ_ERR_CNT_DELIVERY => ⟨.IRQ_ERR_CNT, 0, 16, .RC, 0⟩
  | .IRQ_ERR_CNT_SPURIOUS => ⟨.IRQ_ERR_CNT, 16, 16, .RC, 0⟩
  | .IRQ_STORM_CFG_THRESH => ⟨.IRQ_STORM_CFG, 0, 8, .RW, 64⟩
  | .IRQ_STORM_CFG_WINDOW => ⟨.IRQ_STORM_CFG, 8, 10, .RW, 100⟩
  | .IRQ_STORM_CFG_RELEASE => ⟨.IRQ_STORM_CFG, 18, 6, .RW, 8⟩
  | .IRQ_CORE_CLAIM_SRC => ⟨.IRQ_CORE_CLAIM, 0, 14, .RO, 0⟩
  | .IRQ_CORE_CLAIM_PRIO => ⟨.IRQ_CORE_CLAIM, 16, 4, .RO, 0⟩
  | .IRQ_CORE_CLAIM_NONE => ⟨.IRQ_CORE_CLAIM, 31, 1, .RO, 1⟩
  | .IRQ_CORE_COMPLETE_SRC => ⟨.IRQ_CORE_COMPLETE, 0, 14, .WO, 0⟩
  | .IRQ_CORE_CTL_THR => ⟨.IRQ_CORE_CTL, 0, 4, .RW, 0⟩
  | .IRQ_CORE_CTL_WAKE_EN => ⟨.IRQ_CORE_CTL, 4, 1, .RW, 1⟩
  | .IRQ_CORE_STS_RUN_PRIO => ⟨.IRQ_CORE_STS, 0, 4, .RO, 0⟩
  | .IRQ_CORE_STS_DEPTH => ⟨.IRQ_CORE_STS, 4, 4, .RO, 0⟩
  | .IRQ_CORE_STS_PRESENT => ⟨.IRQ_CORE_STS, 8, 1, .RO, 0⟩
  | .IRQ_CORE_STS_BAD_CPL => ⟨.IRQ_CORE_STS, 9, 1, .W1C, 0⟩
  | .IRQ_CORE_STS_ASLEEP => ⟨.IRQ_CORE_STS, 10, 1, .RO, 0⟩
  | .IRQ_CORE_STS_TOP_SRC => ⟨.IRQ_CORE_STS, 16, 14, .RO, 0⟩
  | .IRQ_CORE_STACK_STACK => ⟨.IRQ_CORE_STACK, 0, 64, .RO, 0⟩
  | .IRQ_LT_VALID => ⟨.IRQ_LT, 0, 1, .RW, 0⟩
  | .IRQ_LT_PORT => ⟨.IRQ_LT, 1, 4, .RW, 0⟩
  | .IRQ_LT_ADDR => ⟨.IRQ_LT, 8, 40, .RW, 0⟩
  | .IRQ_INTX_STS_WIRE => ⟨.IRQ_INTX_STS, 0, 1, .RO, 0⟩
  | .IRQ_INTX_STS_HELD => ⟨.IRQ_INTX_STS, 1, 1, .RO, 0⟩
  | .IRQ_PEND_SET_MASK => ⟨.IRQ_PEND_SET, 0, 32, .W1S, 0⟩
  | .IRQ_PEND_CLR_MASK => ⟨.IRQ_PEND_CLR, 0, 32, .W1C, 0⟩
  | .IRQ_EN_SET_MASK => ⟨.IRQ_EN_SET, 0, 32, .W1S, 0⟩
  | .IRQ_EN_CLR_MASK => ⟨.IRQ_EN_CLR, 0, 32, .W1C, 0⟩
  | .IRQ_STORM_FLAG => ⟨.IRQ_STORM, 0, 32, .W1C, 0⟩
  | .IRQ_DOORBELL_VALUE => ⟨.IRQ_DOORBELL, 0, 32, .WO, 0⟩
  | .IRQ_ROUTE_KIND => ⟨.IRQ_ROUTE, 0, 3, .RW, 0⟩
  | .IRQ_ROUTE_FUNC => ⟨.IRQ_ROUTE, 3, 12, .RW, 0⟩
  | .IRQ_ROUTE_INDEX => ⟨.IRQ_ROUTE, 15, 11, .RW, 0⟩
  | .IRQ_ROUTE_LEVEL => ⟨.IRQ_ROUTE, 26, 1, .RW, 0⟩
  | .IRQ_ROUTE_STORM_EN => ⟨.IRQ_ROUTE, 27, 1, .RW, 1⟩
  | .IRQ_ROUTE_DB_HOST => ⟨.IRQ_ROUTE, 32, 1, .RW, 0⟩
  | .IRQ_ROUTE_DB_CORE => ⟨.IRQ_ROUTE, 33, 1, .RW, 1⟩
  | .IRQ_ROUTE_DB_DMA => ⟨.IRQ_ROUTE, 34, 1, .RW, 0⟩
  | .IRQ_ROUTE_DB_PORT_ANY => ⟨.IRQ_ROUTE, 35, 1, .RW, 0⟩
  | .IRQ_ROUTE_DB_PORT_ONE => ⟨.IRQ_ROUTE, 36, 1, .RW, 0⟩
  | .IRQ_ROUTE_DB_PORT => ⟨.IRQ_ROUTE, 37, 4, .RW, 0⟩
  | .IRQ_SRC_STS_STATE => ⟨.IRQ_SRC_STS, 0, 2, .RO, 0⟩
  | .IRQ_SRC_STS_LEVEL_IN => ⟨.IRQ_SRC_STS, 2, 1, .RO, 0⟩
  | .IRQ_SRC_STS_STORM => ⟨.IRQ_SRC_STS, 3, 1, .RO, 0⟩
  | .IRQ_SRC_STS_WIN_CNT => ⟨.IRQ_SRC_STS, 4, 7, .RO, 0⟩
  | .IRQ_SRC_STS_HOLD => ⟨.IRQ_SRC_STS, 11, 2, .RO, 0⟩
  | .IRQ_SRC_STS_CORE => ⟨.IRQ_SRC_STS, 13, 2, .RO, 0⟩
  | .HST_LINK_CAP_MAX_RATE => ⟨.HST_LINK_CAP, 0, 4, .RO, 7⟩
  | .HST_LINK_CAP_MAX_WIDTH => ⟨.HST_LINK_CAP, 4, 5, .RO, 16⟩
  | .HST_LINK_CAP_FLIT => ⟨.HST_LINK_CAP, 9, 1, .RO, 1⟩
  | .HST_LINK_CAP_L0P => ⟨.HST_LINK_CAP, 10, 1, .RO, 1⟩
  | .HST_LINK_CAP_L1SS => ⟨.HST_LINK_CAP, 11, 1, .RO, 1⟩
  | .HST_LINK_CAP_UPCFG => ⟨.HST_LINK_CAP, 12, 1, .RO, 1⟩
  | .HST_LINK_CAP_SRIS => ⟨.HST_LINK_CAP, 13, 1, .RO, 1⟩
  | .HST_LINK_CAP_MARGIN => ⟨.HST_LINK_CAP, 14, 1, .RO, 1⟩
  | .HST_LINK_CTL_RATE_LIMIT => ⟨.HST_LINK_CTL, 0, 4, .RW, 7⟩
  | .HST_LINK_CTL_WIDTH_LIMIT => ⟨.HST_LINK_CTL, 4, 5, .RW, 16⟩
  | .HST_LINK_CTL_L0P_AUTO => ⟨.HST_LINK_CTL, 9, 1, .RW, 1⟩
  | .HST_LINK_CTL_L1_AUTO => ⟨.HST_LINK_CTL, 10, 1, .RW, 1⟩
  | .HST_LINK_CTL_AUTO_REWIDEN => ⟨.HST_LINK_CTL, 11, 1, .RW, 0⟩
  | .HST_LINK_CTL_LANE_ACT => ⟨.HST_LINK_CTL, 12, 1, .RW, 1⟩
  | .HST_LINK_CTL_RETRAIN => ⟨.HST_LINK_CTL, 13, 1, .WO, 0⟩
  | .HST_LINK_CTL_L0P_MIN => ⟨.HST_LINK_CTL, 14, 5, .RW, 4⟩
  | .HST_LINK_STS_RATE => ⟨.HST_LINK_STS, 0, 4, .RO, 0⟩
  | .HST_LINK_STS_WIDTH => ⟨.HST_LINK_STS, 4, 5, .RO, 0⟩
  | .HST_LINK_STS_FLIT => ⟨.HST_LINK_STS, 9, 1, .RO, 0⟩
  | .HST_LINK_STS_REVERSED => ⟨.HST_LINK_STS, 10, 1, .RO, 0⟩
  | .HST_LINK_STS_DL_UP => ⟨.HST_LINK_STS, 11, 1, .RO, 0⟩
  | .HST_LINK_STS_L0P_WIDTH => ⟨.HST_LINK_STS, 12, 5, .RO, 0⟩
  | .HST_LINK_STS_LTSSM => ⟨.HST_LINK_STS, 17, 6, .RO, 0⟩
  | .HST_LINK_STS_CONTAINED => ⟨.HST_LINK_STS, 23, 1, .RO, 0⟩
  | .HST_LANE_FAIL_FAILED => ⟨.HST_LANE_FAIL, 0, 16, .W1C, 0⟩
  | .HST_LANE_FAIL_EXCLUDE => ⟨.HST_LANE_FAIL, 16, 16, .RW, 0⟩
  | .HST_LANE_ERR_THR_THRESHOLD => ⟨.HST_LANE_ERR_THR, 0, 16, .RW, 4096⟩
  | .HST_PM_CTL_L1_IDLE => ⟨.HST_PM_CTL, 0, 10, .RW, 16⟩
  | .HST_PM_CTL_L0P_LOW => ⟨.HST_PM_CTL, 16, 7, .RW, 40⟩
  | .HST_PM_CTL_L0P_HIGH => ⟨.HST_PM_CTL, 24, 7, .RW, 75⟩
  | .HST_CLK_CFG_MODE => ⟨.HST_CLK_CFG, 0, 2, .RW, 0⟩
  | .HST_CLK_CFG_ACTIVE => ⟨.HST_CLK_CFG, 2, 2, .RO, 0⟩
  | .HST_CLK_CFG_REFCLK_OK => ⟨.HST_CLK_CFG, 4, 1, .RO, 0⟩
  | .HST_EVT_DL_UP => ⟨.HST_EVT, 0, 1, .W1C, 0⟩
  | .HST_EVT_DL_DOWN => ⟨.HST_EVT, 1, 1, .W1C, 0⟩
  | .HST_EVT_SURPRISE_LOSS => ⟨.HST_EVT, 2, 1, .W1C, 0⟩
  | .HST_EVT_HOT_RESET => ⟨.HST_EVT, 3, 1, .W1C, 0⟩
  | .HST_EVT_PERST_ASSERT => ⟨.HST_EVT, 4, 1, .W1C, 0⟩
  | .HST_EVT_PERST_DEASSERT => ⟨.HST_EVT, 5, 1, .W1C, 0⟩
  | .HST_EVT_RATE_CHG => ⟨.HST_EVT, 6, 1, .W1C, 0⟩
  | .HST_EVT_WIDTH_CHG => ⟨.HST_EVT, 7, 1, .W1C, 0⟩
  | .HST_EVT_L0P_CHG => ⟨.HST_EVT, 8, 1, .W1C, 0⟩
  | .HST_EVT_LANE_FAIL => ⟨.HST_EVT, 9, 1, .W1C, 0⟩
  | .HST_EVT_RECOVERY => ⟨.HST_EVT, 10, 1, .W1C, 0⟩
  | .HST_EVT_LINK_DISABLE => ⟨.HST_EVT, 11, 1, .W1C, 0⟩
  | .HST_EVT_L2_ENTRY => ⟨.HST_EVT, 12, 1, .W1C, 0⟩
  | .HST_EVT_EN_MASK => ⟨.HST_EVT_EN, 0, 13, .RW, 0⟩
  | .HST_RECOV_CNT_RECOVERY => ⟨.HST_RECOV_CNT, 0, 16, .RC, 0⟩
  | .HST_RECOV_CNT_DOWNCFG => ⟨.HST_RECOV_CNT, 16, 16, .RC, 0⟩
  | .HST_FLIT_CNT_REPLAY => ⟨.HST_FLIT_CNT, 0, 32, .RC, 0⟩
  | .HST_LANE_ERR_CNT_CORR => ⟨.HST_LANE_ERR_CNT, 0, 32, .RC, 0⟩
  | .HST_CONT_STS_CONTAINED => ⟨.HST_CONT_STS, 0, 1, .RO, 0⟩
  | .HST_CONT_STS_CAUSE => ⟨.HST_CONT_STS, 1, 4, .RO, 0⟩
  | .HST_CONT_STS_MORE => ⟨.HST_CONT_STS, 5, 1, .W1C, 0⟩
  | .HST_CONT_STS_FN_CONT_SEEN => ⟨.HST_CONT_STS, 6, 1, .W1C, 0⟩
  | .HST_CONT_STS_REL_RESULT => ⟨.HST_CONT_STS, 7, 3, .RO, 0⟩
  | .HST_CONT_TIME_TIME => ⟨.HST_CONT_TIME, 0, 64, .RO, 0⟩
  | .HST_CONT_REL_KEY => ⟨.HST_CONT_REL, 0, 8, .WO, 0⟩
  | .HST_CONT_REL_LEDGER_FAIL => ⟨.HST_CONT_REL, 8, 1, .RW, 0⟩
  | .HST_CONT_REL_DMA_ABORT => ⟨.HST_CONT_REL, 9, 1, .RW, 0⟩
  | .HST_CONT_REL_ENTER => ⟨.HST_CONT_REL, 10, 1, .WO, 0⟩
  | .HST_CONT_DROP_DROPS => ⟨.HST_CONT_DROP, 0, 32, .RC, 0⟩
  | .FN_ID_RID => ⟨.FN_ID, 0, 16, .RO, 0⟩
  | .FN_ID_KIND => ⟨.FN_ID, 16, 2, .RO, 0⟩
  | .FN_ID_PARENT => ⟨.FN_ID, 18, 2, .RO, 0⟩
  | .FN_ID_VF_INDEX => ⟨.FN_ID, 20, 11, .RO, 0⟩
  | .FN_STS_STATE => ⟨.FN_STS, 0, 3, .RO, 0⟩
  | .FN_STS_BME => ⟨.FN_STS, 3, 1, .RO, 0⟩
  | .FN_STS_MSE => ⟨.FN_STS, 4, 1, .RO, 0⟩
  | .FN_STS_MASTER_OFF => ⟨.FN_STS, 5, 1, .W1C, 0⟩
  | .FN_STS_EVQ_OVF => ⟨.FN_STS, 6, 1, .W1C, 0⟩
  | .FN_STS_ABANDONED => ⟨.FN_STS, 7, 1, .W1C, 0⟩
  | .FN_STS_RES_DROP => ⟨.FN_STS, 8, 1, .W1C, 0⟩
  | .FN_CTL_EVT_VEC => ⟨.FN_CTL, 0, 11, .RW, 0⟩
  | .FN_CTL_EVT_EN => ⟨.FN_CTL, 16, 1, .RW, 0⟩
  | .FN_CTL_ADVISORY_EN => ⟨.FN_CTL, 17, 1, .RW, 0⟩
  | .FN_CTL_PROV_LOCK => ⟨.FN_CTL, 24, 1, .RWP, 0⟩
  | .FN_RINSE_LEFT => ⟨.FN_RINSE, 0, 17, .RO, 0⟩
  | .FN_RINSE_CAUSE => ⟨.FN_RINSE, 17, 2, .RO, 0⟩
  | .FN_RINSE_DEADLINE => ⟨.FN_RINSE, 19, 1, .RO, 0⟩
  | .FN_RINSE_DROP_DROP => ⟨.FN_RINSE_DROP, 0, 32, .RC, 0⟩
  | .FN_RINSE_LATE_LATE => ⟨.FN_RINSE_LATE, 0, 32, .RC, 0⟩
  | .FN_ADV_CNT_DISCARD => ⟨.FN_ADV_CNT, 0, 16, .RC, 0⟩
  | .FN_ADV_CNT_UNEXP => ⟨.FN_ADV_CNT, 16, 16, .RC, 0⟩
  | .FN_VIEW_DENY_CNT => ⟨.FN_VIEW_DENY, 0, 24, .RC, 0⟩
  | .FN_VIEW_DENY_LAST_OFF => ⟨.FN_VIEW_DENY, 24, 8, .RO, 0⟩
  | .FN_EVQ_BASE_BASE => ⟨.FN_EVQ_BASE, 0, 64, .RW, 0⟩
  | .FN_EVQ_CFG_LOG2N => ⟨.FN_EVQ_CFG, 0, 4, .RW, 4⟩
  | .FN_EVQ_CFG_EN => ⟨.FN_EVQ_CFG, 4, 1, .RW, 0⟩
  | .FN_EVQ_HEAD_HEAD => ⟨.FN_EVQ_HEAD, 0, 12, .RW, 0⟩
  | .FN_EVQ_TAIL_TAIL => ⟨.FN_EVQ_TAIL, 0, 12, .RO, 0⟩
  | .FN_RES_FIRST_CTX => ⟨.FN_RES, 0, 12, .RWP, 0⟩
  | .FN_RES_CTX_COUNT => ⟨.FN_RES, 12, 11, .RWP, 0⟩
  | .FN_CONT_CAUSE => ⟨.FN_CONT, 0, 4, .RO, 0⟩
  | .FN_CONT_REQUEST => ⟨.FN_CONT, 4, 1, .RWP, 0⟩
  | .FN_CONT_RELEASE => ⟨.FN_CONT, 5, 1, .RWP, 0⟩
  | .FN_CONT_REL_RESULT => ⟨.FN_CONT, 6, 2, .RO, 0⟩
  | .FN_CONT_DROPS => ⟨.FN_CONT, 8, 24, .RC, 0⟩
  | .FN_VF_TOTAL_PF1 => ⟨.FN_VF_TOTAL, 0, 11, .RWP, 1024⟩
  | .FN_VF_TOTAL_PF2 => ⟨.FN_VF_TOTAL, 11, 11, .RWP, 512⟩
  | .FN_VF_TOTAL_PF3_HI => ⟨.FN_VF_TOTAL, 22, 10, .RWP, 256⟩
  | .FN_VF_TOTAL_PF3_LO => ⟨.FN_VF_TOTAL, 32, 1, .RWP, 0⟩
  | .FN_SLICE_ERR_DUP => ⟨.FN_SLICE_ERR, 0, 1, .W1C, 0⟩
  | .FN_SLICE_ERR_LAST => ⟨.FN_SLICE_ERR, 1, 8, .RO, 0⟩
  | .FN_SLICE_VALID => ⟨.FN_SLICE, 0, 1, .RWP, 0⟩
  | .FN_SLICE_PRIV_OK => ⟨.FN_SLICE, 1, 1, .RWP, 0⟩
  | .FN_SLICE_EXEC_OK => ⟨.FN_SLICE, 2, 1, .RWP, 0⟩
  | .FN_SLICE_ACTIVE => ⟨.FN_SLICE, 3, 1, .RO, 0⟩
  | .FN_SLICE_FUNC => ⟨.FN_SLICE, 4, 12, .RWP, 0⟩
  | .FN_SLICE_PASID => ⟨.FN_SLICE, 16, 20, .RWP, 0⟩
  | .XLT_CFG_CACHE_EN => ⟨.XLT_CFG, 0, 1, .RW, 1⟩
  | .XLT_CFG_PREF_EN => ⟨.XLT_CFG, 1, 1, .RW, 1⟩
  | .XLT_CFG_STRADDLE_FAULT => ⟨.XLT_CFG, 2, 1, .RW, 0⟩
  | .XLT_TBL_BASE_BASE => ⟨.XLT_TBL_BASE, 24, 24, .RW, 0⟩
  | .XLT_EPOCH_CURRENT => ⟨.XLT_EPOCH, 0, 16, .RO, 0⟩
  | .XLT_EPOCH_ADVANCE => ⟨.XLT_EPOCH, 16, 1, .WO, 0⟩
  | .XLT_EPOCH_LIVE => ⟨.XLT_EPOCH, 17, 4, .RO, 1⟩
  | .XLT_EPOCH_DRAIN_OLDEST => ⟨.XLT_EPOCH_DRAIN, 0, 16, .RO, 0⟩
  | .XLT_EPOCH_DRAIN_DRAINED => ⟨.XLT_EPOCH_DRAIN, 31, 1, .RO, 0⟩
  | .XLT_UPD_DATA_WORD => ⟨.XLT_UPD_DATA, 0, 64, .RW, 0⟩
  | .XLT_UPD_CMD_INDEX => ⟨.XLT_UPD_CMD, 0, 19, .RW, 0⟩
  | .XLT_UPD_CMD_OP => ⟨.XLT_UPD_CMD, 20, 2, .RW, 0⟩
  | .XLT_UPD_CMD_GO => ⟨.XLT_UPD_CMD, 31, 1, .WO, 0⟩
  | .XLT_UPD_STS_BUSY => ⟨.XLT_UPD_STS, 0, 1, .RO, 0⟩
  | .XLT_UPD_STS_RESULT => ⟨.XLT_UPD_STS, 1, 4, .RO, 0⟩
  | .XLT_UPD_STS_DROPPED => ⟨.XLT_UPD_STS, 5, 1, .W1C, 0⟩
  | .XLT_UPD_STS_UNMIRRORED => ⟨.XLT_UPD_STS, 6, 1, .W1C, 0⟩
  | .XLT_UPD_STS_BASE_REFUSED => ⟨.XLT_UPD_STS, 7, 1, .W1C, 0⟩
  | .XLT_UPD_STS_LAST_INDEX => ⟨.XLT_UPD_STS, 8, 19, .RO, 0⟩
  | .XLT_PREF_CFG_LIFE => ⟨.XLT_PREF_CFG, 0, 14, .RW, 1000⟩
  | .XLT_PIN_CNT_PINNED => ⟨.XLT_PIN_CNT, 0, 13, .RO, 0⟩
  | .XLT_FAULT_ADDR_ADDR => ⟨.XLT_FAULT_ADDR, 0, 64, .RO, 0⟩
  | .XLT_FAULT_INFO_CAUSE => ⟨.XLT_FAULT_INFO, 0, 4, .RO, 0⟩
  | .XLT_FAULT_INFO_CLASS => ⟨.XLT_FAULT_INFO, 4, 3, .RO, 0⟩
  | .XLT_FAULT_INFO_REQ => ⟨.XLT_FAULT_INFO, 7, 12, .RO, 0⟩
  | .XLT_FAULT_INFO_WRITE => ⟨.XLT_FAULT_INFO, 19, 1, .RO, 0⟩
  | .XLT_FAULT_INFO_VALID => ⟨.XLT_FAULT_INFO, 31, 1, .W1C, 0⟩
  | .XLT_HIT_CNT_HIT => ⟨.XLT_HIT_CNT, 0, 32, .RC, 0⟩
  | .XLT_MISS_CNT_MISS => ⟨.XLT_MISS_CNT, 0, 32, .RC, 0⟩
  | .XLT_SLOW_CNT_SLOW => ⟨.XLT_SLOW_CNT, 0, 32, .RC, 0⟩
  | .XLT_STRADDLE_CNT_STRADDLE => ⟨.XLT_STRADDLE_CNT, 0, 32, .RC, 0⟩
  | .XLT_SPLIT_CNT_SPLIT => ⟨.XLT_SPLIT_CNT, 0, 32, .RC, 0⟩
  | .XLT_PREF_HIT_CNT_PREF_HIT => ⟨.XLT_PREF_HIT_CNT, 0, 32, .RC, 0⟩
  | .XLT_PROT_DROP_PROT_DROP => ⟨.XLT_PROT_DROP, 0, 32, .RC, 0⟩
  | .GRD_STS_NOTICE => ⟨.GRD_STS, 0, 1, .W1C, 0⟩
  | .GRD_STS_SHADOW_ERR => ⟨.GRD_STS, 1, 1, .W1C, 0⟩
  | .GRD_EPOCH_CURRENT => ⟨.GRD_EPOCH, 0, 16, .RO, 0⟩
  | .GRD_EPOCH_ADVANCE => ⟨.GRD_EPOCH, 16, 1, .WO, 0⟩
  | .GRD_EPOCH_LIVE => ⟨.GRD_EPOCH, 17, 4, .RO, 1⟩
  | .GRD_EPOCH_DRAIN_OLDEST => ⟨.GRD_EPOCH_DRAIN, 0, 16, .RO, 0⟩
  | .GRD_EPOCH_DRAIN_DRAINED => ⟨.GRD_EPOCH_DRAIN, 31, 1, .RO, 0⟩
  | .GRD_UPD_DATA_WORD => ⟨.GRD_UPD_DATA, 0, 64, .RW, 0⟩
  | .GRD_UPD_CMD_REGION => ⟨.GRD_UPD_CMD, 0, 5, .RW, 0⟩
  | .GRD_UPD_CMD_SET => ⟨.GRD_UPD_CMD, 5, 5, .RW, 0⟩
  | .GRD_UPD_CMD_GO => ⟨.GRD_UPD_CMD, 31, 1, .WO, 0⟩
  | .GRD_UPD_STS_BUSY => ⟨.GRD_UPD_STS, 0, 1, .RO, 0⟩
  | .GRD_UPD_STS_RESULT => ⟨.GRD_UPD_STS, 1, 2, .RO, 0⟩
  | .GRD_UPD_STS_DROPPED => ⟨.GRD_UPD_STS, 3, 1, .W1C, 0⟩
  | .GRD_UPD_STS_UNMIRRORED => ⟨.GRD_UPD_STS, 4, 1, .W1C, 0⟩
  | .GRD_UPD_STS_LAST_REGION => ⟨.GRD_UPD_STS, 5, 5, .RO, 0⟩
  | .GRD_UPD_STS_LAST_SET => ⟨.GRD_UPD_STS, 10, 5, .RO, 0⟩
  | .GRD_SHADOW_BASE_BASE => ⟨.GRD_SHADOW_BASE, 16, 32, .RW, 0x1ff100⟩
  | .GRD_FAULT_ADDR_ADDR => ⟨.GRD_FAULT_ADDR, 0, 64, .RO, 0⟩
  | .GRD_FAULT_INFO_CAUSE => ⟨.GRD_FAULT_INFO, 0, 4, .RO, 0⟩
  | .GRD_FAULT_INFO_CLASS => ⟨.GRD_FAULT_INFO, 4, 3, .RO, 0⟩
  | .GRD_FAULT_INFO_REQ => ⟨.GRD_FAULT_INFO, 7, 12, .RO, 0⟩
  | .GRD_FAULT_INFO_WRITE => ⟨.GRD_FAULT_INFO, 19, 1, .RO, 0⟩
  | .GRD_FAULT_INFO_EXEC => ⟨.GRD_FAULT_INFO, 20, 1, .RO, 0⟩
  | .GRD_FAULT_INFO_PRIV => ⟨.GRD_FAULT_INFO, 21, 1, .RO, 0⟩
  | .GRD_FAULT_INFO_SET => ⟨.GRD_FAULT_INFO, 22, 5, .RO, 0⟩
  | .GRD_FAULT_INFO_REGION => ⟨.GRD_FAULT_INFO, 27, 5, .RO, 0⟩
  | .GRD_FAULT_INFO_REGION_HIT => ⟨.GRD_FAULT_INFO, 32, 1, .RO, 0⟩
  | .GRD_FAULT_INFO_VALID => ⟨.GRD_FAULT_INFO, 63, 1, .W1C, 0⟩
  | .GRD_FAULT_CNT_FAULTS => ⟨.GRD_FAULT_CNT, 0, 32, .RC, 0⟩
  | .GRD_NOTICE_CNT_NOTICES => ⟨.GRD_NOTICE_CNT, 0, 32, .RC, 0⟩
  | .GRD_SET_CFG_DEF_EN => ⟨.GRD_SET_CFG, 0, 1, .RW, 1⟩
  | .GRD_SET_CFG_SPAN_FAULT => ⟨.GRD_SET_CFG, 1, 1, .RW, 0⟩
  | .GRD_SET_CFG_HOST_PR => ⟨.GRD_SET_CFG, 2, 1, .RW, 1⟩
  | .GRD_SET_CFG_HOST_PW => ⟨.GRD_SET_CFG, 3, 1, .RW, 1⟩
  | .GRD_SET_CFG_HOST_UR => ⟨.GRD_SET_CFG, 4, 1, .RW, 1⟩
  | .GRD_SET_CFG_HOST_UW => ⟨.GRD_SET_CFG, 5, 1, .RW, 1⟩
  | .GRD_REGION_WORD => ⟨.GRD_REGION, 0, 64, .RO, 0⟩
  | .LDG_CFG_CPL_ORDER => ⟨.LDG_CFG, 0, 1, .RW, 0⟩
  | .LDG_CFG_PAIR_MAX => ⟨.LDG_CFG, 1, 12, .RW, 1024⟩
  | .LDG_CFG_OVF_EN => ⟨.LDG_CFG, 13, 1, .RW, 1⟩
  | .LDG_TMO_WR_TMO => ⟨.LDG_TMO, 0, 16, .RW, 8000⟩
  | .LDG_TMO_RD_TMO => ⟨.LDG_TMO, 16, 16, .RW, 4000⟩
  | .LDG_OVF_BASE_BASE => ⟨.LDG_OVF_BASE, 28, 20, .RW, 510⟩
  | .LDG_STS_OPEN => ⟨.LDG_STS, 0, 18, .RO, 0⟩
  | .LDG_STS_OVF_IN_USE => ⟨.LDG_STS, 18, 1, .RO, 0⟩
  | .LDG_STS_FULL_SEEN => ⟨.LDG_STS, 19, 1, .W1C, 0⟩
  | .LDG_STS_OVF_ERR => ⟨.LDG_STS, 20, 1, .W1C, 0⟩
  | .LDG_ERR_CNT_ERR => ⟨.LDG_ERR_CNT, 0, 32, .RC, 0⟩
  | .LDG_RETRY_CNT_RETRY => ⟨.LDG_RETRY_CNT, 0, 32, .RC, 0⟩
  | .LDG_LATE_CNT_LATE => ⟨.LDG_LATE_CNT, 0, 32, .RC, 0⟩
  | .LDG_NOTICE_MISS_MISS => ⟨.LDG_NOTICE_MISS, 0, 32, .RC, 0⟩
  | .LDG_STARCH_CFG_HOLD_MAX => ⟨.LDG_STARCH_CFG, 0, 16, .RW, 10⟩
  | .LDG_STARCH_CFG_HOST_RUN => ⟨.LDG_STARCH_CFG, 16, 5, .RW, 16⟩
  | .LDG_STARCH_STS_HELD => ⟨.LDG_STARCH_STS, 0, 11, .RO, 0⟩
  | .LDG_STARCH_STS_FULL_SEEN => ⟨.LDG_STARCH_STS, 11, 1, .W1C, 0⟩
  | .LDG_STARCH_STS_FORCED => ⟨.LDG_STARCH_STS, 12, 1, .W1C, 0⟩
  | .LDG_SEQ_NEXT => ⟨.LDG_SEQ, 0, 16, .RO, 0⟩
  | .LDG_SEQ_OLDEST => ⟨.LDG_SEQ, 16, 16, .RO, 0⟩
  | .LDG_SEQ_OPEN => ⟨.LDG_SEQ, 32, 12, .RO, 0⟩
  | .BSK_CFG_FN_MAX => ⟨.BSK_CFG, 0, 13, .RW, 4096⟩
  | .BSK_STS_FREE => ⟨.BSK_STS, 0, 13, .RO, 4096⟩
  | .BSK_STS_QUAR => ⟨.BSK_STS, 13, 13, .RO, 0⟩
  | .BSK_CPL_STS_FREE_UNITS => ⟨.BSK_CPL_STS, 0, 14, .RO, 8192⟩
  | .BSK_CPL_STS_WAITING => ⟨.BSK_CPL_STS, 14, 1, .RO, 0⟩
  | .BSK_TMO_CNT_TMO => ⟨.BSK_TMO_CNT, 0, 32, .RC, 0⟩
  | .BSK_UNEXP_CNT_UNEXP => ⟨.BSK_UNEXP_CNT, 0, 32, .RC, 0⟩
  | .BSK_DISCARD_CNT_DISCARD => ⟨.BSK_DISCARD_CNT, 0, 32, .RC, 0⟩
  | .BSK_WAIT_CNT_WAIT => ⟨.BSK_WAIT_CNT, 0, 32, .RC, 0⟩
  | .DMA_CFG_EN => ⟨.DMA_CFG, 0, 1, .RW, 1⟩
  | .DMA_CFG_DONE_COAL => ⟨.DMA_CFG, 1, 10, .RW, 100⟩
  | .DMA_CFG_HI_RESV => ⟨.DMA_CFG, 11, 7, .RW, 8⟩
  | .DMA_STS_POOL_IDLE => ⟨.DMA_STS, 0, 9, .RO, 256⟩
  | .DMA_STS_RUNNING => ⟨.DMA_STS, 9, 9, .RO, 0⟩
  | .DMA_STS_DRAINING => ⟨.DMA_STS, 18, 1, .RO, 0⟩
  | .DMA_ERR_CNT_ERR => ⟨.DMA_ERR_CNT, 0, 32, .RC, 0⟩
  | .DMA_ABORT_CNT_ABORT => ⟨.DMA_ABORT_CNT, 0, 32, .RC, 0⟩
  | .DMA_PREEMPT_CNT_PREEMPT => ⟨.DMA_PREEMPT_CNT, 0, 32, .RC, 0⟩
  | .DMA_GRANT_CHANNEL => ⟨.DMA_GRANT, 0, 8, .RW, 0⟩
  | .DMA_GRANT_VALID => ⟨.DMA_GRANT, 8, 1, .RW, 0⟩
  | .DMA_GRANT_SLICE_EN => ⟨.DMA_GRANT, 9, 1, .RW, 0⟩
  | .DMA_GRANT_SLICE => ⟨.DMA_GRANT, 10, 8, .RW, 0⟩
  | .DMA_CH_OP_WORD => ⟨.DMA_CH_OP, 0, 64, .RW, 0⟩
  | .DMA_CH_COUNT_WORD => ⟨.DMA_CH_COUNT, 0, 64, .RW, 0⟩
  | .DMA_CH_SRC_WORD => ⟨.DMA_CH_SRC, 0, 64, .RW, 0⟩
  | .DMA_CH_DST_WORD => ⟨.DMA_CH_DST, 0, 64, .RW, 0⟩
  | .DMA_CH_STRIDE_WORD => ⟨.DMA_CH_STRIDE, 0, 64, .RW, 0⟩
  | .DMA_CH_PATTERN_WORD => ⟨.DMA_CH_PATTERN, 0, 64, .RW, 0⟩
  | .DMA_CH_CTL_START => ⟨.DMA_CH_CTL, 0, 1, .WO, 0⟩
  | .DMA_CH_CTL_ABORT => ⟨.DMA_CH_CTL, 1, 1, .WO, 0⟩
  | .DMA_CH_CTL_RESUME => ⟨.DMA_CH_CTL, 2, 1, .WO, 0⟩
  | .DMA_CH_CTL_CLEAR => ⟨.DMA_CH_CTL, 3, 1, .WO, 0⟩
  | .DMA_CH_STS_STATE => ⟨.DMA_CH_STS, 0, 3, .RO, 0⟩
  | .DMA_CH_STS_STATUS => ⟨.DMA_CH_STS, 4, 8, .RO, 0⟩
  | .DMA_CH_STS_FLAGS => ⟨.DMA_CH_STS, 12, 8, .RO, 0⟩
  | .DMA_CH_STS_START_DROP => ⟨.DMA_CH_STS, 20, 1, .W1C, 0⟩
  | .DMA_CH_STS_REC_HELD => ⟨.DMA_CH_STS, 21, 1, .RO, 0⟩
  | .DMA_CH_RESIDUE_RESIDUE => ⟨.DMA_CH_RESIDUE, 0, 40, .RO, 0⟩
  | .DMA_CH_ERR_OFF_OFFSET => ⟨.DMA_CH_ERR_OFF, 0, 40, .RO, 0⟩
  | .DMA_CH_CFG_MODE => ⟨.DMA_CH_CFG, 0, 1, .RWP, 1⟩
  | .DMA_CH_CFG_SLICE_EN => ⟨.DMA_CH_CFG, 1, 1, .RWP, 0⟩
  | .DMA_CH_CFG_OWNER => ⟨.DMA_CH_CFG, 2, 12, .RWP, 0⟩
  | .DMA_CH_CFG_SLICE => ⟨.DMA_CH_CFG, 14, 8, .RWP, 0⟩
  | .DMA_CH_CFG_IRQ_EN => ⟨.DMA_CH_CFG, 22, 1, .RW, 0⟩
  | .DMA_CH_CFG_WB_EN => ⟨.DMA_CH_CFG, 23, 1, .RW, 0⟩
  | .DMA_CH_CFG_WB_SPACE => ⟨.DMA_CH_CFG, 24, 2, .RW, 0⟩
  | .DMA_CH_CFG_IRQ_SRC => ⟨.DMA_CH_CFG, 32, 14, .RW, 0⟩
  | .DMA_CH_WB_ADDR => ⟨.DMA_CH_WB, 5, 59, .RW, 0⟩
  | .DMA_CH_RUNS_RUNS => ⟨.DMA_CH_RUNS, 0, 32, .RO, 0⟩
  | .DMA_SQ_BASE_BASE => ⟨.DMA_SQ_BASE, 12, 52, .RW, 0⟩
  | .DMA_SQ_CFG_LOG2N => ⟨.DMA_SQ_CFG, 0, 5, .RW, 4⟩
  | .DMA_SQ_CFG_SPACE => ⟨.DMA_SQ_CFG, 5, 2, .RW, 1⟩
  | .DMA_SQ_CFG_EN => ⟨.DMA_SQ_CFG, 7, 1, .RW, 0⟩
  | .DMA_SQ_CFG_PAR => ⟨.DMA_SQ_CFG, 8, 4, .RW, 1⟩
  | .DMA_SQ_STS_HEAD => ⟨.DMA_SQ_STS, 0, 16, .RO, 0⟩
  | .DMA_SQ_STS_PHASE => ⟨.DMA_SQ_STS, 16, 1, .RO, 1⟩
  | .DMA_SQ_STS_STATE => ⟨.DMA_SQ_STS, 17, 2, .RO, 0⟩
  | .DMA_SQ_STS_FETCH_ERR => ⟨.DMA_SQ_STS, 19, 1, .W1C, 0⟩
  | .DMA_SQ_STS_DESC_ERR => ⟨.DMA_SQ_STS, 20, 1, .W1C, 0⟩
  | .DMA_SQ_STS_RUNNING => ⟨.DMA_SQ_STS, 21, 4, .RO, 0⟩
  | .DMA_CQ_BASE_BASE => ⟨.DMA_CQ_BASE, 12, 52, .RW, 0⟩
  | .DMA_CQ_CFG_LOG2N => ⟨.DMA_CQ_CFG, 0, 5, .RW, 4⟩
  | .DMA_CQ_CFG_SPACE => ⟨.DMA_CQ_CFG, 5, 2, .RW, 1⟩
  | .DMA_CQ_CFG_EN => ⟨.DMA_CQ_CFG, 7, 1, .RW, 0⟩
  | .DMA_CQ_PTR_TAIL => ⟨.DMA_CQ_PTR, 0, 16, .RO, 0⟩
  | .DMA_CQ_PTR_HEAD => ⟨.DMA_CQ_PTR, 16, 16, .RW, 0⟩
  | .DMA_CQ_PTR_PHASE => ⟨.DMA_CQ_PTR, 32, 1, .RO, 1⟩
  | .DMA_RING_CTL_RESUME => ⟨.DMA_RING_CTL, 0, 1, .WO, 0⟩
  | .DMA_RING_CTL_RESET => ⟨.DMA_RING_CTL, 1, 1, .WO, 0⟩
  | .SHR_CFG_EN => ⟨.SHR_CFG, 0, 1, .RW, 1⟩
  | .SHR_CFG_C2_RSV => ⟨.SHR_CFG, 1, 7, .RW, 10⟩
  | .SHR_CFG_CARRY => ⟨.SHR_CFG, 8, 4, .RW, 4⟩
  | .SHR_CFG_CLEAN_STEPS => ⟨.SHR_CFG, 12, 4, .RW, 10⟩
  | .SHR_CFG_BE_MIN => ⟨.SHR_CFG, 16, 7, .RW, 25⟩
  | .SHR_CFG_IN_FN_MAX => ⟨.SHR_CFG, 23, 9, .RW, 64⟩
  | .SHR_STS_SPILL_IN_USE => ⟨.SHR_STS, 0, 1, .RO, 0⟩
  | .SHR_STS_SPILL_FULL => ⟨.SHR_STS, 1, 1, .W1C, 0⟩
  | .SHR_STS_LEVEL_CHG => ⟨.SHR_STS, 2, 1, .W1C, 0⟩
  | .SHR_STS_ADMIT_REFUSED => ⟨.SHR_STS, 3, 1, .W1C, 0⟩
  | .SHR_STS_BIND_DROP => ⟨.SHR_STS, 4, 1, .W1C, 0⟩
  | .SHR_STS_WORST_LEVEL => ⟨.SHR_STS, 5, 2, .RO, 0⟩
  | .SHR_STS_WORST_RES => ⟨.SHR_STS, 7, 6, .RO, 0⟩
  | .SHR_SPILL_BASE_BASE => ⟨.SHR_SPILL_BASE, 26, 22, .RW, 2039⟩
  | .SHR_SPILL_USE_USED => ⟨.SHR_SPILL_USE, 0, 17, .RO, 0⟩
  | .SHR_UPD_DATA_SHARE => ⟨.SHR_UPD_DATA, 0, 64, .RW, 0⟩
  | .SHR_UPD_RES_MASK => ⟨.SHR_UPD_RES, 0, 64, .RW, 0⟩
  | .SHR_UPD_CMD_ACCT => ⟨.SHR_UPD_CMD, 0, 13, .RW, 0⟩
  | .SHR_UPD_CMD_GO => ⟨.SHR_UPD_CMD, 31, 1, .WO, 0⟩
  | .SHR_UPD_STS_BUSY => ⟨.SHR_UPD_STS, 0, 1, .RO, 0⟩
  | .SHR_UPD_STS_RESULT => ⟨.SHR_UPD_STS, 1, 3, .RO, 0⟩
  | .SHR_UPD_STS_RES => ⟨.SHR_UPD_STS, 4, 6, .RO, 0⟩
  | .SHR_UPD_STS_DROPPED => ⟨.SHR_UPD_STS, 10, 1, .W1C, 0⟩
  | .SHR_UPD_STS_UNMIRRORED => ⟨.SHR_UPD_STS, 11, 1, .W1C, 0⟩
  | .SHR_UPD_STS_LAST_ACCT => ⟨.SHR_UPD_STS, 12, 13, .RO, 0⟩
  | .SHR_TICK_EPOCHS => ⟨.SHR_TICK, 0, 32, .RO, 0⟩
  | .SHR_TICK_STEPS => ⟨.SHR_TICK, 32, 32, .RO, 0⟩
  | .SHR_DB_DROP_CNT => ⟨.SHR_DB_DROP, 0, 24, .RC, 0⟩
  | .SHR_RES_STS_CAP => ⟨.SHR_RES_STS, 0, 20, .RO, 0⟩
  | .SHR_RES_STS_PRESENT => ⟨.SHR_RES_STS, 20, 1, .RO, 0⟩
  | .SHR_RES_STS_LEVEL => ⟨.SHR_RES_STS, 21, 2, .RO, 0⟩
  | .SHR_RES_STS_FACTOR => ⟨.SHR_RES_STS, 23, 13, .RO, 4096⟩
  | .SHR_RES_STS_BE_PCT => ⟨.SHR_RES_STS, 36, 7, .RO, 100⟩
  | .SHR_RES_SUM_G0 => ⟨.SHR_RES_SUM, 0, 20, .RO, 0⟩
  | .SHR_RES_SUM_G1 => ⟨.SHR_RES_SUM, 20, 20, .RO, 0⟩
  | .SHR_RES_SUM_STEP_CAP => ⟨.SHR_RES_SUM, 40, 20, .RO, 0⟩
  | .SHR_RES_CFG_CAP_OVR => ⟨.SHR_RES_CFG, 0, 20, .RW, 0⟩
  | .SHR_RES_MEAS_USED => ⟨.SHR_RES_MEAS, 0, 20, .RO, 0⟩
  | .SHR_RES_MEAS_C0_LAT_MAX => ⟨.SHR_RES_MEAS, 20, 32, .RO, 0⟩
  | .SHR_PORT_SHARE_SHARE => ⟨.SHR_PORT_SHARE, 0, 64, .RO, 0x1000002⟩
  | .SHR_PORT_RES_MASK => ⟨.SHR_PORT_RES, 0, 64, .RO, 0x7fffffffc⟩
  | .SHR_CTX_BIND_VALID => ⟨.SHR_CTX_BIND, 0, 1, .RW, 0⟩
  | .SHR_CTX_BIND_SLICE_EN => ⟨.SHR_CTX_BIND, 1, 1, .RW, 0⟩
  | .SHR_CTX_BIND_SLICE => ⟨.SHR_CTX_BIND, 2, 8, .RW, 0⟩
  | .SHR_CTX_BIND_FUNC => ⟨.SHR_CTX_BIND, 10, 12, .RW, 0⟩
  | .SHR_CTX_BIND_CHARGE_IN => ⟨.SHR_CTX_BIND, 22, 1, .RW, 0⟩
  | .SHR_CTX_SHARE_SHARE => ⟨.SHR_CTX_SHARE, 0, 64, .RO, 0x1000002⟩
  | .SHR_CTX_RES_MASK => ⟨.SHR_CTX_RES, 0, 64, .RO, 0xfffffffff⟩
  | .SHR_CTX_STS0_WORD => ⟨.SHR_CTX_STS0, 0, 64, .RO, 0⟩
  | .SHR_CTX_STS1_WORD => ⟨.SHR_CTX_STS1, 0, 64, .RO, 0⟩
  | .SHR_CTX_STS2_WORD => ⟨.SHR_CTX_STS2, 0, 64, .RO, 0⟩
  | .SHR_CTX_STS3_WORD => ⟨.SHR_CTX_STS3, 0, 64, .RO, 0⟩
  | .ULK_CTL_EN => ⟨.ULK_CTL, 0, 1, .RW, 0⟩
  | .ULK_CTL_RESET => ⟨.ULK_CTL, 1, 1, .WO, 0⟩
  | .ULK_CTL_ATOM_EMUL => ⟨.ULK_CTL, 2, 1, .RW, 0⟩
  | .ULK_STS_STATE => ⟨.ULK_STS, 0, 2, .RO, 0⟩
  | .ULK_STS_SB_VALID => ⟨.ULK_STS, 2, 1, .RO, 0⟩
  | .ULK_STS_DUAL_OK => ⟨.ULK_STS, 3, 1, .RO, 0⟩
  | .ULK_STS_ATOM_NATIVE => ⟨.ULK_STS, 4, 1, .RO, 0⟩
  | .ULK_STS_TX_UNACK => ⟨.ULK_STS, 5, 12, .RO, 0⟩
  | .ULK_STS_HELD_TAGS => ⟨.ULK_STS, 17, 12, .RO, 0⟩
  | .ULK_STS_DOWN_CAUSE => ⟨.ULK_STS, 29, 3, .RO, 0⟩
  | .ULK_EVT_UP => ⟨.ULK_EVT, 0, 1, .W1C, 0⟩
  | .ULK_EVT_DOWN => ⟨.ULK_EVT, 1, 1, .W1C, 0⟩
  | .ULK_EVT_REPLAY => ⟨.ULK_EVT, 2, 1, .W1C, 0⟩
  | .ULK_EVT_PROTO_ERR => ⟨.ULK_EVT, 3, 1, .W1C, 0⟩
  | .ULK_EVT_SB_CHG => ⟨.ULK_EVT, 4, 1, .W1C, 0⟩
  | .ULK_EVT_LATE_NOTICE => ⟨.ULK_EVT, 5, 1, .W1C, 0⟩
  | .ULK_EVT_DUAL_REFUSED => ⟨.ULK_EVT, 6, 1, .W1C, 0⟩
  | .ULK_EVT_REQ_OVF => ⟨.ULK_EVT, 7, 1, .W1C, 0⟩
  | .ULK_EVT_EN_MASK => ⟨.ULK_EVT_EN, 0, 8, .RW, 0⟩
  | .ULK_FAR_DESIGN_ID => ⟨.ULK_FAR, 0, 32, .RO, 0⟩
  | .ULK_FAR_VERSION => ⟨.ULK_FAR, 32, 8, .RO, 0⟩
  | .ULK_FAR_ATOMIC => ⟨.ULK_FAR, 40, 1, .RO, 0⟩
  | .ULK_FAR_SEQ_AWARE => ⟨.ULK_FAR, 41, 1, .RO, 0⟩
  | .ULK_FAR_DUAL => ⟨.ULK_FAR, 42, 1, .RO, 0⟩
  | .ULK_FAR_DOZE_OK => ⟨.ULK_FAR, 43, 1, .RO, 0⟩
  | .ULK_FAR_DEEP_OK => ⟨.ULK_FAR, 44, 1, .RO, 0⟩
  | .ULK_FAR_SB_MIN => ⟨.ULK_FAR, 45, 12, .RO, 0⟩
  | .ULK_CREDIT_VC0_HDR => ⟨.ULK_CREDIT, 0, 12, .RO, 0⟩
  | .ULK_CREDIT_VC0_DATA => ⟨.ULK_CREDIT, 12, 16, .RO, 0⟩
  | .ULK_CREDIT_VC2_HDR => ⟨.ULK_CREDIT, 28, 12, .RO, 0⟩
  | .ULK_RETRY_CFG_REPLAY_TMO => ⟨.ULK_RETRY_CFG, 0, 10, .RW, 200⟩
  | .ULK_RETRY_CFG_REPLAY_MAX => ⟨.ULK_RETRY_CFG, 10, 4, .RW, 8⟩
  | .ULK_PM_CFG_DOZE_IDLE => ⟨.ULK_PM_CFG, 0, 16, .RW, 2000⟩
  | .ULK_PM_CFG_DEEP_IDLE => ⟨.ULK_PM_CFG, 16, 16, .RW, 1000⟩
  | .ULK_SB_CFG_PERIOD => ⟨.ULK_SB_CFG, 0, 12, .RW, 4⟩
  | .ULK_SB_CFG_POLL_EN => ⟨.ULK_SB_CFG, 12, 1, .RW, 1⟩
  | .ULK_SB_CFG_EFFECTIVE => ⟨.ULK_SB_CFG, 16, 12, .RO, 4⟩
  | .ULK_SB_LATCH_LATCH => ⟨.ULK_SB_LATCH, 0, 64, .RW, 0⟩
  | .ULK_SB_IN_LINES => ⟨.ULK_SB_IN, 0, 64, .RO, 0⟩
  | .ULK_SB_OUT_LINES => ⟨.ULK_SB_OUT, 0, 64, .RW, 0⟩
  | .ULK_SB_EVT_CHG => ⟨.ULK_SB_EVT, 0, 64, .W1C, 0⟩
  | .ULK_REPLAY_CNT_REPLAYS => ⟨.ULK_REPLAY_CNT, 0, 16, .RC, 0⟩
  | .ULK_REPLAY_CNT_NAKS_SENT => ⟨.ULK_REPLAY_CNT, 16, 16, .RC, 0⟩
  | .ULK_PROTO_ERR_CNT => ⟨.ULK_PROTO_ERR, 0, 16, .RC, 0⟩
  | .ULK_PROTO_ERR_LAST_CAUSE => ⟨.ULK_PROTO_ERR, 16, 4, .RO, 0⟩
  | .ULK_SB_SKIP_SKIP => ⟨.ULK_SB_SKIP, 0, 32, .RC, 0⟩
  | .ULK_REQ_CNT_PENDING => ⟨.ULK_REQ_CNT, 0, 16, .RO, 0⟩
  | .ULK_REQ_CNT_OVF => ⟨.ULK_REQ_CNT, 16, 16, .RC, 0⟩
  | .SEM_CTL_PAIR_EN => ⟨.SEM_CTL, 0, 1, .RW, 1⟩
  | .SEM_CTL_HANDOVER => ⟨.SEM_CTL, 1, 1, .WO, 0⟩
  | .SEM_CTL_LEAVE => ⟨.SEM_CTL, 2, 1, .WO, 0⟩
  | .SEM_CTL_SNAP => ⟨.SEM_CTL, 3, 1, .WO, 0⟩
  | .SEM_CTL_AUTO_TAKE => ⟨.SEM_CTL, 4, 1, .RW, 1⟩
  | .SEM_STS_ROLE => ⟨.SEM_STS, 0, 2, .RO, 0⟩
  | .SEM_STS_SYNC => ⟨.SEM_STS, 2, 2, .RO, 0⟩
  | .SEM_STS_TWIN_PRESENT => ⟨.SEM_STS, 4, 1, .RO, 0⟩
  | .SEM_STS_TWIN_ALIVE => ⟨.SEM_STS, 5, 1, .RO, 0⟩
  | .SEM_STS_TWIN_LEADS => ⟨.SEM_STS, 6, 1, .RO, 0⟩
  | .SEM_STS_SEAM_UP => ⟨.SEM_STS, 7, 1, .RO, 0⟩
  | .SEM_STS_SUSPECT => ⟨.SEM_STS, 8, 1, .RO, 0⟩
  | .SEM_STS_HO_BUSY => ⟨.SEM_STS, 9, 1, .RO, 0⟩
  | .SEM_STS_MIRROR_VER => ⟨.SEM_STS, 10, 8, .RO, 0⟩
  | .SEM_STS_TWIN_MVER => ⟨.SEM_STS, 18, 8, .RO, 0⟩
  | .SEM_STS_TWIN_MODE => ⟨.SEM_STS, 26, 3, .RO, 0⟩
  | .SEM_STS_LAST_LOSS => ⟨.SEM_STS, 29, 3, .RO, 0⟩
  | .SEM_EVT_ROLE_CHANGE => ⟨.SEM_EVT, 0, 1, .W1C, 0⟩
  | .SEM_EVT_TWIN_JOINED => ⟨.SEM_EVT, 1, 1, .W1C, 0⟩
  | .SEM_EVT_SYNCED => ⟨.SEM_EVT, 2, 1, .W1C, 0⟩
  | .SEM_EVT_TWIN_LOST => ⟨.SEM_EVT, 3, 1, .W1C, 0⟩
  | .SEM_EVT_SPLIT => ⟨.SEM_EVT, 4, 1, .W1C, 0⟩
  | .SEM_EVT_SUSPECT => ⟨.SEM_EVT, 5, 1, .W1C, 0⟩
  | .SEM_EVT_HO_DONE => ⟨.SEM_EVT, 6, 1, .W1C, 0⟩
  | .SEM_EVT_HO_FAIL => ⟨.SEM_EVT, 7, 1, .W1C, 0⟩
  | .SEM_EVT_CONFLICT => ⟨.SEM_EVT, 8, 1, .W1C, 0⟩
  | .SEM_EVT_MISMATCH => ⟨.SEM_EVT, 9, 1, .W1C, 0⟩
  | .SEM_EVT_ALIVE_FAULT => ⟨.SEM_EVT, 10, 1, .W1C, 0⟩
  | .SEM_EVT_EN_MASK => ⟨.SEM_EVT_EN, 0, 11, .RW, 0⟩
  | .SEM_HB_CFG_MISS => ⟨.SEM_HB_CFG, 0, 4, .RW, 5⟩
  | .SEM_HB_CFG_ALIVE_WIN => ⟨.SEM_HB_CFG, 4, 8, .RW, 20⟩
  | .SEM_HO_CFG_DRAIN_MAX => ⟨.SEM_HO_CFG, 0, 16, .RW, 10000⟩
  | .SEM_TWIN_SERIAL => ⟨.SEM_TWIN, 0, 64, .RO, 0⟩
  | .SEM_TWIN_FW_FW_VER => ⟨.SEM_TWIN_FW, 0, 32, .RO, 0⟩
  | .SEM_PAIR_ID_PAIR_ID => ⟨.SEM_PAIR_ID, 0, 64, .RO, 0⟩
  | .SEM_MSEQ_TX => ⟨.SEM_MSEQ, 0, 32, .RO, 0⟩
  | .SEM_MSEQ_ACK => ⟨.SEM_MSEQ, 32, 32, .RO, 0⟩
  | .SEM_LAG_OUTSTANDING => ⟨.SEM_LAG, 0, 16, .RO, 0⟩
  | .SEM_LAG_ACK_MAX => ⟨.SEM_LAG, 16, 16, .RC, 0⟩
  | .SEM_HB_CNT_MISSES => ⟨.SEM_HB_CNT, 0, 16, .RC, 0⟩
  | .SEM_HB_CNT_SUSPECTS => ⟨.SEM_HB_CNT, 16, 16, .RC, 0⟩
  | .SEM_TAKE_LAST_US => ⟨.SEM_TAKE, 0, 16, .RO, 0⟩
  | .SEM_TAKE_TAKEOVERS => ⟨.SEM_TAKE, 16, 16, .RC, 0⟩
  | .SEM_FOLLOW_DROP_DROPS => ⟨.SEM_FOLLOW_DROP, 0, 32, .RC, 0⟩
  | .LANE_STS_STATE => ⟨.LANE_STS, 0, 4, .RO, 0⟩
  | .LANE_STS_SIG => ⟨.LANE_STS, 4, 1, .RO, 0⟩
  | .LANE_STS_CDR_LOCK => ⟨.LANE_STS, 5, 1, .RO, 0⟩
  | .LANE_STS_BLOCK_LOCK => ⟨.LANE_STS, 6, 1, .RO, 0⟩
  | .LANE_STS_INVERTED => ⟨.LANE_STS, 7, 1, .RO, 0⟩
  | .LANE_STS_CLEAN => ⟨.LANE_STS, 8, 2, .RO, 0⟩
  | .LANE_STS_CLK_SRC => ⟨.LANE_STS, 10, 1, .RO, 0⟩
  | .LANE_STS_TX_DARNED => ⟨.LANE_STS, 11, 1, .RO, 0⟩
  | .LANE_STS_FAIL_CAUSE => ⟨.LANE_STS, 12, 2, .RO, 0⟩
  | .LANE_CTL_FORCE_DARN => ⟨.LANE_CTL, 0, 1, .RW, 0⟩
  | .LANE_CTL_TRIAL_EN => ⟨.LANE_CTL, 1, 1, .RW, 1⟩
  | .LANE_CTL_TRIAL_NOW => ⟨.LANE_CTL, 2, 1, .WO, 0⟩
  | .LANE_CTL_ERR_THR => ⟨.LANE_CTL, 16, 16, .RW, 1024⟩
  | .LANE_TXEQ_PRE => ⟨.LANE_TXEQ, 0, 3, .RO, 1⟩
  | .LANE_TXEQ_POST => ⟨.LANE_TXEQ, 3, 4, .RO, 4⟩
  | .LANE_TXEQ_PRE_INIT => ⟨.LANE_TXEQ, 7, 3, .RW, 1⟩
  | .LANE_TXEQ_POST_INIT => ⟨.LANE_TXEQ, 10, 4, .RW, 4⟩
  | .LANE_TXEQ_HOLD => ⟨.LANE_TXEQ, 14, 1, .RW, 0⟩
  | .LANE_ERR_CNT_SYNC_ERR => ⟨.LANE_ERR_CNT, 0, 16, .RC, 0⟩
  | .LANE_ERR_CNT_MARKER_ERR => ⟨.LANE_ERR_CNT, 16, 16, .RC, 0⟩
  | .LANE_DARN_CNT_DARNS => ⟨.LANE_DARN_CNT, 0, 16, .RC, 0⟩
  | .LANE_DARN_CNT_REINSTATES => ⟨.LANE_DARN_CNT, 16, 16, .RC, 0⟩
  | .LANE_FAR_LINK_ID => ⟨.LANE_FAR, 0, 8, .RO, 0⟩
  | .LANE_FAR_LANE => ⟨.LANE_FAR, 8, 3, .RO, 0⟩
  | .LANE_FAR_RATES => ⟨.LANE_FAR, 11, 3, .RO, 0⟩
  | .LANE_FAR_WIDTH => ⟨.LANE_FAR, 14, 4, .RO, 0⟩
  | .LANE_LINK_CTL_RATE_MAX => ⟨.LANE_LINK_CTL, 0, 2, .RW, 2⟩
  | .LANE_LINK_CTL_DARN_MIN => ⟨.LANE_LINK_CTL, 2, 3, .RW, 1⟩
  | .LANE_LINK_CTL_DOZE_EN => ⟨.LANE_LINK_CTL, 5, 1, .RW, 1⟩
  | .LANE_LINK_CTL_DEEP_EN => ⟨.LANE_LINK_CTL, 6, 1, .RW, 1⟩
  | .LANE_LINK_CTL_ENABLE => ⟨.LANE_LINK_CTL, 7, 1, .RW, 0⟩
  | .LANE_LINK_CTL_RETRAIN => ⟨.LANE_LINK_CTL, 8, 1, .WO, 0⟩
  | .LANE_LINK_CTL_LINK_ID => ⟨.LANE_LINK_CTL, 16, 8, .RW, 0⟩
  | .LANE_LINK_STS_STATE => ⟨.LANE_LINK_STS, 0, 3, .RO, 0⟩
  | .LANE_LINK_STS_RATE => ⟨.LANE_LINK_STS, 3, 2, .RO, 0⟩
  | .LANE_LINK_STS_RX_ACTIVE => ⟨.LANE_LINK_STS, 5, 8, .RO, 0⟩
  | .LANE_LINK_STS_TX_ACTIVE => ⟨.LANE_LINK_STS, 13, 8, .RO, 0⟩
  | .LANE_LINK_STS_DEGRADED => ⟨.LANE_LINK_STS, 21, 1, .RO, 0⟩
  | .LANE_LINK_EVT_UP => ⟨.LANE_LINK_EVT, 0, 1, .W1C, 0⟩
  | .LANE_LINK_EVT_DOWN => ⟨.LANE_LINK_EVT, 1, 1, .W1C, 0⟩
  | .LANE_LINK_EVT_DARN => ⟨.LANE_LINK_EVT, 2, 1, .W1C, 0⟩
  | .LANE_LINK_EVT_REINSTATE => ⟨.LANE_LINK_EVT, 3, 1, .W1C, 0⟩
  | .LANE_LINK_EVT_RATE_LOW => ⟨.LANE_LINK_EVT, 4, 1, .W1C, 0⟩
  | .LANE_LINK_EVT_MISWIRE => ⟨.LANE_LINK_EVT, 5, 1, .W1C, 0⟩
  | .LANE_LINK_EVT_WAKE_FAIL => ⟨.LANE_LINK_EVT, 6, 1, .W1C, 0⟩
  | .LANE_LINK_EVT_EN_MASK => ⟨.LANE_LINK_EVT_EN, 0, 7, .RW, 0⟩
  | .LANE_SKEW_SKEW => ⟨.LANE_SKEW, 0, 12, .RO, 0⟩
  | .LANE_LINK_REMAP_LAST => ⟨.LANE_LINK_REMAP, 0, 16, .RO, 0⟩
  | .LANE_LINK_REMAP_MAX => ⟨.LANE_LINK_REMAP, 16, 16, .RC, 0⟩
  | .MEM_CFG_SCRUB_EN => ⟨.MEM_CFG, 0, 1, .RW, 1⟩
  | .MEM_CFG_SCRUB_S => ⟨.MEM_CFG, 1, 8, .RW, 1⟩
  | .MEM_EVT_CE => ⟨.MEM_EVT, 0, 1, .W1C, 0⟩
  | .MEM_EVT_UE => ⟨.MEM_EVT, 1, 1, .W1C, 0⟩
  | .MEM_EVT_PROT_DROP => ⟨.MEM_EVT, 2, 1, .W1C, 0⟩
  | .MEM_EVT_EN_MASK => ⟨.MEM_EVT_EN, 0, 3, .RW, 0⟩
  | .MEM_ERR_ADDR_ADDR => ⟨.MEM_ERR_ADDR, 0, 48, .RO, 0⟩
  | .MEM_ERR_ADDR_LASTING => ⟨.MEM_ERR_ADDR, 48, 1, .RO, 0⟩
  | .MEM_ERR_ADDR_MASTER => ⟨.MEM_ERR_ADDR, 49, 6, .RO, 0⟩
  | .MEM_ERR_ADDR_VALID => ⟨.MEM_ERR_ADDR, 63, 1, .W1C, 0⟩
  | .MEM_ERR_CNT_CE => ⟨.MEM_ERR_CNT, 0, 16, .RC, 0⟩
  | .MEM_ERR_CNT_UE => ⟨.MEM_ERR_CNT, 16, 16, .RC, 0⟩
  | .MEM_TRANS_CNT_TRANS => ⟨.MEM_TRANS_CNT, 0, 32, .RC, 0⟩
  | .MEM_PROT_DROP_CNT => ⟨.MEM_PROT_DROP, 0, 24, .RC, 0⟩
  | .MEM_PROT_DROP_LAST_MST => ⟨.MEM_PROT_DROP, 24, 6, .RO, 0⟩
  | .MEM_CNT_CTL_SNAP => ⟨.MEM_CNT_CTL, 0, 1, .WO, 0⟩
  | .MEM_SNAP_TIME_TIME => ⟨.MEM_SNAP_TIME, 0, 64, .RO, 0⟩
  | .MEM_MST_ACC_COUNT => ⟨.MEM_MST_ACC, 0, 40, .RO, 0⟩
  | .MEM_MST_WAIT_CYCLES => ⟨.MEM_MST_WAIT, 0, 40, .RO, 0⟩
  | .MEM_BANK_BUSY_BUSY => ⟨.MEM_BANK_BUSY, 0, 32, .RO, 0⟩
  | .MEM_BANK_BUSY_ALIAS => ⟨.MEM_BANK_BUSY, 32, 32, .RO, 0⟩
  | .DRS_CFG_SCRUB_EN => ⟨.DRS_CFG, 0, 1, .RW, 1⟩
  | .DRS_CFG_SCRUB_H => ⟨.DRS_CFG, 1, 8, .RW, 24⟩
  | .DRS_CFG_CE_THR => ⟨.DRS_CFG, 9, 16, .RW, 1000⟩
  | .DRS_STS_TRAINED => ⟨.DRS_STS, 0, 1, .RO, 0⟩
  | .DRS_STS_CACHED => ⟨.DRS_STS, 1, 1, .RO, 0⟩
  | .DRS_STS_SELF_REFRESH => ⟨.DRS_STS, 2, 1, .RO, 0⟩
  | .DRS_STS_ZERO_BUSY => ⟨.DRS_STS, 3, 1, .RO, 0⟩
  | .DRS_STS_PKG_OK => ⟨.DRS_STS, 4, 8, .RO, 0⟩
  | .DRS_EVT_CE => ⟨.DRS_EVT, 0, 1, .W1C, 0⟩
  | .DRS_EVT_UE => ⟨.DRS_EVT, 1, 1, .W1C, 0⟩
  | .DRS_EVT_CE_STORM => ⟨.DRS_EVT, 2, 1, .W1C, 0⟩
  | .DRS_EVT_ZERO_DONE => ⟨.DRS_EVT, 3, 1, .W1C, 0⟩
  | .DRS_EVT_ZERO_REFUSED => ⟨.DRS_EVT, 4, 1, .W1C, 0⟩
  | .DRS_EVT_PROT_DROP => ⟨.DRS_EVT, 5, 1, .W1C, 0⟩
  | .DRS_EVT_EN_MASK => ⟨.DRS_EVT_EN, 0, 6, .RW, 0⟩
  | .DRS_ERR_ADDR_ADDR => ⟨.DRS_ERR_ADDR, 0, 48, .RO, 0⟩
  | .DRS_ERR_ADDR_LASTING => ⟨.DRS_ERR_ADDR, 48, 1, .RO, 0⟩
  | .DRS_ERR_ADDR_MASTER => ⟨.DRS_ERR_ADDR, 49, 6, .RO, 0⟩
  | .DRS_ERR_ADDR_PACKAGE => ⟨.DRS_ERR_ADDR, 55, 3, .RO, 0⟩
  | .DRS_ERR_ADDR_VALID => ⟨.DRS_ERR_ADDR, 63, 1, .W1C, 0⟩
  | .DRS_ERR_CNT_CE => ⟨.DRS_ERR_CNT, 0, 16, .RC, 0⟩
  | .DRS_ERR_CNT_UE => ⟨.DRS_ERR_CNT, 16, 16, .RC, 0⟩
  | .DRS_TRANS_CNT_TRANS => ⟨.DRS_TRANS_CNT, 0, 32, .RC, 0⟩
  | .DRS_PROT_DROP_CNT => ⟨.DRS_PROT_DROP, 0, 24, .RC, 0⟩
  | .DRS_PROT_DROP_LAST_MST => ⟨.DRS_PROT_DROP, 24, 6, .RO, 0⟩
  | .DRS_SYS_BASE_BASE => ⟨.DRS_SYS_BASE, 26, 22, .RW, 2039⟩
  | .DRS_ZERO_BASE_BASE => ⟨.DRS_ZERO_BASE, 12, 36, .RW, 0⟩
  | .DRS_ZERO_LEN_LEN => ⟨.DRS_ZERO_LEN, 12, 26, .RW, 0⟩
  | .DRS_ZERO_CTL_GO => ⟨.DRS_ZERO_CTL, 0, 1, .WO, 0⟩
  | .DRS_ZERO_CTL_ABORT => ⟨.DRS_ZERO_CTL, 1, 1, .WO, 0⟩
  | .DRS_ZERO_POS_POS => ⟨.DRS_ZERO_POS, 0, 48, .RO, 0⟩
  | .DRS_SCRUB_POS_POS => ⟨.DRS_SCRUB_POS, 0, 48, .RO, 0⟩
  | .DRS_SCRUB_POS_PASSES => ⟨.DRS_SCRUB_POS, 48, 16, .RO, 0⟩
  | .DRS_PKG_STS_TEMP => ⟨.DRS_PKG_STS, 0, 8, .RO, 0⟩
  | .DRS_PKG_STS_TRAINED => ⟨.DRS_PKG_STS, 8, 1, .RO, 0⟩
  | .DRS_PKG_STS_SR => ⟨.DRS_PKG_STS, 9, 1, .RO, 0⟩
  | .MBX_CFG_EN => ⟨.MBX_CFG, 0, 1, .RW, 0⟩
  | .MBX_CFG_WR_GUARD => ⟨.MBX_CFG, 1, 1, .RW, 1⟩
  | .MBX_STS_QUEUED => ⟨.MBX_STS, 0, 12, .RO, 0⟩
  | .MBX_STS_BUSY => ⟨.MBX_STS, 12, 12, .RO, 0⟩
  | .MBX_CLAIM_INDEX => ⟨.MBX_CLAIM, 0, 12, .RO, 0⟩
  | .MBX_CLAIM_NONE => ⟨.MBX_CLAIM, 31, 1, .RO, 1⟩
  | .MBX_DONE_INDEX => ⟨.MBX_DONE, 0, 12, .WO, 0⟩
  | .MBX_ACT_ERR_CNT => ⟨.MBX_ACT_ERR, 0, 24, .RC, 0⟩
  | .MBX_ACT_ERR_LAST => ⟨.MBX_ACT_ERR, 24, 12, .RO, 0⟩
  | .MBX_WR_DROP_CNT => ⟨.MBX_WR_DROP, 0, 24, .RC, 0⟩
  | .MBX_WR_DROP_LAST => ⟨.MBX_WR_DROP, 24, 12, .RO, 0⟩
  | .MBX_POST_CNT_POSTS => ⟨.MBX_POST_CNT, 0, 32, .RC, 0⟩
  | .MBX_MB_CONTROL => ⟨.MBX_MB, 0, 32, .RO, 0⟩
  | .MBX_MB_CORE => ⟨.MBX_MB, 32, 2, .RO, 0⟩
  | .PWR_CTL_REPLAY => ⟨.PWR_CTL, 0, 1, .RW, 0⟩
  | .PWR_STS_MODE => ⟨.PWR_STS, 0, 3, .RO, 0⟩
  | .PWR_STS_REQ_BUSY => ⟨.PWR_STS, 3, 1, .RO, 0⟩
  | .PWR_EVT_REQ_DONE => ⟨.PWR_EVT, 0, 1, .W1C, 0⟩
  | .PWR_EVT_REQ_FAIL => ⟨.PWR_EVT, 1, 1, .W1C, 0⟩
  | .PWR_EVT_WDOG_WARN => ⟨.PWR_EVT, 2, 1, .W1C, 0⟩
  | .PWR_EVT_LOST_EDGE => ⟨.PWR_EVT, 3, 1, .W1C, 0⟩
  | .PWR_EVT_MOD_WAKE => ⟨.PWR_EVT, 4, 1, .W1C, 0⟩
  | .PWR_EVT_EN_MASK => ⟨.PWR_EVT_EN, 0, 5, .RW, 0⟩
  | .PWR_DOM_STS_ON => ⟨.PWR_DOM_STS, 0, 20, .RO, 0⟩
  | .PWR_DOM_STS_RETAINED => ⟨.PWR_DOM_STS, 20, 20, .RO, 0⟩
  | .PWR_DOM_STS_DRAINING => ⟨.PWR_DOM_STS, 40, 20, .RO, 0⟩
  | .PWR_DOM_REQ_DOMAIN => ⟨.PWR_DOM_REQ, 0, 5, .RW, 0⟩
  | .PWR_DOM_REQ_OP => ⟨.PWR_DOM_REQ, 5, 2, .RW, 0⟩
  | .PWR_DOM_REQ_FORCE => ⟨.PWR_DOM_REQ, 7, 1, .RW, 0⟩
  | .PWR_DOM_REQ_GO => ⟨.PWR_DOM_REQ, 31, 1, .WO, 0⟩
  | .PWR_DOM_RESULT_RESULT => ⟨.PWR_DOM_RESULT, 0, 3, .RO, 0⟩
  | .PWR_DOM_RESULT_LAST => ⟨.PWR_DOM_RESULT, 3, 5, .RO, 0⟩
  | .PWR_WAKE_EN_RAW => ⟨.PWR_WAKE_EN, 0, 1, .RW, 1⟩
  | .PWR_WAKE_EN_TIMER => ⟨.PWR_WAKE_EN, 1, 1, .RW, 1⟩
  | .PWR_WAKE_EN_TWIN => ⟨.PWR_WAKE_EN, 2, 1, .RW, 1⟩
  | .PWR_WAKE_LAST_RECORD => ⟨.PWR_WAKE_LAST, 0, 64, .RO, 0⟩
  | .PWR_WAKE_TIMER_AT => ⟨.PWR_WAKE_TIMER, 0, 48, .RW, 0⟩
  | .PWR_WAKE_TIMER_TARGET => ⟨.PWR_WAKE_TIMER, 48, 3, .RW, 4⟩
  | .PWR_WAKE_TIMER_ARMED => ⟨.PWR_WAKE_TIMER, 63, 1, .RW, 0⟩
  | .PWR_WDOG_CFG_EN => ⟨.PWR_WDOG_CFG, 0, 1, .RW, 0⟩
  | .PWR_WDOG_CFG_PERIOD => ⟨.PWR_WDOG_CFG, 1, 16, .RW, 1000⟩
  | .PWR_WDOG_KICK_KEY => ⟨.PWR_WDOG_KICK, 0, 16, .WO, 0⟩
  | .PWR_OFF_ACCESS_CNT_CNT => ⟨.PWR_OFF_ACCESS_CNT, 0, 24, .RC, 0⟩
  | .PWR_OFF_ACCESS_CNT_LAST_DOM => ⟨.PWR_OFF_ACCESS_CNT, 24, 5, .RO, 0⟩
  | .PWR_CORE_CTL_MODE => ⟨.PWR_CORE_CTL, 0, 2, .RW, 0⟩
  | .PWR_CORE_CTL_WAKE => ⟨.PWR_CORE_CTL, 2, 1, .WO, 0⟩
  | .PWR_CORE_CTL_ASLEEP => ⟨.PWR_CORE_CTL, 3, 1, .RO, 0⟩
  | .CLK_STS_REF_OK => ⟨.CLK_STS, 0, 1, .RO, 0⟩
  | .CLK_STS_FIO_OK => ⟨.CLK_STS, 1, 1, .RO, 1⟩
  | .CLK_STS_AON_OK => ⟨.CLK_STS, 2, 1, .RO, 0⟩
  | .CLK_STS_FAB_LOCK => ⟨.CLK_STS, 3, 1, .RO, 0⟩
  | .CLK_STS_CPU_LOCK => ⟨.CLK_STS, 4, 1, .RO, 0⟩
  | .CLK_STS_DRAM_LOCK => ⟨.CLK_STS, 5, 1, .RO, 0⟩
  | .CLK_STS_TB_LOCK => ⟨.CLK_STS, 6, 1, .RO, 0⟩
  | .CLK_STS_HOST_LOCK => ⟨.CLK_STS, 7, 1, .RO, 0⟩
  | .CLK_STS_LANE_LOCK => ⟨.CLK_STS, 8, 1, .RO, 0⟩
  | .CLK_EVT_HOST_UNLOCK => ⟨.CLK_EVT, 0, 1, .W1C, 0⟩
  | .CLK_EVT_LANE_UNLOCK => ⟨.CLK_EVT, 1, 1, .W1C, 0⟩
  | .CLK_EVT_EN_MASK => ⟨.CLK_EVT_EN, 0, 2, .RW, 0⟩
  | .CLK_CORE_SEL_SEL => ⟨.CLK_CORE_SEL, 0, 1, .RW, 0⟩
  | .CLK_CORE_SEL_ACTIVE => ⟨.CLK_CORE_SEL, 1, 1, .RO, 0⟩
  | .TIM_NOW_NOW => ⟨.TIM_NOW, 0, 64, .RO, 0⟩
  | .TIM_STEP_DELTA => ⟨.TIM_STEP, 0, 64, .WO, 0⟩
  | .TIM_ADJ_PPB => ⟨.TIM_ADJ, 0, 32, .RW, 0⟩
  | .TIM_STS_TIME_APPROX => ⟨.TIM_STS, 0, 1, .W1C, 1⟩
  | .TIM_STS_PTM_VALID => ⟨.TIM_STS, 1, 1, .RO, 0⟩
  | .TIM_STS_STEPPED_BACK => ⟨.TIM_STS, 2, 1, .W1C, 0⟩
  | .TIM_STS_SLEWING => ⟨.TIM_STS, 3, 1, .RO, 0⟩
  | .TIM_AON_COUNT => ⟨.TIM_AON, 0, 48, .RO, 0⟩
  | .TIM_RATIO_RATIO => ⟨.TIM_RATIO, 0, 32, .RW, 0x77359400⟩
  | .TIM_SAVE_TIME => ⟨.TIM_SAVE, 0, 64, .RO, 0⟩
  | .TIM_SAVE_AON_COUNT => ⟨.TIM_SAVE_AON, 0, 48, .RO, 0⟩
  | .TIM_PTM_CFG_FOLLOW => ⟨.TIM_PTM_CFG, 0, 1, .RW, 1⟩
  | .TIM_PTM_CFG_PERIOD => ⟨.TIM_PTM_CFG, 1, 10, .RW, 100⟩
  | .TIM_PTM_CFG_STEP_THR => ⟨.TIM_PTM_CFG, 11, 16, .RW, 1000⟩
  | .TIM_PTM_OFS_OFS => ⟨.TIM_PTM_OFS, 0, 64, .RO, 0⟩
  | .RST_CAUSE_CAUSE => ⟨.RST_CAUSE, 0, 4, .RO, 1⟩
  | .RST_CAUSE_COUNT => ⟨.RST_CAUSE, 16, 16, .RO, 0⟩
  | .RST_CTL_DELAY => ⟨.RST_CTL, 0, 10, .RW, 0⟩
  | .RST_CTL_KEY => ⟨.RST_CTL, 16, 8, .WO, 0⟩
  | .SEC_LIFECYCLE_STATE => ⟨.SEC_LIFECYCLE, 0, 2, .RO, 0⟩
  | .SEC_LIFECYCLE_ADVANCING => ⟨.SEC_LIFECYCLE, 2, 1, .RO, 0⟩
  | .SEC_STS_FW_AUTH => ⟨.SEC_STS, 0, 1, .RO, 0⟩
  | .SEC_STS_IMAGE_B => ⟨.SEC_STS, 1, 1, .RO, 0⟩
  | .SEC_STS_SESSIONS => ⟨.SEC_STS, 2, 3, .RO, 0⟩
  | .SEC_STS_IDE_FAIL => ⟨.SEC_STS, 6, 1, .W1C, 0⟩
  | .SEC_STS_TDI_ERR => ⟨.SEC_STS, 7, 1, .W1C, 0⟩
  | .SEC_IDE_STS_EN => ⟨.SEC_IDE_STS, 0, 1, .RO, 0⟩
  | .SEC_IDE_STS_STATE => ⟨.SEC_IDE_STS, 1, 2, .RO, 0⟩
  | .SEC_IDE_STS_STREAM_ID => ⟨.SEC_IDE_STS, 3, 8, .RO, 0⟩
  | .SEC_IDE_STS_TX_KSET => ⟨.SEC_IDE_STS, 11, 1, .RO, 0⟩
  | .SEC_IDE_STS_RX_KSET => ⟨.SEC_IDE_STS, 12, 1, .RO, 0⟩
  | .SEC_IDE_STS_FAIL => ⟨.SEC_IDE_STS, 13, 1, .W1C, 0⟩
  | .SEC_IDE_STS_FAIL_CAUSE => ⟨.SEC_IDE_STS, 14, 4, .RO, 0⟩
  | .SEC_TDI_STATE => ⟨.SEC_TDI, 0, 2, .RO, 0⟩
  | .SEC_TDI_STREAM => ⟨.SEC_TDI, 2, 4, .RO, 0⟩
  | .SEC_TDI_ERR_CAUSE => ⟨.SEC_TDI, 6, 4, .RO, 0⟩
  | .DBG_CTL_RELOCK => ⟨.DBG_CTL, 0, 1, .WO, 0⟩
  | .DBG_STS_DBG_FAULT => ⟨.DBG_STS, 0, 1, .W1C, 0⟩
  | .DBG_STS_LC => ⟨.DBG_STS, 1, 2, .RO, 0⟩
  | .DBG_STS_OPEN => ⟨.DBG_STS, 3, 1, .RO, 0⟩
  | .DBG_STS_JTAG_ACTIVE => ⟨.DBG_STS, 4, 1, .RO, 0⟩
  | .DBG_STS_FAULT_CNT => ⟨.DBG_STS, 16, 16, .RC, 0⟩
  | .DBG_FAULT_ADDR_ADDR => ⟨.DBG_FAULT_ADDR, 0, 48, .RO, 0⟩
  | .DBG_FAULT_ADDR_WRITE => ⟨.DBG_FAULT_ADDR, 48, 1, .RO, 0⟩
  | .MGT_CFG_SMB_ADDR => ⟨.MGT_CFG, 0, 7, .RW, 74⟩
  | .MGT_CFG_RAW_ADDR => ⟨.MGT_CFG, 8, 7, .RW, 75⟩
  | .MGT_CFG_SMB_MCTP_EN => ⟨.MGT_CFG, 16, 1, .RW, 1⟩
  | .MGT_CFG_VDM_EN => ⟨.MGT_CFG, 17, 1, .RW, 1⟩
  | .MGT_EID_EID => ⟨.MGT_EID, 0, 8, .RW, 0⟩
  | .MGT_EID_OWNER_EID => ⟨.MGT_EID, 8, 8, .RW, 0⟩
  | .MGT_STS_SMB_BUSY => ⟨.MGT_STS, 0, 1, .RO, 0⟩
  | .MGT_STS_VDM_BUSY => ⟨.MGT_STS, 1, 1, .RO, 0⟩
  | .MGT_STS_RAW_ACTIVE => ⟨.MGT_STS, 2, 1, .RO, 0⟩
  | .MGT_STS_HELD => ⟨.MGT_STS, 3, 2, .RO, 0⟩
  | .MGT_PLDM_CFG_PERIOD => ⟨.MGT_PLDM_CFG, 0, 16, .RW, 100⟩
  | .MGT_PLDM_CFG_EVT_EN => ⟨.MGT_PLDM_CFG, 16, 1, .RW, 1⟩
  | .MGT_ERR_CNT_PEC_ERR => ⟨.MGT_ERR_CNT, 0, 16, .RC, 0⟩
  | .MGT_ERR_CNT_BUSY_ANS => ⟨.MGT_ERR_CNT, 16, 16, .RC, 0⟩
  | .MGT_LOG_STS_AON_USED => ⟨.MGT_LOG_STS, 0, 8, .RO, 0⟩
  | .MGT_LOG_STS_NEW => ⟨.MGT_LOG_STS, 8, 1, .W1C, 0⟩
  | .MGT_LOG_STS_OVERRUN => ⟨.MGT_LOG_STS, 9, 1, .W1C, 0⟩
  | .MGT_LOG_STS_HEAD => ⟨.MGT_LOG_STS, 10, 7, .RO, 0⟩
  | .MGT_LOG_NEXT_NEXT => ⟨.MGT_LOG_NEXT, 0, 32, .RO, 0⟩
  | .MGT_RING0_WORD => ⟨.MGT_RING0, 0, 64, .RO, 0⟩
  | .MGT_RING1_WORD => ⟨.MGT_RING1, 0, 64, .RO, 0⟩
  | .MGT_RING2_WORD => ⟨.MGT_RING2, 0, 64, .RO, 0⟩
  | .MGT_RING3_WORD => ⟨.MGT_RING3, 0, 64, .RO, 0⟩

/-- The fields of a register, lowest bit first. -/
def regFlds : Reg → List Fld
  | .IRQ_CFG => [.IRQ_CFG_EN]
  | .IRQ_STS => [.IRQ_STS_STRANDED, .IRQ_STS_STRANDED_SEEN, .IRQ_STS_STORM_ACTIVE, .IRQ_STS_STORM_NEW, .IRQ_STS_DELIVERY_ERR, .IRQ_STS_LAST_SRC]
  | .IRQ_FALLBACK => [.IRQ_FALLBACK_KIND, .IRQ_FALLBACK_FUNC, .IRQ_FALLBACK_INDEX]
  | .IRQ_DB_DENY => [.IRQ_DB_DENY_CNT, .IRQ_DB_DENY_CLASS, .IRQ_DB_DENY_LAST_SRC, .IRQ_DB_DENY_LAST_PORT]
  | .IRQ_ERR_CNT => [.IRQ_ERR_CNT_DELIVERY, .IRQ_ERR_CNT_SPURIOUS]
  | .IRQ_STORM_CFG => [.IRQ_STORM_CFG_THRESH, .IRQ_STORM_CFG_WINDOW, .IRQ_STORM_CFG_RELEASE]
  | .IRQ_CORE_CLAIM => [.IRQ_CORE_CLAIM_SRC, .IRQ_CORE_CLAIM_PRIO, .IRQ_CORE_CLAIM_NONE]
  | .IRQ_CORE_COMPLETE => [.IRQ_CORE_COMPLETE_SRC]
  | .IRQ_CORE_CTL => [.IRQ_CORE_CTL_THR, .IRQ_CORE_CTL_WAKE_EN]
  | .IRQ_CORE_STS => [.IRQ_CORE_STS_RUN_PRIO, .IRQ_CORE_STS_DEPTH, .IRQ_CORE_STS_PRESENT, .IRQ_CORE_STS_BAD_CPL, .IRQ_CORE_STS_ASLEEP, .IRQ_CORE_STS_TOP_SRC]
  | .IRQ_CORE_STACK => [.IRQ_CORE_STACK_STACK]
  | .IRQ_LT => [.IRQ_LT_VALID, .IRQ_LT_PORT, .IRQ_LT_ADDR]
  | .IRQ_INTX_STS => [.IRQ_INTX_STS_WIRE, .IRQ_INTX_STS_HELD]
  | .IRQ_PEND_SET => [.IRQ_PEND_SET_MASK]
  | .IRQ_PEND_CLR => [.IRQ_PEND_CLR_MASK]
  | .IRQ_EN_SET => [.IRQ_EN_SET_MASK]
  | .IRQ_EN_CLR => [.IRQ_EN_CLR_MASK]
  | .IRQ_STORM => [.IRQ_STORM_FLAG]
  | .IRQ_DOORBELL => [.IRQ_DOORBELL_VALUE]
  | .IRQ_ROUTE => [.IRQ_ROUTE_KIND, .IRQ_ROUTE_FUNC, .IRQ_ROUTE_INDEX, .IRQ_ROUTE_LEVEL, .IRQ_ROUTE_STORM_EN, .IRQ_ROUTE_DB_HOST, .IRQ_ROUTE_DB_CORE, .IRQ_ROUTE_DB_DMA, .IRQ_ROUTE_DB_PORT_ANY, .IRQ_ROUTE_DB_PORT_ONE, .IRQ_ROUTE_DB_PORT]
  | .IRQ_SRC_STS => [.IRQ_SRC_STS_STATE, .IRQ_SRC_STS_LEVEL_IN, .IRQ_SRC_STS_STORM, .IRQ_SRC_STS_WIN_CNT, .IRQ_SRC_STS_HOLD, .IRQ_SRC_STS_CORE]
  | .HST_LINK_CAP => [.HST_LINK_CAP_MAX_RATE, .HST_LINK_CAP_MAX_WIDTH, .HST_LINK_CAP_FLIT, .HST_LINK_CAP_L0P, .HST_LINK_CAP_L1SS, .HST_LINK_CAP_UPCFG, .HST_LINK_CAP_SRIS, .HST_LINK_CAP_MARGIN]
  | .HST_LINK_CTL => [.HST_LINK_CTL_RATE_LIMIT, .HST_LINK_CTL_WIDTH_LIMIT, .HST_LINK_CTL_L0P_AUTO, .HST_LINK_CTL_L1_AUTO, .HST_LINK_CTL_AUTO_REWIDEN, .HST_LINK_CTL_LANE_ACT, .HST_LINK_CTL_RETRAIN, .HST_LINK_CTL_L0P_MIN]
  | .HST_LINK_STS => [.HST_LINK_STS_RATE, .HST_LINK_STS_WIDTH, .HST_LINK_STS_FLIT, .HST_LINK_STS_REVERSED, .HST_LINK_STS_DL_UP, .HST_LINK_STS_L0P_WIDTH, .HST_LINK_STS_LTSSM, .HST_LINK_STS_CONTAINED]
  | .HST_LANE_FAIL => [.HST_LANE_FAIL_FAILED, .HST_LANE_FAIL_EXCLUDE]
  | .HST_LANE_ERR_THR => [.HST_LANE_ERR_THR_THRESHOLD]
  | .HST_PM_CTL => [.HST_PM_CTL_L1_IDLE, .HST_PM_CTL_L0P_LOW, .HST_PM_CTL_L0P_HIGH]
  | .HST_CLK_CFG => [.HST_CLK_CFG_MODE, .HST_CLK_CFG_ACTIVE, .HST_CLK_CFG_REFCLK_OK]
  | .HST_EVT => [.HST_EVT_DL_UP, .HST_EVT_DL_DOWN, .HST_EVT_SURPRISE_LOSS, .HST_EVT_HOT_RESET, .HST_EVT_PERST_ASSERT, .HST_EVT_PERST_DEASSERT, .HST_EVT_RATE_CHG, .HST_EVT_WIDTH_CHG, .HST_EVT_L0P_CHG, .HST_EVT_LANE_FAIL, .HST_EVT_RECOVERY, .HST_EVT_LINK_DISABLE, .HST_EVT_L2_ENTRY]
  | .HST_EVT_EN => [.HST_EVT_EN_MASK]
  | .HST_RECOV_CNT => [.HST_RECOV_CNT_RECOVERY, .HST_RECOV_CNT_DOWNCFG]
  | .HST_FLIT_CNT => [.HST_FLIT_CNT_REPLAY]
  | .HST_LANE_ERR_CNT => [.HST_LANE_ERR_CNT_CORR]
  | .HST_CONT_STS => [.HST_CONT_STS_CONTAINED, .HST_CONT_STS_CAUSE, .HST_CONT_STS_MORE, .HST_CONT_STS_FN_CONT_SEEN, .HST_CONT_STS_REL_RESULT]
  | .HST_CONT_TIME => [.HST_CONT_TIME_TIME]
  | .HST_CONT_REL => [.HST_CONT_REL_KEY, .HST_CONT_REL_LEDGER_FAIL, .HST_CONT_REL_DMA_ABORT, .HST_CONT_REL_ENTER]
  | .HST_CONT_DROP => [.HST_CONT_DROP_DROPS]
  | .FN_ID => [.FN_ID_RID, .FN_ID_KIND, .FN_ID_PARENT, .FN_ID_VF_INDEX]
  | .FN_STS => [.FN_STS_STATE, .FN_STS_BME, .FN_STS_MSE, .FN_STS_MASTER_OFF, .FN_STS_EVQ_OVF, .FN_STS_ABANDONED, .FN_STS_RES_DROP]
  | .FN_CTL => [.FN_CTL_EVT_VEC, .FN_CTL_EVT_EN, .FN_CTL_ADVISORY_EN, .FN_CTL_PROV_LOCK]
  | .FN_RINSE => [.FN_RINSE_LEFT, .FN_RINSE_CAUSE, .FN_RINSE_DEADLINE]
  | .FN_RINSE_DROP => [.FN_RINSE_DROP_DROP]
  | .FN_RINSE_LATE => [.FN_RINSE_LATE_LATE]
  | .FN_ADV_CNT => [.FN_ADV_CNT_DISCARD, .FN_ADV_CNT_UNEXP]
  | .FN_VIEW_DENY => [.FN_VIEW_DENY_CNT, .FN_VIEW_DENY_LAST_OFF]
  | .FN_EVQ_BASE => [.FN_EVQ_BASE_BASE]
  | .FN_EVQ_CFG => [.FN_EVQ_CFG_LOG2N, .FN_EVQ_CFG_EN]
  | .FN_EVQ_HEAD => [.FN_EVQ_HEAD_HEAD]
  | .FN_EVQ_TAIL => [.FN_EVQ_TAIL_TAIL]
  | .FN_RES => [.FN_RES_FIRST_CTX, .FN_RES_CTX_COUNT]
  | .FN_CONT => [.FN_CONT_CAUSE, .FN_CONT_REQUEST, .FN_CONT_RELEASE, .FN_CONT_REL_RESULT, .FN_CONT_DROPS]
  | .FN_VF_TOTAL => [.FN_VF_TOTAL_PF1, .FN_VF_TOTAL_PF2, .FN_VF_TOTAL_PF3_HI, .FN_VF_TOTAL_PF3_LO]
  | .FN_SLICE_ERR => [.FN_SLICE_ERR_DUP, .FN_SLICE_ERR_LAST]
  | .FN_SLICE => [.FN_SLICE_VALID, .FN_SLICE_PRIV_OK, .FN_SLICE_EXEC_OK, .FN_SLICE_ACTIVE, .FN_SLICE_FUNC, .FN_SLICE_PASID]
  | .XLT_CFG => [.XLT_CFG_CACHE_EN, .XLT_CFG_PREF_EN, .XLT_CFG_STRADDLE_FAULT]
  | .XLT_TBL_BASE => [.XLT_TBL_BASE_BASE]
  | .XLT_EPOCH => [.XLT_EPOCH_CURRENT, .XLT_EPOCH_ADVANCE, .XLT_EPOCH_LIVE]
  | .XLT_EPOCH_DRAIN => [.XLT_EPOCH_DRAIN_OLDEST, .XLT_EPOCH_DRAIN_DRAINED]
  | .XLT_UPD_DATA => [.XLT_UPD_DATA_WORD]
  | .XLT_UPD_CMD => [.XLT_UPD_CMD_INDEX, .XLT_UPD_CMD_OP, .XLT_UPD_CMD_GO]
  | .XLT_UPD_STS => [.XLT_UPD_STS_BUSY, .XLT_UPD_STS_RESULT, .XLT_UPD_STS_DROPPED, .XLT_UPD_STS_UNMIRRORED, .XLT_UPD_STS_BASE_REFUSED, .XLT_UPD_STS_LAST_INDEX]
  | .XLT_PREF_CFG => [.XLT_PREF_CFG_LIFE]
  | .XLT_PIN_CNT => [.XLT_PIN_CNT_PINNED]
  | .XLT_FAULT_ADDR => [.XLT_FAULT_ADDR_ADDR]
  | .XLT_FAULT_INFO => [.XLT_FAULT_INFO_CAUSE, .XLT_FAULT_INFO_CLASS, .XLT_FAULT_INFO_REQ, .XLT_FAULT_INFO_WRITE, .XLT_FAULT_INFO_VALID]
  | .XLT_HIT_CNT => [.XLT_HIT_CNT_HIT]
  | .XLT_MISS_CNT => [.XLT_MISS_CNT_MISS]
  | .XLT_SLOW_CNT => [.XLT_SLOW_CNT_SLOW]
  | .XLT_STRADDLE_CNT => [.XLT_STRADDLE_CNT_STRADDLE]
  | .XLT_SPLIT_CNT => [.XLT_SPLIT_CNT_SPLIT]
  | .XLT_PREF_HIT_CNT => [.XLT_PREF_HIT_CNT_PREF_HIT]
  | .XLT_PROT_DROP => [.XLT_PROT_DROP_PROT_DROP]
  | .GRD_STS => [.GRD_STS_NOTICE, .GRD_STS_SHADOW_ERR]
  | .GRD_EPOCH => [.GRD_EPOCH_CURRENT, .GRD_EPOCH_ADVANCE, .GRD_EPOCH_LIVE]
  | .GRD_EPOCH_DRAIN => [.GRD_EPOCH_DRAIN_OLDEST, .GRD_EPOCH_DRAIN_DRAINED]
  | .GRD_UPD_DATA => [.GRD_UPD_DATA_WORD]
  | .GRD_UPD_CMD => [.GRD_UPD_CMD_REGION, .GRD_UPD_CMD_SET, .GRD_UPD_CMD_GO]
  | .GRD_UPD_STS => [.GRD_UPD_STS_BUSY, .GRD_UPD_STS_RESULT, .GRD_UPD_STS_DROPPED, .GRD_UPD_STS_UNMIRRORED, .GRD_UPD_STS_LAST_REGION, .GRD_UPD_STS_LAST_SET]
  | .GRD_SHADOW_BASE => [.GRD_SHADOW_BASE_BASE]
  | .GRD_FAULT_ADDR => [.GRD_FAULT_ADDR_ADDR]
  | .GRD_FAULT_INFO => [.GRD_FAULT_INFO_CAUSE, .GRD_FAULT_INFO_CLASS, .GRD_FAULT_INFO_REQ, .GRD_FAULT_INFO_WRITE, .GRD_FAULT_INFO_EXEC, .GRD_FAULT_INFO_PRIV, .GRD_FAULT_INFO_SET, .GRD_FAULT_INFO_REGION, .GRD_FAULT_INFO_REGION_HIT, .GRD_FAULT_INFO_VALID]
  | .GRD_FAULT_CNT => [.GRD_FAULT_CNT_FAULTS]
  | .GRD_NOTICE_CNT => [.GRD_NOTICE_CNT_NOTICES]
  | .GRD_SET_CFG => [.GRD_SET_CFG_DEF_EN, .GRD_SET_CFG_SPAN_FAULT, .GRD_SET_CFG_HOST_PR, .GRD_SET_CFG_HOST_PW, .GRD_SET_CFG_HOST_UR, .GRD_SET_CFG_HOST_UW]
  | .GRD_REGION => [.GRD_REGION_WORD]
  | .LDG_CFG => [.LDG_CFG_CPL_ORDER, .LDG_CFG_PAIR_MAX, .LDG_CFG_OVF_EN]
  | .LDG_TMO => [.LDG_TMO_WR_TMO, .LDG_TMO_RD_TMO]
  | .LDG_OVF_BASE => [.LDG_OVF_BASE_BASE]
  | .LDG_STS => [.LDG_STS_OPEN, .LDG_STS_OVF_IN_USE, .LDG_STS_FULL_SEEN, .LDG_STS_OVF_ERR]
  | .LDG_ERR_CNT => [.LDG_ERR_CNT_ERR]
  | .LDG_RETRY_CNT => [.LDG_RETRY_CNT_RETRY]
  | .LDG_LATE_CNT => [.LDG_LATE_CNT_LATE]
  | .LDG_NOTICE_MISS => [.LDG_NOTICE_MISS_MISS]
  | .LDG_STARCH_CFG => [.LDG_STARCH_CFG_HOLD_MAX, .LDG_STARCH_CFG_HOST_RUN]
  | .LDG_STARCH_STS => [.LDG_STARCH_STS_HELD, .LDG_STARCH_STS_FULL_SEEN, .LDG_STARCH_STS_FORCED]
  | .LDG_SEQ => [.LDG_SEQ_NEXT, .LDG_SEQ_OLDEST, .LDG_SEQ_OPEN]
  | .BSK_CFG => [.BSK_CFG_FN_MAX]
  | .BSK_STS => [.BSK_STS_FREE, .BSK_STS_QUAR]
  | .BSK_CPL_STS => [.BSK_CPL_STS_FREE_UNITS, .BSK_CPL_STS_WAITING]
  | .BSK_TMO_CNT => [.BSK_TMO_CNT_TMO]
  | .BSK_UNEXP_CNT => [.BSK_UNEXP_CNT_UNEXP]
  | .BSK_DISCARD_CNT => [.BSK_DISCARD_CNT_DISCARD]
  | .BSK_WAIT_CNT => [.BSK_WAIT_CNT_WAIT]
  | .DMA_CFG => [.DMA_CFG_EN, .DMA_CFG_DONE_COAL, .DMA_CFG_HI_RESV]
  | .DMA_STS => [.DMA_STS_POOL_IDLE, .DMA_STS_RUNNING, .DMA_STS_DRAINING]
  | .DMA_ERR_CNT => [.DMA_ERR_CNT_ERR]
  | .DMA_ABORT_CNT => [.DMA_ABORT_CNT_ABORT]
  | .DMA_PREEMPT_CNT => [.DMA_PREEMPT_CNT_PREEMPT]
  | .DMA_GRANT => [.DMA_GRANT_CHANNEL, .DMA_GRANT_VALID, .DMA_GRANT_SLICE_EN, .DMA_GRANT_SLICE]
  | .DMA_CH_OP => [.DMA_CH_OP_WORD]
  | .DMA_CH_COUNT => [.DMA_CH_COUNT_WORD]
  | .DMA_CH_SRC => [.DMA_CH_SRC_WORD]
  | .DMA_CH_DST => [.DMA_CH_DST_WORD]
  | .DMA_CH_STRIDE => [.DMA_CH_STRIDE_WORD]
  | .DMA_CH_PATTERN => [.DMA_CH_PATTERN_WORD]
  | .DMA_CH_CTL => [.DMA_CH_CTL_START, .DMA_CH_CTL_ABORT, .DMA_CH_CTL_RESUME, .DMA_CH_CTL_CLEAR]
  | .DMA_CH_STS => [.DMA_CH_STS_STATE, .DMA_CH_STS_STATUS, .DMA_CH_STS_FLAGS, .DMA_CH_STS_START_DROP, .DMA_CH_STS_REC_HELD]
  | .DMA_CH_RESIDUE => [.DMA_CH_RESIDUE_RESIDUE]
  | .DMA_CH_ERR_OFF => [.DMA_CH_ERR_OFF_OFFSET]
  | .DMA_CH_CFG => [.DMA_CH_CFG_MODE, .DMA_CH_CFG_SLICE_EN, .DMA_CH_CFG_OWNER, .DMA_CH_CFG_SLICE, .DMA_CH_CFG_IRQ_EN, .DMA_CH_CFG_WB_EN, .DMA_CH_CFG_WB_SPACE, .DMA_CH_CFG_IRQ_SRC]
  | .DMA_CH_WB => [.DMA_CH_WB_ADDR]
  | .DMA_CH_RUNS => [.DMA_CH_RUNS_RUNS]
  | .DMA_SQ_BASE => [.DMA_SQ_BASE_BASE]
  | .DMA_SQ_CFG => [.DMA_SQ_CFG_LOG2N, .DMA_SQ_CFG_SPACE, .DMA_SQ_CFG_EN, .DMA_SQ_CFG_PAR]
  | .DMA_SQ_STS => [.DMA_SQ_STS_HEAD, .DMA_SQ_STS_PHASE, .DMA_SQ_STS_STATE, .DMA_SQ_STS_FETCH_ERR, .DMA_SQ_STS_DESC_ERR, .DMA_SQ_STS_RUNNING]
  | .DMA_CQ_BASE => [.DMA_CQ_BASE_BASE]
  | .DMA_CQ_CFG => [.DMA_CQ_CFG_LOG2N, .DMA_CQ_CFG_SPACE, .DMA_CQ_CFG_EN]
  | .DMA_CQ_PTR => [.DMA_CQ_PTR_TAIL, .DMA_CQ_PTR_HEAD, .DMA_CQ_PTR_PHASE]
  | .DMA_RING_CTL => [.DMA_RING_CTL_RESUME, .DMA_RING_CTL_RESET]
  | .SHR_CFG => [.SHR_CFG_EN, .SHR_CFG_C2_RSV, .SHR_CFG_CARRY, .SHR_CFG_CLEAN_STEPS, .SHR_CFG_BE_MIN, .SHR_CFG_IN_FN_MAX]
  | .SHR_STS => [.SHR_STS_SPILL_IN_USE, .SHR_STS_SPILL_FULL, .SHR_STS_LEVEL_CHG, .SHR_STS_ADMIT_REFUSED, .SHR_STS_BIND_DROP, .SHR_STS_WORST_LEVEL, .SHR_STS_WORST_RES]
  | .SHR_SPILL_BASE => [.SHR_SPILL_BASE_BASE]
  | .SHR_SPILL_USE => [.SHR_SPILL_USE_USED]
  | .SHR_UPD_DATA => [.SHR_UPD_DATA_SHARE]
  | .SHR_UPD_RES => [.SHR_UPD_RES_MASK]
  | .SHR_UPD_CMD => [.SHR_UPD_CMD_ACCT, .SHR_UPD_CMD_GO]
  | .SHR_UPD_STS => [.SHR_UPD_STS_BUSY, .SHR_UPD_STS_RESULT, .SHR_UPD_STS_RES, .SHR_UPD_STS_DROPPED, .SHR_UPD_STS_UNMIRRORED, .SHR_UPD_STS_LAST_ACCT]
  | .SHR_TICK => [.SHR_TICK_EPOCHS, .SHR_TICK_STEPS]
  | .SHR_DB_DROP => [.SHR_DB_DROP_CNT]
  | .SHR_RES_STS => [.SHR_RES_STS_CAP, .SHR_RES_STS_PRESENT, .SHR_RES_STS_LEVEL, .SHR_RES_STS_FACTOR, .SHR_RES_STS_BE_PCT]
  | .SHR_RES_SUM => [.SHR_RES_SUM_G0, .SHR_RES_SUM_G1, .SHR_RES_SUM_STEP_CAP]
  | .SHR_RES_CFG => [.SHR_RES_CFG_CAP_OVR]
  | .SHR_RES_MEAS => [.SHR_RES_MEAS_USED, .SHR_RES_MEAS_C0_LAT_MAX]
  | .SHR_PORT_SHARE => [.SHR_PORT_SHARE_SHARE]
  | .SHR_PORT_RES => [.SHR_PORT_RES_MASK]
  | .SHR_CTX_BIND => [.SHR_CTX_BIND_VALID, .SHR_CTX_BIND_SLICE_EN, .SHR_CTX_BIND_SLICE, .SHR_CTX_BIND_FUNC, .SHR_CTX_BIND_CHARGE_IN]
  | .SHR_CTX_SHARE => [.SHR_CTX_SHARE_SHARE]
  | .SHR_CTX_RES => [.SHR_CTX_RES_MASK]
  | .SHR_CTX_STS0 => [.SHR_CTX_STS0_WORD]
  | .SHR_CTX_STS1 => [.SHR_CTX_STS1_WORD]
  | .SHR_CTX_STS2 => [.SHR_CTX_STS2_WORD]
  | .SHR_CTX_STS3 => [.SHR_CTX_STS3_WORD]
  | .ULK_CTL => [.ULK_CTL_EN, .ULK_CTL_RESET, .ULK_CTL_ATOM_EMUL]
  | .ULK_STS => [.ULK_STS_STATE, .ULK_STS_SB_VALID, .ULK_STS_DUAL_OK, .ULK_STS_ATOM_NATIVE, .ULK_STS_TX_UNACK, .ULK_STS_HELD_TAGS, .ULK_STS_DOWN_CAUSE]
  | .ULK_EVT => [.ULK_EVT_UP, .ULK_EVT_DOWN, .ULK_EVT_REPLAY, .ULK_EVT_PROTO_ERR, .ULK_EVT_SB_CHG, .ULK_EVT_LATE_NOTICE, .ULK_EVT_DUAL_REFUSED, .ULK_EVT_REQ_OVF]
  | .ULK_EVT_EN => [.ULK_EVT_EN_MASK]
  | .ULK_FAR => [.ULK_FAR_DESIGN_ID, .ULK_FAR_VERSION, .ULK_FAR_ATOMIC, .ULK_FAR_SEQ_AWARE, .ULK_FAR_DUAL, .ULK_FAR_DOZE_OK, .ULK_FAR_DEEP_OK, .ULK_FAR_SB_MIN]
  | .ULK_CREDIT => [.ULK_CREDIT_VC0_HDR, .ULK_CREDIT_VC0_DATA, .ULK_CREDIT_VC2_HDR]
  | .ULK_RETRY_CFG => [.ULK_RETRY_CFG_REPLAY_TMO, .ULK_RETRY_CFG_REPLAY_MAX]
  | .ULK_PM_CFG => [.ULK_PM_CFG_DOZE_IDLE, .ULK_PM_CFG_DEEP_IDLE]
  | .ULK_SB_CFG => [.ULK_SB_CFG_PERIOD, .ULK_SB_CFG_POLL_EN, .ULK_SB_CFG_EFFECTIVE]
  | .ULK_SB_LATCH => [.ULK_SB_LATCH_LATCH]
  | .ULK_SB_IN => [.ULK_SB_IN_LINES]
  | .ULK_SB_OUT => [.ULK_SB_OUT_LINES]
  | .ULK_SB_EVT => [.ULK_SB_EVT_CHG]
  | .ULK_REPLAY_CNT => [.ULK_REPLAY_CNT_REPLAYS, .ULK_REPLAY_CNT_NAKS_SENT]
  | .ULK_PROTO_ERR => [.ULK_PROTO_ERR_CNT, .ULK_PROTO_ERR_LAST_CAUSE]
  | .ULK_SB_SKIP => [.ULK_SB_SKIP_SKIP]
  | .ULK_REQ_CNT => [.ULK_REQ_CNT_PENDING, .ULK_REQ_CNT_OVF]
  | .SEM_CTL => [.SEM_CTL_PAIR_EN, .SEM_CTL_HANDOVER, .SEM_CTL_LEAVE, .SEM_CTL_SNAP, .SEM_CTL_AUTO_TAKE]
  | .SEM_STS => [.SEM_STS_ROLE, .SEM_STS_SYNC, .SEM_STS_TWIN_PRESENT, .SEM_STS_TWIN_ALIVE, .SEM_STS_TWIN_LEADS, .SEM_STS_SEAM_UP, .SEM_STS_SUSPECT, .SEM_STS_HO_BUSY, .SEM_STS_MIRROR_VER, .SEM_STS_TWIN_MVER, .SEM_STS_TWIN_MODE, .SEM_STS_LAST_LOSS]
  | .SEM_EVT => [.SEM_EVT_ROLE_CHANGE, .SEM_EVT_TWIN_JOINED, .SEM_EVT_SYNCED, .SEM_EVT_TWIN_LOST, .SEM_EVT_SPLIT, .SEM_EVT_SUSPECT, .SEM_EVT_HO_DONE, .SEM_EVT_HO_FAIL, .SEM_EVT_CONFLICT, .SEM_EVT_MISMATCH, .SEM_EVT_ALIVE_FAULT]
  | .SEM_EVT_EN => [.SEM_EVT_EN_MASK]
  | .SEM_HB_CFG => [.SEM_HB_CFG_MISS, .SEM_HB_CFG_ALIVE_WIN]
  | .SEM_HO_CFG => [.SEM_HO_CFG_DRAIN_MAX]
  | .SEM_TWIN => [.SEM_TWIN_SERIAL]
  | .SEM_TWIN_FW => [.SEM_TWIN_FW_FW_VER]
  | .SEM_PAIR_ID => [.SEM_PAIR_ID_PAIR_ID]
  | .SEM_MSEQ => [.SEM_MSEQ_TX, .SEM_MSEQ_ACK]
  | .SEM_LAG => [.SEM_LAG_OUTSTANDING, .SEM_LAG_ACK_MAX]
  | .SEM_HB_CNT => [.SEM_HB_CNT_MISSES, .SEM_HB_CNT_SUSPECTS]
  | .SEM_TAKE => [.SEM_TAKE_LAST_US, .SEM_TAKE_TAKEOVERS]
  | .SEM_FOLLOW_DROP => [.SEM_FOLLOW_DROP_DROPS]
  | .LANE_STS => [.LANE_STS_STATE, .LANE_STS_SIG, .LANE_STS_CDR_LOCK, .LANE_STS_BLOCK_LOCK, .LANE_STS_INVERTED, .LANE_STS_CLEAN, .LANE_STS_CLK_SRC, .LANE_STS_TX_DARNED, .LANE_STS_FAIL_CAUSE]
  | .LANE_CTL => [.LANE_CTL_FORCE_DARN, .LANE_CTL_TRIAL_EN, .LANE_CTL_TRIAL_NOW, .LANE_CTL_ERR_THR]
  | .LANE_TXEQ => [.LANE_TXEQ_PRE, .LANE_TXEQ_POST, .LANE_TXEQ_PRE_INIT, .LANE_TXEQ_POST_INIT, .LANE_TXEQ_HOLD]
  | .LANE_ERR_CNT => [.LANE_ERR_CNT_SYNC_ERR, .LANE_ERR_CNT_MARKER_ERR]
  | .LANE_DARN_CNT => [.LANE_DARN_CNT_DARNS, .LANE_DARN_CNT_REINSTATES]
  | .LANE_FAR => [.LANE_FAR_LINK_ID, .LANE_FAR_LANE, .LANE_FAR_RATES, .LANE_FAR_WIDTH]
  | .LANE_LINK_CTL => [.LANE_LINK_CTL_RATE_MAX, .LANE_LINK_CTL_DARN_MIN, .LANE_LINK_CTL_DOZE_EN, .LANE_LINK_CTL_DEEP_EN, .LANE_LINK_CTL_ENABLE, .LANE_LINK_CTL_RETRAIN, .LANE_LINK_CTL_LINK_ID]
  | .LANE_LINK_STS => [.LANE_LINK_STS_STATE, .LANE_LINK_STS_RATE, .LANE_LINK_STS_RX_ACTIVE, .LANE_LINK_STS_TX_ACTIVE, .LANE_LINK_STS_DEGRADED]
  | .LANE_LINK_EVT => [.LANE_LINK_EVT_UP, .LANE_LINK_EVT_DOWN, .LANE_LINK_EVT_DARN, .LANE_LINK_EVT_REINSTATE, .LANE_LINK_EVT_RATE_LOW, .LANE_LINK_EVT_MISWIRE, .LANE_LINK_EVT_WAKE_FAIL]
  | .LANE_LINK_EVT_EN => [.LANE_LINK_EVT_EN_MASK]
  | .LANE_SKEW => [.LANE_SKEW_SKEW]
  | .LANE_LINK_REMAP => [.LANE_LINK_REMAP_LAST, .LANE_LINK_REMAP_MAX]
  | .MEM_CFG => [.MEM_CFG_SCRUB_EN, .MEM_CFG_SCRUB_S]
  | .MEM_EVT => [.MEM_EVT_CE, .MEM_EVT_UE, .MEM_EVT_PROT_DROP]
  | .MEM_EVT_EN => [.MEM_EVT_EN_MASK]
  | .MEM_ERR_ADDR => [.MEM_ERR_ADDR_ADDR, .MEM_ERR_ADDR_LASTING, .MEM_ERR_ADDR_MASTER, .MEM_ERR_ADDR_VALID]
  | .MEM_ERR_CNT => [.MEM_ERR_CNT_CE, .MEM_ERR_CNT_UE]
  | .MEM_TRANS_CNT => [.MEM_TRANS_CNT_TRANS]
  | .MEM_PROT_DROP => [.MEM_PROT_DROP_CNT, .MEM_PROT_DROP_LAST_MST]
  | .MEM_CNT_CTL => [.MEM_CNT_CTL_SNAP]
  | .MEM_SNAP_TIME => [.MEM_SNAP_TIME_TIME]
  | .MEM_MST_ACC => [.MEM_MST_ACC_COUNT]
  | .MEM_MST_WAIT => [.MEM_MST_WAIT_CYCLES]
  | .MEM_BANK_BUSY => [.MEM_BANK_BUSY_BUSY, .MEM_BANK_BUSY_ALIAS]
  | .DRS_CFG => [.DRS_CFG_SCRUB_EN, .DRS_CFG_SCRUB_H, .DRS_CFG_CE_THR]
  | .DRS_STS => [.DRS_STS_TRAINED, .DRS_STS_CACHED, .DRS_STS_SELF_REFRESH, .DRS_STS_ZERO_BUSY, .DRS_STS_PKG_OK]
  | .DRS_EVT => [.DRS_EVT_CE, .DRS_EVT_UE, .DRS_EVT_CE_STORM, .DRS_EVT_ZERO_DONE, .DRS_EVT_ZERO_REFUSED, .DRS_EVT_PROT_DROP]
  | .DRS_EVT_EN => [.DRS_EVT_EN_MASK]
  | .DRS_ERR_ADDR => [.DRS_ERR_ADDR_ADDR, .DRS_ERR_ADDR_LASTING, .DRS_ERR_ADDR_MASTER, .DRS_ERR_ADDR_PACKAGE, .DRS_ERR_ADDR_VALID]
  | .DRS_ERR_CNT => [.DRS_ERR_CNT_CE, .DRS_ERR_CNT_UE]
  | .DRS_TRANS_CNT => [.DRS_TRANS_CNT_TRANS]
  | .DRS_PROT_DROP => [.DRS_PROT_DROP_CNT, .DRS_PROT_DROP_LAST_MST]
  | .DRS_SYS_BASE => [.DRS_SYS_BASE_BASE]
  | .DRS_ZERO_BASE => [.DRS_ZERO_BASE_BASE]
  | .DRS_ZERO_LEN => [.DRS_ZERO_LEN_LEN]
  | .DRS_ZERO_CTL => [.DRS_ZERO_CTL_GO, .DRS_ZERO_CTL_ABORT]
  | .DRS_ZERO_POS => [.DRS_ZERO_POS_POS]
  | .DRS_SCRUB_POS => [.DRS_SCRUB_POS_POS, .DRS_SCRUB_POS_PASSES]
  | .DRS_PKG_STS => [.DRS_PKG_STS_TEMP, .DRS_PKG_STS_TRAINED, .DRS_PKG_STS_SR]
  | .MBX_CFG => [.MBX_CFG_EN, .MBX_CFG_WR_GUARD]
  | .MBX_STS => [.MBX_STS_QUEUED, .MBX_STS_BUSY]
  | .MBX_CLAIM => [.MBX_CLAIM_INDEX, .MBX_CLAIM_NONE]
  | .MBX_DONE => [.MBX_DONE_INDEX]
  | .MBX_ACT_ERR => [.MBX_ACT_ERR_CNT, .MBX_ACT_ERR_LAST]
  | .MBX_WR_DROP => [.MBX_WR_DROP_CNT, .MBX_WR_DROP_LAST]
  | .MBX_POST_CNT => [.MBX_POST_CNT_POSTS]
  | .MBX_MB => [.MBX_MB_CONTROL, .MBX_MB_CORE]
  | .PWR_CTL => [.PWR_CTL_REPLAY]
  | .PWR_STS => [.PWR_STS_MODE, .PWR_STS_REQ_BUSY]
  | .PWR_EVT => [.PWR_EVT_REQ_DONE, .PWR_EVT_REQ_FAIL, .PWR_EVT_WDOG_WARN, .PWR_EVT_LOST_EDGE, .PWR_EVT_MOD_WAKE]
  | .PWR_EVT_EN => [.PWR_EVT_EN_MASK]
  | .PWR_DOM_STS => [.PWR_DOM_STS_ON, .PWR_DOM_STS_RETAINED, .PWR_DOM_STS_DRAINING]
  | .PWR_DOM_REQ => [.PWR_DOM_REQ_DOMAIN, .PWR_DOM_REQ_OP, .PWR_DOM_REQ_FORCE, .PWR_DOM_REQ_GO]
  | .PWR_DOM_RESULT => [.PWR_DOM_RESULT_RESULT, .PWR_DOM_RESULT_LAST]
  | .PWR_WAKE_EN => [.PWR_WAKE_EN_RAW, .PWR_WAKE_EN_TIMER, .PWR_WAKE_EN_TWIN]
  | .PWR_WAKE_LAST => [.PWR_WAKE_LAST_RECORD]
  | .PWR_WAKE_TIMER => [.PWR_WAKE_TIMER_AT, .PWR_WAKE_TIMER_TARGET, .PWR_WAKE_TIMER_ARMED]
  | .PWR_WDOG_CFG => [.PWR_WDOG_CFG_EN, .PWR_WDOG_CFG_PERIOD]
  | .PWR_WDOG_KICK => [.PWR_WDOG_KICK_KEY]
  | .PWR_OFF_ACCESS_CNT => [.PWR_OFF_ACCESS_CNT_CNT, .PWR_OFF_ACCESS_CNT_LAST_DOM]
  | .PWR_CORE_CTL => [.PWR_CORE_CTL_MODE, .PWR_CORE_CTL_WAKE, .PWR_CORE_CTL_ASLEEP]
  | .CLK_STS => [.CLK_STS_REF_OK, .CLK_STS_FIO_OK, .CLK_STS_AON_OK, .CLK_STS_FAB_LOCK, .CLK_STS_CPU_LOCK, .CLK_STS_DRAM_LOCK, .CLK_STS_TB_LOCK, .CLK_STS_HOST_LOCK, .CLK_STS_LANE_LOCK]
  | .CLK_EVT => [.CLK_EVT_HOST_UNLOCK, .CLK_EVT_LANE_UNLOCK]
  | .CLK_EVT_EN => [.CLK_EVT_EN_MASK]
  | .CLK_CORE_SEL => [.CLK_CORE_SEL_SEL, .CLK_CORE_SEL_ACTIVE]
  | .TIM_NOW => [.TIM_NOW_NOW]
  | .TIM_STEP => [.TIM_STEP_DELTA]
  | .TIM_ADJ => [.TIM_ADJ_PPB]
  | .TIM_STS => [.TIM_STS_TIME_APPROX, .TIM_STS_PTM_VALID, .TIM_STS_STEPPED_BACK, .TIM_STS_SLEWING]
  | .TIM_AON => [.TIM_AON_COUNT]
  | .TIM_RATIO => [.TIM_RATIO_RATIO]
  | .TIM_SAVE => [.TIM_SAVE_TIME]
  | .TIM_SAVE_AON => [.TIM_SAVE_AON_COUNT]
  | .TIM_PTM_CFG => [.TIM_PTM_CFG_FOLLOW, .TIM_PTM_CFG_PERIOD, .TIM_PTM_CFG_STEP_THR]
  | .TIM_PTM_OFS => [.TIM_PTM_OFS_OFS]
  | .RST_CAUSE => [.RST_CAUSE_CAUSE, .RST_CAUSE_COUNT]
  | .RST_CTL => [.RST_CTL_DELAY, .RST_CTL_KEY]
  | .SEC_LIFECYCLE => [.SEC_LIFECYCLE_STATE, .SEC_LIFECYCLE_ADVANCING]
  | .SEC_STS => [.SEC_STS_FW_AUTH, .SEC_STS_IMAGE_B, .SEC_STS_SESSIONS, .SEC_STS_IDE_FAIL, .SEC_STS_TDI_ERR]
  | .SEC_IDE_STS => [.SEC_IDE_STS_EN, .SEC_IDE_STS_STATE, .SEC_IDE_STS_STREAM_ID, .SEC_IDE_STS_TX_KSET, .SEC_IDE_STS_RX_KSET, .SEC_IDE_STS_FAIL, .SEC_IDE_STS_FAIL_CAUSE]
  | .SEC_TDI => [.SEC_TDI_STATE, .SEC_TDI_STREAM, .SEC_TDI_ERR_CAUSE]
  | .DBG_CTL => [.DBG_CTL_RELOCK]
  | .DBG_STS => [.DBG_STS_DBG_FAULT, .DBG_STS_LC, .DBG_STS_OPEN, .DBG_STS_JTAG_ACTIVE, .DBG_STS_FAULT_CNT]
  | .DBG_FAULT_ADDR => [.DBG_FAULT_ADDR_ADDR, .DBG_FAULT_ADDR_WRITE]
  | .MGT_CFG => [.MGT_CFG_SMB_ADDR, .MGT_CFG_RAW_ADDR, .MGT_CFG_SMB_MCTP_EN, .MGT_CFG_VDM_EN]
  | .MGT_EID => [.MGT_EID_EID, .MGT_EID_OWNER_EID]
  | .MGT_STS => [.MGT_STS_SMB_BUSY, .MGT_STS_VDM_BUSY, .MGT_STS_RAW_ACTIVE, .MGT_STS_HELD]
  | .MGT_PLDM_CFG => [.MGT_PLDM_CFG_PERIOD, .MGT_PLDM_CFG_EVT_EN]
  | .MGT_ERR_CNT => [.MGT_ERR_CNT_PEC_ERR, .MGT_ERR_CNT_BUSY_ANS]
  | .MGT_LOG_STS => [.MGT_LOG_STS_AON_USED, .MGT_LOG_STS_NEW, .MGT_LOG_STS_OVERRUN, .MGT_LOG_STS_HEAD]
  | .MGT_LOG_NEXT => [.MGT_LOG_NEXT_NEXT]
  | .MGT_RING0 => [.MGT_RING0_WORD]
  | .MGT_RING1 => [.MGT_RING1_WORD]
  | .MGT_RING2 => [.MGT_RING2_WORD]
  | .MGT_RING3 => [.MGT_RING3_WORD]

/-- The registers of a block, in the order of their offsets. -/
def blockRegs : Block → List Reg
  | .IRQ => [.IRQ_CFG, .IRQ_STS, .IRQ_FALLBACK, .IRQ_DB_DENY, .IRQ_ERR_CNT, .IRQ_STORM_CFG, .IRQ_CORE_CLAIM, .IRQ_CORE_COMPLETE, .IRQ_CORE_CTL, .IRQ_CORE_STS, .IRQ_CORE_STACK, .IRQ_LT, .IRQ_INTX_STS, .IRQ_PEND_SET, .IRQ_PEND_CLR, .IRQ_EN_SET, .IRQ_EN_CLR, .IRQ_STORM, .IRQ_DOORBELL, .IRQ_ROUTE, .IRQ_SRC_STS]
  | .HST => [.HST_LINK_CAP, .HST_LINK_CTL, .HST_LINK_STS, .HST_LANE_FAIL, .HST_LANE_ERR_THR, .HST_PM_CTL, .HST_CLK_CFG, .HST_EVT, .HST_EVT_EN, .HST_RECOV_CNT, .HST_FLIT_CNT, .HST_LANE_ERR_CNT, .HST_CONT_STS, .HST_CONT_TIME, .HST_CONT_REL, .HST_CONT_DROP]
  | .FN => [.FN_ID, .FN_STS, .FN_CTL, .FN_RINSE, .FN_RINSE_DROP, .FN_RINSE_LATE, .FN_ADV_CNT, .FN_VIEW_DENY, .FN_EVQ_BASE, .FN_EVQ_CFG, .FN_EVQ_HEAD, .FN_EVQ_TAIL, .FN_RES, .FN_CONT, .FN_VF_TOTAL, .FN_SLICE_ERR, .FN_SLICE]
  | .XLT => [.XLT_CFG, .XLT_TBL_BASE, .XLT_EPOCH, .XLT_EPOCH_DRAIN, .XLT_UPD_DATA, .XLT_UPD_CMD, .XLT_UPD_STS, .XLT_PREF_CFG, .XLT_PIN_CNT, .XLT_FAULT_ADDR, .XLT_FAULT_INFO, .XLT_HIT_CNT, .XLT_MISS_CNT, .XLT_SLOW_CNT, .XLT_STRADDLE_CNT, .XLT_SPLIT_CNT, .XLT_PREF_HIT_CNT, .XLT_PROT_DROP]
  | .GRD => [.GRD_STS, .GRD_EPOCH, .GRD_EPOCH_DRAIN, .GRD_UPD_DATA, .GRD_UPD_CMD, .GRD_UPD_STS, .GRD_SHADOW_BASE, .GRD_FAULT_ADDR, .GRD_FAULT_INFO, .GRD_FAULT_CNT, .GRD_NOTICE_CNT, .GRD_SET_CFG, .GRD_REGION]
  | .LDG => [.LDG_CFG, .LDG_TMO, .LDG_OVF_BASE, .LDG_STS, .LDG_ERR_CNT, .LDG_RETRY_CNT, .LDG_LATE_CNT, .LDG_NOTICE_MISS, .LDG_STARCH_CFG, .LDG_STARCH_STS, .LDG_SEQ]
  | .BSK => [.BSK_CFG, .BSK_STS, .BSK_CPL_STS, .BSK_TMO_CNT, .BSK_UNEXP_CNT, .BSK_DISCARD_CNT, .BSK_WAIT_CNT]
  | .DMA => [.DMA_CFG, .DMA_STS, .DMA_ERR_CNT, .DMA_ABORT_CNT, .DMA_PREEMPT_CNT, .DMA_GRANT, .DMA_CH_OP, .DMA_CH_COUNT, .DMA_CH_SRC, .DMA_CH_DST, .DMA_CH_STRIDE, .DMA_CH_PATTERN, .DMA_CH_CTL, .DMA_CH_STS, .DMA_CH_RESIDUE, .DMA_CH_ERR_OFF, .DMA_CH_CFG, .DMA_CH_WB, .DMA_CH_RUNS, .DMA_SQ_BASE, .DMA_SQ_CFG, .DMA_SQ_STS, .DMA_CQ_BASE, .DMA_CQ_CFG, .DMA_CQ_PTR, .DMA_RING_CTL]
  | .SHR => [.SHR_CFG, .SHR_STS, .SHR_SPILL_BASE, .SHR_SPILL_USE, .SHR_UPD_DATA, .SHR_UPD_RES, .SHR_UPD_CMD, .SHR_UPD_STS, .SHR_TICK, .SHR_DB_DROP, .SHR_RES_STS, .SHR_RES_SUM, .SHR_RES_CFG, .SHR_RES_MEAS, .SHR_PORT_SHARE, .SHR_PORT_RES, .SHR_CTX_BIND, .SHR_CTX_SHARE, .SHR_CTX_RES, .SHR_CTX_STS0, .SHR_CTX_STS1, .SHR_CTX_STS2, .SHR_CTX_STS3]
  | .ULK => [.ULK_CTL, .ULK_STS, .ULK_EVT, .ULK_EVT_EN, .ULK_FAR, .ULK_CREDIT, .ULK_RETRY_CFG, .ULK_PM_CFG, .ULK_SB_CFG, .ULK_SB_LATCH, .ULK_SB_IN, .ULK_SB_OUT, .ULK_SB_EVT, .ULK_REPLAY_CNT, .ULK_PROTO_ERR, .ULK_SB_SKIP, .ULK_REQ_CNT]
  | .SEM => [.SEM_CTL, .SEM_STS, .SEM_EVT, .SEM_EVT_EN, .SEM_HB_CFG, .SEM_HO_CFG, .SEM_TWIN, .SEM_TWIN_FW, .SEM_PAIR_ID, .SEM_MSEQ, .SEM_LAG, .SEM_HB_CNT, .SEM_TAKE, .SEM_FOLLOW_DROP]
  | .LANE => [.LANE_STS, .LANE_CTL, .LANE_TXEQ, .LANE_ERR_CNT, .LANE_DARN_CNT, .LANE_FAR, .LANE_LINK_CTL, .LANE_LINK_STS, .LANE_LINK_EVT, .LANE_LINK_EVT_EN, .LANE_SKEW, .LANE_LINK_REMAP]
  | .MEM => [.MEM_CFG, .MEM_EVT, .MEM_EVT_EN, .MEM_ERR_ADDR, .MEM_ERR_CNT, .MEM_TRANS_CNT, .MEM_PROT_DROP, .MEM_CNT_CTL, .MEM_SNAP_TIME, .MEM_MST_ACC, .MEM_MST_WAIT, .MEM_BANK_BUSY]
  | .DRS => [.DRS_CFG, .DRS_STS, .DRS_EVT, .DRS_EVT_EN, .DRS_ERR_ADDR, .DRS_ERR_CNT, .DRS_TRANS_CNT, .DRS_PROT_DROP, .DRS_SYS_BASE, .DRS_ZERO_BASE, .DRS_ZERO_LEN, .DRS_ZERO_CTL, .DRS_ZERO_POS, .DRS_SCRUB_POS, .DRS_PKG_STS]
  | .MBX => [.MBX_CFG, .MBX_STS, .MBX_CLAIM, .MBX_DONE, .MBX_ACT_ERR, .MBX_WR_DROP, .MBX_POST_CNT, .MBX_MB]
  | .PWR => [.PWR_CTL, .PWR_STS, .PWR_EVT, .PWR_EVT_EN, .PWR_DOM_STS, .PWR_DOM_REQ, .PWR_DOM_RESULT, .PWR_WAKE_EN, .PWR_WAKE_LAST, .PWR_WAKE_TIMER, .PWR_WDOG_CFG, .PWR_WDOG_KICK, .PWR_OFF_ACCESS_CNT, .PWR_CORE_CTL]
  | .CLK => [.CLK_STS, .CLK_EVT, .CLK_EVT_EN, .CLK_CORE_SEL]
  | .TIM => [.TIM_NOW, .TIM_STEP, .TIM_ADJ, .TIM_STS, .TIM_AON, .TIM_RATIO, .TIM_SAVE, .TIM_SAVE_AON, .TIM_PTM_CFG, .TIM_PTM_OFS]
  | .RST => [.RST_CAUSE, .RST_CTL]
  | .SEC => [.SEC_LIFECYCLE, .SEC_STS, .SEC_IDE_STS, .SEC_TDI]
  | .DBG => [.DBG_CTL, .DBG_STS, .DBG_FAULT_ADDR]
  | .MGT => [.MGT_CFG, .MGT_EID, .MGT_STS, .MGT_PLDM_CFG, .MGT_ERR_CNT, .MGT_LOG_STS, .MGT_LOG_NEXT, .MGT_RING0, .MGT_RING1, .MGT_RING2, .MGT_RING3]

/-- The block at 1 MiB unit `n` of the register region (R33). -/
def blockAt : Nat → Option Block
  | 0 => some .IRQ
  | 1 => some .HST
  | 2 => some .FN
  | 3 => some .XLT
  | 4 => some .GRD
  | 5 => some .LDG
  | 6 => some .BSK
  | 7 => some .DMA
  | 8 => some .SHR
  | 9 => some .ULK
  | 10 => some .SEM
  | 11 => some .LANE
  | 12 => some .MEM
  | 13 => some .DRS
  | 14 => some .MBX
  | 15 => some .PWR
  | 16 => some .CLK
  | 17 => some .TIM
  | 18 => some .RST
  | 19 => some .SEC
  | 20 => some .DBG
  | 21 => some .MGT
  | _ => none

end Sys2Proof.Machine
end

