-- ==== Sys2Proof/Machine/SMap.lean ====
section
/-!
DEFINITION. Sparse maps as plain data: a list of key and value pairs, keys strictly rising, no entry equal to what an
unlisted key reads as. Memory, the register file and every per-instance table of the state are such maps.
-/
namespace Sys2Proof.Machine

variable {α : Type}

/-- The value at a key; `d` gives what an unlisted key reads as. -/
def smGet (d : Nat → α) : List (Nat × α) → Nat → α
  | [], k => d k
  | (a, v) :: t, k => if a = k then v else smGet d t k

/-- The list without any entry for a key. -/
def smErase : List (Nat × α) → Nat → List (Nat × α)
  | [], _ => []
  | (a, v) :: t, k => if a = k then smErase t k else (a, v) :: smErase t k

/-- An entry put at its place by key. -/
def smIns : List (Nat × α) → Nat → α → List (Nat × α)
  | [], k, v => [(k, v)]
  | (a, w) :: t, k, v => if a < k then (a, w) :: smIns t k v else (k, v) :: (a, w) :: t

/-- Writes a key. Writing the value an unlisted key reads as removes the entry. -/
def smSet [DecidableEq α] (d : Nat → α) (m : List (Nat × α)) (k : Nat) (v : α) : List (Nat × α) :=
  if v = d k then smErase m k else smIns (smErase m k) k v

/-- Keeps the entries whose key satisfies `p`; the others read as unlisted again. -/
def smKeep (p : Nat → Bool) : List (Nat × α) → List (Nat × α)
  | [] => []
  | (a, v) :: t => if p a then (a, v) :: smKeep p t else smKeep p t

/-- The canonical form, as a Bool: keys strictly rising, no entry equal to the default. -/
def smWf [DecidableEq α] (d : Nat → α) : List (Nat × α) → Bool
  | [] => true
  | [(a, v)] => decide (v ≠ d a)
  | (a, v) :: (b, w) :: t => decide (v ≠ d a) && decide (a < b) && smWf d ((b, w) :: t)

end Sys2Proof.Machine
end

