-- ==== Sys2Proof/Machine/State.lean ====
section
/-!
DEFINITION. The state of the block as plain data: its registers, memories, queues, engines and pins, the commands that
wait, and the log of what it has sent. The faults and refusals, and the state after reset.
-/
namespace Sys2Proof.Machine

/-! ### Outcomes other than a next state -/

/-- Why a command would end in a fault: never. The specification gives every event an outcome of its own, so no meaning
answers with a fault. -/
inductive Fault where
  deriving DecidableEq, Repr

/-- Why a command is refused. -/
inductive Refusal where
  /-- Raised by the dispatcher for a command without a meaning. Safe: nothing is claimed of it. -/
  | notModelled (mnemonic : String)
  /-- Raised by a meaning whose operands no sender can send (`Instr.wf`): a data list whose length is not the stated
  length, a request that crosses a boundary its link forbids. Safe: the hardware never receives it. -/
  | illFormed
  deriving DecidableEq, Repr

/-! ### Modes -/

/-- The module modes of R375. -/
inductive Mode where
  | OFF | STANDBY | BOOT | LEAD | FOLLOW | CONTAIN
  deriving DecidableEq, Repr

/-! ### What the block sends -/

/-- The AER errors the block reports (R164, R170, R178, R179, R480). -/
inductive Aer where
  | internal | poisonedTlp | cplTimeout | unexpectedCpl | correctable
  deriving DecidableEq, Repr

/-- Messages and link actions towards the host. -/
inductive HostMsg where
  | assertIntx (pf : Nat) | deassertIntx (pf : Nat)
  | pmeToAck
  | beaconWake
  | l0pRequest (width : Nat)
  | enterL1 | exitL1 | l1Substate (n : Nat)
  | recovery
  | retrain
  | linkDown
  deriving DecidableEq, Repr

/-- What the block sends on its links and pins, one constructor for each kind. -/
inductive Out where
  /-- A completion: function, tag, status (0 SC, 1 UR, 2 RRS, 4 CA), data, EP, IDE stream. -/
  | cpl (f tag status : Nat) (data : List Byte) (ep : Bool) (stream : Nat)
  /-- A memory read of the host: tag, function, slice, address, length, attributes (1 Relaxed Ordering, 2 No Snoop),
  IDE stream (0 none, 1 link, 1 + s selective s). -/
  | mrd (tag f : Nat) (slice : Option Nat) (addr len attrs stream : Nat)
  /-- A posted write to the host. -/
  | mwr (f : Nat) (slice : Option Nat) (addr : Nat) (data : List Byte) (ep : Bool) (attrs stream : Nat)
  /-- An AtomicOp to the host. -/
  | hostAtomic (tag f : Nat) (slice : Option Nat) (addr : Nat) (op : AtomOp) (data : List Byte) (attrs stream : Nat)
  /-- An AER message of a function: an uncorrectable error is fatal or not by its severity register. -/
  | aer (f : Nat) (e : Aer) (fatal : Bool)
  | msg (m : HostMsg)
  /-- A packet sent on a Urone port. -/
  | ur (p : Nat) (pkt : UrPkt)
  /-- A bundle on a link (R213): its 16 data blocks and its control block. An ACK_ONLY or NAK_ONLY block. -/
  | bundle (l : Nat) (data : List Nat) (ctl : Nat)
  | ctlBlock (l : Nat) (word : Nat)
  /-- A control core takes a bus error, or data comes back to it. -/
  | busErr (c : Nat)
  | coreData (c : Nat) (data : List Byte)
  /-- The value a register read that is a command of its own returns. -/
  | regData (v : Nat)
  /-- A lane sends `n` copies of a TRAIN block (R193), or goes on sending it when `n` is 0; the lanes of a link go to
  electrical idle (R200, R202); the shared clock of a transmit group stops or runs (R203). -/
  | train (lane word n : Nat)
  | laneIdle (link : Nat)
  | txClock (group : Nat) (on : Bool)
  /-- A block leaves on a lane: the levels of its symbols, the first in the lowest place: 66 of one bit, or at rate code 2
  33 of two bits (R188, R192). -/
  | line (lane levels : Nat)
  /-- A MARKER on the lanes a link drives: command, ACTIVE, RX_OK, ARG, MCOUNT (R193, R194). -/
  | marker (link cmd active rxok arg mcount : Nat)
  /-- The host link: REFCLK requested or released (R61), WAKE# asserted or released, PWR_ALERT_N asserted or released. -/
  | wakeN (asserted : Bool)
  | clkreq (asserted : Bool)
  | alertN (asserted : Bool)
  /-- The level of PAIR_ROLE and an edge of PAIR_ALIVE (R390). -/
  | pairRole (high : Bool)
  | pairAlive (high : Bool)
  /-- The rails have been switched off, by the power-down of the module or by the thermal trip. -/
  | railsOff
  /-- The 16, 8 or 32 bytes of a raw-mode block read, and the NACK of a raw-mode write (R493). -/
  | rawData (d : List Byte)
  | rawNack
  /-- The data a debug read returns on JTAG (R358). -/
  | jtagData (d : List Byte)
  /-- A DOE response of PF0 (R359): the session it goes in, if any, the response code of its protocol, its fields. -/
  | doe (session : Option Nat) (code : Nat) (fields : List Nat) (data : List Byte)
  /-- A message on an MCTP binding (R433, R434) and a PLDM response or event (R435): command code, completion code,
  fields. -/
  | mctp (binding code : Nat) (fields : List Nat) (data : List Byte)
  | pldm (binding code cc : Nat) (fields : List Int)
  deriving DecidableEq, Repr

/-- An item that waits at J1 for the host link (R151): a posted write with its function, slice, address, data, EP and
attributes, and the request to answer once it has left; or, when `tlp` is set, a completion or request that may not
pass the writes of its port before it. `jn` numbers the items in the order of arrival. -/
structure JWrite where
  fn : Nat
  slice : Option Nat
  addr : Nat
  data : List Byte
  ep : Bool := false
  ro : Bool := false
  ns : Bool := false
  jn : Nat := 0
  req : Option Req := none
  /-- This is the last packet of the request's data. -/
  last : Bool := true
  /-- An MSI-X message, with the sources it covers (R295, R523). -/
  msi : Option (List Nat) := none
  tlp : Option Out := none
  /-- The port whose traffic this is, plus one. -/
  port : Nat := 0
  deriving DecidableEq, Repr
/-! ### Translation, guard, ledger, Basket, Starch -/

/-- A copy of a window table entry in the window cache (R124): its index, its four words, and whether it is pinned. -/
structure CacheEnt where
  idx : Nat
  words : List Nat
  pin : Bool
  deriving DecidableEq, Repr

/-- A window table walk (R125): its table (`winTable`), whether it holds one of the 128 walk slots (R28), and the
requests that started or joined it, oldest first. -/
structure Walk where
  tbl : Nat
  slot : Bool
  waiting : List Req
  /-- The walks are numbered as they start, which tells a later walk of a table from an earlier one (R139). -/
  id : Nat := 0
  deriving DecidableEq, Repr

/-- A prefetched line (R132): its requester key, window entry, port, ordering domain, requester's and destination
address, data and the time it was filled. -/
structure PrefLine where
  who : Who
  slice : Option Nat
  idx : Nat
  port : Nat
  dom : Nat
  addr : Nat
  dst : Nat
  data : List Byte
  born : Nat
  deriving DecidableEq, Repr

/-- The update unit of R139 and R352. -/
inductive UpdUnit where
  | idle
  /-- HOLD: the walks of the table that were recorded. -/
  | hold (walks : List Nat)
  /-- COMMIT done, waiting in MIRROR for the record with this MSEQ. -/
  | mirror (mseq : Nat)
  /-- INVAL: the indices to reload. -/
  | inval (op idx : Nat)
  deriving DecidableEq, Repr

/-- The state of a ledger entry (R157); FREE entries are not listed. -/
inductive LSt where
  | opened | issued | retry | answered
  deriving DecidableEq, Repr

/-- A ledger entry (R156) with the request it carries; `req.dst` is LADDR. `atom` marks the write of an emulated atomic
(R173) and holds the original value to return. -/
structure LEnt where
  port : Nat
  init : Nat
  seq : Nat
  st : LSt
  req : Req
  status : Nat
  retried : Bool
  mirrored : Bool
  abandoned : Bool
  tag : Option Nat
  atom : Option (List Byte)
  /-- Its LEDGER_OPEN record was sent, with this MSEQ (R395). -/
  recd : Bool := false
  mseq : Nat := 0
  /-- Its place, from 8,192 on in the overflow area, and its data unit, DATA_REF (R155, R156). -/
  slot : Nat := 0
  ref : Nat := 0
  deriving DecidableEq, Repr

/-- A write that waits to open a ledger entry (R154, R155). -/
structure LWait where
  port : Nat
  init : Nat
  req : Req
  atom : Option (List Byte)
  deriving DecidableEq, Repr

/-- A retired host-initiated entry in the history of its port (R166): what its words 0 to 2 hold. -/
structure Hist where
  port : Nat
  seq : Nat
  req : Req
  status : Nat := 0
  retried : Bool := false
  abandoned : Bool := false
  deriving DecidableEq, Repr

/-- A late-error notice held for an open entry (R166). -/
structure Late where
  port : Nat
  init : Nat
  seq : Nat
  status : Nat
  deriving DecidableEq, Repr

/-- A read or atomic to a local port: waiting for response space, or outstanding with its tag (R176, R167). `got` is
the data received so far, `sent` how much of it has left for the requester. -/
structure PRead where
  port : Nat
  req : Req
  tag : Option Nat
  retried : Bool
  got : List Byte
  pois : List Nat
  sent : Nat
  /-- An atomic that is emulated: this is its read (R173). -/
  emul : Bool
  deriving DecidableEq, Repr

/-- A whole access that was cut into pieces (R137): its request, the number of pieces still out, the data collected by
piece offset, and the failing piece of lowest address with its status. -/
structure Group where
  id : Nat
  req : Req
  left : Nat
  parts : List (Nat × List Byte)
  pois : List Nat
  fail : Option (Nat × Nat)
  /-- The failing piece had been reissued. -/
  failRet : Bool := false
  deriving DecidableEq, Repr

/-- The state of a Basket tag (R177); FREE tags are not listed. `reported` tells a quarantine after a reported timeout
(R178) from one after HELD. -/
inductive TagSt where
  | issued | held | quarantine (reported : Bool)
  deriving DecidableEq, Repr

/-- A Basket tag (R175 to R177): its function, the read it serves, the piece's offset and length, the bytes received. -/
structure BTag where
  tag : Nat
  st : TagSt
  fn : Nat
  rid : Nat
  off : Nat
  len : Nat
  got : Nat
  req : Req
  deriving DecidableEq, Repr

/-- A host-bound read or atomic in progress: its number, its request, the data received (by offset), the bytes already
delivered, the worst status so far, the completion store units it holds (R176). -/
structure HRead where
  rid : Nat
  req : Req
  parts : List (Nat × List Byte)
  pois : List Nat
  sent : Nat
  fail : Option Nat
  units : Nat
  /-- The pieces that no tag has been given to yet (R175). -/
  todo : List (Nat × Nat) := []
  deriving DecidableEq, Repr

/-- A RESPONSE to a port's host read, held under R148: the order number its completion took, the read, the packet,
the completion store units its data still holds. -/
structure CplHeld where
  port : Nat
  ord : Nat
  req : Req
  pkt : UrPkt
  units : Nat
  deriving DecidableEq, Repr

/-- A Starch lock (R171, R174): the granule's address, the issuing function plus one for a host granule, the port that
holds it explicitly, consecutive host grants (R172). -/
structure Lock where
  gran : Nat
  hfn : Nat
  expl : Option Nat
  hostRun : Nat
  deriving DecidableEq, Repr

/-- The result of a DMA access: channel, tag, the range in the channel's own space, status (R159), data, poisoned
granules. -/
structure BeatDone where
  ch : Nat
  tag : Nat
  addr : Nat
  len : Nat
  status : Nat
  data : List Byte
  pois : List Nat
  deriving DecidableEq, Repr

/-! ### The Urone link layer -/

/-- A bundle in the replay buffer (R216): its BSEQ and its data blocks. -/
structure Bundle where
  bseq : Nat
  data : List Nat
  deriving DecidableEq, Repr

/-- The link layer of one port beyond its ULK_ registers. -/
structure PortLL where
  /-- How often the link layer has gone DOWN: a request keeps the number it arrived under. -/
  gen : Nat := 0
  /-- Expected bundle number E, the next BSEQ to send, the last ACKSEQ received (R215, R216). -/
  e : Nat := 0
  bseq : Nat := 0
  acked : Nat := 4095
  /-- A NAK was sent and neither an accepted bundle nor tNAKH has followed (R215). -/
  nakSent : Bool := false
  replay : List Bundle := []
  replays : Nat := 0
  /-- Data blocks of the bundle that is being filled; it stays open while packets follow one another (R218). -/
  part : List Nat := []
  hold : Bool := false
  /-- Data blocks of accepted bundles that begin a packet whose end has not come (R218). -/
  rxPart : List Nat := []
  /-- Packets that wait for credit or for the replay buffer, oldest first. -/
  txq : List UrPkt := []
  /-- Transmit credit of VC0 and VC2: limits received and counts used (R220). -/
  hdr0 : Nat := 0
  data0 : Nat := 0
  hdr2 : Nat := 0
  used0 : Nat := 0
  usedD0 : Nat := 0
  used2 : Nat := 0
  /-- Credit granted to the design and credit its packets have used, cumulative. -/
  grant0 : Nat := 0
  grantD0 : Nat := 0
  grant2 : Nat := 0
  rx0 : Nat := 0
  rxD0 : Nat := 0
  rx2 : Nat := 0
  /-- Credit of packets taken from the receive buffer since link-up. -/
  freed0 : Nat := 0
  freedD0 : Nat := 0
  freed2 : Nat := 0
  /-- The design's HELLO has arrived (R243). -/
  farHello : Bool := false
  /-- Packets delivered in bundles and not yet served, oldest first. -/
  rx : List UrPkt := []
  /-- Packets that came while they may not be served: in HELLO (R243), in CONTAIN (R487); oldest first, with what a read
  will find (R450). -/
  held : List (UrPkt × MemErr) := []
  /-- Tags of the design's requests that are not answered yet (R227). -/
  dreq : List Nat := []
  /-- Tags of the bridge's own requests held after a timeout (R227). -/
  heldTags : List Nat := []
  /-- Tags whose response broke R230: what still comes for them is discarded (R249). -/
  deadTags : List Nat := []
  pollId : Nat := 0
  pollOut : Bool := false
  /-- ULK_SB_OUT changed and not sent yet; an SB_STATE is due and waits for credit or for the transmitter (R241). -/
  sbDirty : Bool := false
  sbDue : Bool := false
  /-- ULK_SB_LATCH as it was when the poll that is out was sent, once it has been written since (R248). -/
  oldLatch : Option Nat := none
  /-- Units served on each of the 16 request lines since its last REQ_DONE (R269). -/
  served : List (Nat × Nat) := []
  /-- An acknowledgement is owed and waits for the transmitter to wake (R246). -/
  ackOwed : Bool := false
  /-- The transmitter's low-power state (R246): 0 awake, 1 doze, 2 deep sleep; and the receive direction's. -/
  txLp : Nat := 0
  rxLp : Nat := 0
  deriving DecidableEq, Repr

/-! ### Domains, functions, interrupts, event entries and the fault log -/

/-- The state of a power domain (R462). -/
inductive DomSt where
  | off | powering | on | draining | aborting | clamped | retained
  deriving DecidableEq, Repr

/-- A function event queue entry (R163, R481) before PHASE is filled. -/
structure EvqEnt where
  fn : Nat
  typ : Nat
  flags : Nat := 0
  seq : Nat := 0
  port : Nat := 255
  status : Nat := 0
  window : Nat := 255
  slice : Option Nat := none
  offset : Nat := 0
  len : Nat := 0
  req : Nat := 0
  epoch : Nat := 0
  time : Nat := 0
  deriving DecidableEq, Repr

/-- A fault log entry (R484); `div` is the event queue entry it introduces (R482). -/
structure LogEnt where
  num : Nat := 0
  cls : Nat
  flags : Nat := 0
  unit : Nat
  code : Nat := 0
  time : Nat := 0
  addr : Option Nat := none
  fn : Option Nat := none
  req : Nat := 0
  info : Nat := 0
  div : Option EvqEnt := none
  deriving DecidableEq, Repr


/-! ### DMA channels and rings -/

/-- The state of a beat (R258): its reads are out, its data waits to be written, its write is out, it has arrived, it
failed, or its reads were abandoned by a hard abort (R275). -/
inductive BeatSt where
  | reading | ready | writing | arrived | failed | abandoned
  deriving DecidableEq, Repr

/-- A beat (R257): its tag, transfer offset and length, source and destination addresses, how many reads and pieces are
outstanding, the data read from the source and, for COMPARE, from the destination, its poisoned bytes as offsets in
rising address order, its status once it failed. -/
structure Beat where
  tag : Nat
  off : Nat
  len : Nat
  src : Nat
  dst : Nat
  st : BeatSt
  /-- A read of the source, of the destination is out. -/
  rdS : Bool
  rdD : Bool
  data : List Byte
  data2 : List Byte
  pois : List Nat
  status : Nat
  deriving DecidableEq, Repr

/-- Why a channel stops (R260): not at all, soft abort, Bus Master Enable, a beat error, hard abort. -/
inductive StopWhy where
  | run | soft | masterOff | error | hard
  deriving DecidableEq, Repr

/-- The transfer a channel runs or has ended (R260): the context and slot of a pool descriptor, the image words, the
owner and its slice, the total size, the next transfer offset to issue, the beats that have not been dropped in
transfer order, the bytes that have arrived without a gap, pace units taken and reported, the stop in progress, what
ended it, the state left by DRAIN. -/
structure ChRun where
  ctx : Option Nat
  slot : Nat
  words : List Nat
  owner : Nat
  slice : Option Nat
  size : Nat
  desc : Bool
  next : Nat
  beats : List Beat
  nextTag : Nat
  done : Nat
  units : Nat
  servedUnits : Nat
  stop : StopWhy
  cause : Nat
  errOff : Option (Nat × Nat)
  mism : Option Nat
  poisOff : Option Nat
  drainFrom : Nat
  deriving DecidableEq, Repr

/-- The ring engine's state of a context (R261 to R265): the SQ_TAIL its doorbell named, a descriptor read in flight and
a further one due, produced descriptors taken and not dispatched yet, the slots running and whether each has its record
written, CQ slots reserved. -/
structure Ring where
  tail : Nat := 0
  /-- A doorbell has brought SQ_TAIL since the last reset of the ring (R317). -/
  tv : Bool := false
  rung : Bool := false
  fetching : Bool := false
  again : Bool := false
  taken : List (Nat × List Nat) := []
  running : List (Nat × Nat) := []
  reserved : Nat := 0
  /-- How often the ring has been reset, so that a read of before it is not taken. -/
  gen : Nat := 0
  /-- A FETCH_ERROR record that waits for a CQ slot, with its SQ slot (R265). -/
  pendRec : Option Nat := none
  /-- Slots to be dispatched again after a takeover, oldest first (R402). -/
  redo : List Nat := []
  deriving DecidableEq, Repr


/-! ### The pair -/

/-- An outward effect of the leader that waits for the acknowledgement of its record (R397). -/
inductive MirWait where
  /-- An event queue entry, and whether it raises its function's event source. -/
  | event (w : JWrite) (irq : Bool)
  /-- A completion record of a context: its CQ slot, SQ slot, bytes but for TIME, whether it interrupts. -/
  | record (x cqSlot slot : Nat) (data : List Byte) (irq : Bool)
  deriving DecidableEq, Repr

/-- What waits for Bus Master Enable or for the release of CONTAIN (R110, R277, R487). -/
inductive Held where
  /-- An event queue entry. -/
  | evq (e : EvqEnt)
  /-- The record of a channel, or from 256 on the FETCH_ERROR record of context c − 256. -/
  | chan (c : Nat)
  deriving DecidableEq, Repr

/-- The phase of a handover (R406). -/
inductive HoPhase where
  | none | drain | offer
  deriving DecidableEq, Repr

/-! ### The share governor -/

/-- What the governor has measured of an account in the running window (R318): data bytes, the longest wait, the sum and
the number of waits, SQ occupancy summed over epochs, epochs, service outside the mask. -/
structure GovWin where
  bytes : Nat := 0
  waitMax : Nat := 0
  waitSum : Nat := 0
  waits : Nat := 0
  occ : Nat := 0
  epochs : Nat := 0
  outside : Bool := false
  deriving DecidableEq, Repr


/-! ### The lane layer -/

/-- The lane layer of a link beyond its LANE_ registers (R193 to R210): the rate code trained for, whether training has
failed at rate code 0, whether the transmitters send TRAIN blocks now (R200), the lanes that count as not READY because
they stayed in DETECT, the index of the last periodic marker, the far lanes named in DARN_REQ and not yet seen removed,
the far lanes named in ADD_REQ, and when lane lock was lost. -/
structure LaneLink where
  target : Nat := 0
  failed : Bool := false
  sending : Bool := false
  lag : Nat := 0
  mcount : Nat := 0
  darning : Nat := 0
  adding : Nat := 0
  lost : Nat := 0
  /-- Blocks of the stream sent since the last STRIPE marker (R195); RATE_MAX as it was when the training began (R211). -/
  blk : Nat := 0
  rmax : Nat := 2
  deriving DecidableEq, Repr

/-- The transmitter of one lane beyond its LANE_ registers, and its trial: the scrambler's last 58 bits, the last one on top
(R192; its reset value is a DESIGN CHOICE, assumption 73), the coefficient requests it sends and the answers (R198), RX_READY
and READY_SEEN (R193), whether the trial window that runs has gone wrong (R206). -/
structure LaneTx where
  scram : Nat := 288230376151711743
  preReq : Nat := 0
  postReq : Nat := 0
  preSts : Nat := 0
  postSts : Nat := 0
  rxReady : Bool := false
  readySeen : Bool := false
  winBad : Bool := false
  deriving DecidableEq, Repr

/-! ### Boot, power and management -/

/-- A copy of the flash header (R383); `good` says that its CRC matches. -/
structure FlashHdr where
  good : Bool := true
  seq : Nat := 0
  active : Nat := 0
  /-- TRY: 0 none, 1 image A, 2 image B. -/
  attempt : Nat := 0
  tries : Nat := 0
  verA : Nat := 0
  verB : Nat := 0
  deriving DecidableEq, Repr

/-- A copy of the Evoset record (R385): its CRC matches, its SEQ, its LENGTH bytes. -/
structure EvRec where
  good : Bool := false
  seq : Nat := 0
  body : List Byte := []
  deriving DecidableEq, Repr

/-- What the host face shows (R381, R382). -/
inductive Face where
  | rrs | minimal | full
  deriving DecidableEq, Repr

/-- A control core at rest (R463, R464): running, in its entry window, or resting. -/
inductive CorePhase where
  | run | window | rest
  deriving DecidableEq, Repr

/-- The rest of a control core: its phase, the mode taken at the wait, REPLAY as it stood when the window opened, the
source of the edge latched in the window, whether an edge was lost, and the wake that waits for the entry to complete: its
source and whether it is replayed. -/
structure CoreRest where
  phase : CorePhase := .run
  mode : Nat := 0
  replay : Bool := false
  edge : Option Nat := none
  lost : Bool := false
  wake : Option (Nat × Bool) := none
  deriving DecidableEq, Repr

/-- A STANDBY entry in progress (R386): whether the store is retained, the step reached (1 handover, 2 DMA drain,
3 ledger, 4 ports down), how often the DMA drain was BUSY, the module wake that is latched (R467). -/
structure Standby where
  retain : Bool
  step : Nat := 1
  busy : Nat := 0
  wake : Option Nat := none
  deriving DecidableEq, Repr

/-- A firmware staging in progress (R429). -/
structure Staging where
  source : Nat
  tries : Nat
  size : Nat
  base : Nat
  data : List Byte := []
  deriving DecidableEq, Repr

/-- A secured SPDM session (R360): its ID, whether FINISH completed it, how often its keys were updated. -/
structure SpdmSession where
  id : Nat
  open_ : Bool := false
  keyGen : Nat := 0
  deriving DecidableEq, Repr

/-- A request that came by MCTP (R434): the binding (0 SMBus, 1 PCI Express), its TAG and the message that is held. -/
structure MctpReq where
  binding : Nat
  opcode : Nat
  abi : Nat
  tag : Nat
  payload : List Byte
  deriving DecidableEq, Repr


/-- Margining of one host lane at its receiver (R51, R52): the margin type and payload of the last command carried out, the
errors of its independent sampler since they were last cleared, the error count at which it stops. -/
structure Margin where
  typ : Nat := 7
  payload : Nat := 0x9C
  errs : Nat := 0
  limit : Nat := 4
  deriving DecidableEq, Repr

/-- The physical layer of the host link beyond its HST_ registers: what chapter 2 gives it. -/
structure HostPhy where
  /-- Equalisation results retained, by rate code (R50), and the status of the last equalisation at each: bit 0 complete,
  bits 1 to 3 the phases that succeeded, bit 4 another one is asked for (R90). -/
  eqRes : List (Nat × List Nat) := []
  eqSts : List (Nat × Nat) := []
  /-- How the last training equalised (R49), lanes with inverted polarity, precoding in use, retimers found (R47). -/
  eqMode : Nat := 0
  inverted : Nat := 0
  precode : Bool := false
  retimers : Nat := 0
  /-- RATE_LIMIT and WIDTH_LIMIT as taken at the last entry to Configuration or Recovery (R48). -/
  rateLim : Nat := 7
  widthLim : Nat := 16
  /-- The first physical lane in use (R62), the width of the last training. -/
  base : Nat := 0
  trained : Nat := 0
  /-- Margining by lane (R51). -/
  margin : List (Nat × Margin) := []
  /-- The L1 in progress is PCI-PM L1 (R56); CLKREQ# is asserted (R61). -/
  l1Pm : Bool := false
  clkreqOn : Bool := false
  deriving DecidableEq, Repr

/-- Boot, power and host face: what chapters 2, 3, 12, 15, 16 and 18 give the module beside its registers. -/
structure BootSt where
  /-- The boot flash: both header copies (R383), both Evoset copies (R385); the record in use, empty for the defaults. -/
  hdr0 : FlashHdr := {}
  hdr1 : FlashHdr := { good := false }
  ev0 : EvRec := {}
  ev1 : EvRec := {}
  evUse : List Byte := []
  /-- The image that runs, and whether it runs as a TRY image; the images (bit 0 A, bit 1 B) whose boot watchdog expired;
  BOOT_FAIL; the host face (R381, R384). -/
  image : Option Nat := none
  imgTry : Bool := false
  wdogFailed : Nat := 0
  bootFail : Bool := false
  face : Face := .rrs
  /-- FLR and hot reset recorded in the RRS phase (R381), by function. -/
  faceFlr : List Nat := []
  /-- BAR sizes to restore when a rinse ends, plus one, by `2 × PF`, plus one for the VF BAR (R112). -/
  rbarOld : List (Nat × Nat) := []
  /-- The store training cache is valid (R383); this boot is warm (R387); the role is settled or there is no twin to
  settle it with (R379 step 5); the provisioning firmware saved in the retained store. -/
  trainCache : Bool := false
  warm : Bool := false
  roleSettled : Bool := false
  provSave : List (Nat × Nat) := []
  /-- The domain request that runs: domain, OP, FORCE; what becomes of a draining or clamped domain, by domain (R462). -/
  domReq : Option (Nat × Nat × Bool) := none
  domGoal : List (Nat × Nat) := []
  /-- Control cores at rest (R463); the delayed module reset that is armed, by its cause (R479, R429); the fraction of a
  nanosecond that TIM_ADJ has gathered, in ppb; the offset a slew removes (R475). -/
  cores : List (Nat × CoreRest) := []
  rstArmed : Option Nat := none
  timFrac : Int := 0
  slew : Option Int := none
  /-- The firmware watchdog has run half its period since its last kick (R468). -/
  wdogHalf : Bool := false
  standby : Option Standby := none
  /-- Converter housekeeping: the latched thermal trip and overvoltage (R501, R516), the sensor of a trip not yet recorded,
  the limit each sensor of R514 has crossed (1 warning, 2 critical), input power and VIN conditions, PWR_ALERT_N (R503). -/
  trip : Option Nat := none
  tripRec : Option Nat := none
  overV : Bool := false
  limits : List (Nat × Nat) := []
  powerHigh : Bool := false
  vinOut : Bool := false
  alertLow : Bool := false
  /-- PF0 has captured its routing ID since the last event that clears it (R113). -/
  ridTaken : Bool := false
  /-- L0p is negotiated (R57); WAKE# is asserted (R61). -/
  l0pNeg : Bool := false
  wakeOn : Bool := false
  /-- The Bridge Descriptor Table that the ROM serves and its generation (R99). -/
  bdt : List Byte := []
  bdtGen : Nat := 0
  /-- The zero engine's end, 0 while it is idle (R448). -/
  zeroEnd : Nat := 0
  deriving DecidableEq, Repr

/-- Link security: what chapter 11 gives the module beside its registers. -/
structure SecSt where
  /-- SPDM (R360): the version agreed and the stage of the connection, sessions, draws of nonces and signatures. -/
  spdmStage : Nat := 0
  sessions : List SpdmSession := []
  nextSession : Nat := 0
  /-- IDE (R363): key store by key number, plus one; the key set in use by sub-stream, plus one. -/
  ideKeys : List (Nat × Nat) := []
  ideGo : List (Nat × Nat) := []
  /-- A lifecycle move waits for the module reset (R356): the new state. The nonce of NONCE_GET and its time (R432). -/
  lcNext : Option Nat := none
  nonce : Option (Nat × Nat) := none
  /-- TDISP: the nonce of the last lock by function; functions whose containment ends when their hard abort has drained
  after STOP_INTERFACE (R366). -/
  tdiNonce : List (Nat × Nat) := []
  stopDue : List Nat := []
  deriving DecidableEq, Repr

/-- Management: what chapters 13, 14 and 17 give the module beside its registers. -/
structure MgtSt where
  /-- Firmware staging, the version it carries, the Evoset record being built with the end of what was written (R429). -/
  staging : Option Staging := none
  stagedVer : Option Nat := none
  evBuf : Option (List Byte × Nat) := none
  /-- MCTP: the request in mailbox 0, requests held; PLDM: terminus ID, event receiver, sensors disabled, readings (R433
  to R435); the raw-mode log selection (R493). -/
  mctpNow : Option MctpReq := none
  mctpHeld : List MctpReq := []
  tid : Nat := 0
  pldmRecv : Option (Nat × Nat) := none
  sensOff : List (Nat × Bool) := []
  sensVal : List (Nat × Int) := []
  sensShown : List (Nat × Nat) := []
  rawSeek : Option Nat := none
  /-- Sources whose last local delivery failed, which go to the fallback until PENDING is cleared (R297). -/
  irqFall : List Nat := []
  /-- Device time at which each function was contained (R481). -/
  contAt : List (Nat × Nat) := []
  /-- Mailbox commands that have started and not ended, by mailbox: an odd number while the action waits, an even one
  while the response waits for the mirror (R397, R414). -/
  cmdRun : List (Nat × Nat) := []
  /-- Own PAIR_ALIVE and PAIR_ROLE levels (R390). -/
  aliveOut : Bool := false
  deriving DecidableEq, Repr


/-- The state of the block. -/
structure State where
  /-- The commands that wait, first in, first out. -/
  pending : List Instr := []
  /-- Everything the block has sent on its links and pins, oldest first. -/
  out : List Out := []
  /-- The model's own counter for free values; not the specification's. -/
  free : Nat := 0
  /-- Every register field of the 22 blocks, by `fkey`; a field not listed reads its reset value. -/
  regs : List (Nat × Nat) := []
  /-- SRAM and store bytes by plain BAS address; a byte not listed reads 0. -/
  mem : List (Nat × Byte) := []
  /-- Poison marks by granule address (R440, R449). -/
  poison : List (Nat × Bool) := []
  /-- Configuration space bytes by `4096 × FN_ index + offset`; a byte not listed reads `cfgReset`. -/
  cfg : List (Nat × Byte) := []
  /-- Module mode (R375), time-base time in ns since AON power-on. -/
  mode : Mode := .BOOT
  tick : Nat := 0
  /-- Window cache, most recently used first; walks, oldest first; the on-die valid bitmap (R125); prefetch buffer. -/
  cache : List CacheEnt := []
  walks : List Walk := []
  nextWalk : Nat := 0
  bitmap : List (Nat × Bool) := []
  prefetch : List PrefLine := []
  /-- The window and guard update units, and what their held drain reads wait for (R139, R141, R352, R353). -/
  xltUnit : UpdUnit := .idle
  grdUnit : UpdUnit := .idle
  xltDrain : List (Nat × Req) := []
  grdDrain : List (Nat × Req) := []
  /-- Guard commits so far, and the region words they replaced while walks were out: the number of the commit, the index of
  the word, its old value (R30). -/
  grdVer : Nat := 0
  grdOld : List (Nat × Nat × Nat) := []
  /-- ADVANCE writes not yet in effect (R140), and unretired accesses by epoch. -/
  xltDefer : Nat := 0
  grdDefer : Nat := 0
  xltLive : List (Nat × Nat) := []
  grdLive : List (Nat × Nat) := []
  /-- The write ledger, in the order of opening; writes that wait; histories; held notices (R153 to R166). -/
  ledger : List LEnt := []
  ldgWait : List LWait := []
  hist : List Hist := []
  late : List Late := []
  groups : List Group := []
  nextGrp : Nat := 0
  /-- Order numbers given to host requests to local ports (R148). -/
  ordNext : Nat := 0
  heldReads : List (Nat × Req) := []
  pReads : List PRead := []
  /-- Starch: locks, atomics that wait, other accesses that wait for a locked granule, consecutive host grants by granule and function (R172). -/
  locks : List Lock := []
  lockWait : List Req := []
  starchRun : List (Nat × Nat × Nat) := []
  /-- The Basket: reads that wait, tags in use, reads in progress, responses held (R148, R175 to R177). -/
  bskWait : List Req := []
  bTags : List BTag := []
  hReads : List HRead := []
  nextRid : Nat := 0
  cplHeld : List CplHeld := []
  /-- Host-bound writes at J1 without posted credit, and the posted credit the host has granted (R181). -/
  jq : List JWrite := []
  jCredit : Nat := 0
  jNext : Nat := 0
  /-- Results of DMA accesses not taken by their channels yet. -/
  dmaDone : List BeatDone := []
  /-- Link layers by port; 16 is the Seam link. -/
  ll : List (Nat × PortLL) := []
  /-- Power domain states by code (R458, R462); a domain not listed is off. -/
  doms : List (Nat × DomSt) := []
  /-- Rinse time left of each function, in ns (R102); event entries and records held, in their order (R110, R277, R487);
  event queue wraps (PHASE). -/
  rinseLeft : List (Nat × Nat) := []
  held : List Held := []
  evqWrap : List (Nat × Bool) := []
  /-- The routing ID PF0 captured (R113), and the TotalVFs in force of PF1 to PF3 (R76). -/
  rid0 : Nat := 0
  vfForce : Nat × Nat × Nat := (1024, 512, 512)
  /-- MSI-X table bytes by `65536 × FN_ index + offset` (R87). -/
  msix : List (Nat × Byte) := []
  /-- Level inputs set by doorbells (R284), core stacks top first as (source, priority) (R302), INTx wires as last sent
  (R296), raises and presentations in the storm window, sources in STORM and shown in it (R309). -/
  irqIn : List (Nat × Bool) := []
  irqStack : List (Nat × List (Nat × Nat)) := []
  intx : List (Nat × Bool) := []
  irqRaises : List (Nat × Nat) := []
  irqShown : List (Nat × Nat) := []
  irqStorm : List (Nat × Bool) := []
  irqStranded : List (Nat × Bool) := []
  /-- The fault log: always-on ring, working copy, flash retention, oldest first (R485). -/
  ring : List LogEnt := []
  logWork : List LogEnt := []
  logFlash : List LogEnt := []
  /-- CQ slots that hold a record of a descriptor with IRQ = 1, as (context, slot) (R283). -/
  cqIrq : List (Nat × Nat) := []
  /-- Transfers by channel, contexts' ring state, the round-robin position of each half (R260, R264, R268). -/
  chans : List (Nat × ChRun) := []
  rings : List (Nat × Ring) := []
  rrPos : Nat × Nat := (0, 0)
  /-- Bursts of beats that the engine is merging, translated, at most one a channel and kind (R257). -/
  bursts : List Req := []
  /-- A power-down of domain DMA drains the engine (R279). -/
  dmaDrain : Bool := false
  /-- Mirror records sent and not acknowledged with their times, effects that wait for them (R395, R397). -/
  mirSent : List (Nat × Nat) := []
  mirWait : List (Nat × MirWait) := []
  /-- The follower's picture: dispatches without a record as (context, slot, channel) (R402); contexts whose pointers
  changed in this epoch (R395 CTX_PTR); a snapshot in progress; the MSEQ of an OFFER not yet accepted. -/
  mirDisp : List (Nat × Nat × Nat) := []
  ctxDirty : List Nat := []
  offered : Option Nat := none
  /-- The Seam receiver has stopped (R402); heartbeat number, consecutive misses, time of the last heartbeat. -/
  seamStop : Bool := false
  /-- SEM_STS.SYNC of the twin, from its last HEARTBEAT (R394); 1 once a snapshot is on its way. -/
  twinSync : Nat := 0
  hbCount : Nat := 0
  hbMiss : Nat := 0
  hbLast : Nat := 0
  /-- Handover phase; requests held in HO_OFFER. -/
  ho : HoPhase := .none
  hoHeld : List Req := []
  /-- Version of the running Iluman image (R361, R394). -/
  fwVer : Nat := 0
  /-- PERST# is asserted; PME_Turn_Off has stopped new host-bound requests (R60); the link is in L2. -/
  perst : Bool := false
  pmeOff : Bool := false
  /-- Completions, reads and messages that wait for the link (R523). -/
  tlpQ : List Out := []
  /-- FUNC_STATE.FW_READY, and a class 3, 5 or 6 entry since the last LOG_CLEAR (R492). -/
  fwReady : Bool := false
  ledErr : Bool := false
  /-- The module was in LEAD when it entered CONTAIN (R390, R488). -/
  contLead : Bool := false
  /-- Live access counts by master and by bank, alias writes by bank (R444); mailboxes POSTED in claim order (R414). -/
  memAcc : List (Nat × Nat) := []
  memBusy : List (Nat × Nat) := []
  memAlias : List (Nat × Nat) := []
  mbxQueue : List Nat := []
  /-- Correctable store errors in the running second (R452). -/
  ceWindow : Nat := 0
  /-- Governor credit in bytes by `64 × account + resource` (R329); requests that wait for it at the host endpoint and at
  the ports with the time they became ready, oldest first; the spill area (R326). -/
  govCredit : List (Nat × Int) := []
  govq : List (Nat × Req) := []
  spill : List Req := []
  /-- Running window by account and by resource; longest class 0 wait by resource (R318, R333). -/
  govWin : List (Nat × GovWin) := []
  resWin : List (Nat × Nat) := []
  c0Wait : List (Nat × Nat) := []
  /-- Resources with a missed class 0 target since the last step, clean steps in a row (R333). -/
  govMiss : List (Nat × Bool) := []
  cleanRun : List (Nat × Nat) := []
  /-- Contexts whose degradation is in force (R334). -/
  degraded : List (Nat × Bool) := []
  /-- Committed shares that do not act before the next epoch boundary, as the share and mask they replace (R331). -/
  shareOld : List (Nat × (Nat × Nat)) := []
  /-- The share update that waits for the mirror: its MSEQ plus one (0 for none), account, share and mask (R331). -/
  shrUpd : Option (Nat × Nat × Nat × Nat) := none
  /-- Measurement windows ended since BOOT (R318 WIN). -/
  winCount : Nat := 0
  /-- The lane layer by link; periodic markers missed or late in a row by lane (R196); lanes whose skew is beyond the limit
  (R201). -/
  lanes : List (Nat × LaneLink) := []
  laneMarks : List (Nat × Nat) := []
  laneSkew : List (Nat × Bool) := []
  laneTx : List (Nat × LaneTx) := []
  /-- The twin's ULK_FAR as last compared (R392): DESIGN_ID by port of the designs that sent DUAL = 1. -/
  twinFar : List (Nat × Nat) := []
  /-- Boot, power and host face; link security; management. -/
  bt : BootSt := {}
  sc : SecSt := {}
  mg : MgtSt := {}
  /-- The physical layer of the host link. -/
  hp : HostPhy := {}
  deriving DecidableEq, Repr

/-- The module right after the reset of its always-on domain (R376, R379 step 1): BOOT, every register at its Reset
column (no field listed), device time 0, the host face powering up, PERST# still asserted by the host, a factory flash
whose Evoset copy gives every default and whose header names image A, no fuse blown, nothing waiting. What the
specification gives no value is named in log entry 21. -/
def State.reset : State where
  pending := []
  out := []
  free := 0
  regs := []
  mem := []
  poison := []
  cfg := []
  mode := .BOOT
  tick := 0
  perst := true
  doms := [(0, .on), (6, .powering), (7, .powering), (8, .powering)]
  bt := { ev0 := { good := true } }

end Sys2Proof.Machine
end

