-- ==== Sys2Proof/Machine/Ops.lean ====
section
/-!
DEFINITION. The named operations over the state that every family shares: register fields, memory bytes,
configuration space, the send log, device time, poison marks.
-/
namespace Sys2Proof.Machine

/-- What a command's meaning answers. -/
abbrev Res : Type := Host.Outcome State Fault Refusal

/-! ### Register fields -/

/-- The key of instance `i` of a field in the register file. -/
def fkey (f : Fld) (i : Nat) : Nat := f.ctorIdx * 1048576 + i % 1048576

/-- The field numbers of fields whose reset value is not 0, with the value. LANE_LINK_CTL.LINK_ID resets to the link
number (R211); SEC and pin sources of "—" fields are supplied where the register is read. -/
def regDefault (k : Nat) : Nat :=
  if k / 1048576 = Fld.LANE_LINK_CTL_LINK_ID.ctorIdx then k % 1048576
  else (fldInfo (Fld.ofNat (k / 1048576))).rst

/-- The value of a register field. -/
def State.fld (s : State) (f : Fld) (i : Nat := 0) : Nat := smGet regDefault s.regs (fkey f i)

/-- Sets a register field, cut to its width. -/
def State.set (s : State) (f : Fld) (i : Nat) (v : Nat) : State :=
  { s with regs := smSet regDefault s.regs (fkey f i) (v % 2 ^ (fldInfo f).w) }

/-- A one-bit field as a Bool. -/
def State.flag (s : State) (f : Fld) (i : Nat := 0) : Bool := s.fld f i != 0

/-- Adds to a saturating counter field (R11). -/
def State.count (s : State) (f : Fld) (i : Nat := 0) (n : Nat := 1) : State :=
  s.set f i (min (2 ^ (fldInfo f).w - 1) (s.fld f i + n))

/-- A Bool as a field value. -/
def bit (b : Bool) : Nat := if b then 1 else 0

/-! ### Bytes and words -/

/-- The `n` bytes of a number, little-endian (R9). -/
def toBytes : Nat → Nat → List Byte
  | 0, _ => []
  | n + 1, v => BitVec.ofNat 8 v :: toBytes n (v / 256)

/-- The number that bytes give, little-endian. -/
def ofBytes : List Byte → Nat
  | [] => 0
  | b :: t => b.toNat + 256 * ofBytes t

/-- Bits `hi` down to `lo` of a number. -/
def bits (v hi lo : Nat) : Nat := (v / 2 ^ lo) % 2 ^ (hi + 1 - lo)

/-! ### Memory -/

/-- What a byte of SRAM or store that nothing has written reads as. DESIGN CHOICE (assumption 3). -/
def memDefault (_ : Nat) : Byte := 0

/-- The canonical form of the memory. -/
def State.memWf (s : State) : Bool := smWf memDefault s.mem

/-- One byte of SRAM or store. -/
def State.ld (s : State) (a : Nat) : Byte := smGet memDefault s.mem a

/-- Writes one byte of SRAM or store. -/
def State.st (s : State) (a : Nat) (b : Byte) : State := { s with mem := smSet memDefault s.mem a b }

/-- Bytes read from consecutive addresses. -/
def State.ldBytes (s : State) (a : Nat) : Nat → List Byte
  | 0 => []
  | n + 1 => s.ld a :: s.ldBytes (a + 1) n

/-- Bytes written at consecutive addresses. -/
def State.stBytes (s : State) (a : Nat) : List Byte → State
  | [] => s
  | b :: t => (s.st a b).stBytes (a + 1) t

/-- An 8-byte word of memory. -/
def State.ld8 (s : State) (a : Nat) : Nat := ofBytes (s.ldBytes a 8)
/-- A 4-byte word of memory. -/
def State.ld4 (s : State) (a : Nat) : Nat := ofBytes (s.ldBytes a 4)
/-- Writes an 8-byte word of memory. -/
def State.st8 (s : State) (a v : Nat) : State := s.stBytes a (toBytes 8 v)
/-- Writes a 4-byte word of memory. -/
def State.st4 (s : State) (a v : Nat) : State := s.stBytes a (toBytes 4 v)

/-- The granule of an address (R440, R449). -/
def granule (a : Nat) : Nat := a / 64 * 64

/-- The poison mark of the granule of an address. -/
def State.isPoison (s : State) (a : Nat) : Bool := smGet (fun _ => false) s.poison (granule a)

/-- Sets or clears the poison mark of the granule of an address. -/
def State.setPoison (s : State) (a : Nat) (b : Bool) : State :=
  { s with poison := smSet (fun _ => false) s.poison (granule a) b }

/-! ### Sending, time and free values -/

/-- Adds to what the block has sent. -/
def State.send (s : State) (o : Out) : State := { s with out := s.out ++ [o] }

/-- The host link carries TLPs: the data link layer is up and the LTSSM is in L0 (R74). -/
def State.linkOpen (s : State) : Bool := s.flag .HST_LINK_STS_DL_UP && s.fld .HST_LINK_STS_LTSSM == 3

/-- Sends a completion, a request or a message to the host. While the link is in another state than L0 it waits; with
the data link layer down it waits in CONTAIN and is dropped otherwise (R523). -/
def State.hostTx (s : State) (o : Out) : State :=
  if s.linkOpen && s.tlpQ == [] then s.send o
  else if s.flag .HST_LINK_STS_DL_UP || s.mode == .CONTAIN then { s with tlpQ := s.tlpQ ++ [o] }
  else s

/-- Device time in ns (R472). -/
def State.now (s : State) : Nat := s.fld .TIM_NOW_NOW

/-- Draws the next free value, cut to `w` bits. -/
def State.draw (s : State) (w : Nat) : Nat × State :=
  ((Config.freeWord s.free).toNat % 2 ^ w, { s with free := s.free + 1 })

/-! ### Small sparse tables -/

/-- A table of numbers that reads 0 where nothing is listed. -/
def nGet (m : List (Nat × Nat)) (k : Nat) : Nat := smGet (fun _ => 0) m k
/-- Writes such a table. -/
def nSet (m : List (Nat × Nat)) (k v : Nat) : List (Nat × Nat) := smSet (fun _ => 0) m k v
/-- A table of flags that reads false where nothing is listed. -/
def bGet (m : List (Nat × Bool)) (k : Nat) : Bool := smGet (fun _ => false) m k
/-- Writes such a table. -/
def bSet (m : List (Nat × Bool)) (k : Nat) (v : Bool) : List (Nat × Bool) := smSet (fun _ => false) m k v

/-- The link layer of a port. -/
def State.port (s : State) (p : Nat) : PortLL := smGet (fun _ => {}) s.ll p
/-- Replaces the link layer of a port. -/
def State.setPort (s : State) (p : Nat) (l : PortLL) : State := { s with ll := smSet (fun _ => {}) s.ll p l }

/-- The state of a power domain. -/
def State.dom (s : State) (d : Nat) : DomSt := smGet (fun _ => .off) s.doms d
/-- Sets the state of a power domain. -/
def State.setDom (s : State) (d : Nat) (v : DomSt) : State := { s with doms := smSet (fun _ => .off) s.doms d v }
/-- A domain that serves accesses: on, or draining work already accepted (R462). -/
def State.domOn (s : State) (d : Nat) : Bool := s.dom d == .on || s.dom d == .draining || s.dom d == .aborting

/-! ### Access counts of the SRAM (R444) -/

/-- Counts the bank accesses of one memory access: one for each SRAM granule, in its bank. -/
def State.countBank (s : State) (m off len : Nat) (viaAlias : Bool) : State :=
  let g := if len = 0 then 0 else (off % 64 + len + 63) / 64
  let b := off / 0x200000 % 16
  { s with memAcc := nSet s.memAcc m (nGet s.memAcc m + g)
           memBusy := nSet s.memBusy b (nGet s.memBusy b + if viaAlias then 2 * g else g)
           memAlias := if viaAlias then nSet s.memAlias b (nGet s.memAlias b + g) else s.memAlias }

/-! ### Modes and roles -/

/-- The mode code of R375. -/
def Mode.code : Mode → Nat
  | .OFF => 0 | .STANDBY => 1 | .BOOT => 2 | .LEAD => 3 | .FOLLOW => 4 | .CONTAIN => 5

/-- A pair is formed: SEM_STS.ROLE is leader or follower. -/
def State.paired (s : State) : Bool := s.fld .SEM_STS_ROLE != 0
/-- The leader of a formed pair, whose changes are mirrored (R395). -/
def State.leads (s : State) : Bool := s.fld .SEM_STS_ROLE == 1

/-! ### Lists -/

/-- Replaces every element that satisfies `p` by `f` of it. -/
def mapIf {α : Type} (p : α → Bool) (f : α → α) (l : List α) : List α := l.map fun x => if p x then f x else x

/-- Folds a state change over a list. -/
def State.each {α : Type} (s : State) (l : List α) (f : State → α → State) : State := l.foldl f s

/-- Applies a state change only when a condition holds. -/
def State.when (s : State) (c : Bool) (f : State → State) : State := if c then f s else s

/-- The tag is quarantined. -/
def BTag.quarantined (b : BTag) : Bool := match b.st with | .quarantine _ => true | _ => false

end Sys2Proof.Machine
end

