-- ==== Sys2Proof/Machine/MapOps.lean ====
section
/-!
DEFINITION. The bridge address space (R31 to R33), the window table and what translation makes of a request (R114 to R131),
as far as both follow from the table alone; the requests that have not been translated yet.
-/
namespace Sys2Proof

/-- A host request. -/
def Who.isHost : Who → Bool
  | .host _ => true | _ => false

end Sys2Proof

namespace Sys2Proof.Machine

/-! ### The map (R31) -/

/-- What a BAS address reaches. -/
inductive Region where
  /-- The store, at this offset. -/
  | store
  /-- SRAM through the plain address (0), its bit-set view (1), its bit-clear view (2), at this offset. -/
  | sram (viaAlias off : Nat)
  /-- A register block and the offset in it. -/
  | regs (block off : Nat)
  /-- A local port and the local address. -/
  | port (p laddr : Nat)
  /-- The host aperture. -/
  | host
  | unmapped
  deriving DecidableEq, Repr

/-- The region of a BAS address. -/
def regionOf (a : Nat) : Region :=
  if a < 0x2000000000 then .store
  else if 0x004000000000 ≤ a ∧ a < 0x004002000000 then .sram 0 (a - 0x004000000000)
  else if 0x004100000000 ≤ a ∧ a < 0x004102000000 then .sram 1 (a - 0x004100000000)
  else if 0x004200000000 ≤ a ∧ a < 0x004202000000 then .sram 2 (a - 0x004200000000)
  else if 0x005000000000 ≤ a ∧ a < 0x005001600000 then
    .regs ((a - 0x005000000000) / 0x100000) ((a - 0x005000000000) % 0x100000)
  else if 0x100000000000 ≤ a ∧ a < 0x200000000000 then
    .port ((a - 0x100000000000) / 0x10000000000) ((a - 0x100000000000) % 0x10000000000)
  else if 0x800000000000 ≤ a ∧ a < 0x1000000000000 then .host
  else .unmapped

/-- The BAS address of the first byte of a register block. -/
def blockBase (b : Nat) : Nat := 0x005000000000 + b * 0x100000
/-- BAS addresses of plain SRAM and of IRQ_DOORBELL. -/
def sramBase : Nat := 0x004000000000
def doorbellAddr : Nat := 0x005000010000

/-- Two addresses lie in one region of the kind a TARGET names (R121, R129): the store, one SRAM range, one port
aperture, the register blocks IRQ_ to PWR_, the host aperture. -/
def sameRegion (a b : Nat) : Bool :=
  match regionOf a, regionOf b with
  | .store, .store => true
  | .sram i _, .sram j _ => i == j
  | .regs i _, .regs j _ => (i < 16 && j < 16) || (16 ≤ i && 16 ≤ j)
  | .port p _, .port q _ => p == q
  | .host, .host => true
  | _, _ => false

/-- XLT_TBL_BASE as an address. -/
def State.tblBase (s : State) : Nat := s.fld .XLT_TBL_BASE_BASE * 0x1000000
/-! ### Window table entries (R120) -/

/-- Word `i` of an entry. -/
def wWord (w : List Nat) (i : Nat) : Nat := w.getD i 0
def wValid (w : List Nat) : Bool := (wWord w 0).testBit 0
def wKind (w : List Nat) : Nat := bits (wWord w 0) 1 1
def wTarget (w : List Nat) : Nat := bits (wWord w 0) 7 4
def wAttr (w : List Nat) : Nat := bits (wWord w 0) 31 16
def wFunc (w : List Nat) : Nat := bits (wWord w 0) 43 32
def wSlice (w : List Nat) : Nat := bits (wWord w 0) 51 44
def wSliceEn (w : List Nat) : Bool := (wWord w 0).testBit 52
def wSrc (w : List Nat) : Nat := wWord w 1
def wSize (w : List Nat) : Nat := wWord w 2
def wDst (w : List Nat) : Nat := wWord w 3
/-- The source range of an entry covers an address. -/
def wCovers (w : List Nat) (a : Nat) : Bool := decide (wSrc w ≤ a) && decide (a < wSrc w + wSize w)

/-- ATTR fields (R120). -/
def atPref (a : Nat) : Bool := a.testBit 0
def atStrict (a : Nat) : Bool := a.testBit 1
def atOrdWin (a : Nat) : Bool := a.testBit 2
def atSplit (a : Nat) : Nat := bits a 4 3
def atWrDis (a : Nat) : Bool := a.testBit 5
def atAtomDis (a : Nat) : Bool := a.testBit 6
def atPin (a : Nat) : Bool := a.testBit 7
def atPrefLen (a : Nat) : Nat := min 5 (bits a 10 8)
def atRlx (a : Nat) : Bool := a.testBit 12

/-- Bytes of the SPLIT width (R136). -/
def splitWidth (a : Nat) : Nat := if atSplit a = 1 then 4 else if atSplit a = 2 then 8 else if atSplit a = 3 then 64 else 0

/-- The table of an index: inbound by function, outbound 4096 + port (R118). -/
def tableOf (idx : Nat) : Nat := if idx < 0x40000 then idx / 64 else 4096 + (idx - 0x40000) / 256
/-- The indices of a table. -/
def tableIdx (tbl : Nat) : List Nat :=
  if tbl < 4096 then (List.range 64).map fun w => 64 * tbl + w
  else (List.range 256).map fun w => 0x40000 + 256 * (tbl - 4096) + w
/-- An index the table uses (R118). -/
def idxUsed (i : Nat) : Bool := (decide (64 ≤ i) && decide (i < 64 * 2052)) || (decide (0x40000 ≤ i) && decide (i < 0x41000))

/-- The words of an entry in the store. -/
def State.entry (s : State) (i : Nat) : List Nat := (List.range 4).map fun k => s.ld8 (s.tblBase + 32 * i + 8 * k)
/-- An entry is in use: the valid bitmap and its VALID bit (R125). -/
def State.entryValid (s : State) (i : Nat) : Bool := bGet s.bitmap i && wValid (s.entry i)
/-- An entry whose granule carries a poison mark reads bad (R126). -/
def State.entryPoison (s : State) (i : Nat) : Bool := s.isPoison (s.tblBase + 32 * i)

/-! ### What a request looks up (R114) -/

/-- The route of a request. -/
inductive Route where
  /-- A window of this table, at this source address. -/
  | window (tbl a : Nat)
  /-- Outbound window k by its slot, at this offset (R117). -/
  | slot (k off : Nat)
  /-- A fixed system window or the direct route, already at its destination. -/
  | direct (r : Req)
  | fault (cause : Nat)
  deriving DecidableEq, Repr

/-- Own mailboxes of a port in its system range (R116, R409). -/
def portMbxAddr (p off : Nat) : Nat := sramBase + 0x1400000 + 0x1000 * (29 + 2 * p) + off

/-- The route of a request. A host request to BAR2 of a data PF or VF goes through its windows; to any other BAR it has
its destination from the fixed system windows of R92 already. -/
def routeReq (r : Req) (owner : Nat) : Route :=
  match r.who with
  | .port p =>
    if r.addr < 0xFFFFF00000 then .window (4096 + p) r.addr
    else if 0xFFFFF00000 ≤ r.addr ∧ r.addr < 0xFFFFF00008 then
      let d := doorbellAddr + (r.addr - 0xFFFFF00000)
      .direct { r with dst := d, key := some d, fixed := 3 }
    else if 0xFFFFF10000 ≤ r.addr ∧ r.addr < 0xFFFFF12000 then
      let d := portMbxAddr p (r.addr - 0xFFFFF10000)
      .direct { r with dst := d, key := some d, fixed := 4 }
    else .fault 7
  | .host f => if r.fixed = 0 then .window f r.addr else .direct r
  | .dma _ =>
    if r.space = 1 then .direct { r with dst := r.addr, toHost := true, hfn := r.fn, hslice := r.slice, fixed := 5 }
    else if r.space = 2 then .window owner r.addr
    else if 0x800000000000 ≤ r.addr ∧ r.addr < 0x1000000000000 then
      .slot ((r.addr - 0x800000000000) / 0x800000000) (r.addr % 0x800000000)
    else .direct { r with dst := r.addr, key := some r.addr }
  | _ =>
    if 0x800000000000 ≤ r.addr ∧ r.addr < 0x1000000000000 then
      .slot ((r.addr - 0x800000000000) / 0x800000000) (r.addr % 0x800000000)
    else .direct { r with dst := r.addr, key := some r.addr }

/-! ### Translation (R128 to R131) -/

/-- What a window makes of a request: the translated request, or a cause of R129; and whether it straddles the
window's end (R130). DESIGN CHOICE (assumption 72): where several causes hold, STRADDLE comes first (R131), then
WRITE_DISABLED, ATOMIC and REGION_END. -/
def State.applyWin (s : State) (r : Req) (idx off : Nat) (w : List Nat) : Bool × (Nat ⊕ Req) :=
  let at_ := wAttr w
  let dst := wDst w + off
  let num := if idx < 0x40000 then idx % 64 else (idx - 0x40000) % 256
  let host := wTarget w == 4
  let straddle := decide (wSize w < off + r.len)
  let atomic := match r.kind with | .atomic _ => true | _ => false
  let k := idx - 0x40000
  let r' := { r with
    win := num, idx := idx, attr := at_, dst := dst, toHost := host
    hfn := if host then wFunc w else 0
    hslice := if host && wSliceEn w then some (wSlice w) else none
    ro := if host then atRlx at_ else r.ro
    key := some (if host then 0x800000000000 + k * 0x800000000 + off else dst)
    view := if wTarget w = 3 then 2 else r.view }
  if straddle && s.flag .XLT_CFG_STRADDLE_FAULT then (straddle, .inl 8)
  else if r.kind ≠ .read && atWrDis at_ then (straddle, .inl 3)
  else if atomic && (atAtomDis at_ || (wTarget w == 2 && atSplit at_ != 0 && decide (splitWidth at_ < r.len))) then
    (straddle, .inl 4)
  else if host then (straddle, if 0x10000000000000000 < dst + r.len then .inl 5 else .inr r')
  else (straddle, if r.len = 0 ∨ sameRegion dst (dst + r.len - 1) then .inr r' else .inl 5)

/-- A slot-key lookup needs the entry of window k; it uses it only when valid, with TARGET 4 and the offset below SIZE
(R117). -/
def slotOk (w : List Nat) (off : Nat) : Bool := wValid w && wTarget w == 4 && decide (off < wSize w)

/-- The offset in a window of an entry that serves a route. -/
def winOff (w : List Nat) : Route → Nat
  | .window _ a => a - wSrc w
  | .slot _ off => off
  | _ => 0

/-! ### Requests that wait before translation -/

/-- The port of a translated address. -/
def portOf (dst : Nat) : Option Nat := match regionOf dst with | .port p _ => some p | _ => none
/-- The local address of a translated address. -/
def laddrOf (dst : Nat) : Nat := match regionOf dst with | .port _ a => a | _ => 0

/-- The ordering domain of a translated access to a port (R135): the port, or the window. -/
def domOf (r : Req) : Nat := if atOrdWin r.attr then 16 + r.idx else (portOf r.dst).getD 0

/-- What a request that waits before translation would become, by the table as it stands. -/
def State.peek (s : State) (r : Req) : Option Req :=
  let serve (tbl : Nat) (rt : Route) (p : List Nat → Bool) : Option Req :=
    match (tableIdx tbl).find? fun i => s.entryValid i && !s.entryPoison i && p (s.entry i) with
    | some i => match s.applyWin r i (winOff (s.entry i) rt) (s.entry i) with
      | (_, .inr q) => some q
      | _ => none
    | none => none
  match routeReq r r.fn with
  | .window tbl a => serve tbl (.window tbl a) fun w => wCovers w a
  | .slot k off => serve (4096 + k / 256) (.slot k off) fun w => slotOk w off
  | .direct q => some q
  | .fault _ => none

/-- Requests received and not translated yet: behind walks, in a handover, at the governor's points, in the spill
area. -/
def State.waitingReqs (s : State) : List Req :=
  s.walks.flatMap (·.waiting) ++ s.hoHeld ++ s.govq.map (·.2) ++ s.spill

/-- A write of port `p` that came before order number `jn` and goes to the host has not reached J1 yet (R150, R151). -/
def State.portEarlier (s : State) (p jn : Nat) : Bool :=
  let mine (r : Req) : Bool := r.who == .port p && r.kind == .write && decide (r.ord < jn)
  (s.lockWait.any fun r => mine r && r.toHost)
    || s.waitingReqs.any fun r => mine r && (match s.peek r with | some q => q.toHost | none => false)

end Sys2Proof.Machine
end

