-- ==== Sys2Proof/Machine/ConfigSpace.lean ====
section
/-!
DEFINITION. Configuration space (R75, R85 to R90, R93): which function is which, the reset value of every configuration
dword the specification names, the writable bits, and the controls the rest of the model reads. The layout inside a
capability structure is that of the PCI Express Base specification (PRESUMED, assumption 5).
-/
namespace Sys2Proof.Machine

/-! ### Functions -/

/-- 0 PF0, 1 data PF, 2 VF (R90, R113). -/
def fnKind (f : Nat) : Nat := if f = 0 then 0 else if f < 4 then 1 else 2

/-- The TotalVFs in force of a PF (R76, R88). -/
def State.totalVfs (s : State) (pf : Nat) : Nat :=
  if pf = 1 then s.vfForce.1 else if pf = 2 then s.vfForce.2.1 else if pf = 3 then s.vfForce.2.2 else 0

/-- The first global VF index of a PF (R77). -/
def State.firstVf (s : State) (pf : Nat) : Nat :=
  if pf = 2 then s.vfForce.1 else if pf = 3 then s.vfForce.1 + s.vfForce.2.1 else 0

/-- First VF Offset of a PF (R77). -/
def State.firstVfOffset (s : State) (pf : Nat) : Nat :=
  if pf = 1 then 3 else if pf = 2 then s.vfForce.1 + 2 else s.vfForce.1 + s.vfForce.2.1 + 1

/-- The parent PF of a function, or its own number (R77, R113). -/
def State.parent (s : State) (f : Nat) : Nat :=
  if f < 4 then f
  else if f - 4 < s.vfForce.1 then 1
  else if f - 4 < s.vfForce.1 + s.vfForce.2.1 then 2 else 3

/-- VF number n, from 1, of a VF within its PF (R77). -/
def State.vfNumber (s : State) (f : Nat) : Nat := f - 4 - s.firstVf (s.parent f) + 1

/-- The functions that are VFs of a PF. -/
def State.vfsOf (s : State) (pf : Nat) : List Nat :=
  (List.range (s.totalVfs pf)).map fun n => 4 + s.firstVf pf + n

/-- Function states of R113: FN_STS.STATE. -/
def fnDISABLED : Nat := 0
def fnACTIVE : Nat := 1
def fnRINSE : Nat := 2
def fnHIDDEN : Nat := 3
def fnCONTAINED : Nat := 4

/-- FN_STS.STATE of a function. -/
def State.fnState (s : State) (f : Nat) : Nat := s.fld .FN_STS_STATE f

/-! ### Reset values -/

/-- Extended capability structures by function kind: offset and ID (R85). -/
def extCaps : Nat → List (Nat × Nat)
  | 0 => [(0x100, 0x1), (0x148, 0xE), (0x150, 0x3), (0x160, 0x19), (0x1A0, 0x25), (0x1B0, 0x26), (0x1F0, 0x2A),
          (0x230, 0x31), (0x250, 0x27), (0x2A0, 0x1E), (0x2B0, 0x18), (0x2B8, 0x1F), (0x2C8, 0x2F), (0x2D8, 0x32),
          (0x300, 0x1B), (0x380, 0x2E), (0x400, 0x23), (0x500, 0x30)]
  | 1 => [(0x100, 0x1), (0x148, 0xE), (0x2C8, 0x2F), (0x300, 0x1B), (0x310, 0x10), (0x350, 0x15), (0x360, 0x24),
          (0x400, 0x23)]
  | _ => [(0x100, 0x1), (0x148, 0xE), (0x2C8, 0x2F), (0x300, 0x1B), (0x400, 0x23)]

/-- The header dword of the extended capability at an offset, with its next pointer in offset order (R85). DESIGN CHOICE
(assumption 71): every extended capability has version 1. -/
def extHeader : List (Nat × Nat) → Nat → Option Nat
  | [], _ => none
  | [(o, id)], off => if o = off then some (id + 0x10000) else none
  | (o, id) :: (o', id') :: t, off =>
    if o = off then some (id + 0x10000 + o' * 0x100000) else extHeader ((o', id') :: t) off

/-- The lane whose margining dword stands at an offset of PF0 (R51). -/
def margLane (off : Nat) : Option Nat := if 0x258 ≤ off ∧ off < 0x298 then some ((off - 0x258) / 4) else none

/-- The reset value of a configuration dword, but for the live read-only values of `cfgLive`. -/
def cfgDw (f off : Nat) : Nat :=
  let k := fnKind f
  match off with
  | 0x000 => 0x2D37 + (0x9600 + k) * 0x10000
  | 0x004 => 0x00100000
  | 0x008 => if k = 0 then 0x08800001 else 0x12000001
  | 0x00C => if k = 2 then 0 else 0x00800000
  | 0x010 => if k = 2 then 0 else 4
  | 0x018 => if k = 2 then 0 else if k = 0 then 4 else 12
  | 0x020 => if k = 0 then 12 else 0
  | 0x034 => 0x40
  | 0x03C => if k = 2 then 0 else 0x100
  | 0x040 => 0x4003 * 0x10000 + 0x5001
  | 0x044 => 8
  | 0x050 => (if k = 2 then 0x3F else 0x7FF) * 0x10000 + 0x7011
  | 0x054 => if k = 0 then 0x00010002 else if k = 1 then 0x00080000 else 0x2000
  | 0x058 => if k = 0 then 0x00018002 else if k = 1 then 0x00088000 else 0x3000
  | 0x070 => 0x8002 * 0x10000 + 0x0010
  | 0x074 => 2 + 0x20 + 0x8000 + 0x10000000 + (if k = 0 then 0 else 0x40000000)
  | 0x078 => 0x2810
  | 0x07C => if k = 2 then 0 else 7 + 16 * 16 + 2 * 0x400 + 3 * 0x8000 + 0x40000
  | 0x094 => 0xF + 0x10 + 0x380 + (if k = 0 then 0x800 else 0) + 0x30000
  | 0x09C => if k = 2 then 0 else 0xFE
  | 0x108 => 0x00400000
  | 0x10C => 0x00462030
  | 0x114 => 0x2000
  | 0x14C => if k = 2 then 0 else (if f = 0 then 1 else if f = 1 then 2 else if f = 2 then 3 else 0) * 0x100
  | 0x154 => if k = 0 then Config.serial % 0x100000000 else 0
  | 0x158 => if k = 0 then Config.serial / 0x100000000 % 0x100000000 else 0
  | 0x1A4 => if k = 0 then 0x80000001 else 0
  | 0x1F4 => if k = 0 then 0x103 else 0
  | 0x2A4 => if k = 0 then 0x1F + 50 * 0x100 + 40 / 10 * 0x80000 + 0x10000 else 0
  | 0x2BC => if k = 0 then 1 else 0
  | 0x2CC => 0x1C
  | 0x2DC => if k = 0 then 8 else 0
  | 0x304 => 6 + 20 * 0x100
  | 0x324 => if k = 1 then 0x10000 else 0
  | 0x328 => if k = 1 then 0x96020000 else 0
  | 0x32C => if k = 1 then 0x1F else 0
  | 0x330 => if k = 1 then 1 else 0
  | 0x334 => if k = 1 then 4 else 0
  | 0x33C => if k = 1 then 12 else 0
  | 0x354 => if k = 1 then 0x01FFC000 else 0
  | 0x358 => if k = 1 then 2 + 0x20 + 10 * 0x100 else 0
  | 0x364 => if k = 1 then 0x001FFC00 else 0
  | 0x368 => if k = 1 then 2 + 0x20 + 6 * 0x100 else 0
  | 0x404 => 0x2D37 + 0x020 * 0x100000
  | 0x408 => 1
  | 0x504 => if k = 0 then 0x01070063 else 0
  | _ => if k = 0 ∧ 0x514 ≤ off ∧ off < 0x674 ∧ (off - 0x514) % 0x2C = 0 then 2
    else if k = 0 ∧ (margLane off).isSome then 0x9C38 else (extHeader (extCaps k) off).getD 0

/-- What a configuration byte that nothing has written reads as: key `4096 × FN_ index + offset`. -/
def cfgDefault (k : Nat) : Byte :=
  BitVec.ofNat 8 (cfgDw (k / 4096) (k % 4096 / 4 * 4) / 256 ^ (k % 4))

/-- The writable bits of a configuration dword; every other bit is read-only. -/
def cfgMask (f off : Nat) : Nat :=
  let k := fnKind f
  match off with
  | 0x004 => if k = 2 then 0x4 else 0x546
  | 0x00C => 0xFF
  | 0x010 => if k = 0 then 0xFF000000 else if k = 1 then 0xFFF00000 else 0
  | 0x014 => if k = 2 then 0 else 0xFFFFFFFF
  | 0x018 => if k = 0 then 0xFC000000 else if k = 1 then 0xC0000000 else 0
  | 0x01C => if k = 2 then 0 else 0xFFFFFFFF
  | 0x024 => if k = 0 then 0xFFFFFFE0 else 0
  | 0x030 => if k = 0 then 0xFFF00001 else 0
  | 0x03C => if k = 2 then 0 else 0xFF
  | 0x044 => 0x103
  | 0x050 => 0xC0000000
  | 0x078 => 0x7FFF
  | 0x080 => if k = 2 then 0 else 0x3FF
  | 0x098 => 0xFFFF
  | 0x0A0 => if k = 2 then 0 else 0xFFFF
  | 0x108 => 0xFFFFFFFF
  | 0x10C => 0xFFFFFFFF
  | 0x114 => 0xFFFFFFFF
  | 0x118 => 0x1E0
  | 0x2A8 => if k = 0 then 0xFFFFFFFF else 0
  | 0x2AC => if k = 0 then 0xFF else 0
  | 0x2B4 => if k = 0 then 0xFFFFFFFF else 0
  | 0x2C0 => if k = 0 then 0xFF03 else 0
  | 0x2D0 => 0xFFFFFFFF
  | 0x304 => 0x70000
  | 0x318 => if k = 1 then 0x1F else 0
  | 0x320 => if k = 1 then 0xFFFF else 0
  | 0x330 => if k = 1 then 0xFFFFFFFF else 0
  | 0x334 => if k = 1 then 0xFFFF0000 else 0
  | 0x338 => if k = 1 then 0xFFFFFFFF else 0
  | 0x33C => if k = 1 then 0xFC000000 else 0
  | 0x340 => if k = 1 then 0xFFFFFFFF else 0
  | 0x358 => if k = 1 then 0x3F00 else 0
  | 0x368 => if k = 1 then 0x3F00 else 0
  | 0x388 => if k = 0 then 0x80000003 else 0
  | 0x508 => if k = 0 then 0xFFFFFFFF else 0
  | 0x50C => if k = 0 then 0xFFFFFFFF else 0
  | _ => if k = 0 && 0x514 ≤ off && off < 0x674 && (off - 0x514) % 0x2C != 0 && (off - 0x514) % 0x2C != 8 then 0xFFFFFFFF
    else if k = 0 ∧ (margLane off).isSome then 0xFF7F else 0

/-- Bits that a written 1 clears. -/
def cfgW1C (off : Nat) : Nat :=
  match off with
  | 0x004 => 0xF9000000
  | 0x044 => 0x8000
  | 0x078 => 0xF0000
  | 0x104 => 0xFFFFFFFF
  | 0x110 => 0xFFFFFFFF
  | 0x510 => 0x80000000
  | _ => if 0x514 ≤ off && off < 0x674 && (off - 0x514) % 0x2C == 8 then 0x80000000 else 0

/-! ### Accessors -/

/-- A stored configuration byte. -/
def State.cfgB (s : State) (f off : Nat) : Byte := smGet cfgDefault s.cfg (4096 * f + off)

/-- A stored configuration dword at a 4-byte aligned offset. -/
def State.cfgD (s : State) (f off : Nat) : Nat :=
  (s.cfgB f off).toNat + 256 * (s.cfgB f (off + 1)).toNat + 65536 * (s.cfgB f (off + 2)).toNat
    + 16777216 * (s.cfgB f (off + 3)).toNat

/-- Stores a configuration byte. -/
def State.setCfgB (s : State) (f off : Nat) (b : Byte) : State :=
  { s with cfg := smSet cfgDefault s.cfg (4096 * f + off) b }

/-- Stores a configuration dword. -/
def State.setCfgD (s : State) (f off v : Nat) : State :=
  (((s.setCfgB f off (BitVec.ofNat 8 v)).setCfgB f (off + 1) (BitVec.ofNat 8 (v / 256))).setCfgB f (off + 2)
    (BitVec.ofNat 8 (v / 65536))).setCfgB f (off + 3) (BitVec.ofNat 8 (v / 16777216))

/-- Sets bits of a stored configuration dword. -/
def State.orCfg (s : State) (f off m : Nat) : State := s.setCfgD f off (s.cfgD f off ||| m)

/-- Configuration space of a function back at its reset values (R103). -/
def State.resetCfg (s : State) (f : Nat) : State :=
  { s with cfg := smKeep (fun k => k / 4096 != f) s.cfg
           msix := smKeep (fun k => k / 65536 != f) s.msix }

/-- The configuration is in effect: not DISABLED and not rinsing (R105). -/
def State.inForce (s : State) (f : Nat) : Bool := s.fnState f == fnACTIVE || s.fnState f == fnCONTAINED

/-- Bus Master Enable in effect (FN_STS.BME). -/
def State.bme (s : State) (f : Nat) : Bool := s.inForce f && (s.cfgD f 0x004).testBit 2
/-- Memory Space Enable in effect; for a VF the parent's VF MSE (FN_STS.MSE). -/
def State.mse (s : State) (f : Nat) : Bool :=
  s.inForce f && (if f < 4 then (s.cfgD f 0x004).testBit 1 else (s.cfgD (s.parent f) 0x318).testBit 3)
/-- Interrupt Disable. -/
def State.intxOff (s : State) (f : Nat) : Bool := (s.cfgD f 0x004).testBit 10
/-- MSI-X Enable and Function Mask. -/
def State.msixEn (s : State) (f : Nat) : Bool := (s.cfgD f 0x050).testBit 31
def State.msixMask (s : State) (f : Nat) : Bool := (s.cfgD f 0x050).testBit 30
/-- PASID Enable in effect (R81, R84). -/
def State.pasidEn (s : State) (f : Nat) : Bool := s.inForce f && (s.cfgD f 0x304).testBit 16
/-- AtomicOp Requester Enable (R145). -/
def State.atomReq (s : State) (f : Nat) : Bool := (s.cfgD f 0x098).testBit 6
/-- Max_Read_Request_Size in bytes (R176). -/
def State.mrrs (s : State) (f : Nat) : Nat := 128 * 2 ^ min 5 (bits (s.cfgD f 0x078) 14 12)
/-- The tag pools a function may use (R175): 14-Bit, then 10-Bit Tag Requester Enable. -/
def State.tag14 (s : State) (f : Nat) : Bool := (s.cfgD f 0x2D0).testBit 2
def State.tag10 (s : State) (f : Nat) : Bool := (s.cfgD f 0x098).testBit 12
/-- VF Enable and NumVFs of a PF. -/
def State.vfEn (s : State) (pf : Nat) : Bool := (s.cfgD pf 0x318).testBit 0
def State.numVfs (s : State) (pf : Nat) : Nat := s.cfgD pf 0x320 % 65536
/-- BAR2 size of a data PF or of the VFs of a PF, in bytes (R93): 2^(20 + BAR Size). -/
def State.bar2Size (s : State) (f : Nat) : Nat :=
  if f < 4 then 2 ^ (20 + bits (s.cfgD f 0x358) 13 8) else 2 ^ (20 + bits (s.cfgD (s.parent f) 0x368) 13 8)
/-- ASPM control, L1 substate enables (R56). -/
def State.aspmL1 (s : State) : Bool := (s.cfgD 0 0x080).testBit 1

/-- A slice entry binds a data PF or VF: its FUNC names one, not PF0 (R80, R113). -/
def State.sliceBinds (s : State) (i : Nat) : Bool :=
  s.flag .FN_SLICE_VALID i && s.fld .FN_SLICE_FUNC i != 0 && decide (s.fld .FN_SLICE_FUNC i < 2052)

/-- A slice entry is active: valid, and PASID Enable of its function is 1 (R84, FN_SLICE.ACTIVE). -/
def State.sliceActive (s : State) (i : Nat) : Bool :=
  s.sliceBinds i && s.pasidEn (s.fld .FN_SLICE_FUNC i)

/-! ### MSI-X table -/

/-- What a byte of the MSI-X table reads as at reset: the mask bit of each entry is 1. -/
def msixDefault (k : Nat) : Byte := if k % 16 = 12 then 1 else 0
/-- A byte of the MSI-X table of a function. -/
def State.msixB (s : State) (f off : Nat) : Byte := smGet msixDefault s.msix (65536 * f + off)
/-- Writes a byte of the MSI-X table. -/
def State.setMsixB (s : State) (f off : Nat) (b : Byte) : State :=
  { s with msix := smSet msixDefault s.msix (65536 * f + off) b }
/-- MSI-X entries of a function (R87). -/
def msixSize (f : Nat) : Nat := if f < 4 then 2048 else 64
/-- The mask bit of an entry. -/
def State.msixEntryMask (s : State) (f e : Nat) : Bool := (s.msixB f (16 * e + 12)).toNat.testBit 0
/-- The message address and data of an entry. -/
def State.msixAddr (s : State) (f e : Nat) : Nat :=
  ofBytes ((List.range 8).map fun i => s.msixB f (16 * e + i))
def State.msixData (s : State) (f e : Nat) : List Byte := (List.range 4).map fun i => s.msixB f (16 * e + 8 + i)

end Sys2Proof.Machine
end

