-- ==== Sys2Proof/Machine/IrqOps.lean ====
section
/-!
DEFINITION. The interrupt controller's operations (R283 to R311): the arrays in SRAM bank 15, level inputs, raising,
targets and their availability, the INTx wires, the storm guard.
-/
namespace Sys2Proof.Machine

/-! ### Arrays (R288) -/

/-- Bases of the PENDING, ENABLE and PRIORITY arrays. -/
def pendBase : Nat := 0x004001E00000
def enBase : Nat := 0x004001E00800
def prioBase : Nat := 0x004001E01000

/-- PENDING, ENABLE and priority of a source. -/
def State.isPend (s : State) (i : Nat) : Bool := (s.ld (pendBase + i / 8)).toNat.testBit (i % 8)
def State.isEn (s : State) (i : Nat) : Bool := (s.ld (enBase + i / 8)).toNat.testBit (i % 8)
def State.prio (s : State) (i : Nat) : Nat := (s.ld (prioBase + i)).toNat % 16

/-- Sets or clears one bit of a byte by the atomic bit operations of R289. -/
def State.setBit (s : State) (a b : Nat) (v : Bool) : State :=
  s.st a (if v then s.ld a ||| BitVec.ofNat 8 (2 ^ b) else s.ld a &&& ~~~ BitVec.ofNat 8 (2 ^ b))

/-- Sets or clears PENDING of a source; the controller is master 24 of bank 15 (R289, R444). -/
def State.setPend (s : State) (i : Nat) (v : Bool) : State :=
  (s.setBit (pendBase + i / 8) (i % 8) v).countBank 24 (0x1E00000 + i / 8) 1 true

/-- Pending, enabled, priority above 0 (R288). -/
def State.ready (s : State) (i : Nat) : Bool := s.isPend i && s.isEn i && s.prio i != 0

/-- The sources whose PENDING bit is 1, in rising order: they stand in the listed bytes of the PENDING array. -/
def State.pendSrcs (s : State) : List Nat :=
  (s.mem.filter fun c => pendBase ≤ c.1 && c.1 < enBase).flatMap fun c =>
    ((List.range 8).filter fun b => c.2.toNat.testBit b).map fun b => (c.1 - pendBase) * 8 + b

/-! ### Source map (R283) -/

/-- Some event bit of a register is set and enabled. -/
def State.evtAny (s : State) (r : Reg) (en : Fld) (i : Nat := 0) : Bool :=
  (regFlds r).any fun f => s.flag f i && (s.fld en i).testBit (fldInfo f).lo

/-- Reserved source numbers (R283, R340, R371, R408, R415, R452, R478, R496). -/
def srcReserved (i : Nat) : Bool :=
  (0x1804 ≤ i && i < 0x2000) || (0x2012 ≤ i && i < 0x2020) || (0x2033 ≤ i && i < 0x2060)
    || (0x2062 ≤ i && i < 0x2070) || (0x2074 ≤ i && i < 0x2080) || (0x2081 ≤ i && i < 0x2090)
    || (0x20C1 ≤ i && i < 0x20D0) || (0x20D2 ≤ i && i < 0x20E0) || (0x20E2 ≤ i && i < 0x20F0)
    || (0x20F3 ≤ i && i < 0x2400) || 0x4000 ≤ i

/-- The always-level sources. -/
def srcAlwaysLevel (i : Nat) : Bool := 0x2000 ≤ i && i < 0x2400 && !srcReserved i

/-- A mailbox is DONE with NOTIFY (R415); bits of the control word (R410). -/
def State.mbxSignal (s : State) (m : Nat) : Bool :=
  s.fld .MBX_MB_CONTROL m % 4 == 3 && (s.fld .MBX_MB_CONTROL m).testBit 11

/-- Mailbox `m` is POSTED. -/
def State.mbxPosted (s : State) (m : Nat) : Bool := s.fld .MBX_MB_CONTROL m % 4 == 1

/-- The level input of a source (R283 and the chapters that own the sources). -/
def State.level (s : State) (i : Nat) : Bool :=
  if i < 0x1000 then
    let n := 2 ^ (let l := s.fld .DMA_CQ_CFG_LOG2N i; if 4 ≤ l && l ≤ 16 then l else 4)
    let h := s.fld .DMA_CQ_PTR_HEAD i
    let t := s.fld .DMA_CQ_PTR_TAIL i
    s.cqIrq.any fun c => c.1 == i && (c.2 + n - h) % n < (t + n - h) % n
  else if i < 0x1804 then s.fld .FN_EVQ_TAIL_TAIL (i - 0x1000) != s.fld .FN_EVQ_HEAD_HEAD (i - 0x1000)
  else if i = 0x2000 then s.evtAny .HST_EVT .HST_EVT_EN_MASK
  else if i ≤ 0x2011 then s.evtAny .LANE_LINK_EVT .LANE_LINK_EVT_EN_MASK (i - 0x2001)
  else if 0x2020 ≤ i ∧ i < 0x2030 then s.evtAny .ULK_EVT .ULK_EVT_EN_MASK (i - 0x2020)
  else if i = 0x2030 then s.flag .IRQ_STS_STORM_NEW
  else if i = 0x2031 then s.flag .IRQ_STS_DELIVERY_ERR
  else if i = 0x2032 then s.flag .IRQ_STS_STRANDED_SEEN
  else if i = 0x2060 then s.flag .SHR_STS_LEVEL_CHG
  else if i = 0x2061 then s.flag .SHR_STS_ADMIT_REFUSED
  else if i = 0x2070 then s.flag .GRD_FAULT_INFO_VALID
  else if i = 0x2071 then s.flag .GRD_STS_NOTICE
  else if i = 0x2072 then s.flag .SEC_STS_IDE_FAIL
  else if i = 0x2073 then s.flag .SEC_STS_TDI_ERR
  else if i = 0x2080 then s.evtAny .SEM_EVT .SEM_EVT_EN_MASK
  else if i = 0x2090 then s.mbxQueue != []
  else if 0x2091 ≤ i ∧ i < 0x20A1 then s.mbxSignal (1 + (i - 0x2091))
  else if 0x20A1 ≤ i ∧ i < 0x20C1 then s.mbxSignal (29 + (i - 0x20A1))
  else if i = 0x20D0 then s.evtAny .MEM_EVT .MEM_EVT_EN_MASK
  else if i = 0x20D1 then s.evtAny .DRS_EVT .DRS_EVT_EN_MASK
  else if i = 0x20E0 then s.evtAny .PWR_EVT .PWR_EVT_EN_MASK
  else if i = 0x20E1 then s.evtAny .CLK_EVT .CLK_EVT_EN_MASK
  else if i = 0x20F0 then s.mode == .CONTAIN
  else if i = 0x20F1 then s.flag .MGT_LOG_STS_NEW
  else if i = 0x20F2 then s.flag .HST_CONT_STS_FN_CONT_SEEN
  else if 0x2400 ≤ i ∧ i < 0x2800 then (s.fld .ULK_SB_IN_LINES ((i - 0x2400) / 64)).testBit ((i - 0x2400) % 64)
  else bGet s.irqIn i

/-- The source is a level source (R287). -/
def State.isLevel (s : State) (i : Nat) : Bool := srcAlwaysLevel i || s.flag .IRQ_ROUTE_LEVEL i

/-! ### Targets (R293, R305) -/

/-- A target: kind, function, index. -/
structure Target where
  kind : Nat
  func : Nat
  index : Nat
  deriving DecidableEq, Repr

/-- Available, held or unavailable (R305); `none` for KIND 0 and the reserved kinds. -/
inductive Avail where
  | available | held | unavailable | none
  deriving DecidableEq, Repr

/-- The routed target of a source, with the exception for event sources (R293). -/
def State.routeOf (s : State) (i : Nat) : Target :=
  let k := s.fld .IRQ_ROUTE_KIND i
  if k = 1 ∧ 0x1000 ≤ i ∧ i < 0x1804 then ⟨1, i - 0x1000, s.fld .FN_CTL_EVT_VEC (i - 0x1000)⟩
  else ⟨k, s.fld .IRQ_ROUTE_FUNC i, s.fld .IRQ_ROUTE_INDEX i⟩

/-- The fallback target. -/
def State.fallback (s : State) : Target :=
  ⟨s.fld .IRQ_FALLBACK_KIND, s.fld .IRQ_FALLBACK_FUNC, s.fld .IRQ_FALLBACK_INDEX⟩

/-- The module holds what is routed to a function, or with `none` to a local target: in CONTAIN all, in FOLLOW all but
PF0 (R398, R487). -/
def State.irqHold (s : State) (f : Option Nat) : Bool := s.mode == .CONTAIN || (s.mode == .FOLLOW && f != some 0)

/-- Availability of a target (R305); a target that does not exist is unavailable (R293). -/
def State.avail (s : State) (t : Target) : Avail :=
  if t.kind = 1 then
    if 2052 ≤ t.func ∨ s.fnState t.func = fnDISABLED then .unavailable
    else if s.fnState t.func = fnRINSE ∨ s.fnState t.func = fnHIDDEN then .held
    else if !s.msixEn t.func || msixSize t.func ≤ t.index then .unavailable
    else if s.fnState t.func = fnCONTAINED || s.irqHold (some t.func) || s.msixEntryMask t.func t.index
      || s.msixMask t.func || !s.bme t.func then .held
    else .available
  else if t.kind = 2 then
    if 4 ≤ t.func then .unavailable
    else if s.fnState t.func = fnRINSE ∨ s.fnState t.func = fnCONTAINED then .held
    else if s.msixEn t.func then .unavailable
    else if s.intxOff t.func || s.irqHold (some t.func) then .held
    else .available
  else if t.kind = 3 then
    if 4 ≤ t.index then .unavailable
    else if s.domOn (2 + t.index) || s.flag .IRQ_CORE_CTL_WAKE_EN t.index then .available else .unavailable
  else if t.kind = 4 then
    if 64 ≤ t.index ∨ !s.flag .IRQ_LT_VALID t.index then .unavailable
    else if s.irqHold Option.none then .held
    else if s.fld .ULK_STS_STATE (s.fld .IRQ_LT_PORT t.index) = 2 then .available else .unavailable
  else .none

/-- Availability of a source's own target; after a failed local delivery it goes to the fallback (R297). -/
def State.ownAvail (s : State) (i : Nat) : Avail :=
  if s.mg.irqFall.contains i then .unavailable else s.avail (s.routeOf i)

/-- The target a source is presented to, or held for: its own unless that is unavailable, then the fallback; nothing
for NONE and when it is stranded (R305). -/
def State.targetOf (s : State) (i : Nat) : Option Target :=
  match s.ownAvail i with
  | .available => some (s.routeOf i)
  | .held => some (s.routeOf i)
  | .none => none
  | .unavailable => if s.avail s.fallback = .available then some s.fallback else none

/-- A pending source whose own target is unavailable and whose fallback is not available is stranded (R305). -/
def State.stranded (s : State) (i : Nat) : Bool :=
  s.ready i && s.ownAvail i == .unavailable && s.avail s.fallback != .available

/-- A source IN_SERVICE at some core, and that core (R303). -/
def State.servedBy (s : State) (i : Nat) : Option Nat :=
  (List.range 4).find? fun c => (smGet (fun _ => []) s.irqStack c).any fun e => e.1 == i

/-- The storm guard holds the source until the next window (R309). -/
def State.stormHeld (s : State) (i : Nat) : Bool := bGet s.irqStorm i && nGet s.irqShown i != 0

/-- The running priority of a core (R299). -/
def State.runPrio (s : State) (c : Nat) : Nat :=
  match smGet (fun _ => []) s.irqStack c with
  | [] => s.fld .IRQ_CORE_CTL_THR c
  | e :: _ => e.2

/-- A source is presented at an available target (R303): for a core, above its running priority. -/
def State.presented (s : State) (i : Nat) : Option Target :=
  if s.ready i && s.servedBy i == Option.none && !s.stormHeld i && s.flag .IRQ_CFG_EN then
    match s.targetOf i with
    | Option.none => Option.none
    | some t =>
      if s.avail t = .available then
        (if t.kind = 3 then (if s.runPrio t.index < s.prio i then some t else Option.none) else some t)
      else Option.none
  else Option.none

/-- The eligible source of a core with the highest priority, of equal priority the lowest number (R299, R300). -/
def State.bestFor (s : State) (c : Nat) : Option Nat :=
  s.pendSrcs.foldl (fun b i =>
    match s.presented i with
    | some t => if t.kind = 3 ∧ t.index = c then
        (match b with
         | Option.none => some i
         | some j => if s.prio j < s.prio i then some i else some j)
      else b
    | Option.none => b) Option.none

/-! ### Storm guard and INTx -/

/-- Counts one presentation of a source; at THRESH the source enters STORM (R309). -/
def State.stormCount (s : State) (i : Nat) : State :=
  if !s.flag .IRQ_ROUTE_STORM_EN i || s.fld .IRQ_STORM_CFG_THRESH == 0 then s
  else
    let n := nGet s.irqShown i + 1
    let s := { s with irqShown := nSet s.irqShown i n }
    if n ≥ s.fld .IRQ_STORM_CFG_THRESH && !bGet s.irqStorm i then
      let w := i / 32
      let s := { s with irqStorm := bSet s.irqStorm i true }
      let s := s.set .IRQ_STORM_FLAG w (s.fld .IRQ_STORM_FLAG w ||| 2 ^ (i % 32))
      let was := s.flag .IRQ_STS_STORM_NEW
      let s := (s.set .IRQ_STS_STORM_NEW 0 1).set .IRQ_STS_LAST_SRC 0 i
      if was then s else s.setPend 0x2030 true
    else s

/-- The condition for the INTx wire of a PF (R296), with the holds of R305. -/
def State.intxWire (s : State) (pf : Nat) : Bool :=
  s.avail ⟨2, pf, 0⟩ == .available && s.flag .IRQ_CFG_EN
    && s.pendSrcs.any fun i => (s.presented i).any fun t => t.kind == 2 && t.func == pf

/-- Re-evaluates the INTx wires and sends Assert_INTA or Deassert_INTA where one changed (R296). An assertion counts
as a presentation of each source that causes it (R309). -/
def State.intxSync (s : State) : State :=
  s.each [0, 1, 2, 3] fun s pf =>
    let w := s.intxWire pf
    if w = bGet s.intx pf then s
    else
      let srcs := s.pendSrcs.filter fun i => (s.presented i).any fun t => t.kind == 2 && t.func == pf
      let s := { s with intx := bSet s.intx pf w }
      if w then (s.hostTx (.msg (.assertIntx pf))).each srcs State.stormCount
      else s.hostTx (.msg (.deassertIntx pf))

/-- Records a source that has become stranded (R305). -/
def State.strandCheck (s : State) (i : Nat) : State :=
  if s.stranded i && !bGet s.irqStranded i then
    let was := s.flag .IRQ_STS_STRANDED_SEEN
    let s := { s with irqStranded := bSet s.irqStranded i true }
    let s := (s.set .IRQ_STS_STRANDED_SEEN 0 1).set .IRQ_STS_LAST_SRC 0 i
    if was then s else s.setPend 0x2032 true
  else if !s.stranded i then { s with irqStranded := bSet s.irqStranded i false } else s

/-- Re-evaluates every pending or stranded source after a change of a target or of the arrays (R292, R305). -/
def State.irqEval (s : State) : State :=
  (s.each (s.pendSrcs ++ (s.irqStranded.map (·.1)).filter fun i => !s.isPend i) State.strandCheck).intxSync

/-! ### Raising (R287) -/

/-- A source whose PENDING is 0 is no longer bound to the fallback (R297). -/
def State.irqFresh (s : State) (i : Nat) : State :=
  if s.isPend i then s else { s with mg.irqFall := s.mg.irqFall.erase i }

/-- Raises a source: PENDING is set, the raise counts in the storm window, and its presentation is evaluated. -/
def State.raise (s : State) (i : Nat) : State :=
  if srcReserved i then s
  else
    let s := { (s.irqFresh i).setPend i true with irqRaises := nSet s.irqRaises i (nGet s.irqRaises i + 1) }
    (s.strandCheck i).intxSync

/-- A level input falls: PENDING is cleared unless the source is IN_SERVICE; an edge source ignores it (R287). -/
def State.levelFall (s : State) (i : Nat) : State :=
  if s.isLevel i && s.servedBy i == Option.none then (s.setPend i false).irqEval else s

/-- After a change of what drives a source's level input: a level source is raised on 0→1, and falls on 1→0 (R287). `was` is
the input before the change. -/
def State.relevel (s : State) (i : Nat) (was : Bool) : State :=
  if s.level i && !was && s.isLevel i then s.raise i else if was && !s.level i then s.levelFall i else s

/-- Makes a change and lets the level inputs of the sources listed follow it. -/
def State.withLevels (s : State) (srcs : List Nat) (g : State → State) : State :=
  let t := g s
  srcs.foldl (fun t i => t.relevel i (s.level i)) t

/-- Sets an event flag that drives a level source. -/
def State.evt (s : State) (src : Nat) (f : Fld) (i : Nat := 0) : State :=
  s.withLevels [src] fun s => s.set f i 1

/-- Sets a flag of HST_EVT. -/
def State.hstEvt (s : State) (f : Fld) : State := s.evt 0x2000 f
/-- Sets a flag of LANE_LINK_EVT of a link. -/
def State.laneEvt (s : State) (l : Nat) (f : Fld) : State := s.evt (0x2001 + l) f l
/-- Sets a flag of ULK_EVT of a port. -/
def State.ulkEvt (s : State) (p : Nat) (f : Fld) : State := s.evt (0x2020 + p) f p
/-- Sets a flag of SEM_EVT. -/
def State.semEvt (s : State) (f : Fld) : State := s.evt 0x2080 f
/-- Sets a flag of PWR_EVT, of CLK_EVT, of MEM_EVT, of DRS_EVT. -/
def State.pwrEvt (s : State) (f : Fld) : State := s.evt 0x20E0 f
def State.clkEvt (s : State) (f : Fld) : State := s.evt 0x20E1 f
def State.memEvt (s : State) (f : Fld) : State := s.evt 0x20D0 f
def State.drsEvt (s : State) (f : Fld) : State := s.evt 0x20D1 f

end Sys2Proof.Machine
end

