-- ==== Sys2Proof/Machine/LaneWire.lean ====
section
/-!
DEFINITION. Blocks on a lane (R188 to R195): bit order and levels, sync headers, the scrambler, the lane control blocks and
their CRC-8, the stripe.
-/
namespace Sys2Proof.Machine

/-! ### Blocks and symbols (R188, R191) -/

/-- A 66-bit block in the order its bits leave, h0 lowest: a data block has the header 01, a control block 10. -/
def blockBits (ctl : Bool) (payload : Nat) : Nat := (if ctl then 1 else 2) + 4 * (payload % 2 ^ 64)

/-- What the header of a 66-bit block says (R191): a data block, a control block, or a sync header error. -/
def blockKind (b : Nat) : Option Bool := if b % 4 = 1 then some true else if b % 4 = 2 then some false else none

/-- The even bits of a 66-bit word: the first bit of each pair. -/
def firstBits : Nat := 24595658764946068821

/-- The levels of a block's symbols: at rate code 2 the pairs 00, 01, 11, 10 are the levels 0 to 3. -/
def lineLevels (rate b : Nat) : Nat :=
  if rate = 2 then 2 * (b &&& firstBits) + ((b &&& firstBits) ^^^ (b / 2 &&& firstBits)) else b

/-- The block that levels spell. -/
def lineBlock (rate v : Nat) : Nat :=
  if rate = 2 then (v / 2 &&& firstBits) + 2 * ((v / 2 &&& firstBits) ^^^ (v &&& firstBits)) else v

/-- What an inverted lane receives: level 3 − k for level k, or the inverse bit (R188). -/
def lineInvert (v : Nat) : Nat := v ^^^ (2 ^ 66 - 1)

/-! ### The scrambler (R192) -/

/-- Up to 39 bits through the scrambler. Of the 58 past bits the oldest is the lowest: x^58 is bit 0, x^39 bit 19. -/
def scrambleBits (n h x : Nat) : Nat × Nat :=
  let out := (x ^^^ (h / 2 ^ 19) ^^^ h) % 2 ^ n
  (out, h / 2 ^ n + out * 2 ^ (58 - n))

/-- The inverse, over the past received bits. -/
def descrambleBits (n h x : Nat) : Nat × Nat :=
  ((x ^^^ (h / 2 ^ 19) ^^^ h) % 2 ^ n, h / 2 ^ n + x % 2 ^ n * 2 ^ (58 - n))

/-- A payload through the scrambler, with the state after it. -/
def scramble (h x : Nat) : Nat × Nat :=
  let a := scrambleBits 32 h x
  let b := scrambleBits 32 a.2 (x / 2 ^ 32)
  (a.1 + b.1 * 2 ^ 32, b.2)

/-- A payload through the descrambler. -/
def descramble (h x : Nat) : Nat × Nat :=
  let a := descrambleBits 32 h x
  let b := descrambleBits 32 a.2 (x / 2 ^ 32)
  (a.1 + b.1 * 2 ^ 32, b.2)

/-! ### Cyclic redundancy checks (R193, R214) -/

/-- One bit into a remainder of `w` bits, not reflected. -/
def crcBit (w poly r : Nat) (b : Bool) : Nat :=
  let t := 2 * r % 2 ^ w
  if r.testBit (w - 1) != b then t ^^^ poly else t

/-- The `n` lowest bits of a number into a remainder, in ascending order. -/
def crcBits (w poly : Nat) : Nat → Nat → Nat → Nat
  | 0, r, _ => r
  | n + 1, r, x => crcBits w poly n (crcBit w poly r (x.testBit 0)) (x / 2)

/-- The CRC-8 of a lane control block: x^8 + x^2 + x + 1 from 0xFF over payload bits [55:0]. -/
def crc8 (x : Nat) : Nat := crcBits 8 0x07 56 0xFF x

/-- A lane control block with its CRC. DEDUCED (assumption 73): x^k stands in bit 56 + k, as R214 has it for the CRC-32. -/
def laneSeal (x : Nat) : Nat := x % 2 ^ 56 + crc8 x * 2 ^ 56

/-- A payload whose CRC-8 is good. -/
def laneGood (w : Nat) : Bool := w / 2 ^ 56 % 256 == crc8 w

/-! ### Lane control blocks (R193) -/

/-- Bits `[hi:lo]` of a payload. -/
def fieldAt (w hi lo : Nat) : Nat := w / 2 ^ lo % 2 ^ (hi + 1 - lo)
/-- A value at bit `lo` of a field of `n` bits. -/
def fieldPut (v n lo : Nat) : Nat := v % 2 ^ n * 2 ^ lo
/-- One bit of a payload. -/
def flagPut (b : Bool) (lo : Nat) : Nat := if b then 2 ^ lo else 0

/-- A TRAIN block. -/
def trainWord (b : TrainBlk) : Nat :=
  laneSeal (0xC0 + fieldPut b.lane 3 8 + fieldPut b.width 4 11 + fieldPut b.rates 3 15 + fieldPut b.target 2 18
    + fieldPut b.preReq 2 20 + fieldPut b.postReq 2 22 + fieldPut b.preSts 2 24 + fieldPut b.postSts 2 26
    + flagPut b.rxReady 28 + flagPut b.readySeen 29 + fieldPut b.phase 2 30 + fieldPut b.linkId 8 32)

/-- A MARKER block. -/
def markWord (b : MarkBlk) : Nat :=
  laneSeal (0xC1 + fieldPut b.lane 3 8 + fieldPut b.active 8 11 + fieldPut b.rxok 8 19 + fieldPut b.cmd 4 27
    + fieldPut b.arg 8 31 + fieldPut b.mcount 8 39)

/-- What a lane control block is to a receiver. -/
inductive LaneCtl where
  | train (b : TrainBlk)
  | marker (b : MarkBlk)
  /-- A bad CRC, or a type that is not defined: discarded and counted. -/
  | bad
  deriving DecidableEq, Repr

/-- Reads a lane control block. -/
def laneCtl (w : Nat) : LaneCtl :=
  if !laneGood w then .bad
  else if w % 256 = 0xC0 then
    .train { lane := fieldAt w 10 8, width := fieldAt w 14 11, rates := fieldAt w 17 15, target := fieldAt w 19 18
             preReq := fieldAt w 21 20, postReq := fieldAt w 23 22, preSts := fieldAt w 25 24, postSts := fieldAt w 27 26
             rxReady := w.testBit 28, readySeen := w.testBit 29, phase := fieldAt w 31 30, linkId := fieldAt w 39 32 }
  else if w % 256 = 0xC1 then
    .marker { lane := fieldAt w 10 8, active := fieldAt w 18 11, rxok := fieldAt w 26 19, cmd := fieldAt w 30 27
              arg := fieldAt w 38 31, mcount := fieldAt w 46 39 }
  else .bad

/-! ### The stripe (R195) -/

/-- The lane that block `n` of the stream goes on, of the ACTIVE lanes in ascending order. -/
def stripeLane (act : List Nat) (n : Nat) : Option Nat := act[n % act.length]?

/-- Blocks of the stream from number `n` on, each with its lane. -/
def stripe {α : Type} (act : List Nat) : Nat → List α → List (Nat × α)
  | _, [] => []
  | n, b :: t => match stripeLane act n with
    | some i => (i, b) :: stripe act (n + 1) t
    | none => stripe act (n + 1) t

/-- The first block that has come on a lane, and the rest. -/
def takeLane {α : Type} (i : Nat) : List (Nat × α) → Option (α × List (Nat × α))
  | [] => none
  | e :: t => if e.1 = i then some (e.2, t) else match takeLane i t with
    | some (b, r) => some (b, e :: r)
    | none => none

/-- The receiver's order: `k` blocks of the stream from number `n` on, from blocks as they came in on the far lanes. -/
def unstripe {α : Type} (act : List Nat) : Nat → Nat → List (Nat × α) → List α
  | 0, _, _ => []
  | k + 1, n, got => match stripeLane act n with
    | none => []
    | some i => match takeLane i got with
      | some (b, rest) => b :: unstripe act k (n + 1) rest
      | none => []

end Sys2Proof.Machine
end

