-- ==== Sys2Proof/Machine/UrWire.lean ====
section
/-!
DEFINITION. Bundles and packets on the wire (R213, R214, R218 to R244, R394): virtual channels and lengths, the control
block and its CRC-32, the words of each packet, and reading packets from a run of blocks.
-/
namespace Sys2Proof

/-- The codes of the atomic operations (R223). -/
def AtomOp.code : AtomOp → Nat | .fetchAdd => 0 | .swap => 1 | .cas => 2
/-- The operation of a code; the others are reserved. -/
def AtomOp.ofCode : Nat → Option AtomOp | 0 => some .fetchAdd | 1 => some .swap | 2 => some .cas | _ => none
/-- The operand size s of a code (R223), 0 for the reserved one, and the code of a size. -/
def aszBytes : Nat → Nat | 0 => 4 | 1 => 8 | 2 => 16 | _ => 0
def aszCode (n : Nat) : Nat := if n = 16 then 2 else if n = 8 then 1 else 0

/-- The poison-mask word of marked granules, and the granules a mask marks (R225). -/
def maskOf (pois : List Nat) : Option Nat := if pois = [] then none else some (pois.foldl (fun m i => m ||| 2 ^ i) 0)
def poisOf (mask : Option Nat) : List Nat := match mask with | some m => (List.range 64).filter m.testBit | none => []

/-! ### Classes and lengths -/

/-- The virtual channel of a packet: 0, 1, 2, or 3 for link packets (R218, R394). -/
def UrPkt.vc : UrPkt → Nat
  | .seam (.hello ..) => 3 | .seam (.heartbeat ..) => 3
  | .seam (.mirror ..) => 0 | .seam (.mirrorAck _) => 1 | .seam (.handover ..) => 2 | .seam (.pairCtl _) => 2
  | .flow .. => 3 | .hello .. => 3 | .bad _ => 3
  | .read .. => 0 | .write .. => 0 | .atomic .. => 0 | .lock .. => 0 | .unlock .. => 0 | .streamSync .. => 0
  | .response .. => 1
  | .sbPoll _ => 2 | .sbState .. => 2 | .sbCfg _ => 2 | .req .. => 2 | .reqDone .. => 2 | .lateError .. => 2

/-- Blocks of the bytes from an address (R224). -/
def dataBlocks (addr len : Nat) : Nat := if len = 0 then 0 else (addr % 8 + len + 7) / 8

/-- Data and poison-mask blocks of a packet (R219). -/
def UrPkt.dataBlks : UrPkt → Nat
  | .write _ _ _ a _ _ _ d m => dataBlocks a d.length + (if m.isSome then 1 else 0)
  | .atomic _ _ _ _ _ _ o => dataBlocks 0 o.length
  | .response _ _ off _ d m b => dataBlocks (b + off) d.length + (if m.isSome then 1 else 0)
  | .seam (.mirror _ _ _ w) => w.length
  | _ => 0

/-- Blocks of a packet (R218). -/
def UrPkt.blocks : UrPkt → Nat
  | .flow .. => 1 | .hello .. => 2 | .bad _ => 1 | .streamSync .. => 1
  | .seam (.hello ..) => 2 | .seam (.mirror _ _ _ w) => 2 + w.length | .seam _ => 1
  | .sbPoll _ => 1 | .sbState .. => 2 | .sbCfg _ => 2 | .req .. => 1 | .reqDone .. => 1 | .lateError .. => 1
  | p => 2 + p.dataBlks

/-- Header and data credits a packet takes (R219). -/
def UrPkt.hdrCredit (p : UrPkt) : Nat := if p.vc = 0 ∨ p.vc = 2 then 1 else 0
def UrPkt.dataCredit (p : UrPkt) : Nat := if p.vc = 0 then (p.dataBlks + 7) / 8 else 0

end Sys2Proof

namespace Sys2Proof.Machine

/-! ### Bundles (R213, R214) -/

/-- The CRC-32 of data blocks and of the low half of a control block: 0x04C1_1DB7 from 0xFFFF_FFFF, not reflected, not
inverted at the end. -/
def bundleCrc (data : List Nat) (ctl : Nat) : Nat :=
  crcBits 32 0x04C11DB7 32 (data.foldl (fun r d => crcBits 32 0x04C11DB7 64 r d) 0xFFFFFFFF) ctl

/-- TYPE codes of a control block. -/
def ctBUNDLE_ACK : Nat := 1
def ctBUNDLE_NAK : Nat := 2
def ctACK_ONLY : Nat := 3
def ctNAK_ONLY : Nat := 4

/-- A control block: its TYPE, BSEQ and ACKSEQ, and the CRC over the data blocks before it. -/
def ctlWord (typ bseq ackseq : Nat) (data : List Nat) : Nat :=
  let low := fieldPut typ 8 0 + fieldPut bseq 12 8 + fieldPut ackseq 12 20
  low + bundleCrc data low * 2 ^ 32

/-- The CRC of a control block is good. -/
def ctlGood (ctl : Nat) (data : List Nat) : Bool := fieldAt ctl 63 32 == bundleCrc data (ctl % 2 ^ 32)

/-! ### Data (R224, R225) -/

/-- The 64-bit words of bytes. -/
def wordsOf (b : List Byte) : List Nat :=
  (List.range ((b.length + 7) / 8)).map fun i => ofBytes ((b.drop (8 * i)).take 8)

/-- The blocks of data laid out from an address; no data take no block. -/
def blocksFrom (a : Nat) (data : List Byte) : List Nat :=
  if data = [] then [] else wordsOf (List.replicate (a % 8) 0 ++ data ++ List.replicate ((8 - (a + data.length) % 8) % 8) 0)

/-- The bytes of an access that blocks carry. -/
def bytesFrom (a len : Nat) (blocks : List Nat) : List Byte := ((blocks.flatMap (toBytes 8)).drop (a % 8)).take len

/-! ### The words of packets -/

/-- Word 0 of a request (R223). -/
def reqWord (kind : Nat) (pois retry priv exec : Bool) (tag init seq len : Nat) : Nat :=
  kind + flagPut pois 5 + flagPut retry 6 + flagPut priv 7 + flagPut exec 8 + fieldPut tag 12 10 + fieldPut init 5 22
    + fieldPut seq 16 27 + fieldPut (len - 1) 13 43

/-- A Seam packet (R394). -/
def seamWords : SeamPkt → List Nat
  | .hello v mv mode lead fw ser =>
    [2 + fieldPut v 8 8 + fieldPut mv 8 16 + fieldPut mode 3 24 + flagPut lead 27 + fieldPut fw 32 32, ser % 2 ^ 64]
  | .heartbeat n lead cont sync mseq =>
    [3 + fieldPut n 8 8 + flagPut lead 16 + flagPut cont 17 + fieldPut sync 2 18 + fieldPut mseq 32 20]
  | .mirror rt mseq arg w => (8 + fieldPut rt 8 8 + fieldPut mseq 32 16 + fieldPut w.length 8 48) :: arg % 2 ^ 64 :: w
  | .mirrorAck mseq => [0x10 + fieldPut mseq 32 16]
  | .handover op mseq => [0x18 + fieldPut op 3 8 + fieldPut mseq 32 16]
  | .pairCtl op => [0x1A + fieldPut op 3 8]

/-- The blocks of a packet. -/
def urWords : UrPkt → List Nat
  | .flow vc h d => [1 + fieldPut vc 2 5 + fieldPut h 12 8 + fieldPut d 16 20]
  | .hello v at_ sa du dz dp sb id =>
    [2 + fieldPut v 8 8 + flagPut at_ 16 + flagPut sa 17 + flagPut du 18 + flagPut dz 19 + flagPut dp 20 + fieldPut sb 12 21,
      id % 2 ^ 32]
  | .read tag len addr priv exec => [reqWord 8 false false priv exec tag 0 0 len, addr % 2 ^ 40]
  | .write tag init seq addr retry priv exec data mask =>
    reqWord 9 mask.isSome retry priv exec tag init seq data.length :: addr % 2 ^ 40 :: (blocksFrom addr data ++ mask.toList)
  | .atomic tag aop asz addr priv exec ops =>
    reqWord 10 false false priv exec tag 0 0 ops.length :: (addr % 2 ^ 40 + fieldPut aop 4 40 + fieldPut asz 2 44)
      :: blocksFrom 0 ops
  | .lock tag addr priv exec => [reqWord 11 false false priv exec tag 0 0 1, addr % 2 ^ 40]
  | .unlock tag addr priv exec => [reqWord 12 false false priv exec tag 0 0 1, addr % 2 ^ 40]
  | .streamSync init first => [13 + fieldPut init 5 5 + fieldPut first 16 10]
  | .response tag st off last data mask base =>
    (0x10 + flagPut mask.isSome 5 + flagPut (data != []) 6 + fieldPut tag 12 10 + fieldPut st 4 22
        + fieldPut (data.length - 1) 13 43)
      :: (fieldPut off 13 0 + flagPut last 13) :: (blocksFrom (base + off) data ++ mask.toList)
  | .sbPoll id => [0x18 + fieldPut id 8 8]
  | .sbState id unsol lines => [0x19 + fieldPut id 8 8 + flagPut unsol 16, lines % 2 ^ 64]
  | .sbCfg latch => [0x1A, latch % 2 ^ 64]
  | .req line n => [0x1B + fieldPut line 4 5 + fieldPut n 16 9]
  | .reqDone line n => [0x1C + fieldPut line 4 5 + fieldPut n 16 9]
  | .lateError init seq st => [0x1E + fieldPut init 5 5 + fieldPut seq 16 10 + fieldPut st 4 26]
  | .bad k => [k % 32]
  | .seam k => seamWords k

/-! ### Reading packets -/

/-- Blocks of the packet that begins with two words, the second 0 when it has not come; `base` gives the address that byte
0 of a tag's request lies at. A reserved KIND counts one block. -/
def pktBlocks (seam : Bool) (base : Nat → Nat) (w0 w1 : Nat) : Nat :=
  let len := fieldAt w0 55 43 + 1
  let mask := bit (w0.testBit 5)
  match seam, w0 % 32 with
  | true, 2 => 2
  | true, 8 => 2 + fieldAt w0 55 48
  | true, _ => 1
  | false, 2 => 2
  | false, 8 => 2
  | false, 9 => 2 + dataBlocks w1 len + mask
  | false, 10 => 2 + dataBlocks 0 len
  | false, 11 => 2
  | false, 12 => 2
  | false, 16 => 2 + (if w0.testBit 6 then dataBlocks (base (fieldAt w0 21 10) + w1 % 2 ^ 13) len else 0) + mask
  | false, 0x19 => 2
  | false, 0x1A => 2
  | false, _ => 1

/-- A Seam packet from its blocks; none for a NOP. -/
def seamRead (ws : List Nat) : Option UrPkt :=
  let w0 := ws.getD 0 0
  let w1 := ws.getD 1 0
  match w0 % 32 with
  | 0 => none
  | 1 => some (.flow (fieldAt w0 6 5) (fieldAt w0 19 8) (fieldAt w0 35 20))
  | 2 => some (.seam (.hello (fieldAt w0 15 8) (fieldAt w0 23 16) (fieldAt w0 26 24) (w0.testBit 27) (fieldAt w0 63 32) w1))
  | 3 => some (.seam (.heartbeat (fieldAt w0 15 8) (w0.testBit 16) (w0.testBit 17) (fieldAt w0 19 18) (fieldAt w0 51 20)))
  | 8 => some (.seam (.mirror (fieldAt w0 15 8) (fieldAt w0 47 16) w1 (ws.drop 2)))
  | 0x10 => some (.seam (.mirrorAck (fieldAt w0 47 16)))
  | 0x18 => some (.seam (.handover (fieldAt w0 10 8) (fieldAt w0 47 16)))
  | 0x1A => some (.seam (.pairCtl (fieldAt w0 10 8)))
  | k => some (.bad k)

/-- A Urone packet from its blocks; none for a NOP. -/
def urRead (base : Nat → Nat) (ws : List Nat) : Option UrPkt :=
  let w0 := ws.getD 0 0
  let w1 := ws.getD 1 0
  let tag := fieldAt w0 21 10
  let len := fieldAt w0 55 43 + 1
  let addr := w1 % 2 ^ 40
  let priv := w0.testBit 7
  let exec := w0.testBit 8
  let body := ws.drop 2
  let mask (n : Nat) : Option Nat := if w0.testBit 5 then some (body.getD n 0) else none
  match w0 % 32 with
  | 0 => none
  | 1 => some (.flow (fieldAt w0 6 5) (fieldAt w0 19 8) (fieldAt w0 35 20))
  | 2 => some (.hello (fieldAt w0 15 8) (w0.testBit 16) (w0.testBit 17) (w0.testBit 18) (w0.testBit 19) (w0.testBit 20)
      (fieldAt w0 32 21) (w1 % 2 ^ 32))
  | 8 => some (.read tag len addr priv exec)
  | 9 => some (.write tag (fieldAt w0 26 22) (fieldAt w0 42 27) addr (w0.testBit 6) priv exec (bytesFrom addr len body)
      (mask (dataBlocks addr len)))
  | 10 => some (.atomic tag (fieldAt w1 43 40) (fieldAt w1 45 44) addr priv exec (bytesFrom 0 len body))
  | 11 => some (.lock tag addr priv exec)
  | 12 => some (.unlock tag addr priv exec)
  | 13 => some (.streamSync (fieldAt w0 9 5) (fieldAt w0 25 10))
  | 16 =>
    let off := w1 % 2 ^ 13
    let b := base tag
    let n := if w0.testBit 6 then len else 0
    some (.response tag (fieldAt w0 25 22) off (w1.testBit 13) (bytesFrom (b + off) n body) (mask (dataBlocks (b + off) n)) b)
  | 0x18 => some (.sbPoll (fieldAt w0 15 8))
  | 0x19 => some (.sbState (fieldAt w0 15 8) (w0.testBit 16) w1)
  | 0x1A => some (.sbCfg w1)
  | 0x1B => some (.req (fieldAt w0 8 5) (fieldAt w0 24 9))
  | 0x1C => some (.reqDone (fieldAt w0 8 5) (fieldAt w0 24 9))
  | 0x1E => some (.lateError (fieldAt w0 9 5) (fieldAt w0 25 10) (fieldAt w0 29 26))
  | k => some (.bad k)

/-- The packets in a run of blocks, in order, and the blocks of one whose end has not come; at most `n` packets. -/
def readPkts (seam : Bool) (base : Nat → Nat) : Nat → List Nat → List UrPkt × List Nat
  | 0, ws => ([], ws)
  | _, [] => ([], [])
  | n + 1, w0 :: t =>
    let k := pktBlocks seam base w0 (t.getD 0 0)
    let need := if t = [] ∧ k ≠ 1 then 2 else k
    if t.length + 1 < need then ([], w0 :: t)
    else
      let ws := (w0 :: t).take k
      let (ps, rest) := readPkts seam base n ((w0 :: t).drop k)
      match (if seam then seamRead ws else urRead base ws) with
      | some p => (p :: ps, rest)
      | none => (ps, rest)

end Sys2Proof.Machine
end

