-- ==== Sys2Proof/Machine/LaneTx.lean ====
section
/-!
DEFINITION. Sending on lanes (R185, R192 to R195): the lanes of a link, a block through its lane's scrambler, the stripe, runs
of TRAIN blocks.
-/
namespace Sys2Proof.Machine

/-! ### Lanes of a link -/

/-- Width of a link, and LANE_ index of its lane 0 (R185). -/
def linkWidth (l : Nat) : Nat := if l = 16 then 8 else 4
def laneBase (l : Nat) : Nat := if l = 16 then 64 else 4 * l
/-- The link of a LANE_ index. -/
def linkOf (i : Nat) : Nat := if 64 ≤ i then 16 else i / 4
/-- The LANE_ indices of a link. -/
def lanesOf (l : Nat) : List Nat := (List.range (linkWidth l)).map (laneBase l + ·)
/-- The lane layer of a link. -/
def State.lk (s : State) (l : Nat) : LaneLink := smGet (fun _ => {}) s.lanes l
def State.setLk (s : State) (l : Nat) (v : LaneLink) : State := { s with lanes := smSet (fun _ => {}) s.lanes l v }
/-- The transmitter of a lane. -/
def State.ltx (s : State) (i : Nat) : LaneTx := smGet (fun _ => {}) s.laneTx i
def State.setLtx (s : State) (i : Nat) (v : LaneTx) : State := { s with laneTx := smSet (fun _ => {}) s.laneTx i v }

/-! ### Blocks -/

/-- A block leaves on a lane: its payload is scrambled (R192), its bits leave as symbols (R188). -/
def State.laneSend (s : State) (i : Nat) (ctl : Bool) (payload : Nat) : State :=
  let t := s.ltx i
  let w := scramble t.scram payload
  (s.setLtx i { t with scram := w.2 }).send
    (.line i (lineLevels (s.fld .LANE_LINK_STS_RATE (linkOf i)) (blockBits ctl w.1)))

/-- The ACTIVE transmit lanes of a link. -/
def State.txLanes (s : State) (l : Nat) : List Nat :=
  (lanesOf l).filter fun i => (s.fld .LANE_LINK_STS_TX_ACTIVE l).testBit (i - laneBase l)

/-- Blocks of the link layer go onto the stripe (R195), control blocks marked `true`. -/
def State.streamSend (s : State) (l : Nat) (bs : List (Bool × Nat)) : State :=
  let k := s.lk l
  (s.setLk l { k with blk := k.blk + bs.length }).each (stripe (s.txLanes l) k.blk bs) fun s e => s.laneSend e.1 e.2.1 e.2.2

/-! ### TRAIN blocks (R193) -/

/-- The TRAIN block a lane sends at a rate code in a phase: 0 exchange, 1 equalise, 2 trial, 3 wake. -/
def State.trainBlk (s : State) (i target phase : Nat) : TrainBlk :=
  let l := linkOf i
  let t := s.ltx i
  { lane := i - laneBase l, width := linkWidth l, rates := 2 ^ ((s.lk l).rmax + 1) - 1, target := target
    preReq := t.preReq, postReq := t.postReq, preSts := t.preSts, postSts := t.postSts, rxReady := t.rxReady
    readySeen := t.readySeen, phase := phase, linkId := s.fld .LANE_LINK_CTL_LINK_ID l }

/-- The scrambler after `n` copies of a block. -/
def scrambleRun : Nat → Nat → Nat → Nat
  | 0, h, _ => h
  | n + 1, h, x => scrambleRun n (scramble h x).2 x

/-- A lane sends a TRAIN block `n` times, or from now on when `n` is 0. -/
def State.trainLane (s : State) (target phase n i : Nat) : State :=
  let w := trainWord (s.trainBlk i target phase)
  let t := s.ltx i
  (s.setLtx i { t with scram := scrambleRun n t.scram w }).send (.train i w n)

/-- Lanes send TRAIN blocks. -/
def State.trainTx (s : State) (is : List Nat) (target phase n : Nat) : State := s.each is (State.trainLane · target phase n)

end Sys2Proof.Machine
end

