-- ==== Sys2Proof/Machine/UrOps.lean ====
section
/-!
DEFINITION. Sending on a Urone port and on the Seam link (R213 to R222): credit, packets back to back in bundles, the replay
buffer, control blocks; the answer to a requester (R144, R167, R169).
-/
namespace Sys2Proof

/-- The requester class code of XLT_FAULT_INFO.CLASS and its index (R143). -/
def Who.cls : Who → Nat
  | .host _ => 0 | .port _ => 1 | .dma _ => 2 | .core _ => 3 | .seam => 4
def Who.index : Who → Nat
  | .host f => f | .port p => p | .dma c => c | .core c => c | .seam => 0
/-- Class and index packed as in the REQ field of R163 and R484. -/
def Who.req (w : Who) : Nat := w.cls + 8 * w.index

end Sys2Proof

namespace Sys2Proof.Machine

/-- The credit test of R220. -/
def PortLL.fits (l : PortLL) (p : UrPkt) : Bool :=
  if p.vc = 0 then
    decide ((l.hdr0 + 8192 - l.used0 - p.hdrCredit) % 4096 < 2048)
      && decide ((l.data0 + 131072 - l.usedD0 - p.dataCredit) % 65536 < 32768)
  else if p.vc = 2 then decide ((l.hdr2 + 8192 - l.used2 - 1) % 4096 < 2048)
  else true

/-- Bundles sent and not acknowledged (ULK_STS.TX_UNACK). -/
def PortLL.unacked (l : PortLL) : Nat := l.replay.length

/-- The replay buffer of 512 bundles has room for `n` blocks more (R216). -/
def PortLL.room (l : PortLL) (n : Nat) : Bool := decide (l.unacked + (l.part.length + n + 15) / 16 ≤ 512)

/-- A packet uses its credit (R219). -/
def PortLL.charge (l : PortLL) (p : UrPkt) : PortLL :=
  { l with
    used0 := if p.vc = 0 then (l.used0 + 1) % 4096 else l.used0
    usedD0 := (l.usedD0 + p.dataCredit) % 65536
    used2 := if p.vc = 2 then (l.used2 + 1) % 4096 else l.used2 }

/-- The link layer of a port, or the Seam link layer, is UP (R243, R391). -/
def State.urUp (s : State) (p : Nat) : Bool :=
  if p = 16 then s.flag .SEM_STS_SEAM_UP else s.fld .ULK_STS_STATE p == 2

/-- The link layer of a port, or of the Seam link, runs at all. -/
def State.urRuns (s : State) (p : Nat) : Bool :=
  if p = 16 then s.flag .SEM_STS_SEAM_UP else s.fld .ULK_STS_STATE p != 0

/-! ### Bundles -/

/-- ACKSEQ: the BSEQ of the last bundle accepted in order (R215). -/
def State.ackSeq (s : State) (l : Nat) : Nat := ((s.port l).e + 4095) % 4096

/-- A bundle leaves, or leaves again, with the ACKSEQ of the moment (R213, R215, R216). -/
def State.bundleSend (s : State) (l : Nat) (b : Bundle) : State :=
  let ctl := ctlWord ctBUNDLE_ACK b.bseq (s.ackSeq l) b.data
  (s.send (.bundle l b.data ctl)).streamSend l (b.data.map ((false, ·)) ++ [(true, ctl)])

/-- Blocks go into the bundle that is being filled; full bundles leave and stay in the replay buffer. -/
def State.urFill (s : State) (l : Nat) (ws : List Nat) : State :=
  let p := s.port l
  let all := p.part ++ ws
  let n := all.length / 16
  let new := (List.range n).map fun i => Bundle.mk ((p.bseq + i) % 4096) ((all.drop (16 * i)).take 16)
  (s.setPort l { p with part := all.drop (16 * n), bseq := (p.bseq + n) % 4096, replay := p.replay ++ new }).each new
    (State.bundleSend · l)

/-- With no packet that follows at once, the bundle is filled with NOPs (R217). -/
def State.urClose (s : State) (l : Nat) : State :=
  match (s.port l).part with
  | [] => s
  | ws => s.urFill l (List.replicate (16 - ws.length) 0)

/-- Packets that leave one behind the other share bundles (R218). -/
def State.urBatch (s : State) (l : Nat) (f : State → State) : State :=
  if (s.port l).hold then f s
  else
    let s := f (s.setPort l { s.port l with hold := true })
    (s.setPort l { s.port l with hold := false }).urClose l

/-- A packet may leave now: transmitter awake, credit there, room in the replay buffer, and the link layer has come far
enough: VC packets only while UP (R243). -/
def State.canSend (s : State) (p : Nat) (k : UrPkt) : Bool :=
  let l := s.port p
  (k.vc == 3 || s.urUp p) && l.txLp == 0 && l.fits k && l.room k.blocks

/-- Sends a packet on a port, or queues it behind the packets of its virtual channel that wait. -/
def State.urSend (s : State) (p : Nat) (k : UrPkt) : State :=
  if !s.urRuns p then s
  else
    let l := s.port p
    if s.canSend p k && !(l.txq.any fun q => q.vc == k.vc) then
      let s := ((s.setPort p (l.charge k)).send (.ur p k)).urFill p (urWords k)
      if l.hold then s else s.urClose p
    else s.setPort p { l with txq := l.txq ++ [k] }

/-- Sends what waits on a port, in order within each virtual channel. -/
def State.urFlush (s : State) (p : Nat) : State :=
  let q := (s.port p).txq
  (s.setPort p { s.port p with txq := [] }).urBatch p fun s => s.each q fun s k => s.urSend p k

/-- Sends an ACK_ONLY block; NAK_ONLY when `nak` (R215). -/
def State.urAck (s : State) (l : Nat) (nak : Bool) : State :=
  let w := ctlWord (if nak then ctNAK_ONLY else ctACK_ONLY) 0 (s.ackSeq l) []
  (s.send (.ctlBlock l w)).streamSend l [(true, w)]

/-- The address that byte 0 of the answer to a request lies at, modulo 64 (R230). -/
def respBase (r : Req) : Nat := if r.kind = .read then r.addr % 64 else 0

/-! ### Answers -/

/-- The PCI Express completion status for a bridge status (R167): 0 SC, 1 UR, 4 CA. -/
def cplStatus (st : Nat) : Nat :=
  if st = 0 ∨ st = 5 ∨ st = 6 then 0 else if st = 3 ∨ st = 4 then 1 else if st = 10 then 1 else 4

/-- The number that stands for the debug path beside the four control cores: its accesses reach the BAS through their
checkpoint (R358). -/
def jtag : Nat := 4

/-- Tells a requester the outcome of its request (R144): a host read or atomic by a completion, a local initiator by a
RESPONSE that frees its tag, a DMA beat by its result, a control core by data or a bus error. -/
def State.answer (s : State) (r : Req) (st : Nat) (data : List Byte) (pois : List Nat := []) : State :=
  match r.who with
  | .host f =>
    if r.kind = .write then s
    else s.hostTx (.cpl f r.tag (cplStatus st) (if cplStatus st = 0 then data else []) (pois != []) r.stream)
  | .port p =>
    let l := s.port p
    if r.stream ≠ l.gen then s
    else (s.setPort p { l with dreq := l.dreq.erase r.tag }).urSend p
      (.response r.tag (if st = 6 then 0 else st) 0 true (if r.kind = .write then [] else data) (maskOf pois) (respBase r))
  | .dma c => { s with dmaDone := s.dmaDone ++ [⟨c, r.tag, r.addr, r.len, if st = 6 then 0 else st, data, pois⟩] }
  | .core c =>
    if st = 0 ∨ st = 5 ∨ st = 6 then
      (if r.kind = .write then s else if c = jtag then s.send (.jtagData data) else s.send (.coreData c data))
    else s.send (.busErr c)
  | .seam => s

/-- The access retires: its epochs count one access fewer (R140, R141). -/
def State.retire (s : State) (r : Req) : State :=
  if r.stamped then
    { s with xltLive := nSet s.xltLive r.xe (nGet s.xltLive r.xe - 1)
             grdLive := nSet s.grdLive r.ge (nGet s.grdLive r.ge - 1) }
  else s

/-- Answers a request and retires it. -/
def State.finish (s : State) (r : Req) (st : Nat) (data : List Byte) (pois : List Nat := []) : State :=
  (s.answer r st data pois).retire r

/-! ### IDE streams of what the module sends (R364) -/

/-- The address association blocks of selective stream `n` (1 to 8) cover an address. The layout of the IDE capability
is that of PCI Express (PRESUMED, assumption 5). -/
def State.ideCovers (s : State) (n a : Nat) : Bool :=
  [0, 1].any fun k =>
    let o := 0x514 + 0x2C * (n - 1) + 0x14 + 12 * k
    let d1 := s.cfgD 0 o
    let base := s.cfgD 0 (o + 8) * 4294967296 + bits d1 19 8 * 1048576
    let lim := s.cfgD 0 (o + 4) * 4294967296 + bits d1 31 20 * 1048576 + 0xFFFFF
    d1.testBit 0 && decide (base ≤ a) && decide (a ≤ lim)

/-- The stream a request of function `f` to address `a` goes on: 0 none, 1 the link stream, 1 + n selective stream n. -/
def State.txStream (s : State) (f a : Nat) : Nat :=
  if s.fld .SEC_TDI_STATE f = 2 then s.fld .SEC_TDI_STREAM f + 1
  else
    match (List.range 8).find? fun i => s.fld .SEC_IDE_STS_STATE (i + 1) == 2 && s.ideCovers (i + 1) a with
    | some i => i + 2
    | none => if s.fld .SEC_IDE_STS_STATE 0 = 2 then 1 else 0

/-! ### What leaves J1 in order (R151) -/

/-- A posted write may leave J1 now: the link carries TLPs, the host has granted posted credit (R181), nothing freezes
host-bound requests (R60, R487), and a follower sends only MSI-X messages of PF0 (R398). -/
def State.jMay (s : State) (w : JWrite) : Bool :=
  s.linkOpen && s.mode != .CONTAIN && !s.pmeOff && decide (0 < s.jCredit)
    && (s.mode != .FOLLOW || (w.msi.isSome && w.fn == 0))

/-- An item leaves J1; the requester of a write learns that it is done with its last packet (R141, R144). -/
def State.jLeave (s : State) (w : JWrite) : State :=
  match w.tlp with
  | some o => s.hostTx o
  | none =>
    let s := { s with jCredit := s.jCredit - 1 }
    let s := s.send (.mwr w.fn w.slice w.addr w.data w.ep (bit w.ro + 2 * bit w.ns) (s.txStream w.fn w.addr))
    match w.req with
    | some r => if w.last then s.finish r 0 [] else s
    | none => s

/-- An item may leave while those in `kept` stay: a write passes kept writes only with Relaxed Ordering, another TLP
waits behind the writes that came from its port before it, here or on their way here (R150, R151). -/
def State.jGoes (s : State) (kept : List JWrite) (w : JWrite) : Bool :=
  match w.tlp with
  | some _ => !(kept.any fun k => k.tlp == none && k.port == w.port) && !s.portEarlier (w.port - 1) w.jn
  | none => s.jMay w && (w.ro || !(kept.any fun k => k.tlp == none))

/-- Sends what may leave J1, in order. -/
def State.jFlush (s : State) : State :=
  let rec go : List JWrite → List JWrite → State → State
    | [], kept, s => { s with jq := kept }
    | w :: t, kept, s => if s.jGoes kept w then go t kept (s.jLeave w) else go t (kept ++ [w]) s
  go s.jq [] { s with jq := [] }

/-- Takes a write to its place at J1: one of a port goes before the port's other TLPs that came after it. -/
def jInsert (w : JWrite) : List JWrite → List JWrite
  | [] => [w]
  | x :: t =>
    if x.tlp != none && w.port != 0 && x.port == w.port && decide (w.jn < x.jn) then w :: x :: t else x :: jInsert w t

/-- Takes an item to J1 (R151). A write of a port has the number its request took on arrival. -/
def State.jSend (s : State) (w : JWrite) : State :=
  match w.port, w.req with
  | _ + 1, some r => { s with jq := jInsert { w with jn := r.ord } s.jq }.jFlush
  | _, _ => { s with jq := s.jq ++ [{ w with jn := s.jNext }], jNext := s.jNext + 1 }.jFlush

/-- Sends a completion or a read of port traffic in its order behind the port's writes. -/
def State.jSendTlp (s : State) (port : Nat) (o : Out) : State :=
  s.jSend { fn := 0, slice := none, addr := 0, data := [], tlp := some o, port := port }

/-- Sends what waits for the host link: TLPs that are no posted writes, then what waits at J1. -/
def State.hostFlush (s : State) : State :=
  if s.linkOpen then ({ s with tlpQ := [] }.each s.tlpQ State.send).jFlush else s

end Sys2Proof.Machine
end

