-- ==== Sys2Proof/Machine/LogOps.lean ====
section
/-!
DEFINITION. Reports: AER (R480), the fault log (R484, R485), function event queues (R163, R481, R482), and the mirror
stream of the leader (R395, R397).
-/
namespace Sys2Proof.Machine

/-! ### AER -/

/-- Reports an AER error of a function: its status bit is set, and the message is sent when the error is unmasked. The
bit numbers are those of PCI Express (PRESUMED, assumption 5). -/
def State.aer (s : State) (f : Nat) (e : Aer) : State :=
  let unc (b : Nat) (s : State) : State :=
    let s := s.orCfg f 0x104 (2 ^ b)
    if (s.cfgD f 0x108).testBit b then s else s.hostTx (.aer f e ((s.cfgD f 0x10C).testBit b))
  let adv (b : Nat) (s : State) : State :=
    let s := (s.orCfg f 0x104 (2 ^ b)).orCfg f 0x110 0x2000
    if (s.cfgD f 0x114).testBit 13 then s else s.hostTx (.aer f e false)
  match e with
  | .internal => unc 22 s
  | .cplTimeout => unc 14 s
  | .poisonedTlp => adv 12 s
  | .unexpectedCpl => adv 16 s
  | .correctable =>
    let s := s.orCfg f 0x110 1
    if (s.cfgD f 0x114).testBit 0 then s else s.hostTx (.aer f e false)

/-! ### The fault log -/

/-- The 32 bytes of a fault log entry (R484). -/
def LogEnt.bytes (e : LogEnt) : List Byte :=
  toBytes 4 e.num ++ toBytes 1 e.cls ++ toBytes 1 e.flags ++ toBytes 1 e.unit ++ toBytes 1 e.code ++ toBytes 8 e.time
    ++ toBytes 8 (e.addr.getD 0) ++ toBytes 2 (e.fn.getD 0xFFFF) ++ toBytes 2 e.req ++ toBytes 4 e.info

/-- Writes a fault log entry to the always-on ring (R485): it takes NUMBER from MGT_LOG_NEXT, FLAGS are filled from its
fields, the oldest of 128 entries is overwritten, and source 0x20F1 follows MGT_LOG_STS.NEW. -/
def State.faultLog (s : State) (e : LogEnt) : State :=
  let n := s.fld .MGT_LOG_NEXT_NEXT
  let flags := bit e.fn.isSome + 2 * bit e.addr.isSome + 4 * bit e.div.isSome + 8 * bit (s.mode == .CONTAIN)
    + 16 * s.mode.code
  let ent := { e with num := n, flags := flags, time := s.now }
  let used := s.fld .MGT_LOG_STS_AON_USED
  let s := { s with ring := (if s.ring.length < 128 then s.ring else s.ring.drop 1) ++ [ent]
                    ledErr := s.ledErr || e.cls == 3 || e.cls == 5 || e.cls == 6 }
  let s := s.set .MGT_LOG_NEXT_NEXT 0 (n + 1 + bit e.div.isSome)
  let s := s.set .MGT_LOG_STS_HEAD 0 (s.fld .MGT_LOG_STS_HEAD + 1)
  let s := if used < 128 then s.set .MGT_LOG_STS_AON_USED 0 (used + 1) else s.set .MGT_LOG_STS_OVERRUN 0 1
  s.evt 0x20F1 .MGT_LOG_STS_NEW

/-- The delivery of a source to its local target failed with a status (R297, R480). DESIGN CHOICE (assumption 72): the fault
log entry names IRQ_ as its unit and carries the status of the write. -/
def State.deliveryFail (s : State) (i addr st : Nat) : State :=
  let s := { s.setPend i true with mg.irqFall := s.mg.irqFall.erase i ++ [i] }
  let s := (s.count .IRQ_ERR_CNT_DELIVERY).set .IRQ_STS_LAST_SRC 0 i
  let s := s.faultLog { cls := 4, unit := 0, code := st, addr := some addr, req := Who.seam.req }
  (s.evt 0x2031 .IRQ_STS_DELIVERY_ERR).irqEval

/-- A class 1 entry of a unit: a host lane failure, a darned lane, a storm of corrected errors (R480). No rule gives its CODE: a
free value (assumption 6). -/
def State.correctedLog (s : State) (unit : Nat) : State :=
  let (v, s) := s.draw 8
  s.faultLog { cls := 1, unit := unit, code := v }

/-- A class 7 record of firmware (R480). -/
def State.logRecord (s : State) (unit code : Nat) : State := s.faultLog { cls := 7, unit := unit, code := code }

/-! ### The mirror stream -/

/-- The leader mirrors to a follower that is SYNCED or BULK (R397); after a takeover the Seam receiver has stopped and
nothing is mirrored until the twin asks for a snapshot (R402). -/
def State.mirrors (s : State) : Bool := s.leads && s.fld .SEM_STS_SYNC == 2 && !s.seamStop

/-- Sends a mirror record with the next MSEQ (R395). -/
def State.mirror (s : State) (rtype arg : Nat) (payload : List Nat) : State :=
  if s.mirrors then
    let m := (s.fld .SEM_MSEQ_TX + 1) % 4294967296
    let s := (s.set .SEM_MSEQ_TX 0 m).urSend 16 (.seam (.mirror rtype m arg payload))
    let s := { s with mirSent := s.mirSent ++ [(m, s.now)] }
    s.set .SEM_LAG_OUTSTANDING 0 (min 65535 s.mirSent.length)
  else s

/-- Mirrors a register write (R395 REG). -/
def State.mirReg (s : State) (addr width value : Nat) : State :=
  s.mirror 6 (addr % 281474976710656 + (2 ^ width - 1) * 281474976710656) [value]

/-! ### Event queues -/

/-- The 32 bytes of an event queue entry (R163). -/
def EvqEnt.bytes (e : EvqEnt) (phase : Bool) (time : Nat) : List Byte :=
  toBytes 1 e.typ ++ toBytes 1 (e.flags + 8 * bit e.slice.isSome + 128 * bit phase) ++ toBytes 2 e.seq
    ++ toBytes 1 e.port ++ toBytes 1 e.status ++ toBytes 1 e.window ++ toBytes 1 (e.slice.getD 0)
    ++ toBytes 8 e.offset ++ toBytes 2 e.len ++ toBytes 2 e.req ++ toBytes 2 e.epoch ++ toBytes 2 0 ++ toBytes 8 time

/-- The class of a diverted entry (R482). -/
def evqClass (t : Nat) : Nat :=
  if t = 5 ∨ t = 6 then 0 else if t = 0x0C then 3 else if t ≤ 4 ∨ t = 7 ∨ t = 0x0F then 2 else 7

/-- The unit that raises an entry (R484). -/
def evqUnit (t : Nat) : Nat :=
  if t ≤ 3 then 5 else if t ≤ 6 then 6 else if t = 7 then 4 else if t ≤ 9 then 8 else if t = 0x0A then 10
  else if t = 0x0B then 14 else if t ≤ 0x0D then 2 else if t = 0x0E then 1 else 3

/-- An entry goes to the fault log instead of its queue (R482). -/
def State.evqDivert (s : State) (e : EvqEnt) : State :=
  s.faultLog { cls := evqClass e.typ, unit := evqUnit e.typ, code := e.status, fn := some e.fn, info := e.typ, div := some e }

/-- Slots of a function's event queue: 2^LOG2N, values other than 4 to 12 taken as 4 (R113). -/
def State.evqSize (s : State) (f : Nat) : Nat :=
  let l := s.fld .FN_EVQ_CFG_LOG2N f
  2 ^ (if 4 ≤ l ∧ l ≤ 12 then l else 4)

/-- The event interrupt of a function after its entry has been issued (R283, R298). -/
def State.evqIrq (s : State) (f : Nat) (irq : Bool) : State := if irq then s.raise (0x1000 + f) else s

/-- Places an entry in its queue (R163): a posted write of 32 bytes at TAIL, after its EVENT record in a pair (R397); a
full queue diverts it and sets EVQ_OVF (R164). The event source is raised for an entry with EVT_EN, and by the rise of its
level input (R287). -/
def State.evqPlace (s : State) (e : EvqEnt) : State :=
  let n := s.evqSize e.fn
  let t := s.fld .FN_EVQ_TAIL_TAIL e.fn % n
  if (t + 1) % n = s.fld .FN_EVQ_HEAD_HEAD e.fn % n then (s.set .FN_STS_EVQ_OVF e.fn 1).evqDivert e
  else
    let b := e.bytes (!bGet s.evqWrap e.fn) e.time
    let w : JWrite := { fn := e.fn, slice := none, addr := s.fld .FN_EVQ_BASE_BASE e.fn + 32 * t, data := b }
    let s := if t + 1 = n then { s with evqWrap := bSet s.evqWrap e.fn (!bGet s.evqWrap e.fn) } else s
    let irq := s.flag .FN_CTL_EVT_EN e.fn || (s.isLevel (0x1000 + e.fn) && !s.level (0x1000 + e.fn))
    let s := s.set .FN_EVQ_TAIL_TAIL e.fn ((t + 1) % n)
    if s.mirrors then
      let s := s.mirror 9 e.fn (wordsOf b)
      { s with mirWait := s.mirWait ++ [(s.fld .SEM_MSEQ_TX, .event w irq)] }
    else (s.jSend w).evqIrq e.fn irq

/-- Holds an entry, up to 64 for each function; those beyond are handled as for a full queue (R110, R487). -/
def State.evqHold (s : State) (e : EvqEnt) : State :=
  let mine : Held → Bool | .evq h => h.fn == e.fn | .chan _ => false
  if (s.held.filter mine).length < 64 then { s with held := s.held ++ [.evq e] }
  else (s.set .FN_STS_EVQ_OVF e.fn 1).evqDivert e

/-- Where an entry goes (R482, R110, R487). -/
def State.evqRoute (s : State) (e : EvqEnt) : State :=
  if s.fnState e.fn = fnRINSE ∨ s.fnState e.fn = fnHIDDEN then s.evqDivert e
  else if s.mode = .CONTAIN then s.evqHold e
  else if !s.flag .FN_EVQ_CFG_EN e.fn then s.evqDivert e
  else if !s.bme e.fn then s.evqHold e
  else s.evqPlace e

/-- Reports an event to a function's queue, stamped with the device time (R163). -/
def State.evq (s : State) (e : EvqEnt) : State := s.evqRoute { e with time := s.now }

end Sys2Proof.Machine
end

