-- ==== Sys2Proof/Machine/StopOps.lean ====
section
/-!
DEFINITION. Stopping work: DMA channels and rings (R275 to R279), TDIs (R366, R368), function containment (R489) and
module containment (R486, R487).
-/
namespace Sys2Proof.Machine

/-! ### Listed instances -/

/-- The instances of a field, whose reset value is 0, that hold another value now. -/
def State.listed (s : State) (f : Fld) : List Nat :=
  s.regs.filterMap fun c => if c.1 / 1048576 = f.ctorIdx then some (c.1 % 1048576) else none

/-- The contexts bound to a function (R315). -/
def State.ctxsOf (s : State) (f : Nat) : List Nat :=
  (s.listed .SHR_CTX_BIND_VALID).filter fun x => s.fld .SHR_CTX_BIND_FUNC x == f

/-! ### Channels -/

/-- The transfer of a channel. -/
def State.chan (s : State) (c : Nat) : Option ChRun := (s.chans.find? fun e => e.1 == c).map (·.2)
/-- Replaces the transfer of a channel. -/
def State.setChan (s : State) (c : Nat) (r : ChRun) : State :=
  { s with chans := smIns (smErase s.chans c) c r }
/-- Removes the transfer of a channel. -/
def State.dropChan (s : State) (c : Nat) : State := { s with chans := smErase s.chans c }
/-- DMA_CH_STS.STATE. -/
def State.chState (s : State) (c : Nat) : Nat := s.fld .DMA_CH_STS_STATE c
/-- States of R260. -/
def chIDLE : Nat := 0
def chRUN : Nat := 1
def chWAIT : Nat := 2
def chDRAIN : Nat := 3
def chSTOPPING : Nat := 4
def chHALTED : Nat := 5

/-- The ring engine's state of a context. -/
def State.ringOf (s : State) (x : Nat) : Ring := smGet (fun _ => {}) s.rings x
/-- Replaces it. -/
def State.setRing (s : State) (x : Nat) (r : Ring) : State := { s with rings := smSet (fun _ => {}) s.rings x r }

/-- A channel that runs a transfer: neither IDLE nor HALTED. -/
def State.chBusy (s : State) (c : Nat) : Bool := s.chState c != chIDLE && s.chState c != chHALTED

/-- A channel that has stopped is reset with its owner: its state, what it reports of the last transfer, and a record it
holds (R103, R112, R280). -/
def State.chReset (s : State) (c : Nat) : State :=
  if s.chBusy c then s
  else
    (({ s with held := s.held.erase (.chan c) }.each [Fld.DMA_CH_STS_STATE, .DMA_CH_STS_REC_HELD, .DMA_CH_STS_STATUS
      , .DMA_CH_STS_FLAGS, .DMA_CH_RESIDUE_RESIDUE, .DMA_CH_ERR_OFF_OFFSET] fun s f => s.set f c 0)).dropChan c

/-- The channels that run a transfer in the name of a function. -/
def State.chansOf (s : State) (f : Nat) : List Nat := (s.chans.filter fun e => e.2.owner == f).map (·.1)

/-- Pieces of a group that will never be issued leave the count; with the last piece the whole access retires (R137,
R141). -/
def State.groupDrop (s : State) (n g : Nat) : State :=
  match s.groups.find? fun x => x.id == g with
  | none => s
  | some x =>
    if x.left ≤ n then { s with groups := s.groups.filter fun y => y.id != g }.retire x.req
    else { s with groups := mapIf (fun y => y.id == g) (fun y => { y with left := y.left - n }) s.groups }

/-- Reads of a channel that have not been issued are dropped; tags already issued are held (R275, R177). -/
def State.abandonReads (s : State) (c : Nat) : State :=
  let mine (r : Req) : Bool := r.who == .dma c && r.kind != .write
  let unsent := (s.pReads.filter fun p => mine p.req && p.tag.isNone).map (·.req)
  let gone := (s.bursts.filter mine) ++ (s.bskWait.filter mine) ++ (unsent.filter fun r => r.grp == 0)
    ++ ((s.hReads.filter fun h => mine h.req).map (·.req))
  (State.each { s with
            bursts := s.bursts.filter fun r => !mine r
            bskWait := s.bskWait.filter fun r => !mine r
            pReads := s.pReads.filter fun p => !(mine p.req && p.tag.isNone)
            bTags := mapIf (fun t => mine t.req && t.st == TagSt.issued) (fun t => { t with st := TagSt.held }) s.bTags
            hReads := s.hReads.filter fun h => !mine h.req } gone State.retire).each
    (unsent.filter fun r => r.grp != 0) fun s r => s.groupDrop 1 r.grp

/-- Hard abort of a channel with a cause (R275): issue stops, reads already issued are abandoned, writes run on. -/
def State.hardAbort (s : State) (c cause : Nat) : State :=
  match s.chan c with
  | none => s
  | some r =>
    if s.chState c = chHALTED then s
    else
      let r := { r with stop := .hard, cause := cause
                        beats := mapIf (fun b => b.st == .reading) (fun b => { b with st := .abandoned }) r.beats }
      ((s.setChan c r).set .DMA_CH_STS_STATE c chSTOPPING).abandonReads c

/-- Soft abort (R275): in RUN or WAIT_REQ with RESIDUE above 0; during the drain of a power-down it shares the handshake,
which both end together (R39). -/
def State.softAbort (s : State) (c : Nat) : State :=
  match s.chan c with
  | none => s
  | some r =>
    if (s.chState c = chRUN ∨ s.chState c = chWAIT ∨ (s.chState c = chDRAIN ∧ s.dmaDrain)) ∧ r.next < r.size then
      (s.setChan c { r with stop := .soft, cause := 0 }).set .DMA_CH_STS_STATE c chSTOPPING
    else s

/-- Bus Master Enable of the owner went from 1 to 0 (R277). -/
def State.masterOffChan (s : State) (c : Nat) : State :=
  match s.chan c with
  | none => s
  | some r =>
    if s.chState c = chRUN ∨ s.chState c = chWAIT ∨ s.chState c = chDRAIN then
      (s.setChan c { r with stop := .masterOff }).set .DMA_CH_STS_STATE c chSTOPPING
    else s

/-- A channel enters DRAIN (R260). -/
def State.drainChan (s : State) (c : Nat) : State :=
  match s.chan c with
  | none => s
  | some r =>
    if s.chState c = chRUN ∨ s.chState c = chWAIT then
      (s.setChan c { r with drainFrom := s.chState c }).set .DMA_CH_STS_STATE c chDRAIN
    else s

/-- A channel leaves DRAIN for the state before it. -/
def State.undrainChan (s : State) (c : Nat) : State :=
  match s.chan c with
  | none => s
  | some r => if s.chState c = chDRAIN then s.set .DMA_CH_STS_STATE c r.drainFrom else s

/-- The SQs of a function's contexts that are enabled become HALTED (R277, R278). -/
def State.haltRings (s : State) (f : Nat) : State :=
  s.each (s.ctxsOf f) fun s x => if s.flag .DMA_SQ_CFG_EN x then s.set .DMA_SQ_STS_STATE x 3 else s

/-! ### TDIs -/

/-- TDI states of R366. -/
def tdiUNLOCKED : Nat := 0
def tdiLOCKED : Nat := 1
def tdiRUN : Nat := 2
def tdiERROR : Nat := 3

/-- A TDI is in CONFIG_LOCKED or RUN. -/
def State.tdiHeld (s : State) (f : Nat) : Bool :=
  s.fld .SEC_TDI_STATE f == tdiLOCKED || s.fld .SEC_TDI_STATE f == tdiRUN

/-- A TDI in CONFIG_LOCKED or RUN enters ERROR with a cause (R368). -/
def State.tdiMark (s : State) (f cause : Nat) : State :=
  if s.tdiHeld f then
    ((s.set .SEC_TDI_STATE f tdiERROR).set .SEC_TDI_ERR_CAUSE f cause).evt 0x2073 .SEC_STS_TDI_ERR
  else s

/-! ### Function containment -/

/-- A function becomes CONTAINED for a cause (R489): its channels are hard-aborted, its SQs halted, its interrupts held;
FN_CONTAINED goes to its queue and a class 3 entry to the fault log. `e` carries what the entry says of a failing
write. -/
def State.fnContain (s : State) (f cause : Nat) (e : EvqEnt) : State :=
  if s.fnState f ≠ fnACTIVE then s
  else
    let s := (s.set .FN_STS_STATE f fnCONTAINED).set .FN_CONT_CAUSE f cause
    let s := { s.set .FN_CONT_REL_RESULT f 0 with mg.contAt := nSet s.mg.contAt f s.now }
    let s := s.tdiMark f 4
    let s := (s.each (s.chansOf f) fun s c => s.hardAbort c 3).haltRings f
    let s := s.evq { e with fn := f, typ := 0x0C, req := cause }
    let s := s.faultLog { cls := 3, unit := 2, code := cause, fn := some f }
    let s := if cause = 1 then s else s.aer f .internal
    (s.evt 0x20F2 .HST_CONT_STS_FN_CONT_SEEN).irqEval

/-- A TDI enters ERROR for a cause; its function is CONTAINED (R366, R368). -/
def State.tdiError (s : State) (f cause : Nat) : State :=
  if s.tdiHeld f then (s.tdiMark f cause).fnContain f 2 { fn := f, typ := 0x0C } else s

/-- The TDIs bound to a stream, or every TDI in CONFIG_LOCKED or RUN. -/
def State.heldTdis (s : State) : List Nat := (s.listed .SEC_TDI_STATE).filter s.tdiHeld

/-! ### Module containment -/

/-- Sends a Seam packet. -/
def State.seamSend (s : State) (k : SeamPkt) : State := s.urSend 16 (.seam k)

/-- A cause of R486: the module enters CONTAIN from LEAD or FOLLOW (R487); while contained, MORE is set and the cause is
logged. Errors in other modes do not lead to CONTAIN (R389). -/
def State.contain (s : State) (cause : Nat) : State :=
  if s.mode = .CONTAIN then
    (s.set .HST_CONT_STS_MORE 0 1).faultLog { cls := 5, unit := 1, code := cause }
  else if s.mode = .LEAD ∨ s.mode = .FOLLOW then
    let was := s.level 0x20F0
    let s := { s with mode := .CONTAIN, contLead := decide (s.mode = Mode.LEAD), prefetch := [] }
    let s := ((s.set .HST_CONT_STS_CONTAINED 0 1).set .HST_CONT_STS_CAUSE 0 cause).set .HST_CONT_TIME_TIME 0 s.now
    let s := s.each (s.chans.map (·.1)) State.drainChan
    let s := s.each s.heldTdis fun s f => s.tdiError f 5
    let s := s.faultLog { cls := 5, unit := 1, code := cause }
    let s := if s.flag .HST_LINK_STS_DL_UP then s.aer 0 .internal else s
    let s := if s.leads then s.seamSend (.pairCtl 1) else s
    (s.relevel 0x20F0 was).irqEval
  else s

end Sys2Proof.Machine
end

