-- ==== Sys2Proof/Machine/PhyOps.lean ====
section
/-!
DEFINITION. The physical layer of the host link (R47 to R61, R90): equalisation results and status, lane margining, the
CLKREQ# pin and leaving L1; the state of an IDE stream (R363, R365). The registers inside a PCI Express structure are laid
out as in PCI Express Base (PRESUMED, assumption 5).
-/
namespace Sys2Proof.Machine

/-- LTSSM states of HST_LINK_STS (R74). -/
def ltDETECT : Nat := 0
def ltL0 : Nat := 3
def ltRECOVERY : Nat := 4
def ltL1 : Nat := 5
def ltL2 : Nat := 8
def ltDISABLED : Nat := 9
def ltHOTRESET : Nat := 10

/-- LTSSM state. -/
def State.ltssm (s : State) : Nat := s.fld .HST_LINK_STS_LTSSM

/-! ### CLKREQ# and L1 (R56, R61) -/

/-- CLKREQ# is asserted or released. -/
def State.clkreq (s : State) (on : Bool) : State :=
  if s.hp.clkreqOn = on then s else { s with hp.clkreqOn := on }.send (.clkreq on)

/-- L1 is entered: PCI-PM L1 (`pm`) or ASPM L1. -/
def State.l1Enter (s : State) (pm : Bool) : State :=
  { s.set .HST_LINK_STS_LTSSM 0 ltL1 with hp.l1Pm := pm }

/-- PCI-PM L1 for a function in D3hot, from L0. -/
def State.pmL1 (s : State) : State := if s.linkOpen then (s.send (.msg .enterL1)).l1Enter true else s

/-- The link leaves L1 or a substate, whatever it goes to next: from L1.1 and L1.2 CLKREQ# is asserted in every mode. -/
def State.l1Leave (s : State) : State :=
  if ltL1 ≤ s.ltssm ∧ s.ltssm ≤ 7 then (s.clkreq (s.hp.clkreqOn || s.ltssm != ltL1)).send (.msg .exitL1) else s

/-! ### Equalisation (R49, R50, R90) -/

/-- The status of an equalisation: bit 0 complete, bits 1 to 3 the phases that succeeded, bit 4 another one asked for. -/
def eqStatus (e : EqRun) : Nat := bit e.complete + 2 * e.phases.val + 16 * bit e.request

/-- An equalisation has run: its status is shown, and its results are retained when it completed. -/
def State.eqTake (s : State) (e : EqRun) : State :=
  { s with hp.eqSts := nSet s.hp.eqSts e.rate (eqStatus e)
           hp.eqRes := if e.complete then smSet (fun _ => []) s.hp.eqRes e.rate e.results else s.hp.eqRes }

/-- The retained results are discarded, and the status with them. -/
def State.eqDrop (s : State) : State := { s with hp.eqRes := [], hp.eqSts := [] }

/-- The link has trained at a width: another one than before discards the results of every rate (R50). -/
def State.widthTrained (s : State) (w : Nat) : State :=
  let s := if s.hp.trained ≠ 0 ∧ s.hp.trained ≠ w then s.eqDrop else s
  { s with hp.trained := w }

/-- EQ128 (R90). -/
def State.eq128 (s : State) : Nat := nGet s.hp.eqSts 7
/-- The equalisation bits of Link Status 2 (bits 17 to 21) with the retimers found (22, 23). -/
def State.linkSts2 (s : State) : Nat :=
  nGet s.hp.eqSts 3 * 0x20000 + bit (s.hp.retimers != 0) * 0x400000 + bit (s.hp.retimers == 2) * 0x800000
/-- The 32.0 GT/s Status register: equalisation, how it was done, precoding. -/
def State.sts32 (s : State) : Nat :=
  nGet s.hp.eqSts 5 + 64 * s.hp.eqMode + 256 * bit s.hp.precode + 1024 * bit (s.hp.eqMode == 2)

/-! ### Lane margining (R51, R52) -/

/-- Margining of a lane. -/
def State.marg (s : State) (n : Nat) : Margin := smGet (fun _ => {}) s.hp.margin n
def State.setMarg (s : State) (n : Nat) (m : Margin) : State :=
  { s with hp.margin := smSet (fun _ => {}) s.hp.margin n m }

/-- Margining is ready: the link carries TLPs at 16 GT/s or more. -/
def State.margReady (s : State) : Bool := s.linkOpen && decide (4 ≤ s.fld .HST_LINK_STS_RATE)

/-- The link uses PAM4, where the parameters are per eye (R51). -/
def State.pam4 (s : State) : Bool := decide (6 ≤ s.fld .HST_LINK_STS_RATE)

/-- Timing and voltage steps of R51. -/
def State.margSteps (s : State) (voltage : Bool) : Nat := if voltage then 64 else if s.pam4 then 32 else 16

/-- What a report command answers with (R51): capabilities (voltage margining, independent up and down, independent left
and right, sample count, independent error sampler), number of voltage and of timing steps, maximum timing offset in percent
of UI, maximum voltage offset in percent of 1 V, all 16 lanes at once. Its sample count is none of R51's values. -/
def State.margReport (s : State) (p : Nat) : Option Nat :=
  match p with
  | 0x88 => some 0x17
  | 0x89 => some 64
  | 0x8A => some (s.margSteps false)
  | 0x8B => some (if s.pam4 then 40 else 50)
  | 0x8C => some (if s.pam4 then 30 else 50)
  | 0x90 => some 15
  | _ => none

/-- The status payload of the last command on a lane: a step answers how the independent sampler does, too many errors,
margining in progress, or a step beyond the steps of R51. -/
def State.margPayload (s : State) (n : Nat) : Nat :=
  let m := s.marg n
  let step (v : Bool) (k : Nat) : Nat :=
    (if s.margSteps v < k then 0xC0 else if m.limit ≤ m.errs then 0 else 0x80) + min 63 m.errs
  if m.typ = 3 then step false (m.payload % 64)
  else if m.typ = 4 then step true (m.payload % 128)
  else m.payload

/-- The margining control of a lane is written (R51): receiver number in bits 2 to 0 (0 all, 6 this endpoint), type in bits
5 to 3, usage in bit 6, payload in bits 15 to 8. A report the specification gives no value for is a free value. -/
def State.margWrite (s : State) (n v : Nat) : State :=
  let typ := bits v 5 3
  let p := bits v 15 8
  let m := s.marg n
  if !s.margReady || bits v 6 6 = 1 || !(v % 8 == 0 || v % 8 == 6) then s
  else if typ = 7 then s.setMarg n { m with typ := 7, payload := p }
  else if typ = 1 then
    match s.margReport p with
    | some a => s.setMarg n { m with typ := 1, payload := a }
    | none => let (a, t) := s.draw 8; t.setMarg n { m with typ := 1, payload := a }
  else if typ = 2 then
    if p = 0x0F then s.setMarg n { typ := 2, payload := p, limit := m.limit }
    else if p = 0x55 then s.setMarg n { m with typ := 2, payload := p, errs := 0 }
    else if 0xC0 ≤ p then s.setMarg n { m with typ := 2, payload := p, limit := p % 64 }
    else s
  else if typ = 3 ∨ typ = 4 then s.setMarg n { m with typ := typ, payload := p }
  else s

/-- Errors that the independent sampler of a lane has seen while it is at a step (R52). They count nowhere else. -/
def State.margErrs (s : State) (n e : Nat) : State :=
  let m := s.marg n
  if m.typ = 3 ∨ m.typ = 4 then s.setMarg n { m with errs := m.errs + e } else s

/-- The status half of a lane's margining register. -/
def State.margStatus (s : State) (n : Nat) : Nat := 6 + 8 * (s.marg n).typ + 256 * s.margPayload n

/-! ### The state of an IDE stream (R363, R365) -/

/-- The configuration offset of a stream's control register. -/
def ideCtl (stream : Nat) : Nat := if stream = 0 then 0x50C else 0x518 + 0x2C * (stream - 1)

/-- SEC_IDE_STS.EN and STREAM_ID, which follow the IDE capability. -/
def State.ideEn (s : State) (stream : Nat) : Bool := (s.cfgD 0 (ideCtl stream)).testBit 0
def State.ideId (s : State) (stream : Nat) : Nat := bits (s.cfgD 0 (ideCtl stream)) 31 24

/-- A stream becomes Insecure: the TDIs bound to it move to ERROR (R365, R366). -/
def State.ideInsecure (s : State) (stream : Nat) : State :=
  let s := s.set .SEC_IDE_STS_STATE stream 0
  let s := { s with sc.ideGo := smKeep (fun k => k / 6 != stream) s.sc.ideGo }
  if stream = 0 then s
  else s.each (s.heldTdis.filter fun f => s.fld .SEC_TDI_STREAM f == stream) fun s f => s.tdiError f 3

/-- A stream runs with a key set on every sub-stream and direction: it is Secure (R363, R365). -/
def State.ideSettle (s : State) (stream : Nat) : State :=
  if (List.range 6).all (fun k => nGet s.sc.ideGo (stream * 6 + k) != 0) ∧ s.ideEn stream then
    s.set .SEC_IDE_STS_STATE stream 2 else s

/-- The enable of a stream in effect: without it a Secure stream becomes Insecure. -/
def State.ideApply (s : State) (stream : Nat) : State :=
  if s.ideEn stream then s.ideSettle stream
  else if s.fld .SEC_IDE_STS_STATE stream = 2 then s.ideInsecure stream else s

/-- What the stored configuration of a function makes the link and the streams do when it takes effect in one step at the
end of rinse (R105, R109): PCI-PM L1 for D3hot, the enables of PF0's IDE streams. -/
def State.cfgApply (s : State) (f : Nat) : State :=
  let s := if s.cfgD f 0x044 % 4 = 3 then s.pmL1 else s
  if f = 0 then s.each (List.range 9) State.ideApply else s

end Sys2Proof.Machine
end

