-- ==== Sys2Proof/Machine/MemOps.lean ====
section
/-!
DEFINITION. The bridge address space (R31 to R33) and the two memories: reads with their error outcomes (R450), writes
and poison (R451), aliases (R442), atomics (R226), protected areas (R441, R446), access counts (R444).
-/
namespace Sys2Proof

/-- The master code of a requester (R444). -/
def Who.master : Who → Nat
  | .host _ => 0 | .port p => 1 + p | .dma c => 17 + c % 256 / 128 | .core c => 19 + min c 3 | .seam => 23

end Sys2Proof

namespace Sys2Proof.Machine

/-! ### Protected areas -/

/-- Some byte of an access lies in a range. -/
def touches (a len lo hi : Nat) : Bool := decide (a < hi) && decide (lo < a + len)

/-- DRS_SYS_BASE as an address. -/
def State.sysBase (s : State) : Nat := s.fld .DRS_SYS_BASE_BASE * 0x4000000
/-- The firmware area of the store (R446). -/
def fwAreaBase : Nat := 0x001FF2000000

/-- A write of this requester to the memory at a plain address is dropped: by R441 in the SRAM, by R446 and R119 in the
store. -/
def State.protSram (w : Who) (off len : Nat) : Bool :=
  touches off len 0 0x1000000 && (match w with | .core _ => false | _ => true)
def State.protStore (s : State) (w : Who) (a len : Nat) : Bool :=
  let shadow := s.fld .GRD_SHADOW_BASE_BASE * 0x10000
  let spill := s.fld .SHR_SPILL_BASE_BASE * 0x4000000
  let ovf := s.fld .LDG_OVF_BASE_BASE * 0x10000000
  (decide (s.sysBase < a + len) || touches a len s.tblBase (s.tblBase + 0x820000) || touches a len shadow (shadow + 4864)
    || touches a len spill (spill + 0x4000000) || touches a len ovf (ovf + 0x10000000)) &&
    (match w with
     | .core _ => s.mode != .BOOT && !(decide (fwAreaBase ≤ a) && decide (a + len ≤ 0x2000000000))
     | _ => true)

/-- A write dropped in the SRAM or the store is counted (R441, R446, R119). -/
def State.countProt (s : State) (w : Who) (sram : Bool) (a len : Nat) : State :=
  if sram then
    ((s.count .MEM_PROT_DROP_CNT).set .MEM_PROT_DROP_LAST_MST 0 w.master).memEvt .MEM_EVT_PROT_DROP
  else
    let s := ((s.count .DRS_PROT_DROP_CNT).set .DRS_PROT_DROP_LAST_MST 0 w.master).drsEvt .DRS_EVT_PROT_DROP
    if touches a len s.tblBase (s.tblBase + 0x820000) then s.count .XLT_PROT_DROP_PROT_DROP else s

/-! ### Reads (R450) -/

/-- A memory is the SRAM when the address is not in the store. -/
def inSram (a : Nat) : Bool := decide (0x2000000000 ≤ a)

/-- Captures a memory error while the capture is empty. Answers whether it was captured. -/
def State.memCapture (s : State) (a : Nat) (lasting : Bool) (mst : Nat) : Bool × State :=
  if inSram a then
    if s.flag .MEM_ERR_ADDR_VALID then (false, s)
    else (true, (((s.set .MEM_ERR_ADDR_ADDR 0 (granule a)).set .MEM_ERR_ADDR_LASTING 0 (bit lasting)).set
      .MEM_ERR_ADDR_MASTER 0 mst).set .MEM_ERR_ADDR_VALID 0 1)
  else
    if s.flag .DRS_ERR_ADDR_VALID then (false, s)
    else (true, ((((s.set .DRS_ERR_ADDR_ADDR 0 (granule a)).set .DRS_ERR_ADDR_LASTING 0 (bit lasting)).set
      .DRS_ERR_ADDR_MASTER 0 mst).set .DRS_ERR_ADDR_PACKAGE 0 (a / 4096 % 8)).set .DRS_ERR_ADDR_VALID 0 1)

/-- The fault log entry of a memory error (R484): class 1 for the first capture of a corrected error, 4 for a lasting
one. -/
def State.memLog (s : State) (cls a mst : Nat) : State :=
  s.faultLog { cls := cls, unit := if inSram a then 12 else 13, addr := some (granule a)
               info := (if inSram a then 0 else a / 4096 % 8) + 8 * mst }

/-- The bytes a granule is left with when its read is lasting uncorrectable: as read, which no rule fixes (free
values, assumption 6). -/
def State.scramble (s : State) (a : Nat) : State :=
  s.each (List.range 8) fun s i =>
    let (v, s) := s.draw 64
    s.st8 (granule a + 8 * i) v

/-- What a read of the granule of `a` finds, and what follows (R450). A lasting error in the firmware banks or in the
interrupt arrays is a cause of module containment (R486). -/
def State.memResolve (s : State) (a mst : Nat) (e : MemErr) : State :=
  match e with
  | .clean => s
  | .correctable =>
    let (c, s) := s.memCapture a false mst
    let s := if c then s.memLog 1 a mst else s
    if inSram a then (s.count .MEM_ERR_CNT_CE).memEvt .MEM_EVT_CE
    else { (s.count .DRS_ERR_CNT_CE).drsEvt .DRS_EVT_CE with ceWindow := s.ceWindow + 1 }
  | .transient => if inSram a then s.count .MEM_TRANS_CNT_TRANS else s.count .DRS_TRANS_CNT_TRANS
  | .lasting =>
    let s := (s.scramble a).setPoison a true
    let (_, s) := s.memCapture a true mst
    let s := s.memLog 4 a mst
    if inSram a then
      let s := (s.count .MEM_ERR_CNT_UE).memEvt .MEM_EVT_UE
      let off := a - sramBase
      if off < 0x1000000 ∨ (0x1E00000 ≤ off ∧ off < 0x1E10000) then s.contain 3 else s
    else (s.count .DRS_ERR_CNT_UE).drsEvt .DRS_EVT_UE

/-- The granules of an access, counted from the granule of its first byte. -/
def granCount (a len : Nat) : Nat := if len = 0 then 0 else (a % 64 + len + 63) / 64

/-- The poisoned granules of an access. -/
def State.poisOf (s : State) (a len : Nat) : List Nat :=
  (List.range (granCount a len)).filter fun i => s.isPoison (granule a + 64 * i)

/-- A read of the SRAM (plain address) or the store: the data, the poisoned granules, and the state after. A read of a
poisoned granule has status POISONED. -/
def State.memRead (s : State) (mst a len : Nat) (e : MemErr) : List Byte × List Nat × State :=
  let s := if inSram a then s.countBank mst (a - sramBase) len false else s
  let s := if s.isPoison a then s else s.memResolve a mst e
  (s.ldBytes a len, s.poisOf a len, s)

/-! ### Writes (R442, R451) -/

/-- Byte i of a write is enabled. -/
def beOn (be : List Bool) (i : Nat) : Bool := be.getD i (be == [])

/-- Every byte of the granule that starts at `g` is written. -/
def fullGranule (g a : Nat) (data : List Byte) (be : List Bool) : Bool :=
  decide (a ≤ g) && decide (g + 64 ≤ a + data.length) && (List.range 64).all fun i => beOn be (g - a + i)

/-- After a write, the mark of each granule it touches: a whole granule takes the write's, a part keeps the mark and
gains the write's. -/
def State.markWrite (s : State) (a : Nat) (data : List Byte) (be : List Bool) (pois : List Nat) : State :=
  s.each (List.range (granCount a data.length)) fun s i =>
    let g := granule a + 64 * i
    if fullGranule g a data be then s.setPoison g (pois.contains i)
    else if pois.contains i then s.setPoison g true else s

/-- Stores the enabled bytes of a write; `f` combines the byte in memory with the written one. -/
def State.stMasked (s : State) (f : Byte → Byte → Byte) (a : Nat) : List Byte → List Bool → State
  | [], _ => s
  | b :: t, [] => (s.st a (f (s.ld a) b)).stMasked f (a + 1) t []
  | b :: t, e :: u => (if e then s.st a (f (s.ld a) b) else s).stMasked f (a + 1) t (if u = [] then [false] else u)

/-- The bytes of the PENDING, ENABLE and PRIORITY arrays (R288). -/
def inArrays (a len : Nat) : Bool := touches a len pendBase (pendBase + 0x5000)

/-- What a write changes in the ENABLE and PRIORITY arrays is mirrored, by 8-byte words (R396). -/
def State.arrayMirror (s : State) (a len : Nat) : State :=
  let w := (List.range ((a % 8 + len + 7) / 8)).map (a / 8 * 8 + 8 * ·)
  s.each (w.filter fun w => enBase ≤ w && w < prioBase + 0x4000) fun s w => s.mirReg w 8 (s.ld8 w)

/-- The granules of a write that are written in part and carry no mark: each is read and written back (R449, R451). -/
def State.partGranules (s : State) (a : Nat) (data : List Byte) (be : List Bool) : List Nat :=
  ((List.range (granCount a data.length)).map (granule a + 64 * ·)).filter fun g => !fullGranule g a data be && !s.isPoison g

/-- What the read of a read-modify-write finds in the first granule written in part (R450, R451). -/
def State.rmwRead (s : State) (mst a : Nat) (data : List Byte) (be : List Bool) (e : MemErr) : State :=
  match s.partGranules a data be with
  | g :: _ => s.memResolve g mst e
  | [] => s

/-- A plain write of the SRAM or the store, after every check; `e` is what a read-modify-write finds. The controller
observes writes to its arrays (R292). -/
def State.memWrite (s : State) (mst a : Nat) (data : List Byte) (be : List Bool) (pois : List Nat) (e : MemErr) : State :=
  let s := if inSram a then s.countBank mst (a - sramBase) data.length false else s
  let s := s.rmwRead mst a data be e
  let s := (s.stMasked (fun _ n => n) a data be).markWrite a data be pois
  if inArrays a data.length then (s.arrayMirror a data.length).irqEval else s

/-- After a write through an alias, which merges with what is there, a granule keeps its mark and gains the write's. -/
def State.markAlias (s : State) (a : Nat) (data : List Byte) (pois : List Nat) : State :=
  s.each ((List.range (granCount a data.length)).filter pois.contains) fun s i => s.setPoison (granule a + 64 * i) true

/-- A write through the bit-set (1) or bit-clear (2) view, at the plain address: a read-modify-write of each granule
(R442). -/
def State.aliasWrite (s : State) (mst viaAlias a : Nat) (data : List Byte) (be : List Bool) (pois : List Nat) (e : MemErr) :
    State :=
  let s := s.countBank mst (a - sramBase) data.length true
  let s := if s.isPoison a then s else s.memResolve a mst e
  let s := (s.stMasked (fun o n => if viaAlias = 1 then o ||| n else o &&& ~~~n) a data be).markAlias a data pois
  if inArrays a data.length then (s.arrayMirror a data.length).irqEval else s

/-! ### Atomics -/

/-- The new value of an atomic on operands of `n` bytes (R226): FetchAdd adds, Swap replaces, CAS replaces when the
first operand equals the old value. -/
def atomResult (op : AtomOp) (n : Nat) (old opd : List Byte) : List Byte :=
  match op with
  | .fetchAdd => toBytes n (ofBytes old + ofBytes (opd.take n))
  | .swap => opd.take n
  | .cas => if old = opd.take n then (opd.drop n).take n else old

end Sys2Proof.Machine
end

