-- ==== Sys2Proof/Machine/XltOps.lean ====
section
/-!
DEFINITION. The translate-and-check stage (R25): window table entries (R120), the window cache (R124), lookup and
translation (R114 to R131), the guard check (R341 to R349), stamping (R30), and how a failed request ends (R37, R129,
R350).
-/
namespace Sys2Proof.Machine

/-! ### Lookup (R124, R125) -/

/-- Applies a window and counts a straddle. -/
def State.useWin (s : State) (r : Req) (idx off : Nat) (w : List Nat) : (Nat ⊕ Req) × State :=
  let (st, x) := s.applyWin r idx off w
  (x, if st then s.count .XLT_STRADDLE_CNT_STRADDLE else s)

/-- The outcome of a lookup. -/
inductive Look where
  | ok (r : Req)
  | fault (cause : Nat)
  | miss (tbl : Nat)
  deriving DecidableEq, Repr

/-- The cached copy that serves a lookup (R124). -/
def State.cacheHit (s : State) : Route → Option CacheEnt
  | .window tbl a => s.cache.find? fun c => tableOf c.idx == tbl && wCovers c.words a
  | .slot k _ => s.cache.find? fun c => c.idx == 0x40000 + k
  | _ => none

/-- A cache entry becomes the most recently used. -/
def State.touchCache (s : State) (c : CacheEnt) : State := { s with cache := c :: s.cache.filter fun d => d.idx != c.idx }

/-- Looks a route up (R124, R125, R143): a hit is counted and applied, a miss names its table. With CACHE_EN 0 every
window lookup walks. DESIGN CHOICE (assumption 72): a local access that runs past the end of a fixed system window is no
straddling access of R130, which speaks of windows of the table. -/
def State.lookup (s : State) (r : Req) (rt : Route) : Look × State :=
  match rt with
  | .fault c => (.fault c, s)
  | .direct r => (.ok r, if r.fixed = 0 then s else s.count .XLT_HIT_CNT_HIT)
  | _ =>
    let tbl := match rt with | .window t _ => t | .slot k _ => 4096 + k / 256 | _ => 0
    match (if s.flag .XLT_CFG_CACHE_EN then s.cacheHit rt else none) with
    | none => (.miss tbl, s)
    | some c =>
      let s := (s.touchCache c).count .XLT_HIT_CNT_HIT
      if (match rt with | .slot _ off => !slotOk c.words off | _ => false) then (.fault 2, s)
      else
        match s.useWin r c.idx (winOff c.words rt) c.words with
        | (.inl cause, s) => (.fault cause, s)
        | (.inr q, s) => (.ok q, s)

/-! ### Installing and dropping copies -/

/-- Pinned copies (R124, XLT_PIN_CNT). -/
def State.pinned (s : State) : Nat := (s.cache.filter (·.pin)).length

/-- Drops the least recently used unpinned copy. -/
def dropLru (l : List CacheEnt) : List CacheEnt :=
  match l.reverse.find? fun c => !c.pin with
  | some c => l.filter fun d => d.idx != c.idx
  | none => l

/-- Installs a copy; the cache holds 16,384 (R124). -/
def State.install (s : State) (idx : Nat) (w : List Nat) : State :=
  let rest := s.cache.filter fun d => d.idx != idx
  { s with cache := ⟨idx, w, atPin (wAttr w)⟩ :: (if rest.length < 16384 then rest else dropLru rest) }

/-- Drops the copies whose index satisfies `p`. -/
def State.uncache (s : State) (p : Nat → Bool) : State := { s with cache := s.cache.filter fun c => !p c.idx }

/-- Discards the prefetched lines that satisfy `p` (R134). -/
def State.dropLines (s : State) (p : PrefLine → Bool) : State := { s with prefetch := s.prefetch.filter fun l => !p l }

/-! ### Stamps (R30, R140) -/

/-- Stamps a request with the current epochs and counts it as live until it retires. -/
def State.stamp (s : State) (r : Req) : Req × State :=
  let x := s.fld .XLT_EPOCH_CURRENT
  let g := s.fld .GRD_EPOCH_CURRENT
  if r.stamped then (r, s)
  else ({ r with xe := x, ge := g, gv := s.grdVer, stamped := true },
   { s with xltLive := nSet s.xltLive x (nGet s.xltLive x + 1), grdLive := nSet s.grdLive g (nGet s.grdLive g + 1) })

/-! ### The guard (R341 to R349) -/

/-- The set of a requester (R341). -/
def guardSet : Who → Nat
  | .host _ => 0 | .port p => p + 1 | .dma _ => 17 | .core _ => 18 | .seam => 18

/-- Region word i of set n. -/
def State.grdWord (s : State) (n i : Nat) : Nat := s.fld .GRD_REGION_WORD (32 * n + i)
/-- First address and size of a region word (R343). -/
def gBase (w : Nat) : Nat := bits w 47 12 * 4096
def gSize (w : Nat) : Nat := 2 ^ bits w 7 2
/-- A valid region holds an address. -/
def gHolds (w a : Nat) : Bool := w.testBit 0 && decide (gBase w ≤ a) && decide (a < gBase w + gSize w)

/-- Region word i of set n as it was when `gv` guard commits had been made (R30). -/
def State.grdWordAt (s : State) (gv n i : Nat) : Nat :=
  match s.grdOld.find? fun e => decide (gv ≤ e.1) && e.2.1 == 32 * n + i with
  | some e => e.2.2
  | none => s.grdWord n i

/-- The deciding region of a set: the lowest-numbered valid one that holds the key (R344), by the regions in force at
stamping (R30). -/
def State.grdMatch (s : State) (gv n key : Nat) : Option Nat :=
  (List.range 32).find? fun i => gHolds (s.grdWordAt gv n i) key

/-- The permissions a request needs: read, write, execute (R344). -/
def needs (r : Req) : Bool × Bool × Bool :=
  match r.kind with
  | .read => (!r.exec, false, r.exec)
  | .write => (false, true, false)
  | .atomic _ => (true, true, false)
  | .lock => (true, true, false)
  | .unlock => (true, true, false)

/-- The permissions given cover those needed. -/
def covers (n g : Bool × Bool × Bool) : Bool := (!n.1 || g.1) && (!n.2.1 || g.2.1) && (!n.2.2 || g.2.2)

/-- The permissions of a region word at a privilege level. -/
def gPerm (w : Nat) (priv : Bool) : Bool × Bool × Bool :=
  if priv then (w.testBit 48, w.testBit 49, w.testBit 50) else (w.testBit 51, w.testBit 52, w.testBit 53)

/-- The implicit system region of a fixed window (R346). -/
def implicitPerm (fixed : Nat) (priv : Bool) : Bool × Bool × Bool :=
  if fixed = 1 ∨ fixed = 4 then (true, true, false)
  else if fixed = 2 then (priv, priv, false)
  else (false, true, false)

/-- The default map (R347). -/
def defaultPerm : Region → Bool × Bool × Bool
  | .store => (true, true, true) | .sram _ _ => (true, true, true) | .regs _ _ => (true, true, false)
  | .port _ _ => (true, true, true) | .host => (true, true, false) | .unmapped => (false, false, false)

/-- A requester class may reach a region (R36). Views and fixed windows reach register blocks and mailboxes by their
own rules. -/
def classMay (r : Req) (g : Region) : Bool :=
  match r.who with
  | .host _ => (match g with | .host => false | .regs _ _ => r.view != 0 | _ => !r.toHost)
  | .port p => (match g with
    | .regs b o => b == 0 && decide (0x10000 ≤ o) && decide (o < 0x10008) | .port q _ => q != p | _ => true)
  | .dma _ => (match g with | .regs b o => b == 0 && decide (0x10000 ≤ o) && decide (o < 0x10008) | _ => true)
  | _ => true

/-- A failed guard check: the cause of GRD_FAULT_INFO and the deciding region. -/
structure GFail where
  cause : Nat
  region : Option Nat
  deriving DecidableEq, Repr

/-- The decision of the guard on a translated request (R344 to R349); none when it may proceed. -/
def State.guardFail (s : State) (r : Req) : Option GFail :=
  let n := guardSet r.who
  if r.fixed = 5 then
    let need := needs r
    let ok := if r.priv then covers need (s.flag .GRD_SET_CFG_HOST_PR n, s.flag .GRD_SET_CFG_HOST_PW n, false)
      else covers need (s.flag .GRD_SET_CFG_HOST_UR n, s.flag .GRD_SET_CFG_HOST_UW n, false)
    if ok then none else some ⟨6, none⟩
  else
    match r.key with
    | none => if covers (needs r) (implicitPerm r.fixed r.priv) then none else some ⟨2, none⟩
    | some key =>
      let g := if r.toHost then Region.host else regionOf key
      let last := key + r.len - 1
      let span := s.flag .GRD_SET_CFG_SPAN_FAULT n && decide (0 < r.len)
      if r.fixed = 0 && !classMay r g then some ⟨3, none⟩
      else
        match s.grdMatch r.gv n key with
        | some i =>
          if !covers (needs r) (gPerm (s.grdWordAt r.gv n i) r.priv) then some ⟨2, some i⟩
          else if span && !gHolds (s.grdWordAt r.gv n i) last then some ⟨4, some i⟩ else none
        | none =>
          let decided (p : Bool × Bool × Bool) : Option GFail :=
            if !covers (needs r) p then some ⟨2, none⟩
            else if span && (s.grdMatch r.gv n last).isSome then some ⟨4, none⟩ else none
          if r.fixed ≠ 0 then decided (implicitPerm r.fixed r.priv)
          else if !r.priv || !s.flag .GRD_SET_CFG_DEF_EN n then some ⟨1, none⟩
          else decided (defaultPerm g)

/-! ### How a failed request ends -/

/-- Captures a translation fault (R129). -/
def State.xltCapture (s : State) (r : Req) (cause : Nat) : State :=
  if s.flag .XLT_FAULT_INFO_VALID then s
  else (((((s.set .XLT_FAULT_ADDR_ADDR 0 r.addr).set .XLT_FAULT_INFO_CAUSE 0 cause).set .XLT_FAULT_INFO_CLASS 0
    r.who.cls).set .XLT_FAULT_INFO_REQ 0 r.who.index).set .XLT_FAULT_INFO_WRITE 0 (bit (r.kind != .read))).set
    .XLT_FAULT_INFO_VALID 0 1

/-- A host posted write that is dropped is reported as WRITE_DROPPED (R481). -/
def State.writeDropped (s : State) (r : Req) (status cause : Nat) : State :=
  s.evq { fn := r.fn, typ := 0x0F, status := status, window := r.win, slice := r.slice, offset := r.addr
          len := r.len, req := cause, epoch := r.xe }

/-- An access ends without being performed, with a status (R37, R92, R129): `cause` is the event queue's. -/
def State.endAccess (s : State) (r : Req) (status cause : Nat) : State :=
  match r.who with
  | .host _ =>
    if r.kind = .write then s.writeDropped r status cause
    else s.hostTx (.cpl r.fn r.tag 1 [] false r.stream)
  | .core c => s.send (.busErr c)
  | .seam => if r.fixed = 6 then s.deliveryFail r.tag r.dst status
    else s.faultLog { cls := 4, unit := 3, code := cause, addr := some r.addr, req := r.who.req }
  | _ => s.answer r status []

/-- A translation fault (R129): captured and ended; causes WRITE_DISABLED and ATOMIC give ACCESS_DENIED to local
initiators and DMA channels. -/
def State.xltFault (s : State) (r : Req) (cause : Nat) : State :=
  (s.xltCapture r cause).endAccess r (if cause = 3 ∨ cause = 4 then 4 else 3) cause

/-- An access to an unmapped BAS address (R37). -/
def State.unmapped (s : State) (r : Req) : State := s.endAccess r 3 9

/-- Captures a failed guard check (R351). -/
def State.grdCapture (s : State) (r : Req) (g : GFail) : State :=
  let s := s.count .GRD_FAULT_CNT_FAULTS
  if s.flag .GRD_FAULT_INFO_VALID then s
  else
    let s := s.set .GRD_FAULT_ADDR_ADDR 0 (r.key.getD r.dst)
    let s := ((s.set .GRD_FAULT_INFO_CAUSE 0 g.cause).set .GRD_FAULT_INFO_CLASS 0 r.who.cls).set
      .GRD_FAULT_INFO_REQ 0 r.who.index
    let s := ((s.set .GRD_FAULT_INFO_WRITE 0 (bit (r.kind != .read))).set .GRD_FAULT_INFO_EXEC 0 (bit r.exec)).set
      .GRD_FAULT_INFO_PRIV 0 (bit r.priv)
    let s := ((s.set .GRD_FAULT_INFO_SET 0 (guardSet r.who)).set .GRD_FAULT_INFO_REGION 0 (g.region.getD 0)).set
      .GRD_FAULT_INFO_REGION_HIT 0 (bit g.region.isSome)
    s.evt 0x2070 .GRD_FAULT_INFO_VALID

/-- A dropped host write is noticed in the function's queue (R350, R481). -/
def State.guardNotice (s : State) (r : Req) (cause : Nat) : State :=
  (s.count .GRD_NOTICE_CNT_NOTICES).evq
    { fn := r.fn, typ := 7, status := 4, window := r.win, slice := r.slice, offset := r.addr, len := r.len
      req := cause + 16 * guardSet r.who, epoch := r.ge }

/-- A debug access is refused (R358): its read returns zeros. -/
def State.dbgRefuse (s : State) (a : Nat) (write : Bool) (len : Nat) : State :=
  let s := (s.set .DBG_STS_DBG_FAULT 0 1).count .DBG_STS_FAULT_CNT
  let s := (s.set .DBG_FAULT_ADDR_ADDR 0 a).set .DBG_FAULT_ADDR_WRITE 0 (bit write)
  if write then s else s.send (.jtagData (List.replicate len 0))

/-- A failed guard check performs no byte; the requester learns of it as R350 sets out. -/
def State.guardFault (s : State) (r : Req) (g : GFail) : State :=
  let s := s.grdCapture r g
  if r.who = .core jtag then s.dbgRefuse r.addr (r.kind == .write) r.len else
  match r.who with
  | .host _ =>
    if r.kind = .write then s.guardNotice r g.cause
    else s.hostTx (.cpl r.fn r.tag 1 [] false r.stream)
  | .core c =>
    if r.kind = .write then (s.count .GRD_NOTICE_CNT_NOTICES).evt 0x2071 .GRD_STS_NOTICE else s.send (.busErr c)
  | .seam => s.faultLog { cls := 4, unit := 4, code := g.cause, addr := r.key, req := r.who.req }
  | _ => s.answer r 4 []

end Sys2Proof.Machine
end

