-- ==== Sys2Proof/Machine/MbxOps.lean ====
section
/-!
DEFINITION. The mailbox control unit (R409 to R417): ownership, the control word, posting, release, cancel, claim and
completion, and what an access to the mailbox area does.
-/
namespace Sys2Proof.Machine

/-- Number of mailboxes and the plain address of mailbox m (R409). -/
def mbxCount : Nat := 2109
def mbxAddr (m : Nat) : Nat := sramBase + 0x1400000 + 0x1000 * m

/-- The mailbox and the offset in its page of a plain SRAM address, when it lies in the mailbox area. -/
def mbxAt (a : Nat) : Option (Nat × Nat) :=
  if mbxAddr 0 ≤ a ∧ a < mbxAddr mbxCount then some ((a - mbxAddr 0) / 0x1000, a % 0x1000) else none

/-- The owner of a mailbox (R409): management, a function by FN_ index, or a local port. -/
inductive MbxOwner where
  | mgmt
  | fn (f : Nat)
  | port (p : Nat)
  deriving DecidableEq, Repr

/-- The owner by mailbox index. -/
def mbxOwner (m : Nat) : MbxOwner :=
  if m = 0 then .mgmt else if m < 17 then .fn 0 else if m < 29 then .fn ((m - 17) / 4 + 1)
  else if m < 61 then .port ((m - 29) / 2) else .fn (4 + (m - 61))

/-- The mailboxes of a function. -/
def mbxsOf (f : Nat) : List Nat :=
  if f = 0 then (List.range 16).map (1 + ·) else if f < 4 then (List.range 4).map (17 + 4 * (f - 1) + ·)
  else [61 + (f - 4)]

/-- A request reaches a mailbox by its owner's route: through the fixed system window of R409. -/
def mbxByOwner (r : Req) (m : Nat) : Bool :=
  match mbxOwner m, r.who with
  | .fn f, .host g => f == g && (r.fixed == 1 || r.fixed == 2)
  | .port p, .port q => p == q && r.fixed == 4
  | _, _ => false

/-- Fields of the control word (R410). -/
def State.mbxState (s : State) (m : Nat) : Nat := s.fld .MBX_MB_CONTROL m % 4
def State.mbxGen (s : State) (m : Nat) : Nat := bits (s.fld .MBX_MB_CONTROL m) 10 3
def State.mbxNotify (s : State) (m : Nat) : Bool := (s.fld .MBX_MB_CONTROL m).testBit 11
def State.mbxCancelReq (s : State) (m : Nat) : Bool := (s.fld .MBX_MB_CONTROL m).testBit 2
/-- A control word from its fields. -/
def mbxWord (st : Nat) (cancel : Bool) (gen : Nat) (notify : Bool) : Nat :=
  st + 4 * bit cancel + 8 * (gen % 256) + 2048 * bit notify

/-- The completion source of a mailbox, for PF0 and the ports (R415). -/
def mbxSource (m : Nat) : Option Nat :=
  if 1 ≤ m ∧ m < 17 then some (0x2091 + (m - 1)) else if 29 ≤ m ∧ m < 61 then some (0x20A1 + (m - 29)) else none

/-- A change of the mailbox unit, with the sources it drives. -/
def State.mbxChange (s : State) (m : Nat) (g : State → State) : State :=
  s.withLevels (0x2090 :: (mbxSource m).toList) g

/-- A refused access to a control word or to MBX_DONE is counted (R410, R438). -/
def State.mbxErr (s : State) (m : Nat) : State := (s.count .MBX_ACT_ERR_CNT).set .MBX_ACT_ERR_LAST 0 m

/-- The completion signal of a mailbox of a data PF or a VF: a MAILBOX_DONE entry, only while its queue is enabled
(R415). -/
def State.mbxSignalFn (s : State) (m : Nat) : State :=
  match mbxOwner m with
  | .fn f =>
    if f ≠ 0 ∧ s.mbxNotify m ∧ s.flag .FN_EVQ_CFG_EN f ∧ s.fnState f ≠ fnRINSE ∧ s.fnState f ≠ fnHIDDEN then
      let a := mbxAddr m
      s.evq { fn := f, typ := 0x0B, seq := m, status := (s.ld (a + 0x14)).toNat, offset := s.ld4 (a + 0x10)
              len := ofBytes (s.ldBytes (a + 0x18) 2), req := ofBytes (s.ldBytes (a + 8) 2) }
    else s
  | _ => s

/-- ACT POST (R412). -/
def State.mbxPost (s : State) (m : Nat) : State :=
  if (s.mbxState m = 0 ∨ s.mbxState m = 3) ∧ s.flag .MBX_CFG_EN then
    let notify := (s.ld (mbxAddr m + 0x0A)).toNat.testBit 0
    s.mbxChange m fun s =>
      let s := (s.st8 (mbxAddr m + 0x20) s.now).countBank 25 (mbxAddr m + 0x20 - sramBase) 8 false
      let s := s.set .MBX_MB_CONTROL m (mbxWord 1 false (s.mbxGen m + 1) notify)
      { s.count .MBX_POST_CNT_POSTS with mbxQueue := s.mbxQueue ++ [m] }
  else s.mbxErr m

/-- ACT RELEASE (R412). -/
def State.mbxRelease (s : State) (m : Nat) : State :=
  if s.mbxState m = 3 then
    s.mbxChange m fun s => s.set .MBX_MB_CONTROL m (mbxWord 0 false (s.mbxGen m) (s.mbxNotify m))
  else s.mbxErr m

/-- Firmware copies the MCTP request that waited longest into mailbox 0 and posts it (R434). -/
def State.mctpPost (s : State) : State :=
  match s.mg.mctpHeld with
  | [] => s
  | q :: t =>
    let b := mbxAddr 0
    let s := { s with mg.mctpHeld := t, mg.mctpNow := some q }
    let s := s.stBytes (b + 8) (toBytes 2 q.opcode ++ [0, 0] ++ toBytes 2 q.payload.length ++ toBytes 2 q.abi ++ toBytes 4 q.tag)
    (s.stBytes (b + 0x40) q.payload).mbxPost 0

/-- The response of mailbox 0 goes back with the TAG of its request, on the binding it came from; the next request is
posted (R434). -/
def State.mctpAnswer (s : State) : State :=
  match s.mg.mctpNow with
  | none => s
  | some q =>
    let b := mbxAddr 0
    let len := ofBytes (s.ldBytes (b + 0x18) 2)
    let hw (o : Nat) : Nat := ofBytes (s.ldBytes (b + o) 2)
    State.mctpPost ({ s with mg.mctpNow := none }.send (.mctp q.binding 0x7E
      [q.opcode, 0x8000, len, hw 0x14, q.tag, hw 0x16, q.abi] (s.ldBytes (b + 0x40) len)))

/-- A mailbox becomes DONE and its completion is signalled; that of the management mailbox is the MCTP response (R415). -/
def State.mbxFinish (s : State) (m : Nat) : State :=
  let go (t : State) : State := if m = 0 then t.mctpAnswer else t
  go <|
  (State.mbxChange { s with mg.cmdRun := nSet s.mg.cmdRun m 0 } m fun s =>
    s.set .MBX_MB_CONTROL m (mbxWord 3 false (s.mbxGen m) (s.mbxNotify m))).mbxSignalFn m

/-- ACT CANCEL (R412, R417): a POSTED mailbox ends CANCELLED, a BUSY one keeps the request. -/
def State.mbxCancel (s : State) (m : Nat) : State :=
  if s.mbxState m = 1 then
    let s := s.mbxChange m fun s => { s with mbxQueue := s.mbxQueue.erase m }
    let s := (s.stBytes (mbxAddr m + 0x14) (toBytes 2 0x0C)).stBytes (mbxAddr m + 0x18) [0, 0]
    let s := (s.countBank 25 (mbxAddr m + 0x14 - sramBase) 2 false).countBank 25 (mbxAddr m + 0x18 - sramBase) 2 false
    s.mbxFinish m
  else if s.mbxState m = 2 then s.set .MBX_MB_CONTROL m (mbxWord 2 true (s.mbxGen m) (s.mbxNotify m))
  else s.mbxErr m

/-- A write of ACT to a control word (R410): only the owner's route acts. -/
def State.mbxAct (s : State) (m act : Nat) (owner : Bool) : State :=
  if act = 0 then s
  else if !owner then s.mbxErr m
  else if act = 1 then s.mbxPost m else if act = 2 then s.mbxRelease m else if act = 3 then s.mbxCancel m
  else s.mbxErr m

/-- A core's claim of the oldest POSTED mailbox (R414): the value MBX_CLAIM returns, and the state after. -/
def State.mbxClaim (s : State) (c : Nat) : Nat × State :=
  match s.mbxQueue with
  | [] => (0x80000000, s)
  | m :: t =>
    (m, (s.mbxChange m fun s => { s with mbxQueue := t }.set .MBX_MB_CONTROL m
      (mbxWord 2 false (s.mbxGen m) (s.mbxNotify m))).set .MBX_MB_CORE m c)

/-- Firmware's write of MBX_DONE (R412). -/
def State.mbxDone (s : State) (m : Nat) : State :=
  if m < mbxCount ∧ s.mbxState m = 2 then s.mbxFinish m else s.mbxErr m

/-- A mailbox back at its reset state: IDLE, GEN 0, contents 0 (R416). -/
def State.mbxReset (s : State) (m : Nat) : State :=
  let s := s.mbxChange m fun s => { s with mbxQueue := s.mbxQueue.erase m }.set .MBX_MB_CONTROL m 0
  { s with mg.cmdRun := nSet s.mg.cmdRun m 0
           mem := smKeep (fun a => !(decide (mbxAddr m ≤ a) && decide (a < mbxAddr m + 0x1000))) s.mem
           poison := smKeep (fun a => !(decide (mbxAddr m ≤ a) && decide (a < mbxAddr m + 0x1000))) s.poison }

/-- Rinse entry takes a POSTED mailbox of the function from the queue without a signal (R416). DEDUCED
(assumption 15): its STATE reads IDLE from then on. -/
def State.mbxRinse (s : State) (f : Nat) : State :=
  s.each (mbxsOf f) fun s m =>
    if s.mbxState m = 1 then
      s.mbxChange m fun s => { s with mbxQueue := s.mbxQueue.erase m }.set .MBX_MB_CONTROL m
        (mbxWord 0 false (s.mbxGen m) false)
    else s

/-- A read of part of a mailbox page at a plain address: the control unit serves bytes 0 to 7 (R410), the SRAM the
rest. -/
def State.mbxRead (s : State) (mst m off len : Nat) (e : MemErr) : List Byte × List Nat × State :=
  if off < 8 then
    if (len = 4 ∨ len = 8) ∧ off % len = 0 then
      (toBytes len (s.fld .MBX_MB_CONTROL m / 256 ^ off), [], s)
    else (List.replicate len 0, [], s.mbxErr m)
  else s.memRead mst (mbxAddr m + off) len e

/-- A write of part of a mailbox page at a plain address (R410, R413). -/
def State.mbxWrite (s : State) (r : Req) (m off : Nat) : State :=
  let own := mbxByOwner r m
  if off < 8 then
    if (r.len = 4 ∨ r.len = 8) ∧ off % r.len = 0 ∧ (List.range r.len).all fun i => beOn r.be i then
      if off = 4 then s else s.mbxAct m (ofBytes r.data % 16) own
    else s.mbxErr m
  else if own && s.flag .MBX_CFG_WR_GUARD && (s.mbxState m == 1 || s.mbxState m == 2) then
    (s.count .MBX_WR_DROP_CNT).set .MBX_WR_DROP_LAST 0 m
  else s.memWrite r.who.master (mbxAddr m + off) r.data r.be r.pois r.err

end Sys2Proof.Machine
end

