-- ==== Sys2Proof/Machine/BridgeOps.lean ====
section
/-!
DEFINITION. Bridging (R144 to R182): the write ledger with its failures, retries and late errors, reads of local ports,
split accesses, prefetch lines, poison on the wire, held host reads, reads and atomics of the host and their completions,
the Starch locks.
-/
namespace Sys2Proof

/-- The initiator code of a requester (R153). -/
def Who.init : Who → Nat
  | .host _ => 0 | .port p => p + 1 | .dma _ => 17 | .core _ => 18 | .seam => 18

/-- The requester whose prefetched lines serve a request (R133): the port, or the function, in whose name a DMA channel
reads through BAR2 (R254). -/
def Req.lineWho (r : Req) : Who := match r.who with | .dma _ => .host r.fn | w => w

end Sys2Proof

namespace Sys2Proof.Machine

/-! ### Cutting data -/

/-- Pieces of a byte range at multiples of `w`: offset and length of each; `n` bounds the number of pieces. -/
def cutAt (w a : Nat) : Nat → Nat → Nat → List (Nat × Nat)
  | 0, _, _ => []
  | n + 1, off, len =>
    if len = 0 then []
    else
      let l := min len (w - (a + off) % w)
      (off, l) :: cutAt w a n (off + l) (len - l)

/-- A range cut at granule boundaries. -/
def granules (a len : Nat) : List (Nat × Nat) := cutAt 64 a (len / 64 + 2) 0 len

/-- Marked granules of an access at `a`, restricted to a part of it and counted from the part's first granule. -/
def poisPart (a : Nat) (pois : List Nat) (off len : Nat) : List Nat :=
  let g := (a % 64 + off) / 64
  (pois.filter fun i => g ≤ i && i < g + granCount (a + off) len).map (· - g)

/-- Marked granules of a part, counted from the whole access's first granule. -/
def poisWhole (a : Nat) (pois : List Nat) (off : Nat) : List Nat := pois.map (· + (a % 64 + off) / 64)

/-- Data for PCI Express: one piece, or granule by granule when some granule is poisoned (R170), each with its EP. -/
def epPieces (a : Nat) (data : List Byte) (pois : List Nat) : List (Nat × List Byte × Bool) :=
  if pois = [] then [(0, data, false)]
  else (granules a data.length).map fun p =>
    (p.1, (data.drop p.1).take p.2, pois.contains ((a % 64 + p.1) / 64))

/-- The runs of enabled bytes of a write: offset and data of each. -/
def beRuns (be : List Bool) : Nat → List Byte → List (Nat × List Byte)
  | _, [] => []
  | i, b :: t =>
    let rest := beRuns be (i + 1) t
    if beOn be i then
      match rest with
      | (o, d) :: r => if o = i + 1 then (i, b :: d) :: r else (i, [b]) :: rest
      | [] => [(i, [b])]
    else rest

/-! ### Ordering (R146 to R149) -/

/-- A write of the store, the SRAM or a register block, and a later access of the same requester that shares a byte with
it, which observes it (R152), or rings IRQ_DOORBELL, which waits for it (R286). -/
def inPlaceFirst (w q : Req) : Bool :=
  let q8 := doorbellAddr ≤ q.dst && q.dst < doorbellAddr + 8
  w.who == q.who && !w.toHost && w.key.isSome && !q.toHost && q.key.isSome && (portOf w.dst).isNone
    && ((q.kind == .write && q8) || (decide (w.dst < q.dst + q.len) && decide (q.dst < w.dst + w.data.length)))

/-- Two translated requests of which the second may not pass the first (R29): in one stream (R147, R150, R152), the
writes of one DMA channel (R258), or by `inPlaceFirst`. -/
def mayNotPass (w q : Req) : Bool :=
  w.kind == .write && (inPlaceFirst w q ||
    (match w.who, q.who with
     | .host _, .host _ => !w.toHost && !q.toHost && (portOf w.dst).isSome && (portOf q.dst).isSome && domOf w == domOf q
     | .port a, .port b => a == b &&
        (if w.toHost then q.toHost && !(q.kind == .write && q.ro)
         else !q.toHost && q.kind == .write && (portOf w.dst).isSome && portOf w.dst == portOf q.dst)
     | .dma a, .dma b => a == b && q.kind == .write
     | _, _ => false))

/-- Host posted writes to ports that have not retired. -/
def State.hostWrites (s : State) : List Req :=
  let w (r : Req) : Bool := r.who.isHost && r.kind == .write && !r.toHost && (portOf r.dst).isSome
  (s.waitingReqs.filterMap fun r => if r.who.isHost && r.kind == .write then s.peek r else none).filter w
    ++ s.lockWait.filter w ++ (s.ldgWait.map (·.req)).filter w ++ (s.ledger.map (·.req)).filter w

/-- A host read or atomic must wait at the ledger (R148). -/
def State.heldByWrites (s : State) (r : Req) : Bool :=
  s.hostWrites.any fun w => domOf w == domOf r && decide (w.ord < r.ord)

/-- Completions for a read of port `p` that took order number `ord` must wait (R148, R149). -/
def State.cplHeldBy (s : State) (p ord : Nat) (ro : Bool) : Bool :=
  !ro && s.hostWrites.any fun w =>
    decide (w.ord < ord) && (s.flag .LDG_CFG_CPL_ORDER || portOf w.dst == some p)

/-! ### Answers in parts -/

/-- Sends part of a read's data to a local initiator: the bytes at `off`; the last packet carries the final status
(R230). `ord` is the order number of the completion, for data of the host. -/
def respPkt (r : Req) (off : Nat) (data : List Byte) (pois : List Nat) (last : Option Nat) : UrPkt :=
  let here := poisPart r.addr pois off data.length
  match last with
  | some st => .response r.tag (if st = 0 ∧ pois ≠ [] then 5 else st) off true data (maskOf here) (respBase r)
  | none => .response r.tag 0 off false data (maskOf here) (respBase r)

/-- A RESPONSE leaves for the port that asked, and its last packet frees the tag. -/
def State.respond (s : State) (r : Req) (k : UrPkt) : State :=
  match r.who with
  | .port p =>
    let l := s.port p
    if r.stream ≠ l.gen then s
    else
      let l := match k with
        | .response _ _ _ true _ _ _ => { l with dreq := l.dreq.erase r.tag }
        | _ => l
      (s.setPort p l).urSend p k
  | _ => s

/-- Completions to the host for data that came from a port, in the order of the port's traffic (R150, R151). -/
def State.cplVia (s : State) (p : Nat) (r : Req) (st : Nat) (data : List Byte) (ep : Bool) : State :=
  s.jSendTlp (p + 1) (.cpl r.fn r.tag st data ep r.stream)

/-- Read Completion Boundary of the host in bytes: Link Control of PF0. -/
def State.rcb (s : State) : Nat := if (s.cfgD 0 0x080).testBit 3 then 128 else 64

/-! ### Failures of host requests -/

/-- The event queue entry of a failed access. -/
def failEnt (r : Req) (typ p seq st : Nat) (strict retried pois : Bool) : EvqEnt :=
  { fn := r.fn, typ := typ, flags := bit strict + 2 * bit retried + 4 * bit pois, seq := seq, port := p, status := st
    window := r.win, slice := r.slice, offset := r.addr, len := r.len, epoch := r.xe }

/-- Steps 2 and 3 of R164: AER and, on a STRICT window, containment of the function. -/
def State.strictFail (s : State) (r : Req) (p seq st : Nat) : State :=
  let s := s.aer r.fn .internal
  if atStrict r.attr then
    let late := s.ldgWait.filter fun w => w.req.grp != 0 && w.req.grp == r.grp
    let s := { s with ldgWait := s.ldgWait.filter fun w => !(w.req.grp != 0 && w.req.grp == r.grp) }
    let s := s.groupDrop late.length r.grp
    s.fnContain r.fn 1 (failEnt r 0x0C p seq st false false false)
  else s

/-! ### Groups of pieces (R137) -/

/-- The group with a number. -/
def State.group (s : State) (g : Nat) : Option Group := s.groups.find? fun x => x.id == g

/-- Answers a whole read: completions or a response with all data, or its failure. -/
def State.finishRead (s : State) (p : Nat) (r : Req) (st : Nat) (data : List Byte) (pois : List Nat) : State :=
  match r.who with
  | .host _ =>
    let s := if cplStatus st = 0 then
        s.each (epPieces r.addr data pois) fun s c => s.cplVia p r 0 c.2.1 c.2.2
      else s.cplVia p r (cplStatus st) [] false
    s.retire r
  | .port _ => (s.respond r (respPkt r 0 data pois (some st))).retire r
  | _ => s.finish r (if st = 0 ∧ pois ≠ [] then 5 else st) data pois

/-- One piece of a group has ended; with the last one the whole access ends. -/
def State.groupPiece (s : State) (p : Nat) (r : Req) (st : Nat) (data : List Byte) (pois : List Nat) (ret : Bool := false) :
    State :=
  match s.group r.grp with
  | none => s
  | some g =>
    let off := r.addr - g.req.addr
    let bad := !(st == 0 || st == 5 || st == 6)
    let fail := if !bad then g.fail else
      match g.fail with
      | some (o, x) => if o < off then some (o, x) else some (off, st)
      | none => some (off, st)
    let g := { g with failRet := if fail = g.fail then g.failRet else ret }
    let g := { g with left := g.left - 1, parts := smIns (smErase g.parts off) off data
                      pois := g.pois ++ poisWhole g.req.addr pois off, fail := fail }
    if g.left ≠ 0 then { s with groups := mapIf (fun x => x.id == r.grp) (fun _ => g) s.groups }
    else
      let s := { s with groups := s.groups.filter fun x => x.id != r.grp }
      let all := g.parts.flatMap (·.2)
      match g.req.kind, g.fail with
      | .write, none => if g.req.who.isHost then s.retire g.req else s.finish g.req 0 []
      | .write, some (_, x) => if g.req.who.isHost then s.retire g.req else s.finish g.req x []
      | _, none => s.finishRead p g.req (if g.pois = [] then 0 else 5) all g.pois
      | _, some (_, x) =>
        let s := if g.req.who.isHost then s.evq (failEnt g.req 3 p 0 x (atStrict g.req.attr) g.failRet false) else s
        s.finishRead p g.req x [] []

/-! ### Starch (R171 to R174) -/

/-- The granule key of a translated access. -/
def granKey (r : Req) : Nat × Nat := (granule r.dst, if r.toHost then r.hfn + 1 else 0)
/-- The granule is locked against this access: accesses of the port that holds an explicit lock go on (DEDUCED,
assumption 16). -/
def State.lockedFor (s : State) (r : Req) : Bool :=
  s.locks.any fun l => l.gran == (granKey r).1 && l.hfn == (granKey r).2 &&
    (match l.expl, r.who with
     | some p, .port q => p != q
     | _, _ => true)

/-- A read or a write that is due to go on waits for a lock (R172); an atomic holds its own. -/
def State.lockHolds (s : State) (r : Req) : Bool := (r.kind == .read || r.kind == .write) && s.lockedFor r

/-- A request may not pass one that waits for a locked granule. -/
def State.lockBehind (s : State) (r : Req) : Bool := s.lockWait.any fun w => mayNotPass w r
/-- Takes a lock. -/
def State.takeLock (s : State) (k : Nat × Nat) (expl : Option Nat) : State :=
  { s with locks := s.locks ++ [⟨k.1, k.2, expl, 0⟩] }
/-- Explicit locks a port holds. -/
def State.explLocks (s : State) (p : Nat) : Nat := (s.locks.filter fun l => l.expl == some p).length
/-- Releases the lock of an atomic; an explicit lock stays. -/
def State.dropLock (s : State) (k : Nat × Nat) : State :=
  { s with locks := s.locks.filter fun l => !(l.gran == k.1 && l.hfn == k.2 && l.expl == none) }

/-! ### The ledger -/

/-- Entries of a stream: a pair of initiator and port. -/
def State.stream (s : State) (p i : Nat) : List LEnt := s.ledger.filter fun e => e.port == p && e.init == i

/-- LDG_CFG.PAIR_MAX in effect. -/
def State.pairMax (s : State) : Nat :=
  let n := s.fld .LDG_CFG_PAIR_MAX
  if n = 0 ∨ 2048 < n then 2048 else n

/-- Entry capacity, and data units for host entries (R155). -/
def State.ldgCap (s : State) : Nat := 8192 + if s.flag .LDG_CFG_OVF_EN then 131072 else 0
def State.ldgUnits (s : State) : Nat := 8192 + if s.flag .LDG_CFG_OVF_EN then 516096 else 0
/-- An entry, and for the host a data unit, is free. -/
def State.ldgFree (s : State) (i : Nat) : Bool :=
  decide (s.ledger.length < s.ldgCap)
    && (i != 0 || decide ((s.ledger.filter fun e => e.init == 0).length < s.ldgUnits))

/-- LDG_SEQ.NEXT of a pair; the register's index is 32 × port + initiator. -/
def State.seqNext (s : State) (p i : Nat) : Nat := s.fld .LDG_SEQ_NEXT (32 * p + i)
/-- LDG_SEQ.OLDEST: the SEQ of the oldest open entry, NEXT when none is open. -/
def State.seqOldest (s : State) (p i : Nat) : Nat :=
  match s.stream p i with
  | [] => s.seqNext p i
  | e :: _ => e.seq

/-- The words of an entry (R156). -/
def LEnt.words (e : LEnt) : List Nat :=
  let host := e.init == 0
  let st := match e.st with | .opened => 0 | .issued => 1 | .retry => 2 | .answered => 3
  [ e.seq + e.port * 2 ^ 16 + e.init * 2 ^ 20 + st * 2 ^ 25 + bit host * 2 ^ 28 + bit (atStrict e.req.attr) * 2 ^ 29
      + bit (e.req.pois != []) * 2 ^ 30 + bit e.retried * 2 ^ 31 + (if host then e.req.fn else 0) * 2 ^ 32
      + (e.req.slice.getD 0) * 2 ^ 44 + bit e.req.slice.isSome * 2 ^ 52 + bit e.mirrored * 2 ^ 53
      + bit (e.req.grp != 0) * 2 ^ 54 + bit (atOrdWin e.req.attr) * 2 ^ 55 + e.req.win * 2 ^ 56,
    laddrOf e.req.dst + (e.req.len - 1) % 4096 * 2 ^ 40 + e.status * 2 ^ 52 + bit e.abandoned * 2 ^ 56,
    e.req.addr,
    e.req.xe + e.req.ge * 2 ^ 16 + e.ref * 2 ^ 32 ]

/-- The lowest number that a list of numbers in use lacks. -/
def firstFree (used : List Nat) : Nat := ((List.range (used.length + 1)).find? fun n => !used.contains n).getD 0

/-- The BAS address of an entry, and of a data unit, in the overflow area (R155). -/
def State.ovfBase (s : State) : Nat := s.fld .LDG_OVF_BASE_BASE * 0x10000000
def State.ovfEnt (s : State) (e : LEnt) : Nat := s.ovfBase + 32 * (e.slot - 8192)
def State.ovfUnit (s : State) (e : LEnt) : Nat := s.ovfBase + 0x400000 + 512 * (e.ref - 8192)

/-- The words of an entry that lies in the overflow area are written there. -/
def State.ovfPut (s : State) (e : LEnt) : State :=
  if e.slot < 8192 then s else s.stBytes (s.ovfEnt e) (e.words.flatMap (toBytes 8))

/-- An entry opens in its place: beyond the die its words, and beyond the die's units its data, go to the store. -/
def State.ovfOpen (s : State) (e : LEnt) : State :=
  let s := s.ovfPut e
  if e.init = 0 ∧ 8192 ≤ e.ref then s.stBytes (s.ovfUnit e) e.req.data else s

/-- A read of the entry or of its data from the overflow area returns bad data (R155, R183). -/
def State.ovfBad (s : State) (e : LEnt) : Bool :=
  (decide (8192 ≤ e.slot) && s.isPoison (s.ovfEnt e))
    || (e.init == 0 && decide (8192 ≤ e.ref)
        && (List.range ((e.req.data.length + 63) / 64)).any fun i => s.isPoison (s.ovfUnit e + 64 * i))

/-- Replaces an entry by its key. -/
def State.setEnt (s : State) (e : LEnt) : State :=
  { s with ledger := mapIf (fun x => x.port == e.port && x.init == e.init && x.seq == e.seq) (fun _ => e) s.ledger }.ovfPut e

/-- INFO of a fault log entry of the ledger (R484). -/
def ldgInfo (p init seq : Nat) : Nat := seq + 65536 * p + 1048576 * init

/-- The fault log entry of an error of an abandoned entry (R106, R480, R484). -/
def State.abandonedErr (s : State) (p init seq st : Nat) (r : Req) : State :=
  s.faultLog { cls := 4, unit := 5, code := st, fn := some r.fn, addr := some r.dst, req := r.who.req
               info := ldgInfo p init seq }

/-- A late-error notice for a retired host write (R166): WRITE_LATE_ERROR and steps 2 to 4 of R164; of an abandoned one
the fault log alone learns (R106). -/
def State.lateError (s : State) (h : Hist) (st : Nat) : State :=
  if h.abandoned then s.abandonedErr h.port 0 h.seq st h.req
  else
    let r := h.req
    let s := s.evq (failEnt r 2 h.port h.seq st (atStrict r.attr) h.retried (r.pois != []))
    (s.strictFail r h.port h.seq st).count .LDG_ERR_CNT_ERR

/-- A late-error notice that matches nothing (R166). -/
def State.lateMiss (s : State) (p init seq st : Nat) : State :=
  (s.count .LDG_NOTICE_MISS_MISS).faultLog
    { cls := 4, unit := 5, code := st, info := ldgInfo p init seq }

/-- What the history keeps of an entry. -/
def LEnt.hist (e : LEnt) : Hist :=
  { port := e.port, seq := e.seq, req := e.req, status := e.status, retried := e.retried, abandoned := e.abandoned }

/-- A retired entry of a host is kept in the history of its port: the last 1,024. -/
def State.histAdd (s : State) (e : LEnt) : State :=
  if e.init = 0 then
    let mine := s.hist.filter fun h => h.port == e.port
    { s with hist := (if mine.length < 1024 then s.hist
              else match mine with | h :: _ => s.hist.erase h | [] => s.hist) ++ [e.hist] }
  else s

/-- Late notices that came before the entry retired are settled. -/
def State.lateSettle (s : State) (e : LEnt) : State :=
  let held := s.late.filter fun l => l.port == e.port && l.init == e.init && l.seq == e.seq
  let s := { s with late := s.late.filter fun l => !(l.port == e.port && l.init == e.init && l.seq == e.seq) }
  s.each held fun s l =>
    if e.init = 0 then s.lateError e.hist l.status else s.lateMiss e.port e.init e.seq l.status

/-- The answer of a retired entry reaches its requester: an atomic's old value, a piece of a group, or the status. -/
def State.entReply (s : State) (e : LEnt) : State :=
  match e.atom with
  | some old =>
    let ok := e.status == 0 || e.status == 6
    let s := if !ok && e.req.who.isHost then s.evq (failEnt e.req 3 e.port 0 e.status (atStrict e.req.attr) e.retried false)
      else s
    (if ok then s.finishRead e.port e.req 0 old [] else s.finishRead e.port e.req e.status [] []).dropLock (granKey e.req)
  | none =>
    if e.req.grp ≠ 0 then s.groupPiece e.port e.req e.status [] [] e.retried
    else match e.req.who with
      | .host _ => s.retire e.req
      | .port _ => s.retire e.req
      | _ => s.finish e.req e.status []

/-- An ANSWERED entry retires (R157): LEDGER_RETIRE in a pair, the history for host entries, notices held for it, the
rest of an emulated atomic, the piece of a split write, the answer to a DMA channel or a core. -/
def State.retireEnt (s : State) (e : LEnt) : State :=
  let same (x : LEnt) : Bool := x.port == e.port && x.init == e.init && x.seq == e.seq
  let s := { s with ledger := s.ledger.filter fun x => !same x }
  let s := s.mirror 2 (e.seq + e.port * 2 ^ 16 + e.init * 2 ^ 20 + e.status * 2 ^ 25) []
  ((s.histAdd e).lateSettle e).entReply e

/-- An ANSWERED entry retires at once when nothing of the mirror is awaited (R40, R397). -/
def State.tryRetire (s : State) (e : LEnt) : State :=
  if e.mirrored || !e.recd || !s.mirrors then s.retireEnt e else s

/-- The failure of an entry is handled (R164, R165, R106). -/
def State.ledgerFail (s : State) (e : LEnt) (st : Nat) : State :=
  if e.init = 0 then
    if e.abandoned then s.abandonedErr e.port e.init e.seq st e.req
    else
      let s := s.evq (failEnt e.req 1 e.port e.seq st (atStrict e.req.attr) e.retried (e.req.pois != []))
      (s.strictFail e.req e.port e.seq st).count .LDG_ERR_CNT_ERR
  else
    let s := s.count .LDG_ERR_CNT_ERR
    if e.req.fixed = 6 then s.deliveryFail e.req.tag e.req.dst st else s

/-- An entry is ANSWERED with a status (R157): counted, its failure handled, a local initiator answered; it retires when
the mirror allows. -/
def State.ledgerAnswer (s : State) (e : LEnt) (st : Nat) : State :=
  let ok := st == 0 || st == 6
  let e := { e with st := .answered, status := st, tag := none }
  let s := s.setEnt e
  let s := if e.abandoned then (s.count .FN_RINSE_LATE_LATE e.req.fn).count .LDG_LATE_CNT_LATE else s
  let s := if ok then (if e.retried then s.count .LDG_RETRY_CNT_RETRY else s) else s.ledgerFail e st
  let s := match e.req.who with
    | .port _ => if e.atom.isNone && e.req.grp == 0 then s.answer e.req st [] else s
    | _ => s
  s.tryRetire e

/-- A response to an issued entry (R157, R158). -/
def State.ledgerResponse (s : State) (e : LEnt) (st : Nat) : State :=
  if st = 7 then s.setEnt { e with st := .retry, status := st }
  else if st = 1 ∧ !e.retried then s.setEnt { e with st := .retry, status := st, retried := true }
  else s.ledgerAnswer e st

/-! ### Reads and atomics of a local port -/

/-- Replaces the read with a tag on a port. -/
def State.setPRead (s : State) (r : PRead) : State :=
  { s with pReads := mapIf (fun x => x.port == r.port && x.tag == r.tag) (fun _ => r) s.pReads }
/-- Removes it. -/
def State.dropPRead (s : State) (r : PRead) : State := { s with pReads := s.pReads.erase r }

/-- The requested bytes of a read that may leave now: all of them at the end, else up to the last boundary. -/
def State.readReady (s : State) (r : PRead) (final : Bool) : Nat :=
  let got := min r.got.length r.req.len
  if final then got
  else
    let b := if r.req.who.isHost then s.rcb else 64
    max r.sent ((r.req.addr + got) / b * b - r.req.addr)

/-- Cut-through (R167, R230): sends the data of a read that has become ready. Reads of a group, of a DMA channel and of
a core wait for their end. -/
def State.readForward (s : State) (r : PRead) : State :=
  if r.req.grp ≠ 0 ∨ r.emul ∨ r.req.kind ≠ .read then s.setPRead r
  else
    let n := s.readReady r false
    if n ≤ r.sent ∨ r.req.len ≤ n then s.setPRead r
    else
      let d := (r.got.drop r.sent).take (n - r.sent)
      let here := poisPart r.req.addr r.pois r.sent d.length
      match r.req.who with
      | .host _ =>
        (s.each (epPieces (r.req.addr + r.sent) d here) fun s c => s.cplVia r.port r.req 0 c.2.1 c.2.2).setPRead
          { r with sent := n }
      | .port _ => (s.respond r.req (respPkt r.req r.sent d r.pois none)).setPRead { r with sent := n }
      | _ => s.setPRead r

/-- Keeps the extended part of a read as prefetch lines (R132): 512 lines, the oldest replaced. A line that an error cut
short is not kept (R134). -/
def State.fillLines (s : State) (r : PRead) (whole : Bool) : State :=
  let extra := r.got.drop r.req.len
  let a := r.req.addr + r.req.len
  let mk (c : Nat × Nat) : PrefLine :=
    { who := r.req.lineWho, slice := r.req.slice, idx := r.req.idx, port := r.port, dom := domOf r.req, addr := a + c.1
      dst := r.req.dst + r.req.len + c.1, data := (extra.drop c.1).take c.2, born := s.tick }
  let good (c : Nat × Nat) : Bool := poisPart r.req.addr r.pois (r.req.len + c.1) c.2 == []
    && (whole || (a + c.1 + c.2) % 128 == 0)
  let lines := ((cutAt 128 a (extra.length / 128 + 2) 0 extra.length).filter good).map mk
  let all := lines.reverse ++ s.prefetch.filter fun l => !(lines.any fun n => n.who == l.who && n.slice == l.slice
    && n.idx == l.idx && n.addr == l.addr)
  { s with prefetch := all.take 512 }

/-- The write of an emulated atomic waits for its ledger entry (R173). The result carries the poison of the operand and
of what was read (R170). -/
def State.emulWrite (s : State) (r : Req) (old : List Byte) (pois : List Nat) : State :=
  match r.kind with
  | .atomic op =>
    let w := { r with data := atomResult op r.len old r.data, pois := (r.pois ++ pois).eraseDups }
    { s with ldgWait := s.ldgWait ++ [⟨(portOf r.dst).getD 0, r.who.init, w, some old⟩] }
  | _ => s

/-- A read or atomic of a port has its final status (R160, R167, R168). An error in the extended part of a read alone is
none (R134). `final` tells an ending after which the read is not sent again: its port is DOWN (R245). -/
def State.portReadEnd (s : State) (r : PRead) (st : Nat) (final : Bool := false) : State :=
  let req := r.req
  let isRead := req.kind == .read || r.emul
  let ok := st == 0 || st == 5 || (req.kind == .read && decide (req.ext ≠ 0) && decide (req.len ≤ r.got.length))
  if !ok && isRead && r.sent == 0 && !r.retried && !final then
    { s with pReads := { r with tag := none, retried := true, got := [], pois := [] } :: s.pReads.erase r }
  else
    let s := s.dropPRead r
    let s := if ok then (if r.retried then s.count .LDG_RETRY_CNT_RETRY else s) else s.count .LDG_ERR_CNT_ERR
    if r.emul then
      if ok then s.emulWrite req (r.got.take req.len) r.pois
      else
        let s := if req.who.isHost then s.evq (failEnt req 3 r.port 0 st (atStrict req.attr) r.retried false) else s
        (s.finishRead r.port req st [] []).dropLock (granKey req)
    else if req.kind ≠ .read then (s.finishRead r.port req st (r.got.take req.len) r.pois).dropLock (granKey req)
    else if ok then
      let s := if req.ext = 0 then s else s.fillLines r (st == 0 || st == 5)
      let data := (r.got.take req.len).drop r.sent
      let pois := poisPart req.addr r.pois 0 req.len
      if req.grp ≠ 0 then s.groupPiece r.port req 0 data pois
      else match req.who with
        | .host _ =>
          (s.each (epPieces (req.addr + r.sent) data (poisPart req.addr pois r.sent data.length)) fun s c =>
            s.cplVia r.port req 0 c.2.1 c.2.2).retire req
        | .port _ => (s.respond req (respPkt req r.sent data pois (some 0))).retire req
        | _ => s.finish req (if pois = [] then 0 else 5) data pois
    else if req.grp ≠ 0 then s.groupPiece r.port req st [] [] r.retried
    else match req.who with
      | .host _ =>
        let s := s.evq (failEnt req 3 r.port 0 st (atStrict req.attr) r.retried (r.sent != 0))
        if r.sent = 0 then (s.cplVia r.port req (cplStatus st) [] false).retire req
        else
          let left := (r.got.take req.len).drop r.sent
          (s.cplVia r.port req 0 (left ++ List.replicate (req.len - r.sent - left.length) 0) true).retire req
      | .port _ => (s.respond req (respPkt req r.sent [] [] (some st))).retire req
      | _ => s.finish req st []

/-- Bytes of the port's response buffer that reads hold (R176): 64 KiB. -/
def State.respUsed (s : State) (p : Nat) : Nat :=
  ((s.pReads.filter fun r => r.port == p && r.tag.isSome).map fun r => r.req.len + r.req.ext).sum

/-- The port performs atomics natively (R226). -/
def State.nativeAtomics (s : State) (p : Nat) : Bool :=
  s.flag .ULK_FAR_ATOMIC p && !s.flag .ULK_CTL_ATOM_EMUL p

/-- The tags the bridge holds on a port (R227). -/
def State.tagsOn (s : State) (p : Nat) : List Nat :=
  (s.ledger.filter fun e => e.port == p).filterMap (·.tag) ++ (s.pReads.filter fun r => r.port == p).filterMap (·.tag)
    ++ (s.port p).heldTags ++ (s.port p).deadTags

/-- A tag may be given to a request on a port. -/
def State.tagFree (s : State) (p tag : Nat) : Bool := decide (tag < 4096) && !(s.tagsOn p).contains tag

/-- A request on VC0 of a port can leave at once: it starts the moment it is issued. -/
def State.canIssue (s : State) (p : Nat) (k : UrPkt) : Bool :=
  s.canSend p k && !((s.port p).txq.any fun q => q.vc == k.vc) && s.mode != .CONTAIN

/-! ### To the host -/

/-- The function of a host-bound request may issue it (R111, R123). -/
def State.hostMay (s : State) (f : Nat) (slice : Option Nat) : Bool :=
  s.fnState f == fnACTIVE && s.bme f && (match slice with | some i => s.sliceActive i | none => true)

/-- Completion store units of a read (R176): every 128-byte unit its host address range touches. -/
def unitsOf (a len : Nat) : Nat := if len = 0 then 0 else (a % 128 + len + 127) / 128

/-- Units in use. -/
def State.unitsUsed (s : State) : Nat := (s.hReads.map (·.units)).sum

/-- The highest free tag of the pools a function may use (R175): C, then B, then A. -/
def State.pickTag (s : State) (f : Nat) : Option Nat :=
  let free (lo n : Nat) : Option Nat :=
    ((List.range n).reverse.map (lo + ·)).find? fun t => !(s.bTags.any fun b => b.tag == t)
  let c := if s.tag14 f then free 0x400 0xC00 else none
  let b := if s.tag14 f || s.tag10 f then free 0x100 0x300 else none
  c.or (b.or (free 0 0x100))

/-- BSK_CFG.FN_MAX in effect, and the tags a function holds. -/
def State.fnTagMax (s : State) : Nat :=
  let n := s.fld .BSK_CFG_FN_MAX
  if n = 0 ∨ 4096 < n then 4096 else n
def State.fnTags (s : State) (f : Nat) : Nat := (s.bTags.filter fun b => b.fn == f).length

/-- A write of data to the host for a translated request: cut at granules that carry poison (R170), at Max_Payload_Size
and at 4 KiB. -/
def State.hostWrite (s : State) (r : Req) (port : Nat) : State :=
  let parts := (epPieces r.dst r.data r.pois).flatMap fun c =>
    (cutAt 512 (r.dst + c.1) (c.2.1.length / 512 + 2) 0 c.2.1.length).map fun q =>
      (c.1 + q.1, (c.2.1.drop q.1).take q.2, c.2.2)
  let n := parts.length
  s.each (parts.zipIdx) fun s c =>
    s.jSend { fn := r.hfn, slice := r.hslice, addr := r.dst + c.1.1, data := c.1.2.1, ep := c.1.2.2, ro := r.ro
              ns := r.attr.testBit 11, req := some r, last := c.2 + 1 == n, port := port }

/-- The lock that an atomic took goes with it (R171). -/
def State.freeLock (s : State) (r : Req) : State := match r.kind with | .atomic _ => s.dropLock (granKey r) | _ => s

/-- A host-bound read or atomic ends for its requester before its data came (R111, R169). -/
def State.hostReadFail (s : State) (r : Req) (st : Nat) : State :=
  match r.who with
  | .port _ => (s.respond r (respPkt r 0 [] [] (some st))).retire r
  | _ => s.finish r st []

end Sys2Proof.Machine
end

