-- ==== Sys2Proof/Machine/BskOps.lean ====
section
/-!
DEFINITION. The Basket (R41, R169, R175 to R179): how host-bound reads wait and are issued, how completions reach their
requesters, how they end, and how tags become HELD (R107).
-/
namespace Sys2Proof.Machine

/-- Completion store units in use: by reads in progress and by data that waits under R148. -/
def State.cplUnits (s : State) : Nat := s.unitsUsed + (s.cplHeld.map (·.units)).sum

/-- A host-bound read or atomic reaches the Basket (R41). A read that finds no space for itself, or waits behind one,
is counted. -/
def State.bskQueue (s : State) (r : Req) : State :=
  let want := ((s.bskWait ++ [r]).map fun q => unitsOf q.dst q.len).sum
  let s := if 8192 < s.cplUnits + want then s.count .BSK_WAIT_CNT_WAIT else s
  { s with bskWait := s.bskWait ++ [{ r with born := s.tick }] }

/-- The pieces a host-bound read is cut into: at multiples of Max_Read_Request_Size (R176); an atomic is one. -/
def State.hostPieces (s : State) (r : Req) : List (Nat × Nat) :=
  if r.kind = .read then cutAt (s.mrrs r.hfn) r.dst (r.len / s.mrrs r.hfn + 2) 0 r.len else [(0, r.len)]

/-- The read does not pass writes of its port that came before it and wait at J1 (R151). -/
def State.behindWrites (s : State) (r : Req) : Bool :=
  match r.who with
  | .port p => s.jq.any fun w => w.tlp == none && w.port == p + 1 && decide (w.jn < r.ord)
  | _ => false

/-- Sends the request of a tag. -/
def State.sendHostReq (s : State) (r : Req) (tag off len : Nat) : State :=
  let attrs := bit r.ro + 2 * bit (r.attr.testBit 11)
  match r.kind with
  | .atomic op =>
    s.hostTx (.hostAtomic tag r.hfn r.hslice r.dst op r.data attrs (s.txStream r.hfn r.dst))
  | _ => s.hostTx (.mrd tag r.hfn r.hslice (r.dst + off) len attrs (s.txStream r.hfn (r.dst + off)))

/-- A function may be given another tag (R175). -/
def State.tagRoom (s : State) (f : Nat) : Bool := decide (s.fnTags f < s.fnTagMax) && (s.pickTag f).isSome

/-- Replaces a host-bound read. -/
def State.setHRead (s : State) (h : HRead) : State :=
  { s with hReads := mapIf (fun x => x.rid == h.rid) (fun _ => h) s.hReads }

/-- Issues the pieces of a read in order, as many as its function has tags for; the others stay to be issued. -/
def State.issuePieces (s : State) (h : HRead) : List (Nat × Nat) → State
  | [] => s.setHRead { h with todo := [] }
  | c :: t =>
    match (if s.fnTags h.req.hfn < s.fnTagMax then s.pickTag h.req.hfn else none) with
    | none => s.setHRead { h with todo := c :: t }
    | some tag =>
      ({ s with bTags := s.bTags ++ [BTag.mk tag .issued h.req.hfn h.rid c.1 c.2 0 h.req] }.sendHostReq h.req tag c.1
        c.2).issuePieces h t

/-- A waiting read takes its completion store space whole and its first tags (R41, R175). -/
def State.bskTake (s : State) (r : Req) : State :=
  let h := HRead.mk s.nextRid r [] [] 0 none (unitsOf r.dst r.len) (s.hostPieces r)
  { s with bskWait := s.bskWait.erase r, nextRid := s.nextRid + 1, hReads := s.hReads ++ [h] }.issuePieces h h.todo

/-- Hands a RESPONSE of host data to its port, or holds it (R148). -/
def State.hostResp (s : State) (r : Req) (k : UrPkt) (units : Nat) : State :=
  match r.who with
  | .port p =>
    if s.cplHeldBy p s.ordNext r.ro || s.cplHeld.any (fun h => h.req == r) then
      { s with cplHeld := s.cplHeld ++ [⟨p, s.ordNext, r, k, units⟩] }
    else
      let s := s.respond r k
      match k with
      | .response _ _ _ true _ _ _ => s.retire r
      | _ => s
  | _ => s

/-- The bytes of a read that have arrived without a gap. -/
def HRead.front (h : HRead) : List Byte :=
  (h.parts.foldl (fun (a : List Byte) p => if p.1 = a.length then a ++ p.2 else a) [])

/-- After a completion: data without a gap goes on to a local initiator, and with its last tag the read ends (R169,
R230). -/
def State.hostProgress (s : State) (h : HRead) : State :=
  let busy := h.todo != [] || s.bTags.any fun b => b.rid == h.rid && b.st == .issued
  let front := h.front
  if busy then
    if h.fail.isSome || h.req.kind != .read then s.setHRead h
    else match h.req.who with
      | .port _ =>
        let n := max h.sent ((h.req.addr + front.length) / 64 * 64 - h.req.addr)
        if n ≤ h.sent ∨ h.req.len ≤ n then s.setHRead h
        else
          let left := unitsOf (h.req.dst + n) (h.req.len - n)
          let s := s.setHRead { h with sent := n, units := left }
          s.hostResp h.req (respPkt h.req h.sent ((front.drop h.sent).take (n - h.sent)) h.pois none) (h.units - left)
      | _ => s.setHRead h
  else
    let s := { s with hReads := s.hReads.filter fun x => x.rid != h.rid }
    let s := s.freeLock h.req
    match h.req.who, h.fail with
    | .port _, some st => s.hostResp h.req (respPkt h.req h.sent [] [] (some st)) h.units
    | .port _, none => s.hostResp h.req (respPkt h.req h.sent (front.drop h.sent) h.pois (some 0)) h.units
    | _, some st => s.finish h.req st []
    | _, none => s.finish h.req (if h.pois = [] then 0 else 5) front h.pois

/-- A completion for an ISSUED tag: status 0 SC, 1 UR, 4 CA. -/
def State.hostData (s : State) (b : BTag) (status : Nat) (data : List Byte) (ep : Bool) : State :=
  let got := b.got + data.length
  let done := status != 0 || decide (b.len ≤ got)
  let tags := s.bTags.filter fun x => x.tag != b.tag
  let s := { s with bTags := if done then tags else tags ++ [{ b with got := got }] }
  match s.hReads.find? fun h => h.rid == b.rid with
  | none => s
  | some h =>
    let off := b.off + b.got
    let fail := if status = 0 then h.fail else some (h.fail.getD (if status = 1 then 3 else 2))
    let pois := if ep then (List.range (granCount (h.req.dst + off) data.length)).map
        (· + (h.req.dst % 64 + off) / 64) else []
    s.hostProgress { h with parts := if status = 0 then smIns h.parts off data else h.parts
                            pois := h.pois ++ pois, fail := fail }

/-- The offset of a RESPONSE. -/
def pktOff : UrPkt → Nat | .response _ _ off _ _ _ _ => off | _ => 0

/-- A read ends at once for its requester, with what has not been delivered (R107, R177, R178). -/
def State.hostFail (s : State) (h : HRead) (st : Nat) : State :=
  let s := { s with hReads := s.hReads.filter fun x => x.rid != h.rid }.freeLock h.req
  match h.req.who with
  | .port _ =>
    let off := match s.cplHeld.find? fun x => x.req == h.req with | some x => pktOff x.pkt | none => h.sent
    let s := { s with cplHeld := s.cplHeld.filter fun x => x.req != h.req }
    (s.respond h.req (respPkt h.req off [] [] (some st))).retire h.req
  | _ => s.finish h.req st []

/-- The read of a tag ends without its data. -/
def State.hostEnd (s : State) (rid st : Nat) : State :=
  match s.hReads.find? fun h => h.rid == rid with
  | none => s
  | some h => s.hostFail h st

/-- The status with which a read that waits to be sent ends when a reset, L2 entry or Link Disable takes the link away:
LINK_DOWN for a DMA beat or descriptor read (R523), else MASTER_OFF (R111). -/
def unsentStatus (down : Bool) (r : Req) : Nat := match r.who with | .dma _ => if down then 9 else 10 | _ => 10

/-- FLR, rinse, a reset of the host face or PME_TO_Ack: the tags a function has ISSUED become HELD, and the requests
they serve end at once with MASTER_OFF (R107, R177). Reads that wait at the Basket end too; `down` tells that the link goes
(R523). -/
def State.holdTags (s : State) (p : Nat → Bool) (down : Bool) : State :=
  let unsent (h : HRead) : Bool := h.todo != [] && !(s.bTags.any fun b => b.rid == h.rid)
  let hit := s.hReads.filter fun h => p h.req.hfn
  let s := { s with bTags := mapIf (fun b => p b.fn && b.st == TagSt.issued) (fun b => { b with st := .held }) s.bTags }
  let s := s.each hit fun s h => s.hostFail h (if unsent h then unsentStatus down h.req else 10)
  let wait := s.bskWait.filter fun r => p r.hfn
  { s with bskWait := s.bskWait.filter fun r => !p r.hfn }.each wait fun s r =>
    (s.freeLock r).hostReadFail r (unsentStatus down r)

end Sys2Proof.Machine
end

