-- ==== Sys2Proof/Machine/StageOps.lean ====
section
/-!
DEFINITION. What a translated and checked request does at its destination (R144): the store, the SRAM and its aliases,
mailboxes, IRQ_DOORBELL, local ports with prefetch and splitting, the host. General registers stand in RegOps.
-/
namespace Sys2Proof.Machine

/-! ### Doorbell of the interrupt controller (R284, R285) -/

/-- The class of a writer is permitted in the source's route. -/
def State.dbPermit (s : State) (w : Who) (i : Nat) : Bool :=
  match w with
  | .host _ => s.flag .IRQ_ROUTE_DB_HOST i
  | .core _ => s.flag .IRQ_ROUTE_DB_CORE i
  | .seam => s.flag .IRQ_ROUTE_DB_CORE i
  | .dma _ => s.flag .IRQ_ROUTE_DB_DMA i
  | .port p => s.flag .IRQ_ROUTE_DB_PORT_ANY i
      || (s.flag .IRQ_ROUTE_DB_PORT_ONE i && s.fld .IRQ_ROUTE_DB_PORT i == p)

/-- Asserts a source: its level input becomes 1 and it is raised. -/
def State.dbAssert (s : State) (i : Nat) : State := ({ s with irqIn := bSet s.irqIn i true }).raise i

/-- De-asserts a source; an edge source ignores it. -/
def State.dbDeassert (s : State) (i : Nat) : State :=
  if s.isLevel i then ({ s with irqIn := bSet s.irqIn i false }).levelFall i else s

/-- A doorbell write (R284): answers whether it was accepted. -/
def State.doorbell (s : State) (w : Who) (v : Nat) : Bool × State :=
  let i := v % 16384
  if srcReserved i || !s.dbPermit w i then
    let s := ((s.count .IRQ_DB_DENY_CNT).set .IRQ_DB_DENY_CLASS 0 w.cls).set .IRQ_DB_DENY_LAST_SRC 0 i
    (false, match w with | .port p => s.set .IRQ_DB_DENY_LAST_PORT 0 p | _ => s)
  else (true, if v.testBit 31 then s.dbDeassert i else s.dbAssert i)

/-! ### Accesses to register blocks (R35) -/

/-- The run of enabled bytes of a register write, when it is one aligned run of 4 or 8 bytes (R35): its offset and data. -/
def regRun (r : Req) : Option (Nat × List Byte) :=
  match beRuns r.be 0 r.data with
  | [(o, d)] => if (d.length = 4 ∨ d.length = 8) ∧ (r.dst + o) % d.length = 0 then some (o, d) else none
  | _ => none

/-- An access has the width and alignment of an access to a register block; any other is one to an unmapped address. -/
def regShape (r : Req) : Bool :=
  match r.kind with
  | .read => (r.len == 4 || r.len == 8) && r.dst % r.len == 0
  | .write => beRuns r.be 0 r.data == [] || (regRun r).isSome
  | .atomic _ => false
  | .lock => false
  | .unlock => true

/-! ### Domains that are off (R38, R461) -/

/-- An access reached a power domain that is off. -/
def State.offAccess (s : State) (d : Nat) : State :=
  (s.count .PWR_OFF_ACCESS_CNT_CNT).set .PWR_OFF_ACCESS_CNT_LAST_DOM 0 d

/-- The domain behind a fabric port. -/
def regionDom (toHost : Bool) : Region → Nat
  | .store => 17 | .sram _ _ => 16 | .port _ _ => 13 | .host => 8 | _ => if toHost then 8 else 1

/-! ### Memory -/

/-- The plain address of an SRAM address in any of its three ranges, and the alias. -/
def plainOf (a : Nat) : Nat × Nat :=
  match regionOf a with
  | .sram i off => (i, sramBase + off)
  | _ => (0, a)

/-- Answers a read of memory; towards the host each poisoned granule travels in a TLP with EP (R170). -/
def State.finishMem (s : State) (r : Req) (data : List Byte) (pois : List Nat) : State :=
  match r.who with
  | .host _ =>
    (s.each (epPieces r.addr data pois) fun s c => s.hostTx (.cpl r.fn r.tag 0 c.2.1 c.2.2 r.stream)).retire r
  | .port _ => (s.respond r (respPkt r 0 data pois (some 0))).retire r
  | _ => s.finish r (if pois = [] then 0 else 5) data pois

/-- A read of the store, the SRAM or a mailbox. -/
def State.readMem (s : State) (r : Req) : State :=
  let (_, a) := plainOf r.dst
  let (d, p, s) := match mbxAt a with
    | some (m, off) => s.mbxRead r.who.master m off r.len r.err
    | none => s.memRead r.who.master a r.len r.err
  s.finishMem r d p

/-- The write lies in an area that drops it (R441, R446). -/
def State.protected (s : State) (w : Who) (a len : Nat) : Bool :=
  if inSram a then protSram w (a - sramBase) len else s.protStore w a len

/-- A write of the store, the SRAM or a mailbox; a dropped one ends as a write to an unmapped address. -/
def State.writeMem (s : State) (r : Req) : State :=
  let (al, a) := plainOf r.dst
  if s.protected r.who a r.data.length then
    ((s.countProt r.who (inSram a) a r.data.length).endAccess r 3 9).retire r
  else
    let s := s.dropLines fun l => decide (l.dst < r.dst + r.data.length) && decide (r.dst < l.dst + l.data.length)
    let s := match mbxAt a with
      | some (m, off) => s.mbxWrite r m off
      | none => if al = 0 then s.memWrite r.who.master a r.data r.be r.pois r.err
                else s.aliasWrite r.who.master al a r.data r.be r.pois r.err
    s.finish r 0 []

/-- An atomic on the store or the SRAM, performed whole at the plain address (R226, R442, R443). -/
def State.atomicMem (s : State) (r : Req) (op : AtomOp) : State :=
  let (_, a) := plainOf r.dst
  if s.protected r.who a r.len then ((s.countProt r.who (inSram a) a r.len).endAccess r 3 9).retire r
  else
    match mbxAt a with
    | some (m, off) =>
      if off < 8 then (s.mbxErr m).finish r 0 (List.replicate r.len 0)
      else
        let (old, p, s) := s.mbxRead r.who.master m off r.len r.err
        (s.mbxWrite { r with data := atomResult op r.len old r.data, err := .clean } m off).finish r (if p = [] then 0 else 5) old p
    | none =>
      let (old, p, s) := s.memRead r.who.master a r.len r.err
      (s.memWrite r.who.master a (atomResult op r.len old r.data) [] r.pois .clean).finish r (if p = [] then 0 else 5) old p

/-! ### Local ports -/

/-- A read is extended (R132). -/
def State.extend (s : State) (r : Req) : Nat :=
  let a := r.attr
  if r.kind == .read && atPref a && !atStrict a && atSplit a == 0 && s.flag .XLT_CFG_PREF_EN && r.len != 0
  then
    let b := 128 * 2 ^ atPrefLen a
    let stop := (r.addr + r.len + b - 1) / b * b
    let page := (r.addr / 4096 + 1) * 4096
    let w := s.entry r.idx
    let wEnd := match s.cache.find? fun c => c.idx == r.idx with
      | some c => wSrc c.words + wSize c.words
      | none => wSrc w + wSize w
    min stop (min page wEnd) - (r.addr + r.len)
  else 0

/-- XLT_PREF_CFG.LIFE in effect, in ns (R143). -/
def State.prefLife (s : State) : Nat := min 10000 (max 100 (s.fld .XLT_PREF_CFG_LIFE))

/-- Bytes of a read in the prefetch buffer (R133): those present in fresh lines of its requester and window. -/
def State.lineByte (s : State) (r : Req) (a : Nat) : Option Byte :=
  (s.prefetch.find? fun l => l.who == r.lineWho && l.slice == r.slice && l.idx == r.idx && decide (l.addr ≤ a)
    && decide (a < l.addr + l.data.length) && decide (s.tick ≤ l.born + s.prefLife)).bind
      fun l => l.data[a - l.addr]?

/-- The whole of a read from the prefetch buffer. -/
def State.lineRead (s : State) (r : Req) : Option (List Byte) :=
  if r.len = 0 then none else (List.range r.len).mapM fun i => s.lineByte r (r.addr + i)

/-- Lines a read used become the most recently used. -/
def State.touchLines (s : State) (r : Req) : State :=
  let u (l : PrefLine) : Bool := l.who == r.lineWho && l.slice == r.slice && l.idx == r.idx
    && decide (l.addr < r.addr + r.len) && decide (r.addr < l.addr + l.data.length)
  { s with prefetch := s.prefetch.filter u ++ s.prefetch.filter fun l => !u l }

/-- Opens a group for an access cut into pieces, and counts a split (R136, R137). -/
def State.openGroup (s : State) (r : Req) (n : Nat) : Nat × State :=
  let g := s.nextGrp + 1
  (g, { s with nextGrp := g, groups := s.groups ++ [Group.mk g r n [] [] none false] })

/-- Reads to a port take their place in its arrival order (R176). -/
def State.queueRead (s : State) (p : Nat) (r : Req) : State :=
  let w := splitWidth r.attr
  let cut := if w = 0 then [] else cutAt w r.dst (r.len / w + 2) 0 r.len
  if cut.length < 2 then
    { s with pReads := s.pReads ++ [PRead.mk p r none false [] [] 0 false] }
  else
    let (g, s) := (s.count .XLT_SPLIT_CNT_SPLIT).openGroup r cut.length
    s.each cut fun s c =>
      { s with pReads := s.pReads ++ [PRead.mk p { r with addr := r.addr + c.1, dst := r.dst + c.1, len := c.2, grp := g }
        none false [] [] 0 false] }

/-- A read to a port (R132, R133, R148). -/
def State.readPort (s : State) (p : Nat) (r : Req) : State :=
  match s.lineRead r with
  | some d => ((s.touchLines r).count .XLT_PREF_HIT_CNT_PREF_HIT).finishMem r d []
  | none =>
    let r := { r with ext := s.extend r }
    if r.who.isHost && s.heldByWrites r then { s with heldReads := s.heldReads ++ [(r.ord, r)] }
    else s.queueRead p r

/-- A write or atomic to a port discards the lines filled through its domain, and those it overlaps (R134). -/
def State.dropOver (s : State) (r : Req) : State :=
  s.dropLines fun l => l.dom == domOf r || (decide (l.dst < r.dst + r.len) && decide (r.dst < l.dst + l.data.length))

/-- A write to a port waits for its ledger entries (R153, R154): pieces in ascending address order, none for bytes that
are not enabled (R136). -/
def State.writePort (s : State) (p : Nat) (r : Req) : State :=
  let s := s.dropOver r
  let w := splitWidth r.attr
  let cut := if w = 0 then [(0, r.data.length)] else cutAt w r.dst (r.data.length / w + 2) 0 r.data.length
  let s := if 1 < cut.length then s.count .XLT_SPLIT_CNT_SPLIT else s
  let runs := cut.flatMap fun c =>
    (beRuns (if r.be = [] then [] else r.be.drop c.1) 0 ((r.data.drop c.1).take c.2)).map fun q => (c.1 + q.1, q.2)
  let part (g : Nat) (q : Nat × List Byte) : LWait :=
    { port := p, init := r.who.init, atom := none
      req := { r with addr := r.addr + q.1, dst := r.dst + q.1, len := q.2.length, data := q.2, be := [], grp := g
                      pois := poisPart r.dst r.pois q.1 q.2.length } }
  match runs with
  | [] => s.finish r 0 []
  | [q] => { s with ldgWait := s.ldgWait ++ [part 0 q] }
  | _ =>
    let (g, s) := s.openGroup r runs.length
    { s with ldgWait := s.ldgWait ++ runs.map (part g) }

/-! ### Atomics under Starch -/

/-- A granted atomic is issued (R171, R173); one on a memory is performed at once and its lock released. An explicit
lock request is answered. -/
def State.issueAtomic (s : State) (r : Req) : State :=
  match r.kind with
  | .atomic op =>
    if r.toHost then s.bskQueue r
    else match regionOf r.dst with
      | .port p _ =>
        { s with pReads := s.pReads ++ [PRead.mk p r none false [] [] 0 (!s.nativeAtomics p)] }
      | _ => (s.atomicMem r op).dropLock (granKey r)
  | .lock => s.finish r 0 []
  | _ => s

/-- A lock request that is not granted: of a port that has gone DOWN since (R245), or a fifth one (R228). -/
def State.lockRefused (s : State) (r : Req) : Bool :=
  match r.kind, r.who with
  | .lock, .port p => r.stream != (s.port p).gen || decide (4 ≤ s.explLocks p)
  | _, _ => false

/-- Takes the lock and issues. An atomic has a lock of its own also where its port holds the granule explicitly. -/
def State.grant (s : State) (r : Req) : State :=
  if s.lockRefused r then s.finish r 2 []
  else if r.kind == .lock && s.locks.any fun l => l.gran == (granKey r).1 && l.hfn == (granKey r).2 then s.finish r 0 []
  else
    let s := s.takeLock (granKey r) (match r.kind, r.who with | .lock, .port p => some p | _, _ => none)
    s.issueAtomic r

/-- An atomic reaches the ledger (R171): granted at once when its granule is free, nothing waits for it and Starch has
room, else it waits. -/
def State.starch (s : State) (r : Req) : State :=
  if s.lockRefused r then s.finish r 2 [] else
  let rival := s.lockWait.any fun q => granKey q == granKey r && (q.kind != .read && q.kind != .write)
  if s.lockedFor r || rival then { s with lockWait := s.lockWait ++ [r] }
  else if 1024 ≤ s.locks.length then
    { s.set .LDG_STARCH_STS_FULL_SEEN 0 1 with lockWait := s.lockWait ++ [r] }
  else s.grant r

/-- An atomic on a port discards prefetched lines as a write does, and a host's waits for earlier writes (R134, R148). -/
def State.atomicAt (s : State) (r : Req) : State :=
  match portOf r.dst, r.toHost with
  | some _, false =>
    let s := s.dropOver r
    if r.who.isHost && s.heldByWrites r then { s with heldReads := s.heldReads ++ [(r.ord, r)] } else s.starch r
  | _, _ => s.starch r

/-! ### The host -/

/-- A host-bound request (R111, R123, R145). -/
def State.toHostAt (s : State) (r : Req) : State :=
  if !s.hostMay r.hfn r.hslice then s.hostReadFail r 10
  else match r.kind with
    | .write => s.hostWrite r (match r.who with | .port p => p + 1 | _ => 0)
    | .read => s.bskQueue r
    | _ => if !s.atomReq r.hfn && r.kind != .lock then s.hostReadFail r 4 else s.starch r

/-! ### Every destination but general registers -/

/-- Performs or carries a translated request that nothing holds back (R144). -/
def State.deliverFree (s : State) (r : Req) : State :=
  let g := if r.toHost then Region.host else regionOf r.dst
  let d := regionDom r.toHost g
  if !s.domOn d then ((s.offAccess d).endAccess r 3 9).retire r
  else
    match r.kind with
    | .read =>
      if r.toHost then s.toHostAt r
      else match g with
        | .port p _ => s.readPort p r
        | .regs _ _ => s.finish r 0 (List.replicate r.len 0)
        | _ => s.readMem r
    | .write =>
      if r.toHost then s.toHostAt r
      else match g with
        | .port p _ => s.writePort p r
        | .regs _ _ =>
          if r.dst ≠ doorbellAddr then s.finish r 0 []
          else match s.doorbell r.who (ofBytes (r.data.take 4)) with
            | (true, s) => s.finish r 0 []
            | (false, s) => s.finish r (match r.who with | .port _ => 4 | .dma _ => 4 | _ => 0) []
        | _ => s.writeMem r
    | _ => if r.toHost then s.toHostAt r else
      match g with
      | .regs _ _ => (s.unmapped r).retire r
      | _ => s.atomicAt r

/-- Performs or carries a translated request (R144). An access to a locked granule waits (R172), and one that may not pass
an access that waits so waits behind it. -/
def State.deliverMem (s : State) (r : Req) : State :=
  if s.lockHolds r || s.lockBehind r then { s with lockWait := s.lockWait ++ [r] } else s.deliverFree r

/-- Releases an explicit lock. -/
def State.dropExpl (s : State) (p : Nat) (k : Nat × Nat) : State :=
  { s with locks := s.locks.filter fun l => !(l.gran == k.1 && l.hfn == k.2 && l.expl == some p) }

/-- The first read or write in a list of waiting accesses that no lock holds any more and that passes none before it. -/
def State.lockReady (s : State) (before : List Req) : List Req → Option Req
  | [] => none
  | r :: t =>
    if (r.kind == .read || r.kind == .write) && !s.lockedFor r && !(before.any fun w => mayNotPass w r) then some r
    else s.lockReady (before ++ [r]) t

/-- The accesses that waited for granules and are no atomics go on in order once no lock holds them (R172), and what waits
for them at J1 follows. -/
def State.starchSettle (s : State) : State :=
  (s.each (List.range s.lockWait.length) fun s _ =>
    match s.lockReady [] s.lockWait with
    | some r => { s with lockWait := s.lockWait.erase r }.deliverFree r
    | none => s).jFlush

/-! ### The stage (R25 to R30, R125) -/

/-- After translation: an unmapped address, or a shape that no register block takes, ends the access (R35, R37); then the
guard decides (R344); what passes goes to its destination. -/
def State.stageChecked (del : State → Req → State) (s : State) (q : Req) : State :=
  let lost := match regionOf q.dst with | .unmapped => true | .regs _ _ => !regShape q | _ => false
  if !q.toHost && q.key.isSome && lost then (s.unmapped q).retire q
  else match s.guardFail q with
    | some g => (s.guardFault q g).retire q
    | none => del s q

/-- The walk whose waiting requests hold back a hit (R29). -/
def State.behindMiss (s : State) (q : Req) : Option Nat :=
  (s.walks.find? fun w => w.waiting.any fun r =>
    (if r.ready then mayNotPass r q else match s.peek r with | some x => mayNotPass x q | none => false)).map (·.tbl)

/-- A request joins the walk of a table, or starts one, with a walk slot when fewer than 128 are out (R28, R125). -/
def State.missOn (s : State) (tbl : Nat) (r : Req) : State :=
  if s.walks.any fun w => w.tbl == tbl then
    { s with walks := mapIf (fun w => w.tbl == tbl) (fun w => { w with waiting := w.waiting ++ [r] }) s.walks }
  else
    let slot := decide ((s.walks.filter (·.slot)).length < 128)
    let s := if slot then s else s.count .XLT_SLOW_CNT_SLOW
    { s with walks := s.walks ++ [⟨tbl, slot, [r], s.nextWalk⟩], nextWalk := s.nextWalk + 1 }

/-- A request enters the translate-and-check stage (R25). -/
def State.stage (del : State → Req → State) (s : State) (r : Req) : State :=
  let (r, s) := s.stamp r
  match s.lookup r (routeReq r r.fn) with
  | (.fault c, s) => (s.xltFault r c).retire r
  | (.miss t, s) => (s.count .XLT_MISS_CNT_MISS).missOn t r
  | (.ok q, s) =>
    match s.behindMiss q with
    | some t => s.missOn t { q with ready := true }
    | none => s.stageChecked del q

/-- Requests that never reach a general register: those of DMA channels and rings. -/
def State.stageMem (s : State) (r : Req) : State := s.stage State.deliverMem r

/-- What a finished walk makes of one waiting request: its entry is selected among those that read good (R125, R126). -/
def State.walkServe (del : State → Req → State) (bad : List Nat) (s : State) (r : Req) : State :=
  if r.ready then s.stageChecked del { r with ready := false }
  else
    let rt := routeReq r r.fn
    let tbl := match rt with | .window t _ => t | .slot k _ => 4096 + k / 256 | _ => 0
    let read := (tableIdx tbl).filter s.entryValid
    let isBad (i : Nat) : Bool := bad.contains i || s.entryPoison i
    let fits (i : Nat) : Bool := match rt with
      | .window _ a => wCovers (s.entry i) a
      | .slot k off => i == 0x40000 + k && slotOk (s.entry i) off
      | _ => false
    match read.find? fun i => !isBad i && fits i with
    | some i =>
      let w := s.entry i
      let s := if s.flag .XLT_CFG_CACHE_EN then s.install i w else s
      match s.useWin r i (winOff w rt) w with
      | (.inl c, s) => (s.xltFault r c).retire r
      | (.inr q, s) => s.stageChecked del q
    | none =>
      let c := if read.any isBad then 6 else match rt with | .slot _ _ => 2 | _ => 1
      (s.xltFault r c).retire r

/-- The granules of a table whose read was lasting uncorrectable become poisoned, as by every read (R126, R450). -/
def State.walkErrors (s : State) (bad : List Nat) : State :=
  s.each bad fun s i => if s.entryPoison i then s else s.memResolve (granule (s.tblBase + 32 * i)) 26 .lasting

/-- A walk of a table completes (R125, R126): bad entries go to the fault log, with the access that started the walk
(R484), and every request that started or joined it is served in order. -/
def State.walkDone (del : State → Req → State) (s : State) (tbl : Nat) (bad : List Nat) : State :=
  match s.walks.find? fun w => w.tbl == tbl with
  | none => s
  | some w =>
    if !w.slot then s
    else
      let s := State.walkErrors { s with walks := s.walks.filter fun x => x.tbl != tbl }
        (bad.filter fun i => (tableIdx tbl).contains i && s.entryValid i)
      let poor := (tableIdx tbl).filter fun i => s.entryValid i && (bad.contains i || s.entryPoison i)
      let s := match w.waiting with
        | [] => s
        | r :: _ => s.each poor fun s _ =>
          s.faultLog { cls := 4, unit := 3, code := 6, addr := some r.addr, req := r.who.req
                       fn := match r.who with | .host f => some f | _ => none }
      s.each w.waiting (State.walkServe del bad)

end Sys2Proof.Machine
end

