-- ==== Sys2Proof/Machine/GovOps.lean ====
section
/-!
DEFINITION. The share governor's metering (R322 to R326, R335): live capacities, accounts, the resources a request
crosses, credit, the wait at the host endpoint and at the ports, the spill area, SQ occupancy.
-/
namespace Sys2Proof.Machine

/-! ### Resources (R322) -/

/-- The resource codes: 0 HOST_IN, 1 HOST_OUT, 2 + p PORT_TX, 18 + p PORT_RX, 34 STORE, 35 SEAM. -/
def resCount : Nat := 36

/-- Number of ones among the low eight bits. -/
def popcount8 (v : Nat) : Nat := ((List.range 8).filter v.testBit).length

/-- Data rate of one lane in MB/s at a rate code (R43, R322). -/
def laneRate (code : Nat) : Nat := if code = 2 then 12120 else if code = 1 then 6060 else 2940

/-- Host link rate in tenths of GT/s by HST_LINK_STS.RATE (R45). -/
def gtRate (code : Nat) : Nat :=
  if code = 1 then 25 else if code = 2 then 50 else if code = 3 then 80 else if code = 4 then 160
  else if code = 5 then 320 else if code = 6 then 640 else if code = 7 then 1280 else 0

/-- The capacity that follows from the state of a resource's link, in MB/s. -/
def State.capLink (s : State) (r : Nat) : Nat :=
  if r < 2 then
    if !s.flag .HST_LINK_STS_DL_UP then 0
    else
      let l := s.fld .HST_LINK_STS_L0P_WIDTH
      let lanes := if l = 0 then s.fld .HST_LINK_STS_WIDTH else l
      let code := s.fld .HST_LINK_STS_RATE
      let c := 228800 * lanes * gtRate code / (16 * 1280)
      if (code = 1 ∨ code = 2) ∧ !s.flag .HST_LINK_STS_FLIT then c * 8 / 10 else c
  else if r < 18 then
    if s.urUp (r - 2) then
      popcount8 (s.fld .LANE_LINK_STS_TX_ACTIVE (r - 2)) * laneRate (s.fld .LANE_LINK_STS_RATE (r - 2)) else 0
  else if r < 34 then
    if s.urUp (r - 18) then
      popcount8 (s.fld .LANE_LINK_STS_RX_ACTIVE (r - 18)) * laneRate (s.fld .LANE_LINK_STS_RATE (r - 18)) else 0
  else 614400

/-- The mirror bound of R162: the Seam's data rate, 96,970 MB/s with eight lanes at rate code 2, times 512 ÷ 544. -/
def State.capSeam (s : State) : Nat :=
  let n := popcount8 (s.fld .LANE_LINK_STS_TX_ACTIVE 16)
  let full := if s.fld .LANE_LINK_STS_RATE 16 = 2 then 96970 else if s.fld .LANE_LINK_STS_RATE 16 = 1 then 48480 else 23520
  full * n * 512 / (8 * 544)

/-- SHR_RES_STS.CAP: the derived figure, or a lower non-zero override. -/
def State.cap (s : State) (r : Nat) : Nat :=
  let c := if r = 35 then (if s.paired then s.capSeam else 0) else s.capLink r
  let o := s.fld .SHR_RES_CFG_CAP_OVR r
  if o = 0 then c else min o c

/-- SHR_RES_STS.PRESENT. -/
def State.resPresent (s : State) (r : Nat) : Bool := r != 35 || s.paired

/-! ### Accounts (R323, R324) -/

/-- The context with CHARGE_IN of a function, or of a slice. -/
def State.chargeCtx (s : State) (f : Nat) (slice : Option Nat) : Option Nat :=
  (s.listed .SHR_CTX_BIND_CHARGE_IN).find? fun x =>
    s.flag .SHR_CTX_BIND_VALID x && (match slice with
      | some i => s.flag .SHR_CTX_BIND_SLICE_EN x && s.fld .SHR_CTX_BIND_SLICE x == i
      | none => !s.flag .SHR_CTX_BIND_SLICE_EN x && s.fld .SHR_CTX_BIND_FUNC x == f)

/-- The account of a function's or slice's traffic: its CHARGE_IN context, else the implicit class 3 account of the
function, 8,192 + f. -/
def State.fnAcct (s : State) (f : Nat) (slice : Option Nat) : Nat := (s.chargeCtx f slice).getD (8192 + f)

/-- The account a request is charged to; none when it is not metered. `q` is what translation makes of it. -/
def State.acctOf (s : State) (r q : Req) : Option Nat :=
  match r.who with
  | .host _ => some (s.fnAcct r.fn r.slice)
  | .port p => some (if q.toHost then s.fnAcct q.hfn q.hslice else 4096 + p)
  | .dma c =>
    if 256 ≤ c then some (c - 256)
    else match s.chan c with
      | some ch => match ch.ctx with
        | some x => some x
        | none => if ch.owner = 0 then none else some (s.fnAcct ch.owner ch.slice)
      | none => none
  | _ => none

/-- The committed share and mask of an account; an implicit account is class 3, weight 1, on every resource. -/
def State.shareNow (s : State) (a : Nat) : Nat × Nat :=
  if a < 4096 then (s.fld .SHR_CTX_SHARE_SHARE a, s.fld .SHR_CTX_RES_MASK a)
  else if a < 4112 then (s.fld .SHR_PORT_SHARE_SHARE (a - 4096), s.fld .SHR_PORT_RES_MASK (a - 4096))
  else (0x01000003, 0xFFFFFFFFF)

/-- The share and mask that act in the running epoch (R331). -/
def State.shareIn (s : State) (a : Nat) : Nat × Nat :=
  match s.shareOld.find? fun e => e.1 == a with
  | some e => e.2
  | none => s.shareNow a

/-- Fields of a share word (R327). -/
def shClass (w : Nat) : Nat := w % 4
def shRate (w : Nat) : Nat := bits w 23 4
def shWeight (w : Nat) : Nat := max 1 (bits w 31 24)
def shLat (w : Nat) : Nat := bits w 47 32 * 10
def shLimit (w : Nat) : Nat := bits w 63 48

/-! ### What a request crosses (R323) -/

/-- The resource of a place, as data goes into it and comes out of it. -/
def placeIn (toHost : Bool) (dst : Nat) : List Nat :=
  if toHost then [1] else match regionOf dst with | .port p _ => [2 + p] | .store => [34] | _ => []
def placeOut (toHost : Bool) (dst : Nat) : List Nat :=
  if toHost then [0] else match regionOf dst with | .port p _ => [18 + p] | .store => [34] | _ => []

/-- The resources the data of a translated request crosses, and how many bytes it is. -/
def State.crosses (s : State) (q : Req) : List Nat × Nat :=
  let src := match q.who with | .host _ => [0] | .port p => [18 + p] | _ => []
  let back := match q.who with | .host _ => [1] | .port p => [2 + p] | _ => []
  let wr := src ++ placeIn q.toHost q.dst
  let rd := placeOut q.toHost q.dst ++ back
  match q.kind with
  | .write => (wr ++ (if q.who.isHost && s.mirrors && (portOf q.dst).isSome then [35] else []), q.data.length)
  | .read => (rd, q.len)
  | .atomic _ => ((wr ++ rd).eraseDups, q.len)
  | .lock => ([], 0)
  | .unlock => ([], 0)

/-- The credit account of a request on what it crosses: its own, or, when it crosses a resource outside its mask, a
class 3 account of its own (R324). -/
def State.creditAcct (s : State) (a : Nat) (res : List Nat) : Nat :=
  if res.any fun r => !((s.shareIn a).2.testBit r) then 16384 + a else a

/-- Credit of an account on a resource. -/
def State.credit (s : State) (a r : Nat) : Int := smGet (fun _ => 0) s.govCredit (64 * a + r)

/-- A request may proceed: the governor is off, the request is not metered, or there is credit on all it crosses. -/
def State.govMay (s : State) (r q : Req) : Bool :=
  !s.flag .SHR_CFG_EN || (match s.acctOf r q with
    | none => true
    | some a =>
      let res := (s.crosses q).1
      res.all fun x => decide (0 < s.credit (s.creditAcct a res) x))

/-- The longest wait of a class 0 account on a resource. -/
def State.noteWait (s : State) (a wait : Nat) (res : List Nat) : State :=
  let w := smGet (fun _ => ({} : GovWin)) s.govWin a
  let w := { w with waitMax := max w.waitMax wait, waitSum := w.waitSum + wait, waits := w.waits + 1 }
  let s := { s with govWin := smSet (fun _ => {}) s.govWin a w }
  if shClass (s.shareIn a).1 = 0 then
    s.each res fun s r => { s with c0Wait := nSet s.c0Wait r (max wait (nGet s.c0Wait r)) }
  else s

/-- Charges a request that proceeds (R323): credit, the measured bytes, the wait since it was ready. -/
def State.govCharge (s : State) (r q : Req) (since : Nat) : State :=
  match s.acctOf r q with
  | none => s
  | some a =>
    let (res, n) := s.crosses q
    let k := s.creditAcct a res
    let s := s.each res fun s x =>
      { s with govCredit := smSet (fun _ => 0) s.govCredit (64 * k + x) (s.credit k x - n)
               resWin := nSet s.resWin x (nGet s.resWin x + n) }
    let w := smGet (fun _ => ({} : GovWin)) s.govWin a
    let w := { w with bytes := w.bytes + n, outside := w.outside || k != a }
    let s := { s with govWin := smSet (fun _ => {}) s.govWin a w }
    if res = [] then s else s.noteWait a (s.tick - since) res

/-! ### The Basket (R41, R175 to R177, R325) -/

/-- A local initiator's host-bound read or atomic is held at Basket issue (R325). `q` is what translation makes of it. -/
def atBasket (r q : Req) : Bool :=
  q.toHost && (match r.kind with | .read => true | .atomic _ => true | _ => false)
    && (match r.who with | .port _ => true | _ => false)

/-- The function of a read may issue nothing any more: the pieces not issued are dropped, and the read ends with
MASTER_OFF when those issued have ended (R110, R111, R182). -/
def State.bskCut (s : State) (h : HRead) : State := s.hostProgress { h with todo := [], fail := some (h.fail.getD 10) }

/-- A waiting read may be issued now: its granule is not locked, no write of its port holds it back, and it has service. -/
def State.bskReady (s : State) (r : Req) : Bool :=
  !s.lockHolds r && !s.behindWrites r && (!atBasket r r || s.govMay r r)

/-- Issues what the Basket has to issue next: the pieces that earlier reads still lack tags for, else the first waiting
read that may be issued, once its space is there. A read without space keeps the later ones waiting. -/
def State.bskIssue (s : State) : State :=
  if s.mode = .CONTAIN ∨ s.pmeOff ∨ !s.linkOpen then s
  else
    match s.hReads.find? fun h => h.todo != [] && (s.tagRoom h.req.hfn || !s.hostMay h.req.hfn h.req.hslice) with
    | some h => if s.hostMay h.req.hfn h.req.hslice then s.issuePieces h h.todo else s.bskCut h
    | none =>
      match s.bskWait.find? s.bskReady with
      | none => s
      | some r =>
        if !s.hostMay r.hfn r.hslice then ({ s with bskWait := s.bskWait.erase r }.freeLock r).hostReadFail r 10
        else if 8192 < s.cplUnits + unitsOf r.dst r.len then s
        else (if atBasket r r then s.govCharge r r r.born else s).bskTake r

/-! ### The wait at the endpoint and at the ports (R325, R326) -/

/-- The point at which a request entered is charged: here, or at Basket issue. -/
def State.govTake (s : State) (r : Req) (since : Nat) : State :=
  match s.peek r with
  | some q => if atBasket r q then s else s.govCharge r q since
  | none => s

/-- The point a request is held at: the function's inbound queue, or the port. -/
def govKey (r : Req) : Nat := match r.who with | .port p => 65536 + p | _ => r.fn

/-- KiB a host request occupies in the inbound buffer, in bytes: its data and a 16-byte header. -/
def inboundBytes (r : Req) : Nat := r.data.length + 16

/-- Bytes a function's requests occupy in the inbound buffer: those that wait for service, and posted writes that wait for
a ledger entry (R155). -/
def State.inboundUse (s : State) (f : Nat) : Nat :=
  let mine (r : Req) : Bool := r.who.isHost && r.fn == f
  ((((s.govq.map (·.2)) ++ s.ldgWait.map (·.req)).filter mine).map inboundBytes).sum

/-- Bytes of the spill area in use. -/
def State.spillUse (s : State) : Nat := (s.spill.map inboundBytes).sum

/-- A request stays where it is: one of its point waits before it, or a write it may not pass does, there or in the spill
area, or credit lacks. -/
def State.govStays (s : State) (kept : List (Nat × Req)) (r : Req) : Bool :=
  let older := kept.map (·.2) ++ s.spill.filter fun k => r.who.isHost && decide (k.ord < r.ord)
  (kept.any fun k => govKey k.2 == govKey r) || (match s.peek r with
    | none => false
    | some q => (older.any fun k => match s.peek k with | some w => mayNotPass w q | none => false)
        || (!atBasket r q && !s.govMay r q))

/-- Enters a request at its point (R325): it goes on at once, or waits there; beyond IN_FN_MAX a host request is placed
in the spill area, and a full spill area withholds link credit; while the ledger has no free entry or unit that is its
doing (R155). -/
def State.govEnter (del : State → Req → State) (s : State) (r : Req) : State :=
  let spilled := s.spill.any fun x => x.fn == r.fn
  if r.who.isHost && (spilled ||
      decide (s.fld .SHR_CFG_IN_FN_MAX * 1024 < s.inboundUse r.fn + inboundBytes r && s.inboundUse r.fn ≠ 0)) then
    let s := { s with spill := s.spill ++ [r] }
    let a := s.fnAcct r.fn r.slice
    let s := { s with govCredit := smSet (fun _ => 0) s.govCredit (64 * a + 34) (s.credit a 34 - 2 * inboundBytes r) }
    if s.spillUse < 67108864 then s
    else
      let s := s.set .SHR_STS_SPILL_FULL 0 1
      if s.ldgFree 0 then s else s.set .LDG_STS_FULL_SEEN 0 1
  else if s.govStays s.govq r then { s with govq := s.govq ++ [(s.tick, r)] }
  else del (s.govTake r s.tick) r

/-- Lets what waits go on, in order, as far as the credit goes. -/
def State.govFlush (del : State → Req → State) (s : State) : State :=
  let rec go : List (Nat × Req) → List (Nat × Req) → State → State
    | [], kept, s => { s with govq := kept }
    | e :: t, kept, s =>
      if s.govStays kept e.2 then go t (kept ++ [e]) s
      else go t kept (del (s.govTake e.2 e.1) e.2)
  go s.govq [] { s with govq := [] }

/-! ### SQ occupancy (R335) -/

/-- SQ and CQ slots: 2^LOG2N, values other than 4 to 16 taken as 4. -/
def State.sqSize (s : State) (x : Nat) : Nat :=
  let l := s.fld .DMA_SQ_CFG_LOG2N x
  2 ^ (if 4 ≤ l ∧ l ≤ 16 then l else 4)
def State.cqSize (s : State) (x : Nat) : Nat :=
  let l := s.fld .DMA_CQ_CFG_LOG2N x
  2 ^ (if 4 ≤ l ∧ l ≤ 16 then l else 4)

/-- The occupancy O: descriptors produced up to the last SQ_TAIL without a record; without any SQ_TAIL, those the ring
engine has read. -/
def State.sqOcc (s : State) (x : Nat) : Nat :=
  let r := s.ringOf x
  let n := s.sqSize x
  (if r.tv then (r.tail + n - s.fld .DMA_SQ_STS_HEAD x % n) % n else r.taken.length) + r.running.length

/-- The effective limit L. -/
def State.sqLimit (s : State) (x : Nat) : Nat :=
  let l := shLimit (s.shareNow x).1
  if l = 0 ∨ s.sqSize x ≤ l then s.sqSize x else l

/-- A context is FROZEN (R319). -/
def State.frozen (s : State) (x : Nat) : Bool :=
  let f := s.fld .SHR_CTX_BIND_FUNC x
  s.mode == .CONTAIN || s.fnState f == fnRINSE || s.fnState f == fnHIDDEN || s.fnState f == fnCONTAINED || !s.bme f
    || (s.flag .SHR_CTX_BIND_SLICE_EN x && !s.sliceActive (s.fld .SHR_CTX_BIND_SLICE x))

/-- STATE of a context (R319). -/
def State.ctxState (s : State) (x : Nat) : Nat :=
  if !s.flag .SHR_CTX_BIND_VALID x then 0
  else if s.frozen x then 4
  else if s.fld .DMA_SQ_STS_STATE x = 3 then 3
  else if s.flag .DMA_SQ_CFG_EN x && s.flag .DMA_CQ_CFG_EN x then 2 else 1

/-- The resources of a mask. -/
def maskRes (m : Nat) : List Nat := (List.range resCount).filter m.testBit

/-- The four words of a context's status record (R318): word 0, SQ_LIMIT and WIN are live. -/
def State.ctxStatus (s : State) (x w : Nat) : Nat :=
  let o := s.sqOcc x
  let l := s.sqLimit x
  if w = 0 then
    let (sh, m) := s.shareNow x
    let lv := ((maskRes m).map fun r => s.fld .SHR_RES_STS_LEVEL r).foldl max 0
    let lr := ((maskRes m).find? fun r => s.fld .SHR_RES_STS_LEVEL r == lv).getD 0
    s.ctxState x + shClass sh * 8 + bit (bGet s.degraded x) * 32 + bit (decide (l ≤ o)) * 64
      + bit (smGet (fun _ => ({} : GovWin)) s.govWin x).outside * 128 + lv * 256 + lr * 1024 + min 65535 (l - o) * 65536
      + s.fld .DMA_SQ_STS_HEAD x * 4294967296 + s.fld .DMA_CQ_PTR_TAIL x * 281474976710656
  else if w = 1 then s.fld .SHR_CTX_STS1_WORD x
  else if w = 2 then s.fld .SHR_CTX_STS2_WORD x
  else s.fld .SHR_CTX_STS3_WORD x % 65536 + min 65535 l * 65536 + s.winCount % 4294967296 * 4294967296

end Sys2Proof.Machine
end

