-- ==== Sys2Proof/Machine/DmaOps.lean ====
section
/-!
DEFINITION. The DMA engine's operations (R251 to R280): descriptors and their checks, cutting a transfer into beats,
issue and merging, what a beat's result does, how a transfer ends, completion records, rings.
-/
namespace Sys2Proof.Machine

/-! ### Descriptors (R262, R263) -/

def dOp (w : List Nat) : Nat := bits (wWord w 0) 3 1
def dPrio (w : List Nat) : Nat := bits (wWord w 0) 6 4
def dIrq (w : List Nat) : Bool := (wWord w 0).testBit 7
def dFence (w : List Nat) : Bool := (wWord w 0).testBit 8
def dTwoD (w : List Nat) : Bool := (wWord w 0).testBit 9
def dRlx (w : List Nat) : Bool := (wWord w 0).testBit 10
def dSrcSp (w : List Nat) : Nat := bits (wWord w 0) 13 12
def dDstSp (w : List Nat) : Nat := bits (wWord w 0) 15 14
def dReq (w : List Nat) : Bool := (wWord w 0).testBit 16
def dLine (w : List Nat) : Nat := bits (wWord w 0) 24 17
def dPace (w : List Nat) : Nat := bits (wWord w 0) 27 25
def dUser (w : List Nat) : Nat := bits (wWord w 0) 63 32
def dLen (w : List Nat) : Nat := bits (wWord w 1) 31 0
def dRows (w : List Nat) : Nat := if dTwoD w then bits (wWord w 1) 51 32 + 1 else 1
/-- A 32-bit stride as an integer. -/
def signed32 (v : Nat) : Int := if v % 4294967296 < 2147483648 then (v % 4294967296 : Nat) else (v % 4294967296 : Nat) - 4294967296
def dSrcStride (w : List Nat) : Int := signed32 (bits (wWord w 4) 31 0)
def dDstStride (w : List Nat) : Int := signed32 (bits (wWord w 4) 63 32)

/-- The operation reads its source, reads its destination, writes its destination (R255). -/
def usesSrc (w : List Nat) : Bool := dOp w == 0 || dOp w == 2 || dOp w == 3
def readsDst (w : List Nat) : Bool := dOp w == 2
def usesDst (w : List Nat) : Bool := dOp w == 0 || dOp w == 1 || dOp w == 2
def writesDst (w : List Nat) : Bool := dOp w == 0 || dOp w == 1

/-- Total size in bytes (R256); NOP has none. -/
def dSize (w : List Nat) : Nat := if dOp w = 4 then 0 else dLen w * dRows w

/-- A space is refused to an owner (R254, R263). -/
def badSpace (sp owner : Nat) : Bool := sp == 3 || (sp == 0 && owner != 0) || (sp == 2 && owner == 0)

/-- The first row's start moved by `r` rows, as a 64-bit address. -/
def rowAddr (base : Nat) (stride : Int) (r : Nat) : Nat := ((base : Int) + stride * r).emod 18446744073709551616 |>.toNat

/-- Lowest and highest address of all rows of a side. -/
def rowSpan (base : Nat) (stride : Int) (rows len : Nat) : Int × Int :=
  let last := (base : Int) + stride * (rows - 1 : Nat)
  (min (base : Int) last, max (base : Int) last + len - 1)

/-- Detected overlap of a COPY (R276): descending order, or refusal. -/
def copyDesc (w : List Nat) : Bool :=
  dOp w == 0 && dSrcSp w == dDstSp w && !dTwoD w && decide (wWord w 2 < wWord w 3)
    && decide (wWord w 3 < wWord w 2 + dLen w)
def copyOverlap (w : List Nat) : Bool :=
  let a := rowSpan (wWord w 2) (dSrcStride w) (dRows w) (dLen w)
  let b := rowSpan (wWord w 3) (dDstStride w) (dRows w) (dLen w)
  dOp w == 0 && dSrcSp w == dDstSp w && dTwoD w && decide (dLen w ≠ 0) && decide (a.1 ≤ b.2) && decide (b.1 ≤ a.2)

/-- The start checks (R263): 0x11 DESC_ERROR, 0x13 OVERLAP, none when they pass. -/
def startCheck (w : List Nat) (owner : Nat) : Option Nat :=
  if bits (wWord w 0) 11 11 ≠ 0 ∨ bits (wWord w 0) 31 28 ≠ 0 ∨ bits (wWord w 1) 63 52 ≠ 0 ∨ wWord w 6 ≠ 0
    ∨ wWord w 7 ≠ 0 ∨ 5 ≤ dOp w ∨ dPace w = 6 ∨ (usesSrc w ∧ badSpace (dSrcSp w) owner)
    ∨ (usesDst w ∧ badSpace (dDstSp w) owner) ∨ 2 ^ 40 - 1 < dSize w then some 0x11
  else if copyOverlap w then some 0x13 else none

/-- Bytes of a pace unit (R269). -/
def paceUnit (w : List Nat) : Nat := if dPace w = 7 then dLen w else 128 * 2 ^ dPace w

/-! ### Beats (R257) -/

/-- Length, source address and destination address of the beat at a transfer offset; the addresses are its lowest. -/
def beatAt (w : List Nat) (desc : Bool) (next size : Nat) : Nat × Nat × Nat :=
  let len := dLen w
  let row := if len = 0 then 0 else next / len
  let i := if len = 0 then 0 else next % len
  let rest := min (len - i) (size - next)
  let rest := if dReq w then min rest (paceUnit w - next % paceUnit w) else rest
  if desc then
    let top := wWord w 3 + len - next - 1
    let stop := wWord w 2 + len - next - 1
    let l := min rest (min (top % 128 + 1) (stop % 4096 + 1))
    (l, stop + 1 - l, top + 1 - l)
  else
    let src := (rowAddr (wWord w 2) (dSrcStride w) row + i) % 18446744073709551616
    let dst := (rowAddr (wWord w 3) (dDstStride w) row + i) % 18446744073709551616
    let l := if usesSrc w then min rest (4096 - src % 4096) else rest
    (min l (if dOp w = 3 then 128 - src % 128 else 128 - dst % 128), src, dst)

/-- Transfer offset of the byte at index `i` of a beat, in rising address order. -/
def byteOff (r : ChRun) (b : Beat) (i : Nat) : Nat := if r.desc then b.off + (b.len - 1 - i) else b.off + i

/-- The pattern bytes from an address (R255). -/
def patBytes (w : List Nat) (a len : Nat) : List Byte :=
  (List.range len).map fun i => BitVec.ofNat 8 (wWord w 5 / 256 ^ ((a + i) % 8))

/-- The tag of a request: its kind (0 source read, 1 destination read, 2 write, 3 record), the beats it carries, the
first beat's number. -/
def dmaTag (kind n t : Nat) : Nat := kind + 4 * (n + 64 * t)
def tagKind (t : Nat) : Nat := t % 4
def tagCount (t : Nat) : Nat := t / 4 % 64
def tagBeat (t : Nat) : Nat := t / 256

/-- A request of a channel in its owner's name (R252). -/
def chReq (c : Nat) (r : ChRun) (kind : Kind) (space a len : Nat) (data : List Byte) (pois : List Nat) (tag : Nat) : Req :=
  { who := .dma c, kind := kind, addr := a, len := len, data := data, pois := pois, priv := r.owner == 0, fn := r.owner
    slice := r.slice, tag := tag, space := space, ro := kind == .write && space == 1 && dRlx r.words && tagKind tag == 2 }

/-- The granules of a write, counted from its first, that take a poisoned byte of a beat. -/
def beatPois (b : Beat) : List Nat := (b.pois.map fun i => (b.dst % 64 + i) / 64).eraseDups

/-- The requests of a beat. -/
def srcReq (c : Nat) (r : ChRun) (b : Beat) : Req :=
  chReq c r .read (dSrcSp r.words) b.src b.len [] [] (dmaTag 0 1 b.tag)
def dstReq (c : Nat) (r : ChRun) (b : Beat) : Req :=
  chReq c r .read (dDstSp r.words) b.dst b.len [] [] (dmaTag 1 1 b.tag)
def wrReq (c : Nat) (r : ChRun) (b : Beat) : Req :=
  chReq c r .write (dDstSp r.words) b.dst b.len b.data (beatPois b) (dmaTag 2 1 b.tag)

/-! ### Merging (R257) -/

/-- Two ranges lie side by side, in the direction of the transfer, within one 4 KiB block. -/
def joins (desc : Bool) (a n b m : Nat) : Bool :=
  if desc then b + m == a && b / 4096 == (a + n - 1) / 4096 else a + n == b && a / 4096 == (b + m - 1) / 4096

/-- A beat continues a burst on both sides that its operation uses. -/
def ChRun.continues (r : ChRun) (x : Req) (b : Beat) : Bool :=
  let first := tagBeat x.tag
  let part := r.beats.filter fun y => first ≤ y.tag && y.tag < first + tagCount x.tag
  let n := (part.map (·.len)).sum
  part.length == tagCount x.tag && first + tagCount x.tag == b.tag &&
    (match (if r.desc then part.getLast? else part.head?) with
     | some y =>
       (!usesSrc r.words || joins r.desc y.src n b.src b.len) && (!usesDst r.words || joins r.desc y.dst n b.dst b.len)
     | none => false)

/-- A translated request of one beat joins a queued one: same kind, target and window, addresses side by side. -/
def reqJoins (desc : Bool) (x q : Req) : Bool :=
  x.who == q.who && x.kind == q.kind && tagKind x.tag == tagKind q.tag && x.idx == q.idx && x.win == q.win
    && x.toHost == q.toHost && x.xe == q.xe && x.ge == q.ge && x.grp == 0 && x.ext == 0 && x.attr == q.attr
    && splitWidth x.attr == 0 && joins desc x.addr x.len q.addr q.len && joins desc x.dst x.len q.dst q.len
    && decide (tagCount x.tag < 32)

/-- The joined request. -/
def reqJoin (desc : Bool) (x q : Req) : Req :=
  let lo := if desc then q else x
  let hi := if desc then x else q
  let shift := hi.dst / 64 - lo.dst / 64
  { x with addr := lo.addr, dst := lo.dst, len := x.len + q.len, data := lo.data ++ hi.data
           pois := (lo.pois ++ hi.pois.map (· + shift)).eraseDups, tag := x.tag + 4 }

/-- A request of a beat goes to a target where bursts are merged: a local port or the host. -/
def burstTarget (q : Req) : Bool := tagKind q.tag != 3 && (q.toHost || (portOf q.dst).isSome)

/-- The bursts being formed leave for the fabric. -/
def State.burstSend (s : State) (leave : Req → Bool) : State :=
  State.each { s with bursts := s.bursts.filter fun x => !leave x } (s.bursts.filter leave) State.deliverMem

/-- The completion interrupt of a context after its record (R266, R283). -/
def State.ctxIrq (s : State) (x cqSlot : Nat) (irq : Bool) : State :=
  let s := { s with cqIrq := s.cqIrq.filter fun c => !(c.1 == x && c.2 == cqSlot) }
  if irq then State.raise { s with cqIrq := s.cqIrq ++ [(x, cqSlot)] } x else s

/-- A record goes to its destination, and its interrupt follows (R266): that of its context, or the source of its channel.
Its tag counts 1 for an interrupt and numbers the CQ slot or the source. -/
def State.deliverRec (s : State) (q : Req) : State :=
  let s := s.deliverMem q
  match q.who with
  | .dma c =>
    if 256 ≤ c then s.ctxIrq (c - 256) (tagBeat q.tag) (tagCount q.tag == 1)
    else if tagCount q.tag = 1 then s.raise (tagBeat q.tag) else s
  | _ => s

/-- A beat's request at its destination: it joins the burst before it, whose requests leave as one (R257); else that burst
leaves and a new one begins. A record goes at once. -/
def State.deliverDma (s : State) (q : Req) : State :=
  if tagKind q.tag = 3 then s.deliverRec q
  else
  let near (x : Req) : Bool := x.who == q.who && tagKind x.tag == tagKind q.tag
  match q.who with
  | .dma c =>
    match s.chan c with
    | none => s.deliverMem q
    | some r =>
      match r.beats.find? fun b => b.tag == tagBeat q.tag with
      | none => s.deliverMem q
      | some b =>
        let alone := !burstTarget q || s.extend q != 0 || s.lockedFor q
        match s.bursts.find? near with
        | some x =>
          if !alone && r.continues x b && reqJoins r.desc x q then
            { s with bursts := mapIf near (fun x => reqJoin r.desc x q) s.bursts }.retire q
          else
            let s := s.burstSend near
            if alone then s.deliverMem q else { s with bursts := s.bursts ++ [q] }
        | none => if alone then s.deliverMem q else { s with bursts := s.bursts ++ [q] }
  | _ => s.deliverMem q

/-- Sends a request of the engine through the stage, charged to its account (R323). -/
def State.dmaSend (s : State) (r : Req) : State :=
  let s := match s.peek r with
    | some q => s.govCharge r q s.tick
    | none => s
  s.stage State.deliverDma r

/-! ### Completion records (R267, R277) -/

/-- The bytes of a record but for TIME. -/
def recBytes (slot status flags user residue c errOff : Nat) : List Byte :=
  toBytes 2 slot ++ toBytes 1 status ++ toBytes 1 flags ++ toBytes 4 user ++ toBytes 8 (residue % 2 ^ 40 + c * 2 ^ 40)
    ++ toBytes 8 errOff

/-- The owner and slice of a context (R315). -/
def State.ctxOwner (s : State) (x : Nat) : Nat × Option Nat :=
  (s.fld .SHR_CTX_BIND_FUNC x, if s.flag .SHR_CTX_BIND_SLICE_EN x then some (s.fld .SHR_CTX_BIND_SLICE x) else none)

/-- Writes 32 bytes of a record at an address of a space, in an owner's name; `n` is the CQ slot or the source of its
interrupt. -/
def State.recWrite (s : State) (ch owner : Nat) (slice : Option Nat) (space a : Nat) (data : List Byte) (irq : Bool)
    (n : Nat) : State :=
  s.dmaSend
    { who := .dma ch, kind := .write, addr := a, len := 32, data := data ++ toBytes 8 s.now, priv := owner == 0
      fn := owner, slice := slice, tag := dmaTag 3 (bit irq) n, space := space }

/-- A record of a context leaves, and its interrupt follows. -/
def State.cqIssue (s : State) (x cqSlot : Nat) (data : List Byte) (irq : Bool) : State :=
  let (f, sl) := s.ctxOwner x
  s.recWrite (256 + x) f sl (s.fld .DMA_CQ_CFG_SPACE x) (s.fld .DMA_CQ_BASE_BASE x * 4096 + 32 * cqSlot) data irq cqSlot

/-- Appends a record to the CQ of a context: PHASE and TAIL (R267), and the RECORD of the mirror, which a record that leaves
J1 awaits in a pair (R395, R397). -/
def State.cqAppend (s : State) (x slot status flags user residue c errOff : Nat) (irq : Bool) : State :=
  let n := s.cqSize x
  let t := s.fld .DMA_CQ_PTR_TAIL x % n
  let ph := s.fld .DMA_CQ_PTR_PHASE x
  let data := recBytes slot status (flags + ph) user residue c errOff
  let s := s.set .DMA_CQ_PTR_TAIL x ((t + 1) % n)
  let s := if t + 1 = n then s.set .DMA_CQ_PTR_PHASE x (1 - ph) else s
  if s.mirrors then
    let s := s.mirror 8 x (wordsOf (data ++ toBytes 8 s.now))
    if s.fld .DMA_CQ_CFG_SPACE x ≠ 1 then s.cqIssue x t data irq
    else { s with mirWait := s.mirWait ++ [(s.fld .SEM_MSEQ_TX, MirWait.record x t slot data irq)] }
  else s.cqIssue x t data irq

/-- A CQ slot is free beyond those reserved (R267). -/
def State.cqRoom (s : State) (x : Nat) : Bool :=
  let n := s.cqSize x
  let used := (s.fld .DMA_CQ_PTR_TAIL x + n - s.fld .DMA_CQ_PTR_HEAD x % n) % n
  decide (used + (s.ringOf x).reserved + 1 < n)

/-- SQ ACTIVE while descriptors are taken or running, IDLE otherwise; HALTED and STOPPED stay. -/
def State.sqSettle (s : State) (x : Nat) : State :=
  let r := s.ringOf x
  let s := s.set .DMA_SQ_STS_RUNNING x r.running.length
  if s.fld .DMA_SQ_STS_STATE x = 3 then s
  else if !s.flag .DMA_SQ_CFG_EN x then s.set .DMA_SQ_STS_STATE x 0
  else s.set .DMA_SQ_STS_STATE x (if r.running = [] && r.taken = [] && !r.fetching then 1 else 2)

/-! ### How a transfer ends (R260, R270 to R273) -/

/-- The fields a record is made of: flags, status and offset as the channel's registers hold them. -/
def State.chRecord (s : State) (c : Nat) (r : ChRun) : State :=
  let status := s.fld .DMA_CH_STS_STATUS c
  let flags := s.fld .DMA_CH_STS_FLAGS c
  let errOff := s.fld .DMA_CH_ERR_OFF_OFFSET c
  match r.ctx with
  | some x =>
    let g := s.ringOf x
    let s := s.setRing x { g with running := g.running.filter fun e => e.2 != c, reserved := g.reserved - 1 }
    let s := s.cqAppend x r.slot status flags (dUser r.words) (r.size - r.next) c errOff (dIrq r.words)
    let s := (s.set .DMA_CH_STS_STATE c chIDLE).dropChan c
    s.sqSettle x
  | none =>
    let irq := s.flag .DMA_CH_CFG_IRQ_EN c
    let src := s.fld .DMA_CH_CFG_IRQ_SRC c
    if s.flag .DMA_CH_CFG_WB_EN c then
      s.recWrite c r.owner r.slice (s.fld .DMA_CH_CFG_WB_SPACE c) (s.fld .DMA_CH_WB_ADDR c * 32)
        (recBytes (s.fld .DMA_CH_RUNS_RUNS c % 65536) status (flags + 1) (dUser r.words) (r.size - r.next) c errOff) irq src
    else if irq then s.raise src else s

/-- A record of a context waits: in CONTAIN (R487), or for Bus Master Enable when it goes to the host (R277). -/
def State.cqHolds (s : State) (x : Nat) : Bool :=
  s.mode == .CONTAIN || (s.fld .DMA_CQ_CFG_SPACE x == 1 && !s.bme (s.ctxOwner x).1)

/-- The record of a transfer waits likewise. -/
def State.recHolds (s : State) (c : Nat) (r : ChRun) : Bool :=
  match r.ctx with
  | some x => s.cqHolds x
  | none => s.flag .DMA_CH_CFG_WB_EN c
      && (s.mode == .CONTAIN || (s.fld .DMA_CH_CFG_WB_SPACE c == 1 && !s.bme r.owner))

/-- A status that is an error (R272): not OK, POISONED, MASTER_OFF or ABORTED. -/
def isErr (st : Nat) : Bool := st != 0 && st != 5 && st != 10 && st != 0x10

/-- The transfer is being hard-aborted by a rinse of its owner. -/
def ChRun.rinsed (r : ChRun) : Bool := r.stop == .hard && r.cause == 2

/-- A transfer ends with a status at an offset: registers, counters, the ring's halt (R265), the record and the
interrupt, or their wait for Bus Master Enable (R277); a rinse leaves no record (R278). -/
def State.chEnd (s : State) (c : Nat) (r : ChRun) (st errOff : Nat) : State :=
  let st := if st = 0 ∧ r.poisOff.isSome then 5 else st
  let off := if st = 0 ∨ st = 5 then (match r.mism, r.poisOff with | some m, _ => m | none, some p => p | _, _ => 0)
    else errOff
  let start := st == 0x11 || st == 0x13
  let tail := isErr st && !start && decide (r.size ≤ r.next)
  let done := st == 0 || st == 5 || tail
  let flags := 2 * bit done + 4 * bit tail + 8 * bit r.mism.isSome + 32 * bit r.desc
    + 64 * (if st = 0x10 then r.cause else 0)
  let s := ((s.set .DMA_CH_STS_STATUS c st).set .DMA_CH_STS_FLAGS c flags).set .DMA_CH_ERR_OFF_OFFSET c off
  let s := s.set .DMA_CH_RESIDUE_RESIDUE c (r.size - r.next)
  let s := if isErr st then s.count .DMA_ERR_CNT_ERR else if st = 0x10 then s.count .DMA_ABORT_CNT_ABORT else s
  let s := s.set .DMA_CH_STS_STATE c (if r.ctx.isNone && (st == 0 || (st == 5 && !tail)) then chIDLE else chHALTED)
  let r := { r with beats := [], done := errOff }
  let s := s.setChan c r
  let s := match r.ctx with
    | some x => if start then (s.set .DMA_SQ_STS_STATE x 3).set .DMA_SQ_STS_DESC_ERR x 1 else s
    | none => s
  if r.rinsed then
    (match r.ctx with
     | some x =>
       let g := s.ringOf x
       if g.running.any fun e => e.2 == c then
         s.setRing x { g with running := g.running.filter fun e => e.2 != c, reserved := g.reserved - 1 }
       else s
     | none => s).chReset c
  else if s.recHolds c r then
    { s with held := s.held ++ [Held.chan c] }.set .DMA_CH_STS_REC_HELD c 1
  else s.chRecord c r

/-! ### Progress of a transfer -/

/-- Beats that have arrived at the head of the list leave it; served pace units are counted, but
not those served while the port is DOWN (R269). -/
def State.chAdvance (s : State) (c : Nat) (r : ChRun) : State :=
  let lead := r.beats.takeWhile fun b => b.st == .arrived
  let done := r.done + (lead.map (·.len)).sum
  let r := { r with beats := r.beats.drop lead.length, done := done }
  let served := if !dReq r.words ∨ paceUnit r.words = 0 then 0
    else if done = r.size then (r.size + paceUnit r.words - 1) / paceUnit r.words else done / paceUnit r.words
  let s := if r.servedUnits < served then
      let p := dLine r.words / 16
      let l := s.port p
      let k := dLine r.words % 16
      s.when (s.urUp p) fun s => s.setPort p { l with served := nSet l.served k (nGet l.served k + (served - r.servedUnits)) }
    else s
  (s.setChan c { r with servedUnits := max served r.servedUnits }).set .DMA_CH_RESIDUE_RESIDUE c (r.size - r.next)

/-- The next beat to write: the first that is not being written and has not arrived, when its data is there. -/
def nextWrite : List Beat → Option Beat
  | [] => none
  | b :: t => match b.st with
    | .writing => nextWrite t
    | .arrived => nextWrite t
    | .ready => some b
    | _ => none

/-- The destination of a beat is the host. -/
def State.beatToHost (s : State) (c : Nat) (r : ChRun) (b : Beat) : Bool :=
  match s.peek (wrReq c r b) with
  | some q => q.toHost
  | none => false

/-- The next beat a channel may write: none towards the host once Bus Master Enable stopped it (R277). -/
def State.writable (s : State) (c : Nat) (r : ChRun) : Option Beat :=
  match nextWrite r.beats with
  | some b => if r.stop == .masterOff && s.beatToHost c r b then none else some b
  | none => none

/-- Nothing of a stopping channel is outstanding any more (R272, R275, R277). -/
def State.stopDone (s : State) (c : Nat) (r : ChRun) : Bool :=
  !(r.beats.any fun b => b.st == .reading || b.st == .writing) && (s.writable c r).isNone

/-- The status of a stop (R272): the earliest failed beat decides, and everything arrived means OK. -/
def ChRun.stopStatus (r : ChRun) : Nat :=
  match r.errOff with
  | some (_, st) => st
  | none =>
    if r.size ≤ r.done && r.beats == [] then 0
    else match r.stop with | .masterOff => 10 | .run => 0 | _ => 0x10

/-- Ends a transfer whose last beat has arrived (R266), while it runs. -/
def State.chFinish (s : State) (c : Nat) : State :=
  match s.chan c with
  | none => s
  | some r =>
    if (s.chState c = chRUN ∨ s.chState c = chWAIT ∨ s.chState c = chDRAIN) ∧ r.size ≤ r.next ∧ r.beats = []
        ∧ r.errOff = none then s.chEnd c r 0 0
    else s

/-- Ends a stop that has nothing outstanding (R272, R275). -/
def State.chStopEnd (s : State) (c : Nat) : State :=
  match s.chan c with
  | none => s
  | some r => if s.chState c = chSTOPPING ∧ s.stopDone c r then s.chEnd c r r.stopStatus r.done else s

/-- A beat fails (R272): the channel makes a soft stop; of several failures the earliest in transfer order decides. -/
def State.beatFail (s : State) (c : Nat) (r : ChRun) (b : Beat) (st : Nat) : State :=
  let r := { r with beats := mapIf (fun x => x.tag == b.tag) (fun x => { x with st := .failed, status := st }) r.beats }
  let r := { r with errOff := (match r.errOff with
    | some (o, t) => if o ≤ b.off then some (o, t) else some (b.off, st)
    | none => some (b.off, st)) }
  let r := if r.stop == .hard then r else { r with stop := .error }
  let s := s.setChan c r
  if s.chState c = chRUN ∨ s.chState c = chWAIT ∨ s.chState c = chDRAIN then s.set .DMA_CH_STS_STATE c chSTOPPING else s

/-- All reads of a beat have returned: it waits to be written, or it is compared and has arrived (R255, R266, R274). -/
def beatRead (r : ChRun) (b : Beat) : ChRun :=
  let put (x : Beat) : List Beat := mapIf (fun y => y.tag == b.tag) (fun _ => x) r.beats
  let after := match r.errOff with | some (o, _) => decide (o < b.off) | none => false
  let po := b.pois.map (byteOff r b)
  let r := { r with poisOff := po.foldl (fun m o => match m with | some x => some (min x o) | none => some o) r.poisOff }
  if after then { r with beats := put { b with st := .abandoned } }
  else if writesDst r.words then { r with beats := put { b with st := .ready } }
  else
    let other := if dOp r.words = 2 then b.data2 else patBytes r.words b.src b.len
    let diff := (List.range b.len).filter fun i =>
      !(b.pois.contains i) && b.data.getD i 0 != other.getD i 0
    let m := (diff.map (byteOff r b)).foldl (fun m o => match m with | some x => some (min x o) | none => some o) r.mism
    { r with mism := m, beats := put { b with st := .arrived } }

/-- One side of a beat's data comes in from a result. -/
def beatFill (b : Beat) (e : BeatDone) : Beat :=
  let src := tagKind e.tag == 0
  let o := (if src then b.src else b.dst) - e.addr
  let d := (e.data.drop o).take b.len
  let p := (List.range b.len).filter fun i => e.pois.contains ((e.addr % 64 + o + i) / 64)
  let p := (b.pois ++ p).eraseDups
  if src then { b with data := d, pois := p, rdS := false } else { b with data2 := d, pois := p, rdD := false }

/-- The beats a result is for, in transfer order. -/
def ChRun.beatsOf (r : ChRun) (e : BeatDone) : List Beat :=
  r.beats.filter fun b => tagBeat e.tag ≤ b.tag && b.tag < tagBeat e.tag + tagCount e.tag

/-- A read result reaches its beats. -/
def State.readResult (s : State) (c : Nat) (e : BeatDone) : State :=
  match s.chan c with
  | none => s
  | some r =>
    s.each (r.beatsOf e) fun s b =>
      match s.chan c with
      | none => s
      | some r =>
        match r.beats.find? fun x => x.tag == b.tag with
        | none => s
        | some b =>
          if b.st ≠ .reading then s
          else if e.status ≠ 0 ∧ e.status ≠ 5 then s.beatFail c r b e.status
          else
            let b := beatFill b e
            if b.rdS || b.rdD then
              s.setChan c { r with beats := mapIf (fun y => y.tag == b.tag) (fun _ => b) r.beats }
            else s.setChan c (beatRead r b)

/-- A write result reaches its beats. -/
def State.writeResult (s : State) (c : Nat) (e : BeatDone) : State :=
  match s.chan c with
  | none => s
  | some r =>
    s.each (r.beatsOf e) fun s b =>
      match s.chan c with
      | none => s
      | some r =>
        if e.status = 0 ∨ e.status = 5 then
          let hit (y : Beat) : Bool := y.tag == b.tag && y.st == .writing
          s.setChan c { r with beats := mapIf hit (fun y => { y with st := .arrived }) r.beats }
        else s.beatFail c r b e.status

/-- After any result: what has arrived is counted, and the transfer or its stop may end. -/
def State.chSettle (s : State) (c : Nat) : State :=
  match s.chan c with
  | none => s
  | some r => (s.chAdvance c r).chFinish c

/-! ### Start (R259, R260) -/

/-- A channel takes an image and starts. -/
def State.chStart (s : State) (c : Nat) (ctx : Option Nat) (slot : Nat) (w : List Nat) (owner : Nat) (slice : Option Nat) :
    State :=
  let size := dSize w
  let r : ChRun := { ctx := ctx, slot := slot, words := w, owner := owner, slice := slice, size := size
                     desc := copyDesc w, next := 0, beats := [], nextTag := 0, done := 0, units := 0, servedUnits := 0
                     stop := .run, cause := 0, errOff := none, mism := none, poisOff := none, drainFrom := chRUN }
  let s := (s.setChan c r).set .DMA_CH_STS_STATE c chRUN
  let s := ((s.set .DMA_CH_STS_STATUS c 0).set .DMA_CH_STS_FLAGS c 0).set .DMA_CH_RESIDUE_RESIDUE c size
  let s := s.set .DMA_CH_RUNS_RUNS c (s.fld .DMA_CH_RUNS_RUNS c + 1)
  match startCheck w owner with
  | some st => s.chEnd c r st 0
  | none => s.chFinish c

/-- The image registers of a channel as descriptor words. -/
def State.chImage (s : State) (c : Nat) : List Nat :=
  [s.fld .DMA_CH_OP_WORD c, s.fld .DMA_CH_COUNT_WORD c, s.fld .DMA_CH_SRC_WORD c, s.fld .DMA_CH_DST_WORD c,
    s.fld .DMA_CH_STRIDE_WORD c, s.fld .DMA_CH_PATTERN_WORD c, 0, 0]

/-- A DIRECT channel and its owner (R252). -/
def State.chDirect (s : State) (c : Nat) : Bool := s.fld .DMA_CH_CFG_MODE c == 0
def State.chOwner (s : State) (c : Nat) : Nat × Option Nat :=
  (s.fld .DMA_CH_CFG_OWNER c, if s.flag .DMA_CH_CFG_SLICE_EN c then some (s.fld .DMA_CH_CFG_SLICE c) else none)

/-! ### Issue (R268, R269) -/

/-- The engine works: its domain is on and the module is neither a follower nor contained (R398, R487). -/
def State.dmaRuns (s : State) : Bool := s.domOn 15 && s.mode != .FOLLOW && s.mode != .CONTAIN

/-- A pace unit is due for which no request has been taken yet. -/
def unitDue (r : ChRun) : Bool :=
  dReq r.words && decide (paceUnit r.words ≠ 0) && decide (r.units * paceUnit r.words ≤ r.next)

/-- The beat a channel would issue next. -/
def ChRun.newBeat (r : ChRun) : Beat :=
  let (l, src, dst) := beatAt r.words r.desc r.next r.size
  { tag := r.nextTag, off := r.next, len := l, src := src, dst := dst, st := .reading, rdS := usesSrc r.words
    rdD := readsDst r.words, data := [], data2 := [], pois := [], status := 0 }

/-- The governor lets a channel issue a request (R325). -/
def State.dmaMay (s : State) (r : Req) : Bool :=
  match s.peek r with
  | some q => s.govMay r q
  | none => true

/-- Staging slots of a channel in use (R258): a beat has its slot until its data is handed to the fabric for writing. -/
def State.slotsUsed (s : State) (c : Nat) (r : ChRun) : Nat :=
  (r.beats.filter fun b => b.st == .reading || b.st == .ready).length
    + ((s.bursts.filter fun x => x.who == .dma c && x.kind == .write).map fun x => tagCount x.tag).sum

/-- A write of the channel waits for its translation: no later beat is written before it (R258). -/
def State.writeWaits (s : State) (c : Nat) : Bool := s.waitingReqs.any fun x => x.who == .dma c && x.kind == .write

/-- A channel can issue a source beat: in RUN, bytes left, a staging slot free, service left. -/
def State.canSource (s : State) (c : Nat) (r : ChRun) : Bool :=
  s.chState c == chRUN && decide (r.next < r.size) && decide (s.slotsUsed c r < 32) && !s.dmaDrain &&
    !(dOp r.words == 1 && s.writeWaits c) &&
    (let b := r.newBeat
     (!usesSrc r.words || s.dmaMay (srcReq c r b)) && (!readsDst r.words || s.dmaMay (dstReq c r b))
       && (dOp r.words != 1 || s.dmaMay (wrReq c r b)))

/-- A channel can write its next beat. Writes of beats already issued go on in every state of a transfer (assumption
18). -/
def State.canWrite (s : State) (c : Nat) (r : ChRun) : Bool :=
  s.chBusy c && !s.writeWaits c && (match s.writable c r with
    | some b => s.dmaMay (wrReq c r b)
    | none => false)

/-- The channel served next in a half (R268): highest priority, round-robin among equals after the last one served. -/
def State.pickChan (s : State) (half : Nat) : Option Nat :=
  let last := if half = 0 then s.rrPos.1 else s.rrPos.2
  let can := s.chans.filter fun e => e.1 / 128 == half && (s.canSource e.1 e.2 || s.canWrite e.1 e.2)
  let top := (can.map fun e => dPrio e.2.words).foldl max 0
  let best := (can.filter fun e => dPrio e.2.words == top).map (·.1)
  match best.find? fun c => last < c + 1 with
  | some c => some c
  | none => best.head?

/-- A displaced channel is counted (R268): the one served last is still eligible and of lower priority. -/
def State.notePreempt (s : State) (half c : Nat) : State :=
  let last := if half = 0 then s.rrPos.1 else s.rrPos.2
  let prio (c : Nat) : Nat := match s.chan c with | some r => dPrio r.words | none => 0
  let s := match last with
    | 0 => s
    | l + 1 => match s.chan l with
      | some r => if l ≠ c ∧ (s.canSource l r || s.canWrite l r) ∧ prio l < prio c ∧ r.next ≠ 0 then
          s.count .DMA_PREEMPT_CNT_PREEMPT else s
      | none => s
  { s with rrPos := if half = 0 then (c + 1, s.rrPos.2) else (s.rrPos.1, c + 1) }

/-- The channels in WAIT_REQ on the line of a transfer that have no lower priority: each takes a request before it
(R269). -/
def State.reqAhead (s : State) (c : Nat) (r : ChRun) : Nat :=
  (s.chans.filter fun e => e.1 != c && s.chState e.1 == chWAIT && dReq e.2.words && dLine e.2.words == dLine r.words
    && decide (dPrio r.words ≤ dPrio e.2.words)).length

/-- A running channel takes one request of its line; none left for it puts it into WAIT_REQ (R269). -/
def State.takeUnit (s : State) (c : Nat) (r : ChRun) : State :=
  let p := s.fld .ULK_REQ_CNT_PENDING (dLine r.words)
  if p = 0 ∨ (s.chState c ≠ chWAIT ∧ p ≤ s.reqAhead c r) then s.set .DMA_CH_STS_STATE c chWAIT
  else ((s.set .ULK_REQ_CNT_PENDING (dLine r.words) (p - 1)).setChan c { r with units := r.units + 1 }).set
    .DMA_CH_STS_STATE c chRUN

/-- Issues the next source beat of a channel; a FILL writes at once. -/
def State.issueSource (s : State) (c : Nat) (r : ChRun) (err : MemErr) : State :=
  let b := r.newBeat
  let r' := { r with next := r.next + b.len, nextTag := r.nextTag + 1 }
  if dOp r.words = 1 then
    let b := { b with st := .writing, data := patBytes r.words b.dst b.len }
    let r := { r' with beats := r'.beats ++ [b] }
    ((s.setChan c r).set .DMA_CH_RESIDUE_RESIDUE c (r.size - r.next)).dmaSend { wrReq c r b with err := err }
  else
    let r := { r' with beats := r'.beats ++ [b] }
    let s := (s.setChan c r).set .DMA_CH_RESIDUE_RESIDUE c (r.size - r.next)
    let s := if b.rdS then s.dmaSend { srcReq c r b with err := err } else s
    if b.rdD then s.dmaSend { dstReq c r b with err := err } else s

/-- Issues the next destination beat of a channel. -/
def State.issueWrite (s : State) (c : Nat) (err : MemErr) : State :=
  match s.chan c with
  | none => s
  | some r =>
    if !s.canWrite c r then s
    else match s.writable c r with
      | none => s
      | some b =>
        let r := { r with beats := mapIf (fun x => x.tag == b.tag) (fun x => { x with st := .writing }) r.beats }
        (s.setChan c r).dmaSend { wrReq c r b with err := err }

/-- A burst can still grow (R257): the beat after it continues it, and comes or can be issued. -/
def State.burstGrows (s : State) (c : Nat) (r : ChRun) (x : Req) : Bool :=
  let t := tagBeat x.tag + tagCount x.tag
  decide (tagCount x.tag < 32) &&
    (match r.beats.find? fun b => b.tag == t with
     | some b => r.continues x b &&
        (match b.st with
         | .reading => true
         | .writing => x.kind == .write
         | .ready => x.kind == .write && s.canWrite c r
         | _ => false)
     | none => r.nextTag == t && r.continues x r.newBeat && s.canSource c r
        && !(unitDue r && decide (s.fld .ULK_REQ_CNT_PENDING (dLine r.words) ≤ s.reqAhead c r)))

/-- Bursts of a half that cannot grow leave, and those of a channel that has ended. A channel displaced by a higher
priority keeps its burst (R280). -/
def State.burstSettle (s : State) (half : Nat) : State :=
  s.burstSend fun x => match x.who with
    | .dma c => c / 128 == half && (match s.chan c with | some r => !s.burstGrows c r x | none => true)
    | _ => true

/-- One issue cycle of a half (R268); `err` is what its accesses find in the SRAM or the store (R450). In CONTAIN every channel is in DRAIN, whose issued beats run on. -/
def State.dmaIssue (s : State) (half : Nat) (err : MemErr) : State :=
  if !s.domOn 15 || s.mode == .FOLLOW then s
  else match s.pickChan half with
    | none => s
    | some c =>
      match s.chan c with
      | none => s
      | some r =>
        let s := s.notePreempt half c
        let s := if s.canSource c r then
            (if unitDue r then
               let s := s.takeUnit c r
               match s.chan c with
               | some r => if s.chState c = chRUN then s.issueSource c r err else s
               | none => s
             else s.issueSource c r err)
          else s
        s.issueWrite c err

/-- A cycle of a half: what it issues, and the bursts that leave after it (R257, R268). -/
def State.dmaCycle (s : State) (half : Nat) (err : MemErr) : State := (s.dmaIssue half err).burstSettle half

/-! ### Rings (R261, R264, R265) -/

/-- Slots to be dispatched again that have not been read yet (R402). -/
def Ring.todo (g : Ring) : List Nat := g.redo.filter fun k => !(g.taken.any fun e => e.1 == k)

/-- Reads up to 8 descriptors from the first slot not taken yet, not past the ring's end, in the owner's name. Slots
dispatched again after a takeover come first, one at a time. -/
def State.ringFetch (s : State) (x : Nat) : State :=
  let g := s.ringOf x
  let n := s.sqSize x
  let next := (s.fld .DMA_SQ_STS_HEAD x + (g.taken.filter fun e => !g.redo.contains e.1).length) % n
  let (h, k) := match g.todo with
    | k :: _ => (k % n, 1)
    | [] => (next, min 8 (n - next))
  let (f, sl) := s.ctxOwner x
  let s := s.setRing x { g with fetching := true, again := false, rung := false }
  (s.sqSettle x).dmaSend
    { who := .dma (256 + x), kind := .read, addr := s.fld .DMA_SQ_BASE_BASE x * 4096 + 64 * h, len := 64 * k
      priv := f == 0, fn := f, slice := sl, tag := dmaTag 0 g.gen h, space := s.fld .DMA_SQ_CFG_SPACE x }

/-- A context may be served by the ring engine. -/
def State.ringServed (s : State) (x : Nat) : Bool :=
  s.dmaRuns && !s.dmaDrain && s.flag .SHR_CTX_BIND_VALID x && s.flag .DMA_SQ_CFG_EN x && s.fld .DMA_SQ_STS_STATE x != 3
    && !s.frozen x

/-- Rings an SQ (R264): a read is issued, or one more becomes due when one is in flight. -/
def State.ringBell (s : State) (x : Nat) : State :=
  if !s.flag .DMA_SQ_CFG_EN x || s.fld .DMA_SQ_STS_STATE x == 3 || !s.flag .SHR_CTX_BIND_VALID x then s
  else
    let g := s.ringOf x
    if g.fetching then s.setRing x { g with again := true }
    else if s.ringServed x then s.ringFetch x
    else s.setRing x { g with rung := true }

/-- The record of a read error waits for a CQ slot, and is written or held when one is free (R265, R267). -/
def State.ringPendRec (s : State) (x : Nat) : State :=
  let g := s.ringOf x
  match g.pendRec with
  | none => s
  | some slot =>
    if !s.cqRoom x || s.held.contains (.chan (256 + x)) then s
    else if s.cqHolds x then { s with held := s.held ++ [.chan (256 + x)] }
    else (s.setRing x { g with pendRec := none }).cqAppend x slot 0x12 0 0 0 0 0 false

/-- Words of the descriptors in fetched data. -/
def descWords (d : List Byte) : Nat → List (List Nat)
  | 0 => []
  | n + 1 => wordsOf (d.take 64) :: descWords (d.drop 64) n

/-- Takes produced descriptors in slot order, from slot `h` with expected phase `ph`; answers them and whether all were
produced. -/
def takeDescs (n : Nat) : Nat → Bool → List (List Nat) → List (Nat × List Nat) × Bool
  | _, _, [] => ([], true)
  | h, ph, w :: t =>
    if (wWord w 0).testBit 0 != ph then ([], false)
    else
      let (r, all) := takeDescs n ((h + 1) % n) (if h + 1 = n then !ph else ph) t
      ((h, w) :: r, all)

/-- A descriptor read returns (R264, R265). -/
def State.ringTake (s : State) (x : Nat) (e : BeatDone) : State :=
  let g := s.ringOf x
  if !g.fetching || tagCount e.tag != g.gen then s
  else if e.status ≠ 0 then
    let head := s.fld .DMA_SQ_STS_HEAD x
    let s := s.setRing x { g with fetching := false, again := false, taken := [], pendRec := some head }
    ((s.set .DMA_SQ_STS_STATE x 3).set .DMA_SQ_STS_FETCH_ERR x 1).ringPendRec x
  else
    let n := s.sqSize x
    let head := s.fld .DMA_SQ_STS_HEAD x
    let h := tagBeat e.tag
    let ph := s.flag .DMA_SQ_STS_PHASE x
    let ws := descWords e.data (e.data.length / 64)
    let (new, all) := if g.todo.contains h then (ws.map fun w => (h, w), true)
      else takeDescs n h (if h < head then !ph else ph) ws
    let s := s.setRing x { g with fetching := false, taken := g.taken ++ new, again := g.again || all }
    let s := s.sqSettle x
    if g.again && s.ringServed x then s.ringFetch x else s

/-- The pool channel a descriptor is dispatched to (R264): half 0 first, and of a half only beyond HI_RESV for
priorities below 6. -/
def State.poolChan (s : State) (prio : Nat) : Option Nat :=
  let idle (half : Nat) : List Nat := (List.range 128).filterMap fun i =>
    let c := 128 * half + i
    if s.chState c == chIDLE && !s.chDirect c then some c else none
  let resv := min 64 (s.fld .DMA_CFG_HI_RESV)
  let pick (half : Nat) : Option Nat :=
    let l := idle half
    if 6 ≤ prio ∨ resv < l.length then l.head? else none
  (pick 0).or (pick 1)

/-- The governor grants a context service for a descriptor (R264). -/
def State.ctxMay (s : State) (x : Nat) (w : List Nat) : Bool :=
  let (f, sl) := s.ctxOwner x
  let rq (kind : Kind) (sp a : Nat) : Req :=
    { who := .dma (256 + x), kind := kind, addr := a, len := 1, data := if kind == .write then [0] else [], priv := f == 0
      fn := f, slice := sl, space := sp }
  (!usesSrc w || s.dmaMay (rq .read (dSrcSp w) (wWord w 2))) && (!readsDst w || s.dmaMay (rq .read (dDstSp w) (wWord w 3)))
    && (!writesDst w || s.dmaMay (rq .write (dDstSp w) (wWord w 3)))

/-- Dispatches the next taken descriptor of a context when every condition of R264 holds. -/
def State.ringDispatch (s : State) (x : Nat) : State :=
  let g := s.ringOf x
  match g.taken with
  | [] => if (g.again || g.rung) && !g.fetching && s.ringServed x then s.ringFetch x else s
  | (slot, w) :: rest =>
    let par := min 8 (max 1 (s.fld .DMA_SQ_CFG_PAR x))
    if !s.ringServed x || !s.flag .DMA_CFG_EN || !s.flag .DMA_CQ_CFG_EN x || decide (par ≤ g.running.length)
        || (dFence w && g.running != []) || !s.cqRoom x || !s.ctxMay x w then s
    else match s.poolChan (dPrio w) with
      | none => s
      | some c =>
        let n := s.sqSize x
        let h := (slot + 1) % n
        let again := g.redo.contains slot
        let s := s.setRing x { g with taken := rest, running := g.running ++ [(slot, c)], reserved := g.reserved + 1
                                      redo := g.redo.erase slot }
        let s := if again then s else s.set .DMA_SQ_STS_HEAD x h
        let s := if h = 0 && !again then s.set .DMA_SQ_STS_PHASE x (1 - s.fld .DMA_SQ_STS_PHASE x) else s
        let s := s.sqSettle x
        let s := s.mirror 7 (x + slot * 4096 + c * 268435456) []
        let s := s.each (w.zip [Fld.DMA_CH_OP_WORD, .DMA_CH_COUNT_WORD, .DMA_CH_SRC_WORD, .DMA_CH_DST_WORD,
          .DMA_CH_STRIDE_WORD, .DMA_CH_PATTERN_WORD]) fun s e => s.set e.2 c e.1
        let (f, sl) := s.ctxOwner x
        let s := s.chStart c (some x) slot w f sl
        if rest = [] && g.again && !(s.ringOf x).fetching && s.ringServed x then s.ringFetch x else s

/-- DMA_RING_CTL.RESET, or the reset of a context's rings by rinse (R103, R282). A HALTED SQ stays HALTED. -/
def State.ringReset (s : State) (x : Nat) : State :=
  let s := s.setRing x { gen := ((s.ringOf x).gen + 1) % 64 }
  let s := (s.set .DMA_SQ_STS_HEAD x 0).set .DMA_SQ_STS_PHASE x 1
  let s := ((s.set .DMA_CQ_PTR_TAIL x 0).set .DMA_CQ_PTR_HEAD x 0).set .DMA_CQ_PTR_PHASE x 1
  let s := { s with cqIrq := s.cqIrq.filter fun c => c.1 != x, held := s.held.erase (.chan (256 + x)) }
  s.sqSettle x

/-- DMA_RING_CTL.RESUME (R265): the slot at HEAD is read again, and what was taken before the halt is not used. -/
def State.ringResume (s : State) (x : Nat) : State :=
  if s.fld .DMA_SQ_STS_STATE x = 3 then
    let g := s.ringOf x
    let s := s.setRing x { g with taken := [], fetching := false, again := false, gen := (g.gen + 1) % 64 }
    ((s.set .DMA_SQ_STS_STATE x 1).sqSettle x).ringBell x
  else s

/-- The context behind doorbell or status `k` of a function (R316). -/
def State.ctxAt (s : State) (f k : Nat) : Option Nat :=
  let x := s.fld .FN_RES_FIRST_CTX f + k
  if k < s.fld .FN_RES_CTX_COUNT f ∧ x < 4096 ∧ s.flag .SHR_CTX_BIND_VALID x ∧ s.fld .SHR_CTX_BIND_FUNC x = f then some x
  else none

/-- A doorbell write of a function (R316, R317): the pointers, the CTX_PTR record due, the ring. -/
def State.ctxDoorbell (s : State) (f k v : Nat) : State :=
  match s.ctxAt f k with
  | none => s.count .SHR_DB_DROP_CNT
  | some x =>
    let g := s.ringOf x
    let tv := v.testBit 16
    let hv := v.testBit 48
    let was := s.level x
    let s := if tv then s.setRing x { g with tail := bits v 15 0, tv := true } else s
    let s := if hv then s.set .DMA_CQ_PTR_HEAD x (bits v 47 32) else s
    let s := s.relevel x was
    let s := if (tv || hv) && s.mirrors && !s.ctxDirty.contains x then { s with ctxDirty := s.ctxDirty ++ [x] } else s
    let s := s.ringPendRec x
    if v.testBit 17 then s else s.ringBell x

end Sys2Proof.Machine
end

