-- ==== Sys2Proof/Machine/GovStep.lean ====
section
/-!
DEFINITION. The share governor's clockwork (R327 to R338): sums and admission, entitlements, the grants of an epoch,
measurement windows, steps, share updates, context bindings.
-/
namespace Sys2Proof.Machine

/-! ### Shares -/

/-- The accounts whose share or mask is not at reset. -/
def State.shareAccts (s : State) : List Nat :=
  ((s.listed .SHR_CTX_SHARE_SHARE ++ s.listed .SHR_CTX_RES_MASK)
    ++ ((s.listed .SHR_PORT_SHARE_SHARE ++ s.listed .SHR_PORT_RES_MASK).map (4096 + ·))).eraseDups

/-- The reservation a share makes on a resource for a class (R327). -/
def resvOf (cls : Nat) (sh : Nat × Nat) (r : Nat) : Nat :=
  if shClass sh.1 = cls ∧ sh.2.testBit r then shRate sh.1 else 0

/-- G0 and G1 of a resource (R330). -/
def State.gSum (s : State) (cls r : Nat) : Nat := (s.shareAccts.map fun a => resvOf cls (s.shareNow a) r).sum

/-- C2_RSV in effect. -/
def State.c2Rsv (s : State) : Nat := min 50 (s.fld .SHR_CFG_C2_RSV)

/-- Writes an account's committed share and mask. -/
def State.setShare (s : State) (a : Nat) (sh : Nat × Nat) : State :=
  if a < 4096 then (s.set .SHR_CTX_SHARE_SHARE a sh.1).set .SHR_CTX_RES_MASK a sh.2
  else (s.set .SHR_PORT_SHARE_SHARE (a - 4096) sh.1).set .SHR_PORT_RES_MASK (a - 4096) sh.2

/-- A share word or mask that an update refuses as BAD_SHARE (R331). -/
def badShare (sh : Nat × Nat) : Bool :=
  bits sh.1 3 2 != 0 || decide (2 ^ 36 ≤ sh.2) || (shClass sh.1 < 2 && shRate sh.1 == 0)

/-- The first resource that refuses a share (R330). -/
def State.admitFail (s : State) (a : Nat) (new : Nat × Nat) : Option Nat :=
  let old := s.shareNow a
  let res (sh : Nat × Nat) (r : Nat) : Nat := resvOf 0 sh r + resvOf 1 sh r
  (List.range resCount).find? fun r =>
    decide (res old r < res new r) &&
      (!s.resPresent r ||
        decide (s.cap r * (100 - s.c2Rsv) / 100 < s.gSum 0 r + s.gSum 1 r - res old r + res new r))

/-! ### Entitlements and grants (R328, R329, R332) -/

/-- What a resource allows of an account's rate at its level (R332); none when the class is cut or not rated. -/
def State.entOn (s : State) (cls rate r : Nat) : Nat :=
  let lv := s.fld .SHR_RES_STS_LEVEL r
  let fa := s.fld .SHR_RES_STS_FACTOR r
  if cls = 0 then (if lv = 3 then rate * fa / 4096 else rate)
  else if cls = 1 then (if lv = 3 then 0 else if lv = 2 then rate * fa / 4096 else rate)
  else 0

/-- An account's entitlement in MB/s: the lowest its resources allow. -/
def State.entitlement (s : State) (sh : Nat × Nat) : Nat :=
  if shClass sh.1 < 2 then (maskRes sh.2).foldl (fun m r => min m (s.entOn (shClass sh.1) (shRate sh.1) r)) (shRate sh.1)
  else 0

/-- A resource of the mask cuts class 2 (levels 2 and 3), or class 3 (above level 0). -/
def State.cutOn (s : State) (cls r : Nat) : Bool :=
  let lv := s.fld .SHR_RES_STS_LEVEL r
  if cls = 3 then lv != 0 else decide (2 ≤ lv)

/-- The share an account acts under: its own, or class 3 with weight 1 for implicit accounts and service outside the
mask. -/
def State.shareActing (s : State) (k : Nat) : Nat × Nat := s.shareIn (if k < 8192 then k else 8192)

/-- The credit accounts with demand: those with a request that waits for credit, and those whose channels or rings have
work (R328). -/
def State.demand (s : State) : List Nat :=
  let q := s.govq.filterMap fun e => match s.peek e.2 with
    | some q => (s.acctOf e.2 q).map fun a => s.creditAcct a (s.crosses q).1
    | none => none
  let bk := (s.bskWait.filter fun r => atBasket r r).filterMap fun r =>
    (s.acctOf r r).map fun a => s.creditAcct a (s.crosses r).1
  let ch := s.chans.filterMap fun e =>
    if s.chBusy e.1 then s.acctOf (chReq e.1 e.2 .read 1 0 1 [] [] 0) (chReq e.1 e.2 .read 1 0 1 [] [] 0) else none
  let rg := s.rings.filterMap fun e => if e.2.taken != [] then some e.1 else none
  let base := (q ++ bk ++ ch ++ rg).eraseDups
  (base ++ (base.filter fun a => a < 8192).map (16384 + ·)).eraseDups

/-- The grants of an epoch on one resource (R329), to the credit accounts in `all`, of which `dem` have demand. -/
def State.grantRes (s : State) (all dem : List Nat) (r : Nat) : State :=
  let c := s.fld .SHR_RES_SUM_STEP_CAP r
  let rated := all.filter fun k => k < 8192 && shClass (s.shareActing k).1 < 2 && (s.shareActing k).2.testBit r
  let ent (k : Nat) : Nat := s.entitlement (s.shareActing k)
  let base := (rated.map ent).sum
  let carryMax := s.fld .SHR_CFG_CARRY
  let step := rated.foldl (fun (acc : State × Nat) k =>
    let have_ := s.credit k r
    let debt := min have_ 0
    let carry := min (min (max have_ 0).toNat (carryMax * ent k)) acc.2
    ({ acc.1 with govCredit := smSet (fun _ => 0) acc.1.govCredit (64 * k + r) (ent k + debt + carry) }, acc.2 - carry))
    (s, c - base)
  let s := step.1
  let pool := s.fld .SHR_RES_STS_BE_PCT r * step.2 / 100
  let inMask (k : Nat) : Bool := (s.shareActing k).2.testBit r || 16384 ≤ k
  let cls (k : Nat) : Nat := if 8192 ≤ k then 3 else shClass (s.shareActing k).1
  let two := dem.filter fun k => inMask k && (cls k == 2 || cls k == 1) && !s.cutOn 2 r
  let wsum := (two.map fun k => shWeight (s.shareActing k).1).sum
  let part (k : Nat) : Nat := if wsum = 0 then 0 else pool * shWeight (s.shareActing k).1 / wsum
  let three := dem.filter fun k => inMask k && cls k == 3 && !s.cutOn 3 r
  let left := pool - (two.map part).sum
  let each3 := if three.length = 0 then 0 else left / three.length
  let idle := all.filter fun k => !rated.contains k
  let s := s.each idle fun s k =>
    { s with govCredit := smSet (fun _ => 0) s.govCredit (64 * k + r) (min (s.credit k r) 0) }
  let add (n : Nat → Nat) (s : State) (k : Nat) : State :=
    { s with govCredit := smSet (fun _ => 0) s.govCredit (64 * k + r) (s.credit k r + n k) }
  (s.each two (add part)).each three (add fun _ => each3)

/-- The accounts that hold credit or debt. -/
def State.creditAccts (s : State) : List Nat := (s.govCredit.map fun e => e.1 / 64).eraseDups

/-- One epoch (R329): shares committed before it act, credit is granted on every resource, occupancy is measured, and
the follower learns the pointers that changed (R395 CTX_PTR). -/
def State.govEpoch (s : State) : State :=
  let s := { s with shareOld := [] }
  let s := s.set .SHR_TICK_EPOCHS 0 (s.fld .SHR_TICK_EPOCHS + 1)
  let dem := s.demand
  let all := (dem ++ s.shareAccts ++ s.creditAccts).eraseDups
  let s := s.each (List.range resCount) fun s r => s.grantRes all dem r
  let s := s.each (s.rings.map (·.1)) fun s x =>
    let w := smGet (fun _ => ({} : GovWin)) s.govWin x
    let w := { w with occ := w.occ + s.sqOcc x }
    { s with govWin := smSet (fun _ => {}) s.govWin x w }
  let s := s.each s.ctxDirty fun s x =>
    let g := s.ringOf x
    s.mirror 10 (x + g.tail * 2 ^ 12 + bit g.tv * 2 ^ 28 + s.fld .DMA_CQ_PTR_HEAD x * 2 ^ 29 + 2 ^ 45) []
  { s with ctxDirty := [] }

/-! ### Windows (R318, R333) -/

/-- RATE_EFF of a share (R318). -/
def State.rateEff (s : State) (sh : Nat × Nat) : Nat :=
  let c := shClass sh.1
  if c < 2 then s.entitlement sh
  else if (maskRes sh.2).any fun r => s.cutOn c r then 0 else 0xFFFFFFFF

/-- A window ends: every context's measured fields change together, resources report, and missed class 0 targets are
noted for the step. -/
def State.govWindow (s : State) : State :=
  let s0 := s
  let win (x : Nat) : GovWin := smGet (fun _ => ({} : GovWin)) s0.govWin x
  let s := s.each (List.range 4096) fun s x =>
    let w := win x
    let s := s.set .SHR_CTX_STS1_WORD x (s0.rateEff (s0.shareNow x) + (w.bytes / 100) % 4294967296 * 4294967296)
    let s := s.set .SHR_CTX_STS2_WORD x (w.waitMax % 4294967296
      + (if w.waits = 0 then 0 else w.waitSum / w.waits) % 4294967296 * 4294967296)
    s.set .SHR_CTX_STS3_WORD x (min 65535 (w.occ / 100))
  let s := s.each (List.range resCount) fun s r =>
    (s.set .SHR_RES_MEAS_USED r (nGet s0.resWin r / 100)).set .SHR_RES_MEAS_C0_LAT_MAX r (nGet s0.c0Wait r)
  let late := (s0.govWin.filter fun (e : Nat × GovWin) =>
    let sh := s0.shareNow e.1
    e.1 < 8192 && shClass sh.1 == 0 && shLat sh.1 != 0 && decide (shLat sh.1 < e.2.waitMax)).map (·.1)
  let s := s.each late fun s a =>
    s.each (maskRes (s0.shareNow a).2) fun s r => { s with govMiss := bSet s.govMiss r true }
  { s with govWin := [], resWin := [], c0Wait := [], winCount := s.winCount + 1 }

/-! ### Steps (R332 to R334) -/

/-- Level and FACTOR of a resource from capacity and sums (R332). At level 2 with G1 = 0 the rule's division by G1 states no
FACTOR, and it is `free`. -/
def levelOf (c g0 g1 r2 free : Nat) : Nat × Nat :=
  if c < g0 then (3, 4096 * c / g0)
  else if g0 + g1 + r2 ≤ c then (0, 4096)
  else if g0 + g1 < c then (1, 4096)
  else (2, if g1 = 0 then free else 4096 * (c - g0) / g1)

/-- A context's class is cut or scaled on a resource of its mask (R334). -/
def State.degradedNow (s : State) (a : Nat) : Bool :=
  let sh := s.shareNow a
  let c := shClass sh.1
  (maskRes sh.2).any fun r =>
    let lv := s.fld .SHR_RES_STS_LEVEL r
    lv == 3 || (lv == 2 && c != 0) || (lv == 1 && c == 3)

/-- BE_PCT after a step (R333). -/
def State.bePct (s : State) (r : Nat) : Nat × Nat :=
  let p := s.fld .SHR_RES_STS_BE_PCT r
  let floor_ := max 1 (s.fld .SHR_CFG_BE_MIN)
  if bGet s.govMiss r then (max (min floor_ p) (p / 2), 0)
  else
    let n := nGet s.cleanRun r + 1
    if max 1 (s.fld .SHR_CFG_CLEAN_STEPS) ≤ n then (min 100 (2 * p), 0) else (p, n)

/-- One step on one resource. -/
def State.stepRes (s : State) (r : Nat) : State :=
  let c := s.cap r
  let g0 := s.gSum 0 r
  let g1 := s.gSum 1 r
  let r2 := c * s.c2Rsv / 100
  let (v, s) := if g1 = 0 ∧ c = g0 ∧ r2 ≠ 0 then s.draw 12 else (0, s)
  let (lv, fa) := levelOf c g0 g1 r2 v
  let (p, n) := s.bePct r
  let chg := lv != s.fld .SHR_RES_STS_LEVEL r
  let s := s.set .SHR_RES_SUM_STEP_CAP r c
  let s := ((s.set .SHR_RES_STS_LEVEL r lv).set .SHR_RES_STS_FACTOR r fa).set .SHR_RES_STS_BE_PCT r p
  let s := { s with cleanRun := nSet s.cleanRun r n }
  if chg then s.evt 0x2060 .SHR_STS_LEVEL_CHG else s

/-- The event queue entry of a context whose degradation begins (8) or ends (9) (R334, R481). It names the resource of
its mask at the highest level, of these the lowest code (assumption 19). -/
def State.shareEvent (s : State) (x typ : Nat) : State :=
  let sh := s.shareNow x
  let lv := ((maskRes sh.2).map fun r => s.fld .SHR_RES_STS_LEVEL r).foldl max 0
  let r := ((maskRes sh.2).find? fun r => s.fld .SHR_RES_STS_LEVEL r == lv).getD 0
  s.evq { fn := s.fld .SHR_CTX_BIND_FUNC x, typ := typ, seq := x, status := if typ = 8 then lv else 0
          window := if typ = 8 then r else 255, slice := (s.ctxOwner x).2
          offset := s.rateEff sh + shRate sh.1 * 4294967296 }

/-- A step (R332 to R334). Degradation is judged for the bound contexts. -/
def State.govStep (s : State) : State :=
  let s := s.set .SHR_TICK_STEPS 0 (s.fld .SHR_TICK_STEPS + 1)
  let s := { s.each (List.range resCount) State.stepRes with govMiss := [] }
  let lv := ((List.range resCount).map fun r => s.fld .SHR_RES_STS_LEVEL r).foldl max 0
  let s := (s.set .SHR_STS_WORST_LEVEL 0 lv).set .SHR_STS_WORST_RES 0
    (((List.range resCount).find? fun r => s.fld .SHR_RES_STS_LEVEL r == lv).getD 0)
  let ctxs := ((s.listed .SHR_CTX_BIND_VALID) ++ s.degraded.map (·.1)).eraseDups
  s.each ctxs fun s x =>
    let now := s.degradedNow x
    if now = bGet s.degraded x then s
    else
      let s := { s with degraded := bSet s.degraded x now }
      if s.flag .SHR_CTX_BIND_VALID x then s.shareEvent x (if now then 8 else 9) else s

/-! ### Share updates (R330, R331) -/

/-- A refused or finished update: RESULT, RES, LAST_ACCT. -/
def State.shrResult (s : State) (a res r : Nat) : State :=
  ((s.set .SHR_UPD_STS_RESULT 0 res).set .SHR_UPD_STS_RES 0 r).set .SHR_UPD_STS_LAST_ACCT 0 a

/-- The share acts from the next epoch boundary after its commit (R331). -/
def State.shrCommit (s : State) (a : Nat) (new : Nat × Nat) : State :=
  let old := s.shareIn a
  let s := { s with shareOld := (s.shareOld.filter fun (e : Nat × (Nat × Nat)) => e.1 != a) ++ [(a, old)] }
  s.setShare a new

/-- SHR_UPD_CMD with GO (R331): the checks, and the commit that SHR_UPD_DONE ends. -/
def State.shrUpdCmd (s : State) (a : Nat) (new : Nat × Nat) : State :=
  if s.flag .SHR_UPD_STS_BUSY then s.set .SHR_UPD_STS_DROPPED 0 1
  else if 4112 ≤ a then s.shrResult a 1 0
  else if badShare new then s.shrResult a 2 0
  else match s.admitFail a new with
    | some r => (s.shrResult a 3 r).evt 0x2061 .SHR_STS_ADMIT_REFUSED
    | none =>
      let s := (s.shrResult a 0 0).set .SHR_UPD_STS_BUSY 0 1
      if s.mirrors then
        let s := s.mirror 5 a [new.1, new.2]
        { s with shrUpd := some (s.fld .SEM_MSEQ_TX + 1, a, new.1, new.2) }
      else { s with shrUpd := some (0, a, new.1, new.2) }

/-- Stands for MSEQ plus one in an update whose record has been acknowledged. -/
def mseqAcked : Nat := 4294967297

/-- The update commits and BUSY falls (R331): solo at once, in a pair on the acknowledgement; UNMIRRORED when the
follower is detached or was lost in between (R397). -/
def State.shrUpdDone (s : State) : State :=
  match s.shrUpd with
  | none => s
  | some (m, a, sh, mask) =>
    if m ≠ 0 ∧ m ≠ mseqAcked ∧ s.mirrors then s
    else
      let s := (State.shrCommit { s with shrUpd := none } a (sh, mask)).set .SHR_UPD_STS_BUSY 0 0
      if m ≠ mseqAcked ∧ (m ≠ 0 ∨ s.leads) then s.set .SHR_UPD_STS_UNMIRRORED 0 1 else s

/-! ### Bindings (R315) -/

/-- A write of SHR_CTX_BIND is dropped. -/
def State.bindBad (s : State) (x : Nat) (valid : Bool) (sliceEn : Bool) (slice f : Nat) (chargeIn : Bool) : Bool :=
  let of := s.fld .SHR_CTX_BIND_FUNC x
  let moved := valid != s.flag .SHR_CTX_BIND_VALID x || f != of || sliceEn != s.flag .SHR_CTX_BIND_SLICE_EN x
    || slice != s.fld .SHR_CTX_BIND_SLICE x
  let other (y : Nat) : Bool := y != x && s.flag .SHR_CTX_BIND_VALID y && sliceEn == s.flag .SHR_CTX_BIND_SLICE_EN y
    && (if sliceEn then s.fld .SHR_CTX_BIND_SLICE y == slice else s.fld .SHR_CTX_BIND_FUNC y == f)
  f == 0 || decide (2052 ≤ f)
    || (sliceEn && !(s.flag .FN_SLICE_VALID slice && s.fld .FN_SLICE_FUNC slice == f))
    || s.flag .FN_CTL_PROV_LOCK f || s.flag .FN_CTL_PROV_LOCK of
    || (moved && (s.flag .DMA_SQ_CFG_EN x || (s.ringOf x).running != []))
    || (chargeIn && (s.listed .SHR_CTX_BIND_CHARGE_IN).any other)

/-- A write of SHR_CTX_BIND (R315). -/
def State.ctxBind (s : State) (x : Nat) (valid : Bool) (sliceEn : Bool) (slice f : Nat) (chargeIn : Bool) : State :=
  if s.bindBad x valid sliceEn slice f chargeIn then s.set .SHR_STS_BIND_DROP 0 1
  else
    let s := ((s.set .SHR_CTX_BIND_VALID x (bit valid)).set .SHR_CTX_BIND_SLICE_EN x (bit sliceEn)).set
      .SHR_CTX_BIND_SLICE x slice
    let s := (s.set .SHR_CTX_BIND_FUNC x f).set .SHR_CTX_BIND_CHARGE_IN x (bit chargeIn)
    s.mirReg (blockBase 8 + 0x20000 + 0x20 * x) 4
      (bit valid + 2 * bit sliceEn + 4 * slice + 1024 * f + 4194304 * bit chargeIn)

end Sys2Proof.Machine
end

