-- ==== Sys2Proof/Machine/WinOps.lean ====
section
/-!
DEFINITION. The update units of the window table (R121, R138, R139) and of the guard sets (R352 to R357), the
translation and guard epochs and their drain reads (R140, R141, R353).
-/
namespace Sys2Proof.Machine

/-! ### Checks of a window entry (R121) -/

/-- A reserved bit of an entry is set, or its KIND does not match its index. -/
def entryMalformed (i : Nat) (w : List Nat) : Bool :=
  let w0 := wWord w 0
  bits w0 3 2 != 0 || bits w0 15 8 != 0 || bits w0 31 29 != 0 || bits w0 63 53 != 0 || wSrc w % 4096 != 0
    || wSize w % 4096 != 0 || wDst w % 4096 != 0 || (wKind w == 1) != decide (0x40000 ≤ i)

/-- The destination range lies in one region of its TARGET (R121). -/
def dstFits (p : Option Nat) (w : List Nat) : Bool :=
  let a := wDst w
  let z := wDst w + wSize w - 1
  match wTarget w, regionOf a with
  | 0, .store => sameRegion a z
  | 1, .sram _ _ => sameRegion a z
  | 2, .port q _ => p != some q && sameRegion a z
  | 3, .regs b _ => decide (b < 16) && sameRegion a z
  | _, _ => false

/-- The checks of an entry with VALID = 1: 2 BAD_ENTRY, 3 OVERLAP, 4 PIN_FULL, 0 when it passes. -/
def State.entryCheck (s : State) (i : Nat) (w : List Nat) : Nat :=
  let inb := decide (i < 0x40000)
  let port := if inb then none else some ((i - 0x40000) / 256)
  let t := wTarget w
  let host := t == 4
  let bad := entryMalformed i w || wSize w == 0
    || (if inb then decide (2 ^ 40 < wSrc w + wSize w) else decide (0xFFFFF00000 < wSrc w + wSize w))
    || decide (4 < t) || (inb && host) || (!inb && t == 3)
    || (if host then decide (0x800000000 < wSize w) || decide (2 ^ 64 < wDst w + wSize w) || decide (2052 ≤ wFunc w)
          || (if wSliceEn w then !(s.flag .FN_SLICE_VALID (wSlice w) && s.fld .FN_SLICE_FUNC (wSlice w) == wFunc w)
              else wSlice w != 0)
        else wFunc w != 0 || wSlice w != 0 || wSliceEn w || decide (2 ^ 48 ≤ wDst w) || !dstFits port w)
  if bad then 2
  else if (tableIdx (tableOf i)).any fun j =>
      j != i && s.entryValid j && decide (wSrc (s.entry j) < wSrc w + wSize w)
        && decide (wSrc w < wSrc (s.entry j) + wSize (s.entry j)) then 3
  else if atPin (wAttr w) && decide (4096 ≤ s.pinned) then 4
  else 0

/-- An entry in use issues to the host for a function whose provisioning is locked. -/
def State.hostLocked (s : State) (w : List Nat) : Bool := wValid w && wTarget w == 4 && s.flag .FN_CTL_PROV_LOCK (wFunc w)

/-- The change of an entry is LOCKED (R121, R367). -/
def State.entryLocked (s : State) (i : Nat) (w : List Nat) : Bool :=
  (decide (i < 0x40000) && s.flag .FN_CTL_PROV_LOCK (i / 64)) || (s.entryValid i && s.hostLocked (s.entry i)) || s.hostLocked w

/-- RESULT of the CHECK of a WRITE. -/
def State.winCheck (s : State) (i : Nat) (w : List Nat) : Nat :=
  if !idxUsed i then 1
  else if !wValid w then (if s.entryLocked i [] then 5 else 0)
  else match s.entryCheck i w with
    | 0 => if s.entryLocked i w then 5 else 0
    | r => r

/-! ### The window update unit (R139) -/

/-- The four data words. -/
def State.updData (s : State) : List Nat := (List.range 4).map fun n => s.fld .XLT_UPD_DATA_WORD n

/-- GO with OP WRITE: CHECK, then HOLD with the walks of the table. -/
def State.xltWrite (s : State) (i : Nat) : State :=
  if s.flag .XLT_UPD_STS_BUSY then s.set .XLT_UPD_STS_DROPPED 0 1
  else
    let s := s.set .XLT_UPD_STS_LAST_INDEX 0 i
    match s.winCheck i s.updData with
    | 0 => 
      { s with xltUnit := .hold ((s.walks.filter fun (w : Walk) => w.tbl == tableOf i).map Walk.id) }.set .XLT_UPD_STS_BUSY 0 1
    | r => s.set .XLT_UPD_STS_RESULT 0 r

/-- A command of a unit ends. -/
def State.xltIdle (s : State) : State :=
  ({ s with xltUnit := .idle }.set .XLT_UPD_STS_RESULT 0 0).set .XLT_UPD_STS_BUSY 0 0

/-- A pinned entry in use whose granule reads good is loaded into the cache. DESIGN CHOICE (assumption 72): the update unit
loads it also while CACHE_EN is 0, when no lookup uses it (R125). -/
def State.loadPin (s : State) (i : Nat) : State :=
  if s.entryValid i && atPin (wAttr (s.entry i)) && !s.entryPoison i then s.install i (s.entry i) else s

/-- Writes the words of an entry in the store, and its bit of the valid bitmap. -/
def State.putEntry (s : State) (i : Nat) (w : List Nat) : State :=
  let s := s.each ((List.range 4).zip w) fun s e => s.st8 (s.tblBase + 32 * i + 8 * e.1) e.2
  { s with bitmap := bSet s.bitmap i (wValid w) }

/-- The entry that shares a granule with entry `i` (R126). -/
def otherOf (i : Nat) : Nat := if i % 2 = 0 then i + 1 else i - 1

/-- A commit into a poisoned granule writes the whole granule with clean check bits (R126): the other entry from the
window cache, else as zeros, which removes its window and is logged with its index. In a pair a record carries the other
entry to the follower. -/
def State.rescueGranule (s : State) (i : Nat) : State :=
  let o := otherOf i
  let s' := s.setPoison (s.tblBase + 32 * i) false
  let s := match s.cache.find? fun c => c.idx == o with
    | some c => s'.putEntry o c.words
    | none => (s'.putEntry o [0, 0, 0, 0]).faultLog { cls := 4, unit := 3, code := 6, info := o }
  s.mirror 3 o ((List.range 4).map fun k => s.ld8 (s.tblBase + 32 * o + 8 * k))

/-- COMMIT: the entry in the store, the bitmap, the cached copy and the prefetched lines; MIRROR in a pair. -/
def State.xltCommit (s : State) : State :=
  match s.xltUnit with
  | .hold ids =>
    if s.walks.any fun (w : Walk) => ids.contains w.id then s
    else
      let i := s.fld .XLT_UPD_STS_LAST_INDEX
      let w := s.updData
      let s := if s.entryPoison i then s.rescueGranule i else s
      let s := s.putEntry i w
      let s := ((s.uncache fun j => j == i).dropLines fun l => l.idx == i).loadPin i
      if s.mirrors then
        let s := s.mirror 3 i w
        { s with xltUnit := .mirror (s.fld .SEM_MSEQ_TX) }
      else
        let s := if s.leads then s.set .XLT_UPD_STS_UNMIRRORED 0 1 else s
        s.xltIdle
  | _ => s

/-- The entry indices an invalidation covers: OP 1 an entry, 2 its table, 3 all. -/
def invalScope (op i j : Nat) : Bool := op == 3 || (op == 2 && tableOf j == tableOf i) || j == i

/-- GO with an INVAL operation: copies in scope are dropped for later lookups. -/
def State.xltInval (s : State) (op i : Nat) : State :=
  if s.flag .XLT_UPD_STS_BUSY then s.set .XLT_UPD_STS_DROPPED 0 1
  else
    let s := { s with xltUnit := .inval op i }.set .XLT_UPD_STS_LAST_INDEX 0 i
    ((s.uncache (invalScope op i)).dropLines fun l => invalScope op i l.idx).set .XLT_UPD_STS_BUSY 0 1

/-- The invalidation is done: the pinned entries in scope are reloaded. -/
def State.xltInvalDone (s : State) : State :=
  match s.xltUnit with
  | .inval op i => ((s.each ((s.bitmap.map (·.1)).filter (invalScope op i)) State.loadPin)).xltIdle
  | _ => s

/-- XLT_UPD_CMD with GO. -/
def State.xltCmd (s : State) (op i : Nat) : State := if op = 0 then s.xltWrite i else s.xltInval op i

/-- The follower was lost while a unit waited in MIRROR (R139, R352). -/
def State.unitsUnmirrored (s : State) : State :=
  let s := match s.xltUnit with
    | .mirror _ => (s.set .XLT_UPD_STS_UNMIRRORED 0 1).xltIdle
    | _ => s
  match s.grdUnit with
  | .mirror _ => (({ s with grdUnit := .idle }.set .GRD_UPD_STS_UNMIRRORED 0 1).set .GRD_UPD_STS_RESULT 0 0).set
      .GRD_UPD_STS_BUSY 0 0
  | _ => s

/-- XLT_TBL_BASE (R118): accepted when the whole area lies in the store; the cache is then dropped. DESIGN CHOICE
(assumption 72): the on-die valid bitmap keeps what it holds. -/
def State.tblBaseWrite (s : State) (v : Nat) : State :=
  if v * 0x1000000 + 0x820000 ≤ 0x2000000000 then { s.set .XLT_TBL_BASE_BASE 0 v with cache := [] }
  else s.set .XLT_UPD_STS_BASE_REFUSED 0 1

/-! ### Epochs (R140, R141, R353) -/

/-- Epochs older than CURRENT that an unretired access carries. -/
def olderLive (live : List (Nat × Nat)) (cur : Nat) : List Nat := (live.map (·.1)).filter fun e => e != cur

/-- How old an epoch is. -/
def epochAge (cur e : Nat) : Nat := (cur + 65536 - e) % 65536

/-- LIVE. -/
def liveCount (live : List (Nat × Nat)) (cur : Nat) : Nat := 1 + (olderLive live cur).length

/-- An advance now would keep at most 8 epochs live. -/
def advanceOk (live : List (Nat × Nat)) : Bool := decide (live.length + 1 ≤ 8)

/-- The oldest epoch with an unretired access; CURRENT when there is none. -/
def oldestLive (live : List (Nat × Nat)) (cur : Nat) : Nat :=
  (live.map (·.1)).foldl (fun b e => if epochAge cur b < epochAge cur e then e else b) cur

/-- No access older than a threshold remains. -/
def drained (live : List (Nat × Nat)) (cur thr : Nat) : Bool :=
  !(live.any fun e => decide (epochAge cur thr < epochAge cur e.1))

/-- ADVANCE of the translation epoch; prefetched lines are discarded (R134). -/
def State.xltAdvance (s : State) : State :=
  let c := s.fld .XLT_EPOCH_CURRENT
  if s.xltDefer = 0 && advanceOk s.xltLive then { s.set .XLT_EPOCH_CURRENT 0 ((c + 1) % 65536) with prefetch := [] }
  else { s with xltDefer := s.xltDefer + 1 }

/-- A deferred ADVANCE takes effect. -/
def State.xltAdvanceApply (s : State) : State :=
  let c := s.fld .XLT_EPOCH_CURRENT
  if 0 < s.xltDefer && advanceOk s.xltLive then
    { s.set .XLT_EPOCH_CURRENT 0 ((c + 1) % 65536) with prefetch := [], xltDefer := s.xltDefer - 1 }
  else s

def State.grdAdvance (s : State) : State :=
  let c := s.fld .GRD_EPOCH_CURRENT
  if s.grdDefer = 0 && advanceOk s.grdLive then s.set .GRD_EPOCH_CURRENT 0 ((c + 1) % 65536)
  else { s with grdDefer := s.grdDefer + 1 }

def State.grdAdvanceApply (s : State) : State :=
  let c := s.fld .GRD_EPOCH_CURRENT
  if 0 < s.grdDefer && advanceOk s.grdLive then
    { s.set .GRD_EPOCH_CURRENT 0 ((c + 1) % 65536) with grdDefer := s.grdDefer - 1 }
  else s

/-- The value of a drain register as its read returns. -/
def drainWord (live : List (Nat × Nat)) (cur : Nat) (ok : Bool) : Nat := oldestLive live cur + bit ok * 2147483648

/-- Part of a register value, for an access of `len` bytes at byte `off` of it. -/
def wordPart (v off len : Nat) : List Byte := toBytes len (v / 256 ^ off)

/-- A drain read is held with the threshold CURRENT (R141). -/
def State.xltDrainRead (s : State) (r : Req) : State :=
  { s with xltDrain := s.xltDrain ++ [(s.fld .XLT_EPOCH_CURRENT, r)] }
def State.grdDrainRead (s : State) (r : Req) : State :=
  { s with grdDrain := s.grdDrain ++ [(s.fld .GRD_EPOCH_CURRENT, r)] }

/-- The first held drain read returns, because older epochs have retired (`late` false) or tDRN has passed. -/
def State.xltDrainReturn (s : State) (late : Bool) : State :=
  let c := s.fld .XLT_EPOCH_CURRENT
  match s.xltDrain with
  | [] => s
  | (thr, r) :: t =>
    let ok := drained s.xltLive c thr
    if !ok && !late then s
    else { s with xltDrain := t }.finish r 0 (wordPart (drainWord s.xltLive c ok) (r.dst % 8) r.len)

def State.grdDrainReturn (s : State) (late : Bool) : State :=
  let c := s.fld .GRD_EPOCH_CURRENT
  match s.grdDrain with
  | [] => s
  | (thr, r) :: t =>
    let ok := drained s.grdLive c thr
    if !ok && !late then s
    else { s with grdDrain := t }.finish r 0 (wordPart (drainWord s.grdLive c ok) (r.dst % 8) r.len)

/-! ### The guard update unit (R352, R354, R356, R367) -/

/-- The lifecycle PRODUCTION. -/
def lcPRODUCTION : Nat := 2

/-- A region of set 0 or 17 overlaps a destination range of the windows of a locked TDI (R367). -/
def State.regionTdiLocked (s : State) (n w : Nat) : Bool :=
  (n == 0 || n == 17) && w.testBit 0 && s.heldTdis.any fun f =>
    (tableIdx f).any fun i =>
      let e := s.entry i
      s.entryValid i && decide (wDst e < gBase w + gSize w) && decide (gBase w < wDst e + wSize e)

/-- The change of a region is LOCKED: by LOCK in PRODUCTION for anyone but the control cluster, or by a TDI. -/
def State.regionLocked (s : State) (n i new : Nat) (core : Bool) : Bool :=
  let old := s.grdWord n i
  let lock (w : Nat) : Bool := w.testBit 0 && w.testBit 1
  (s.fld .SEC_LIFECYCLE_STATE == lcPRODUCTION && !core && (lock old || lock new))
    || s.regionTdiLocked n old || s.regionTdiLocked n new

/-- A region word that CHECK refuses as BAD_ENTRY. -/
def badRegion (w : Nat) : Bool :=
  w.testBit 0 && (bits w 11 8 != 0 || bits w 63 54 != 0 || decide (bits w 7 2 < 12) || decide (48 < bits w 7 2)
    || gBase w % gSize w != 0)

/-- RESULT of the CHECK: 0 OK, 1 BAD_INDEX, 2 BAD_ENTRY, 3 LOCKED. -/
def State.grdCheck (s : State) (n i w : Nat) (core : Bool) : Nat :=
  if 18 < n then 1 else if badRegion w then 2 else if s.regionLocked n i w core then 3 else 0

/-- GRD_UPD_CMD with GO: CHECK, then COMMIT is due. -/
def State.grdCmd (s : State) (n i : Nat) (core : Bool) : State :=
  if s.flag .GRD_UPD_STS_BUSY then s.set .GRD_UPD_STS_DROPPED 0 1
  else
    let s := (s.set .GRD_UPD_STS_LAST_SET 0 n).set .GRD_UPD_STS_LAST_REGION 0 i
    match s.grdCheck n i (s.fld .GRD_UPD_DATA_WORD) core with
    | 0 => { s with grdUnit := .hold [] }.set .GRD_UPD_STS_BUSY 0 1
    | r => s.set .GRD_UPD_STS_RESULT 0 r

/-- A region word is about to change: requests stamped before, which wait for walks, finish under the old one (R30). -/
def State.grdKeep (s : State) (k : Nat) : State :=
  { s with grdVer := s.grdVer + 1
           grdOld := if s.walks = [] then [] else s.grdOld ++ [(s.grdVer, k, s.fld .GRD_REGION_WORD k)] }

/-- COMMIT: the live set and the shadow; MIRROR in a pair, or the end. -/
def State.grdCommit (s : State) : State :=
  match s.grdUnit with
  | .hold _ =>
    let n := s.fld .GRD_UPD_STS_LAST_SET
    let i := s.fld .GRD_UPD_STS_LAST_REGION
    let w := s.fld .GRD_UPD_DATA_WORD
    let s := s.grdKeep (32 * n + i)
    let s := (s.set .GRD_REGION_WORD (32 * n + i) w).st8 (s.fld .GRD_SHADOW_BASE_BASE * 0x10000 + 8 * (32 * n + i)) w
    if s.mirrors then
      let s := s.mirror 4 (i + 32 * n) [w]
      { s with grdUnit := .mirror (s.fld .SEM_MSEQ_TX) }
    else
      let s := if s.leads then s.set .GRD_UPD_STS_UNMIRRORED 0 1 else s
      ({ s with grdUnit := .idle }.set .GRD_UPD_STS_RESULT 0 0).set .GRD_UPD_STS_BUSY 0 0
  | _ => s

/-- Reloads the guard sets from the shadow (R354): a region whose word reads bad stays invalid, is flagged and
recorded. -/
def State.grdReload (s : State) : State :=
  let base := s.fld .GRD_SHADOW_BASE_BASE * 0x10000
  s.each (List.range 608) fun s k =>
    if s.isPoison (base + 8 * k) then
      ((s.set .GRD_REGION_WORD k 0).set .GRD_STS_SHADOW_ERR 0 1).faultLog
        { cls := 4, unit := 4, addr := some (base + 8 * k), info := k }
    else s.set .GRD_REGION_WORD k (s.ld8 (base + 8 * k))

end Sys2Proof.Machine
end

