-- ==== Sys2Proof/Machine/LinkOps.lean ====
section
/-!
DEFINITION. The lane layer (R185 to R211), the Urone link layer's states (R243 to R245, R249) and the Seam link coming up
and going down (R391, R393, R397): what a link's training, darning and loss do.
-/
namespace Sys2Proof.Machine

/-! ### Lanes of a link -/

/-- The power domain of a link (R185, R458). -/
def linkDom (l : Nat) : Nat := if l = 16 then 19 else 9 + l / 4

/-- LANE_STS.STATE codes (R197). -/
def lnOFF : Nat := 0
def lnDETECT : Nat := 1
def lnEXCHANGE : Nat := 2
def lnEQUALISE : Nat := 3
def lnREADY : Nat := 4
def lnACTIVE : Nat := 5
def lnDARNED : Nat := 6
def lnTRIAL : Nat := 7
def lnDOZE : Nat := 8
def lnDEEP : Nat := 9
def lnFAILED : Nat := 10

/-- The receive state of a lane. -/
def State.lane (s : State) (i : Nat) : Nat := s.fld .LANE_STS_STATE i
def State.setLane (s : State) (i v : Nat) : State := s.set .LANE_STS_STATE i v
/-- The lanes of a link in a state. -/
def State.lanesIn (s : State) (l st : Nat) : List Nat := (lanesOf l).filter fun i => s.lane i == st
/-- The mask bit of the far lane a receive lane takes. -/
def State.farBit (s : State) (i : Nat) : Nat := 2 ^ s.fld .LANE_FAR_LANE i
/-- The mask of the far lanes of receive lanes. -/
def State.farMask (s : State) (is : List Nat) : Nat := is.foldl (fun m i => m ||| s.farBit i) 0
/-- The mask of own transmit lanes. -/
def ownMask (l : Nat) (is : List Nat) : Nat := is.foldl (fun m i => m ||| 2 ^ (i - laneBase l)) 0

/-- LANE_LINK_CTL.DARN_MIN in effect (R211). -/
def State.darnMin (s : State) (l : Nat) : Nat := min (linkWidth l) (max 1 (s.fld .LANE_LINK_CTL_DARN_MIN l))
/-- LANE_LINK_CTL.RATE_MAX in effect. -/
def State.rateMax (s : State) (l : Nat) : Nat := min 2 (s.fld .LANE_LINK_CTL_RATE_MAX l)
/-- The link carries blocks: STATE is ACTIVE, DOZE, DEEP or REMAP. -/
def State.linkUp (s : State) (l : Nat) : Bool := decide (2 ≤ s.fld .LANE_LINK_STS_STATE l)

/-- RX_OK: the far lanes on which the receiver holds lane lock (R193). -/
def State.rxOk (s : State) (l : Nat) : Nat :=
  s.farMask ((lanesOf l).filter fun i =>
    s.flag .LANE_STS_SIG i && s.flag .LANE_STS_CDR_LOCK i && s.flag .LANE_STS_BLOCK_LOCK i)

/-- A MISWIRE lane, which stays FAILED until the next RETRAIN (R199). -/
def State.miswired (s : State) (i : Nat) : Bool := s.lane i == lnFAILED && s.fld .LANE_STS_FAIL_CAUSE i == 1

/-- The lanes a link's transmitter drives (R194): the ACTIVE ones and the darned ones. -/
def State.driven (s : State) (l : Nat) : List Nat :=
  (lanesOf l).filter fun i => (s.fld .LANE_LINK_STS_TX_ACTIVE l).testBit (i - laneBase l) || !s.miswired i

/-- Sends a marker on every lane the link drives (R194); the stream is counted from 0 after a STRIPE marker (R195). -/
def State.sendMarker (s : State) (l cmd arg : Nat) : State :=
  let act := s.fld .LANE_LINK_STS_TX_ACTIVE l
  let ok := s.rxOk l
  let n := (s.lk l).mcount
  let s := (s.send (.marker l cmd act ok arg n)).each (s.driven l) fun s i =>
    s.laneSend i true (markWord { lane := i - laneBase l, active := act, rxok := ok, cmd := cmd, arg := arg, mcount := n })
  if cmd = 1 then s.setLk l { s.lk l with blk := 0 } else s

/-- LANE_LINK_STS.STATE and DEGRADED and the lane that supplies the clock, after a change of the lanes (R190, R211). -/
def State.laneSync (s : State) (l : Nat) : State :=
  let s := if s.linkUp l then
      let p := s.port l
      let st := if (s.lk l).darning ≠ 0 then 5 else if p.txLp = 2 ∧ p.rxLp = 2 then 4
        else if p.txLp ≠ 0 ∧ p.rxLp ≠ 0 then 3 else 2
      let low := popcount8 (s.fld .LANE_LINK_STS_RX_ACTIVE l) < linkWidth l
        || popcount8 (s.fld .LANE_LINK_STS_TX_ACTIVE l) < linkWidth l
      (s.set .LANE_LINK_STS_STATE l st).set .LANE_LINK_STS_DEGRADED l (bit low)
    else s.set .LANE_LINK_STS_DEGRADED l 0
  let on := (lanesOf l).filter fun i => s.lane i == lnACTIVE || s.lane i == lnDOZE || s.lane i == lnDEEP
  let src := on.find? fun i => on.all fun j => decide (s.fld .LANE_FAR_LANE i ≤ s.fld .LANE_FAR_LANE j)
  s.each (lanesOf l) fun s i => s.set .LANE_STS_CLK_SRC i (bit (src == some i))

/-- The shared clock of a transmit group runs (R203): not every port of the group is in DEEP. -/
def State.txClocked (s : State) (l : Nat) : Bool :=
  if l = 16 then (s.port 16).txLp != 2
  else (List.range 4).any fun k => (s.port (4 * (l / 4) + k)).txLp != 2

/-- The low-power state of a transmitter (R202, R203): its group's shared clock stops and starts with it. -/
def State.setTxLp (s : State) (l lp : Nat) : State :=
  let was := s.txClocked l
  let s := s.setPort l { s.port l with txLp := lp }
  if s.txClocked l = was then s else s.send (.txClock (l / 4) !was)

/-- A lane begins from its presets, in DETECT or OFF (R197, R198). -/
def State.laneReset (s : State) (st i : Nat) : State :=
  let s := ((s.setLane i st).set .LANE_STS_CLEAN i 0).set .LANE_STS_FAIL_CAUSE i 0
  let s := (s.set .LANE_STS_INVERTED i 0).set .LANE_STS_TX_DARNED i 0
  let s := s.setLtx i { scram := (s.ltx i).scram }
  (s.set .LANE_TXEQ_PRE i (s.fld .LANE_TXEQ_PRE_INIT i)).set .LANE_TXEQ_POST i (s.fld .LANE_TXEQ_POST_INIT i)

/-- No lane of a link carries anything, and neither direction is in low power. -/
def State.laneClear (s : State) (l st : Nat) (k : LaneLink) : State :=
  let s := ((s.set .LANE_LINK_STS_STATE l st).set .LANE_LINK_STS_RATE l 0).set .LANE_LINK_STS_RX_ACTIVE l 0
  let s := (s.set .LANE_LINK_STS_TX_ACTIVE l 0).setTxLp l 0
  (s.setPort l { s.port l with rxLp := 0 }).setLk l k

/-- Training of a link starts or restarts: every lane in DETECT at its presets, TRAIN at rate code 0 (R197, R198), with
RATE_MAX as it stands now (R211). MISWIRE lanes take part after a RETRAIN only (R199). -/
def State.laneTrain (s : State) (l : Nat) (all : Bool := false) : State :=
  let go := (lanesOf l).filter fun i => all || !s.miswired i
  let s := (s.each go (State.laneReset · lnDETECT)).laneClear l 1 { sending := true, rmax := s.rateMax l }
  (s.trainTx go 0 0 0).laneSync l

/-- Every lane of a link turns OFF, its transmitters in electrical idle (R197). -/
def State.laneOff (s : State) (l : Nat) : State :=
  let s := (s.each (lanesOf l) (State.laneReset · lnOFF)).laneClear l 0 {}
  (s.send (.laneIdle l)).laneSync l

/-! ### The pair's mirror and the Seam link -/

/-- The module leads: LEAD, or CONTAIN as leader (R390). -/
def State.leading (s : State) : Bool := s.mode == .LEAD || (s.mode == .CONTAIN && s.contLead)

/-- An effect that waited for the mirror leaves (R397). -/
def State.mirGo (s : State) : MirWait → State
  | .event w irq => (s.jSend w).evqIrq w.fn irq
  | .record x t _ data irq => s.cqIssue x t data irq

/-- Nothing waits for acknowledgements any more (R397): waiting records and events leave in order, the update units
finish UNMIRRORED, answered entries retire. Called after SYNC or ROLE has changed. -/
def State.unmirror (s : State) : State :=
  let w := s.mirWait
  let s := ({ s with mirWait := [], mirSent := [] }.set .SEM_LAG_OUTSTANDING 0 0).each w fun s e => s.mirGo e.2
  let s := s.unitsUnmirrored
  if s.mode = .FOLLOW then s else s.each (s.ledger.filter fun e => e.st == .answered) State.tryRetire

/-- A handover that is under way fails (R406): the lead stays, held requests go back to the front of their queues. -/
def State.hoFail (s : State) : State :=
  if s.ho = .none then s
  else
    let s := { s with ho := .none, hoHeld := [], govq := s.hoHeld.map (fun r => (s.tick, r)) ++ s.govq }
    (s.set .SEM_STS_HO_BUSY 0 0).semEvt .SEM_EVT_HO_FAIL

/-- The pair becomes DETACHED (R393, R401): SPLIT or TWIN_LOST is raised. -/
def State.detach (s : State) (split : Bool) : State :=
  let lead := s.leads
  let s := s.set .SEM_STS_SYNC 0 3
  let s := if split then (s.set .SEM_STS_LAST_LOSS 0 5).semEvt .SEM_EVT_SPLIT
    else (s.set .SEM_STS_LAST_LOSS 0 1).semEvt .SEM_EVT_TWIN_LOST
  if lead then s.unmirror.hoFail else s

/-- The twin is lost (R393, R401): the pair ends; a leader is solo, a follower stays in FOLLOW, unpaired. -/
def State.twinLost (s : State) (loss : Nat) : State :=
  if !s.paired then s
  else
    let lead := s.leads
    let s := ((s.set .SEM_STS_ROLE 0 0).set .SEM_STS_SYNC 0 0).set .SEM_PAIR_ID_PAIR_ID 0 0
    let s := ((s.set .SEM_STS_LAST_LOSS 0 loss).set .SEM_STS_SUSPECT 0 0).semEvt .SEM_EVT_TWIN_LOST
    let s := { s with hbMiss := 0 }
    if lead then s.unmirror.hoFail else s

/-- The SEAM_HELLO this module sends (R394). -/
def State.ownHello (s : State) : SeamPkt :=
  .hello 0x10 (s.fld .SEM_STS_MIRROR_VER) s.mode.code s.leading s.fwVer Config.serial

/-- The Seam link layer comes UP with its lanes (R391, R394): credit is granted and SEAM_HELLO sent. -/
def State.seamUp (s : State) : State :=
  let p := s.port 16
  let s := s.setPort 16 { gen := p.gen, txLp := p.txLp, rxLp := p.rxLp, grant0 := 1024, grantD0 := 4096, grant2 := 32 }
  (s.set .SEM_STS_SEAM_UP 0 1).urBatch 16 fun s =>
    ((s.seamSend s.ownHello).urSend 16 (.flow 0 1024 4096)).urSend 16 (.flow 2 32 0)

/-- The Seam link layer goes DOWN (R393): a pair that is BULK or SYNCED becomes DETACHED. -/
def State.seamDown (s : State) : State :=
  if !s.flag .SEM_STS_SEAM_UP then s
  else
    let p := s.port 16
    let s := (s.set .SEM_STS_SEAM_UP 0 0).setPort 16 { gen := p.gen + 1, txLp := p.txLp, rxLp := p.rxLp }
    if s.paired && (s.fld .SEM_STS_SYNC == 1 || s.fld .SEM_STS_SYNC == 2) then s.detach true else s

/-! ### The Urone link layer -/

/-- What the bridge drives on the outbound lines: ULK_SB_OUT, with the role line on a dual-homed port (R399). -/
def State.sbLines (s : State) (p : Nat) : Nat :=
  let v := s.fld .ULK_SB_OUT_LINES p
  if s.flag .ULK_STS_DUAL_OK p then v % 2 ^ 63 + 2 ^ 63 * bit s.leading else v

/-- An SB_STATE is due (R241): it leaves with the lines of the moment as soon as it can. -/
def State.sbSend (s : State) (p : Nat) : State :=
  let l := s.port p
  let k : UrPkt := .sbState 0 false (s.sbLines p)
  if s.canSend p k && !(l.txq.any fun q => q.vc == 2) then
    (s.setPort p { l with sbDirty := false, sbDue := false }).urSend p k
  else s.setPort p { l with sbDue := true }

/-- Sends what waits on a port, an SB_STATE that is due with it. -/
def State.portFlush (s : State) (p : Nat) : State :=
  s.urBatch p fun s =>
    let s := s.urFlush p
    if (s.port p).sbDue then s.sbSend p else s

/-- The role line of the dual-homed ports has changed and goes in their next SB_STATE (R399, R407). -/
def State.roleLines (s : State) : State :=
  s.each (List.range 16) fun s p =>
    if s.flag .ULK_STS_DUAL_OK p then s.setPort p { s.port p with sbDirty := true } else s

/-- STREAM_SYNC for the 19 codes (R233). -/
def State.streamSyncs (s : State) (p : Nat) : State :=
  s.each (List.range 19) fun s i => s.urSend p (.streamSync i (s.seqOldest p i))

/-- The comparison of R392 on a port that is UP while the module is paired. -/
def State.dualCompare (s : State) (p : Nat) : State :=
  if !s.paired || s.fld .ULK_STS_STATE p != 2 || !s.flag .ULK_FAR_DUAL p then s
  else
    let ok := s.flag .ULK_FAR_SEQ_AWARE p
      && s.twinFar.any fun e => e.1 == p && e.2 == s.fld .ULK_FAR_DESIGN_ID p
    let was := s.flag .ULK_STS_DUAL_OK p
    let s := s.set .ULK_STS_DUAL_OK p (bit ok)
    let s := if ok == was then s else s.setPort p { s.port p with sbDirty := true }
    if ok then s else s.ulkEvt p .ULK_EVT_DUAL_REFUSED

/-- A poll is sent (R239): POLL_ID advances. -/
def State.sbPollNow (s : State) (p : Nat) : State :=
  let l := s.port p
  (s.setPort p { l with pollId := (l.pollId + 1) % 256, pollOut := true, oldLatch := none }).urSend p (.sbPoll l.pollId)

/-- The port comes UP (R243). -/
def State.portUp (s : State) (p : Nat) : State :=
  let s := s.set .ULK_STS_STATE p 2
  let s := s.urBatch p fun s =>
    let s := if s.flag .ULK_FAR_SEQ_AWARE p then s.streamSyncs p else s
    (s.urSend p (.sbCfg (s.fld .ULK_SB_LATCH_LATCH p))).sbSend p
  let s := (s.ulkEvt p .ULK_EVT_UP).irqEval
  let s := if s.flag .ULK_FAR_DUAL p && !s.flag .ULK_FAR_SEQ_AWARE p then s.ulkEvt p .ULK_EVT_DUAL_REFUSED
    else s.dualCompare p
  s.portFlush p

/-- HELLO of the bridge (R244). -/
def State.bridgeHello (s : State) (p : Nat) : UrPkt :=
  .hello 0x10 true false false (s.flag .LANE_LINK_CTL_DOZE_EN p) (s.flag .LANE_LINK_CTL_DEEP_EN p) 1 0x2D379600

/-- The link layer of a port starts (R243): HELLO and the credit of R221. -/
def State.portHello (s : State) (p : Nat) : State :=
  let l := s.port p
  let s := s.setPort p { gen := l.gen, txLp := l.txLp, rxLp := l.rxLp, grant0 := 512, grantD0 := 1024, grant2 := 64 }
  (s.set .ULK_STS_STATE p 1).urBatch p fun s =>
    ((s.urSend p (s.bridgeHello p)).urSend p (.flow 0 512 1024)).urSend p (.flow 2 64 0)

/-- The far end has granted the minimums of R221. -/
def PortLL.minCredit (l : PortLL) : Bool := decide (16 ≤ l.hdr0) && decide (65 ≤ l.data0) && decide (8 ≤ l.hdr2)

/-- In HELLO with the far HELLO and the minimums there, the port comes UP. -/
def State.helloCheck (s : State) (p : Nat) : State :=
  if s.fld .ULK_STS_STATE p == 1 && (s.port p).farHello && (s.port p).minCredit then s.portUp p else s

/-- Requests of a design that have not come to the translate-and-check stage are gone with its port (R245). -/
def State.dropUnaccepted (s : State) (p : Nat) : State :=
  let other (r : Req) : Bool := r.who != .port p
  { s with govq := s.govq.filter fun e => other e.2, spill := s.spill.filter other, hoHeld := s.hoHeld.filter other }

/-- Everything in flight on a port is settled when it goes DOWN (R245), and lanes retrain unless they are what went down
or EN was cleared. Entries that only wait for the mirror end LINK_DOWN too (R157). Cause codes are those of
ULK_STS.DOWN_CAUSE. A follower's mirrored entries stay (R395). -/
def State.portDown (s : State) (p cause : Nat) : State :=
  if s.fld .ULK_STS_STATE p = 0 then s
  else
    let l := s.port p
    let s := (s.setPort p { gen := l.gen + 1, txLp := l.txLp, rxLp := l.rxLp }).dropUnaccepted p
    let s := ((s.set .ULK_STS_STATE p 0).set .ULK_STS_DOWN_CAUSE p cause).set .ULK_STS_SB_VALID p 0
    let s := s.set .ULK_STS_DUAL_OK p 0
    let s := s.each (List.range 16) fun s k => s.set .ULK_REQ_CNT_PENDING (16 * p + k) 0
    let s := s.ulkEvt p .ULK_EVT_DOWN
    let open_ := s.ledger.filter fun e => e.port == p && e.st != .answered
    let done := s.ledger.filter fun e => e.port == p && e.st == .answered
    let s := if s.mode = .FOLLOW then s
      else (s.each done fun s e => s.setEnt { e with status := 9 }).each open_ fun s e => s.ledgerAnswer e 9
    let reads := s.pReads.filter fun r => r.port == p && r.tag.isSome
    let s := s.each reads fun s r => s.portReadEnd r 9 true
    let mine (r : Req) : Bool := r.kind == .lock && r.who == .port p
    let asks := s.lockWait.filter mine
    let s := { s with lockWait := s.lockWait.filter fun r => !mine r }.each asks State.retire
    let held := s.locks.filter fun k => k.expl == some p
    let s := s.each held fun s k => s.dropExpl p (k.gran, k.hfn)
    let s := s.starchSettle.irqEval
    if cause = 1 ∨ cause = 7 ∨ !s.flag .LANE_LINK_CTL_ENABLE p then s
    else
      let s := if s.linkUp p then s.laneEvt p .LANE_LINK_EVT_DOWN else s
      s.laneTrain p

/-- A protocol error (R249): counted, its cause recorded, PROTO_ERR raised. -/
def State.protoErr (s : State) (p code : Nat) : State :=
  if p = 16 then s
  else ((s.count .ULK_PROTO_ERR_CNT p).set .ULK_PROTO_ERR_LAST_CAUSE p code).ulkEvt p .ULK_EVT_PROTO_ERR

/-- A protocol error that takes the link down. -/
def State.protoFatal (s : State) (p code : Nat) : State :=
  if p = 16 then s else (s.protoErr p code).portDown p 3

/-! ### Links going down and coming up -/

/-- The link layer above a lane link that is gone. -/
def State.upperDown (s : State) (l : Nat) : State := if l = 16 then s.seamDown else s.portDown l 1

/-- A link goes down and retrains (R197, R205). -/
def State.linkDown (s : State) (l : Nat) (all : Bool := false) : State :=
  let s := if s.linkUp l then s.laneEvt l .LANE_LINK_EVT_DOWN else s
  (s.laneTrain l all).upperDown l

/-- A link is turned off: ENABLE cleared, or its domain powered down by force (R197, R204). -/
def State.linkOff (s : State) (l : Nat) : State :=
  let s := if s.linkUp l then s.laneEvt l .LANE_LINK_EVT_DOWN else s
  (s.laneOff l).upperDown l

/-- The link layer above a lane link that is ACTIVE (R243, R391). -/
def State.upperUp (s : State) (l : Nat) : State :=
  if s.fld .LANE_LINK_STS_STATE l ≠ 2 then s
  else if l = 16 then (if s.flag .SEM_STS_SEAM_UP then s else s.seamUp)
  else if s.flag .ULK_CTL_EN l && s.fld .ULK_STS_STATE l == 0 then s.portHello l else s

/-- A link becomes ACTIVE at its target with its READY lanes (R199, R210), among them those that the far end's STRIPE has
made ACTIVE: STRIPE is sent; the other lanes are darned, and TRAIN goes on there, but for MISWIRE. -/
def State.linkActive (s : State) (l : Nat) : State :=
  let on := s.lanesIn l lnREADY ++ s.lanesIn l lnACTIVE
  let keep := on.filter fun i => !s.flag .LANE_CTL_FORCE_DARN i
  let ready := if keep.length < s.darnMin l then on else keep
  let rest := (lanesOf l).filter fun i => !ready.contains i && !s.miswired i
  let k := s.lk l
  let s := ((s.set .LANE_LINK_STS_STATE l 2).set .LANE_LINK_STS_RATE l k.target).set .LANE_LINK_STS_TX_ACTIVE l
    (ownMask l ready)
  let s := s.each rest fun s i => (s.setLane i lnDARNED).set .LANE_STS_FAIL_CAUSE i 0
  let s := s.setLk l { k with sending := false, lag := 0, mcount := 0 }
  let s := ((s.trainTx rest k.target 2 0).sendMarker l 1 0).laneSync l
  (s.laneEvt l .LANE_LINK_EVT_UP).upperUp l

/-- The target rate code of a training (R199): the highest set in both ends' RATES. -/
def State.trainTarget (s : State) (l : Nat) (is : List Nat) : Nat :=
  let ok (c : Nat) : Bool := decide (c ≤ (s.lk l).rmax) && is.all fun i => (s.fld .LANE_FAR_RATES i).testBit c
  if ok 2 then 2 else if ok 1 then 1 else 0

/-- A lane counts as not READY in this training, since it stayed in DETECT (R200). -/
def State.lags (s : State) (i : Nat) : Bool := (s.lk (linkOf i)).lag.testBit (i - laneBase (linkOf i))

/-- When every lane that counts has exchanged, the link equalises at its target rate after 64 more TRAIN blocks (R197,
R200). -/
def State.exchangeCheck (s : State) (l : Nat) : State :=
  let ex := (s.lanesIn l lnEXCHANGE).filter fun i => !s.lags i
  let wait := (s.lanesIn l lnDETECT).filter fun i => !s.lags i
  if ex = [] ∨ wait ≠ [] then s
  else
    let t := s.trainTarget l ex
    let s := (s.trainTx ex 0 0 64).setLk l { s.lk l with target := t }
    let s := s.set .LANE_LINK_STS_RATE l t
    (s.each ex fun s i => s.setLane i lnEQUALISE).trainTx ex t 1 0

/-! ### Darning -/

/-- ACTIVE receive lanes of a link. -/
def State.activeRx (s : State) (l : Nat) : Nat := (s.lanesIn l lnACTIVE).length

/-- The transmitter leaves doze or deep sleep (R202, R203): its clock starts, 64 TRAIN blocks with PHASE 3, STRIPE, then what
waits. Polling resumes at once after deep sleep (R246). -/
def State.lpExit (s : State) (l : Nat) : State :=
  let p := s.port l
  if p.txLp = 0 then s
  else
    let s := (s.setPort l { p with ackOwed := false }).setTxLp l 0
    let s := (s.trainTx (s.driven l) (s.fld .LANE_LINK_STS_RATE l) 3 64).sendMarker l 1 0
    let s := (s.laneSync l).portFlush l
    let s := if p.ackOwed then s.urAck l false else s
    let s := if p.txLp = 2 ∧ p.rxLp ≠ 2 ∧ l < 16 ∧ s.flag .ULK_SB_CFG_POLL_EN l ∧ s.fld .ULK_STS_STATE l = 2 then
        s.sbPollNow l
      else s
    s.upperUp l

/-- A lane that was ACTIVE is darned: counted, with its class 1 entry (R211, R480). -/
def State.darnNote (s : State) (i : Nat) : State := (s.count .LANE_DARN_CNT_DARNS i).correctedLog 11

/-- Lanes that have left ACTIVE are asked out of the stripe (R205): DARN_REQ names every lane darned and not yet seen
removed; below DARN_MIN the link goes down instead. -/
def State.darnAsk (s : State) (l : Nat) (is : List Nat) : State :=
  let s := s.each is fun s i => (s.setLane i lnDARNED).set .LANE_STS_CLEAN i 0
  if s.activeRx l < s.darnMin l then s.linkDown l
  else
    let k := s.lk l
    let s := s.setLk l { k with darning := k.darning ||| s.farMask is, lost := s.tick }
    let s := (s.laneSync l).lpExit l
    s.sendMarker l 2 (s.lk l).darning

/-- An ACTIVE lane is darned. -/
def State.darn (s : State) (i : Nat) : State := (s.darnNote i).darnAsk (linkOf i) [i]

/-- FORCE_DARN acts on an ACTIVE lane while DARN_MIN other lanes stay ACTIVE (R208). -/
def State.forceDarn (s : State) (i : Nat) : State :=
  if s.flag .LANE_CTL_FORCE_DARN i && s.lane i == lnACTIVE && decide (s.darnMin (linkOf i) < s.activeRx (linkOf i))
  then s.darn i else s

/-- A trial window of a lane starts (R197, R206). -/
def State.trialStart (s : State) (i : Nat) : State := (s.setLane i lnTRIAL).setLtx i { s.ltx i with winBad := false }

/-- A trial is over without success, an ADD_REQ of the lane with it. -/
def State.trialDrop (s : State) (i : Nat) : State :=
  let l := linkOf i
  let k := s.lk l
  ((s.setLane i lnDARNED).set .LANE_STS_CLEAN i 0).setLk l { k with adding := k.adding - (k.adding &&& s.farBit i) }

/-- A lane may be tried (R197, R203, R206). -/
def State.mayTry (s : State) (i : Nat) : Bool :=
  s.linkUp (linkOf i) && s.flag .LANE_CTL_TRIAL_EN i && !s.flag .LANE_CTL_FORCE_DARN i && (s.port (linkOf i)).rxLp == 0

/-- FORCE_DARN that had no effect is tried on every lane of a link again (R208). -/
def State.forceAll (s : State) (l : Nat) : State := s.each (lanesOf l) State.forceDarn

/-- The receive lanes leave low power (R197, R202): those that regained lock are ACTIVE, the others are darned. -/
def State.rxExit (s : State) (l failed : Nat) : State :=
  let p := s.port l
  if p.rxLp = 0 then s
  else
    let s := s.setPort l { p with rxLp := 0 }
    let low := (lanesOf l).filter fun i => s.lane i == lnDOZE || s.lane i == lnDEEP
    let lost (i : Nat) : Bool := (s.farBit i &&& failed) != 0
    let bad := low.filter lost
    let s := s.each low fun s i =>
      ((s.setLane i lnACTIVE).set .LANE_STS_CDR_LOCK i (bit (!lost i))).set .LANE_STS_BLOCK_LOCK i (bit (!lost i))
    let s := s.laneSync l
    let s := if bad = [] then s else (s.laneEvt l .LANE_LINK_EVT_WAKE_FAIL).darnAsk l bad
    let s := if p.rxLp = 2 ∧ (s.port l).txLp ≠ 2 ∧ l < 16 ∧ s.flag .ULK_SB_CFG_POLL_EN l ∧ s.fld .ULK_STS_STATE l = 2
      then s.sbPollNow l else s
    (s.forceAll l).upperUp l

/-! ### Register writes that act on a link -/

/-- A write of LANE_LINK_CTL.ENABLE (R197). -/
def State.enableWrite (s : State) (l : Nat) (v : Bool) : State :=
  if s.flag .LANE_LINK_CTL_ENABLE l = v then s
  else
    let s := s.set .LANE_LINK_CTL_ENABLE l (bit v)
    if v then s.laneTrain l else s.linkOff l

/-- A write of 1 to LANE_LINK_CTL.RETRAIN (R197, R210). A link whose ENABLE is 0 stays OFF. -/
def State.retrain (s : State) (l : Nat) : State := if s.flag .LANE_LINK_CTL_ENABLE l then s.linkDown l true else s

/-- A write of LANE_CTL.FORCE_DARN (R208): a lane in trial leaves it. -/
def State.forceWrite (s : State) (i : Nat) (v : Bool) : State :=
  let s := s.set .LANE_CTL_FORCE_DARN i (bit v)
  if v && s.lane i == lnTRIAL then s.trialDrop i else s.forceDarn i

/-- A write of 1 to LANE_CTL.TRIAL_NOW (R206): a window starts, or starts again. -/
def State.trialNow (s : State) (i : Nat) : State :=
  if (s.lane i == lnDARNED || s.lane i == lnTRIAL) && s.mayTry i then s.trialStart i else s

/-- A write of ULK_CTL.EN (R243). -/
def State.ulkEnWrite (s : State) (p : Nat) (v : Bool) : State :=
  let s := s.set .ULK_CTL_EN p (bit v)
  if v then s.upperUp p else s.portDown p 7

/-- A write of 1 to ULK_CTL.RESET (R243): the port goes DOWN and its lanes retrain. -/
def State.ulkReset (s : State) (p : Nat) : State :=
  if s.fld .ULK_STS_STATE p = 0 then s.retrain p else s.portDown p 4

/-- A write of ULK_SB_LATCH (R241): SB_CFG is sent at once; the answer to a poll that is out is read under what was there
before (R248); mirrored in a pair (R396). -/
def State.sbLatchWrite (s : State) (p v : Nat) : State :=
  let l := s.port p
  let s := if l.pollOut && l.oldLatch.isNone then s.setPort p { l with oldLatch := some (s.fld .ULK_SB_LATCH_LATCH p) }
    else s
  let s := s.set .ULK_SB_LATCH_LATCH p v
  let s := if s.fld .ULK_STS_STATE p = 2 then s.urSend p (.sbCfg (s.fld .ULK_SB_LATCH_LATCH p)) else s
  s.mirReg (blockBase 9 + 0x10000 * p + 0x48) 8 (s.fld .ULK_SB_LATCH_LATCH p)

/-- A write of ULK_SB_OUT (R241): a change goes in the next SB_STATE; mirrored in a pair (R396). -/
def State.sbOutWrite (s : State) (p v : Nat) : State :=
  let old := s.sbLines p
  let s := s.set .ULK_SB_OUT_LINES p v
  let s := if s.sbLines p = old then s else s.setPort p { s.port p with sbDirty := true }
  s.mirReg (blockBase 9 + 0x10000 * p + 0x58) 8 (s.fld .ULK_SB_OUT_LINES p)

/-- A write of ULK_SB_CFG sets the effective period P (R239). -/
def State.sbEffective (s : State) (p : Nat) : State :=
  let per := min 4000 (max 1 (s.fld .ULK_SB_CFG_PERIOD p))
  let far := min 4000 (max 1 (s.fld .ULK_FAR_SB_MIN p))
  s.set .ULK_SB_CFG_EFFECTIVE p (max per far)

end Sys2Proof.Machine
end

