-- ==== Sys2Proof/Machine/BootOps.lean ====
section
/-!
DEFINITION. Boot and reset (R376 to R385): the flash header and the Evoset record, the module reset, power-off, device
time across them (R473), and the order in which domains come up (R379).
-/
namespace Sys2Proof.Machine

/-! ### CRC-32 (R95, R383) -/

/-- One bit of a reflected CRC-32 with the IEEE 802.3 polynomial. -/
def crcBitR (c : Nat) : Nat := if c % 2 = 1 then (c / 2) ^^^ 0xEDB88320 else c / 2
/-- One byte of it. -/
def crcByte (c : Nat) (b : Byte) : Nat :=
  crcBitR (crcBitR (crcBitR (crcBitR (crcBitR (crcBitR (crcBitR (crcBitR (c ^^^ b.toNat))))))))
/-- CRC-32 of bytes. -/
def crc32 (d : List Byte) : Nat := d.foldl crcByte 0xFFFFFFFF ^^^ 0xFFFFFFFF

/-! ### The Evoset record (R385) -/

/-- A field of the record in use; none when no record is in use or it ends before the field. -/
def State.evNum (s : State) (off n : Nat) : Option Nat :=
  if off + n ≤ s.bt.evUse.length then some (ofBytes ((s.bt.evUse.drop off).take n)) else none

/-- HST_CLK_CFG.MODE, FLAGS, Subsystem ID and PORT_EN of the record. -/
def State.evClk (s : State) : Nat := (s.evNum 0x10 1).getD 0 % 4
def State.evFlags (s : State) : Nat := (s.evNum 0x11 1).getD 6
def State.evSubsys (s : State) : Nat := (s.evNum 0x12 2).getD 1
def State.evPorts (s : State) : Nat := (s.evNum 0x1A 2).getD 0xFFFF

/-- TotalVFs values that keep the limits of R76. -/
def vfTotalsOk (a b c : Nat) : Bool :=
  decide (a ≤ 1024) && decide (b ≤ 1024) && decide (c ≤ 1024) && decide (a + b + c ≤ 2048)

/-- VF_TOTAL of the record; one that breaks a limit gives the defaults (R76). -/
def State.evVfs (s : State) : Nat × Nat × Nat :=
  match s.evNum 0x14 2, s.evNum 0x16 2, s.evNum 0x18 2 with
  | some a, some b, some c => if vfTotalsOk a b c then (a, b, c) else (1024, 512, 512)
  | _, _, _ => (1024, 512, 512)

/-- A base of the record; one that is not aligned, or whose area does not lie in the store, gives its default. -/
def State.evBase (s : State) (off dflt size : Nat) : Nat :=
  match s.evNum off 8 with
  | some a => if a % size = 0 ∧ a + size ≤ 0x2000000000 then a else dflt
  | none => dflt

/-- The default provisioning of the record. -/
def State.evProvision (s : State) : List Byte := s.bt.evUse.drop 0x40

/-- The copy in use: good, with the higher SEQ. -/
def evPick (a b : EvRec) : Option EvRec :=
  if a.good && (!b.good || decide (b.seq ≤ a.seq)) then some a else if b.good then some b else none

/-- Writes FN_VF_TOTAL. -/
def State.setVfTotal (s : State) (v : Nat × Nat × Nat) : State :=
  (((s.set .FN_VF_TOTAL_PF1 0 v.1).set .FN_VF_TOTAL_PF2 0 v.2.1).set .FN_VF_TOTAL_PF3_HI 0 (v.2.2 / 2)).set
    .FN_VF_TOTAL_PF3_LO 0 (v.2.2 % 2)

/-- FN_VF_TOTAL as three values. -/
def State.vfTotal (s : State) : Nat × Nat × Nat :=
  (s.fld .FN_VF_TOTAL_PF1, s.fld .FN_VF_TOTAL_PF2, 2 * s.fld .FN_VF_TOTAL_PF3_HI + s.fld .FN_VF_TOTAL_PF3_LO)

/-- The loader of the always-on domain (R379 step 1): the record in use, and what its hardware block sets. With no valid
copy every field has its default and the fault log records it. -/
def State.evLoad (s : State) : State :=
  let s := match evPick s.bt.ev0 s.bt.ev1 with
    | some r => { s with bt.evUse := r.body }
    | none => { s with bt.evUse := [] }.logRecord 15 1
  let s := (s.set .HST_CLK_CFG_MODE 0 s.evClk).setVfTotal s.evVfs
  { s with vfForce := s.evVfs }

/-! ### The flash header (R383) -/

/-- The header copy in use is copy 1. -/
def hdrSecond (a b : FlashHdr) : Bool :=
  b.good && (!a.good || decide ((b.seq + 4294967296 - a.seq) % 4294967296 < 2147483648 ∧ b.seq ≠ a.seq))

/-- The header in use. -/
def State.hdr (s : State) : FlashHdr := if hdrSecond s.bt.hdr0 s.bt.hdr1 then s.bt.hdr1 else s.bt.hdr0

/-- Writes a header to the copy that is not in use, with SEQ + 1. -/
def State.putHdr (s : State) (h : FlashHdr) : State :=
  let h := { h with seq := (s.hdr.seq + 1) % 4294967296, good := true }
  if hdrSecond s.bt.hdr0 s.bt.hdr1 then { s with bt.hdr0 := h } else { s with bt.hdr1 := h }

/-! ### Device time (R472, R473) -/

/-- TIM_AON.COUNT: ticks of the 32.768 kHz clock since the always-on domain powered on. -/
def State.aonCount (s : State) : Nat := s.tick * 32768 / 1000000000 % 281474976710656

/-- CTL goes down: device time is captured. A slew under way is dropped with TIM_ADJ (R476). -/
def State.timeSave (s : State) : State :=
  let s := (s.set .TIM_SAVE_TIME 0 s.now).set .TIM_SAVE_AON_COUNT 0 s.aonCount
  { s with bt.slew := none }

/-- CTL comes up: device time is loaded. -/
def State.timeLoad (s : State) : State :=
  let dt := (s.aonCount + 281474976710656 - s.fld .TIM_SAVE_AON_COUNT) % 281474976710656
  let s := s.set .TIM_NOW_NOW 0 (s.fld .TIM_SAVE_TIME + dt * s.fld .TIM_RATIO_RATIO / 65536)
  s.set .TIM_STS_TIME_APPROX 0 1

/-! ### Pair lines (R390) -/

/-- Drives PAIR_ROLE after a change of mode: `was` is what it drove before. -/
def State.roleLine (s : State) (was : Bool) : State :=
  if s.leading = was then s else s.send (.pairRole s.leading)

/-- PAIR_ALIVE is held low. -/
def State.aliveLow (s : State) : State :=
  if s.mg.aliveOut then { s with mg.aliveOut := false }.send (.pairAlive false) else s

/-! ### Module reset (R377) and power-off (R376) -/

/-- A register that lies in the always-on domain and keeps its value through a module reset (R374, R439, R478, R479), or
that the fuses give. -/
def keptReg (r : Reg) : Bool :=
  match r with
  | .TIM_AON | .TIM_RATIO | .TIM_SAVE | .TIM_SAVE_AON | .SEC_LIFECYCLE => true
  | r => match (regInfo r).block with
    | .PWR | .CLK | .RST | .MGT | .DBG => true
    | _ => false

/-- A field that a module reset leaves alone: DBG_STS.OPEN (R358), PWR_WDOG_CFG.EN (R468) and the PLL states return to
reset; the lines of the twin are live. -/
def keptFld (f : Fld) : Bool :=
  match f with
  | .DBG_STS_OPEN | .PWR_WDOG_CFG_EN | .CLK_STS_FAB_LOCK | .CLK_STS_CPU_LOCK | .CLK_STS_DRAM_LOCK | .CLK_STS_TB_LOCK
  | .CLK_STS_HOST_LOCK | .CLK_STS_LANE_LOCK | .CLK_CORE_SEL_SEL | .CLK_CORE_SEL_ACTIVE | .PWR_CORE_CTL_ASLEEP => false
  | .SEM_STS_TWIN_PRESENT | .SEM_STS_TWIN_LEADS | .HST_CLK_CFG_REFCLK_OK => true
  | f => keptReg (fldInfo f).reg

/-- A field that survives OFF: the fuses and the live lines. -/
def fuseFld (f : Fld) : Bool :=
  match f with
  | .SEM_STS_TWIN_PRESENT | .SEM_STS_TWIN_LEADS | .HST_CLK_CFG_REFCLK_OK | .SEC_LIFECYCLE_STATE
  | .SEC_LIFECYCLE_ADVANCING => true
  | _ => false

/-- The listed fields that satisfy `p`. -/
def State.keepRegs (s : State) (p : Fld → Bool) : List (Nat × Nat) :=
  smKeep (fun k => p (Fld.ofNat (k / 1048576))) s.regs

/-- A pending lifecycle move takes effect (R356). Entering RETIRED writes zeros over the store and the SRAM. -/
def State.lifecycleMove (s : State) : State :=
  match s.sc.lcNext with
  | none => s
  | some n =>
    let s := ((s.set .SEC_LIFECYCLE_STATE 0 n).set .SEC_LIFECYCLE_ADVANCING 0 0)
    let s := { s with sc.lcNext := none }.logRecord 19 n
    if n = 3 then { s with mem := [], poison := [] } else s

/-- The host face starts to come up (R379 step 2). -/
def State.bootDomains (s : State) : State := ((s.setDom 6 .powering).setDom 7 .powering).setDom 8 .powering

/-- What the host and the twin see before the module goes: the link drops, PAIR_ALIVE is held low; the time is kept. -/
def State.beforeReset (s : State) : State :=
  let s := if s.domOn 1 then s.timeSave else s
  let s := if s.flag .HST_LINK_STS_DL_UP then s.send (.msg .linkDown) else s
  (s.clkreq false).aliveLow

/-- What a module reset leaves: the always-on registers, the fault log, the flash, the store contents that satisfy
`store`, and with `dram` what firmware keeps in the store. -/
def State.resetKept (s : State) (dram warm : Bool) (store : Nat → Bool) : State :=
  let b := s.bt
  { pending := s.pending, out := s.out, free := s.free, tick := s.tick, mode := .BOOT
    regs := s.keepRegs keptFld, mem := smKeep store s.mem, poison := smKeep store s.poison
    bitmap := if dram then s.bitmap else []
    ring := s.ring, logWork := if dram then s.logWork else [], logFlash := s.logFlash, ledErr := s.ledErr
    perst := s.perst, doms := [(0, .on)]
    bt := { hdr0 := b.hdr0, hdr1 := b.hdr1, ev0 := b.ev0, ev1 := b.ev1, wdogFailed := b.wdogFailed
            trainCache := b.trainCache, warm := warm, wakeOn := b.wakeOn, provSave := if dram then b.provSave else []
            trip := b.trip, tripRec := b.tripRec, overV := b.overV, limits := b.limits
            powerHigh := b.powerHigh, vinOut := b.vinOut, alertLow := b.alertLow }
    sc := { lcNext := s.sc.lcNext }
    mg := { sensVal := s.mg.sensVal, rawSeek := s.mg.rawSeek } }

/-- The store is in self-refresh (R453). -/
def State.selfRefresh (s : State) : State :=
  (s.each (List.range 8) fun t k => t.set .DRS_PKG_STS_SR k 1).set .DRS_STS_SELF_REFRESH 0 1

/-- A module reset with a cause of RST_CAUSE (R377): every domain but AON and DRAM restarts, and the module is in BOOT
with its always-on registers, the fault log and the store contents. The contents are lost after a clock failure, when
DRAM was off, and on entering RETIRED. -/
def State.moduleReset (s : State) (cause : Nat) : State :=
  if s.mode = .OFF then s
  else
    let dram := s.dom 18 == .on
    let store (a : Nat) : Bool := dram && cause != 8 && decide (a < 0x2000000000)
    let t := s.beforeReset.resetKept dram (s.bt.warm && cause == 2) store
    let t := if dram then (t.setDom 18 .on).selfRefresh else t
    let t := (t.set .RST_CAUSE_CAUSE 0 cause).set .RST_CAUSE_COUNT 0 (t.fld .RST_CAUSE_COUNT + 1)
    (t.lifecycleMove.evLoad.bootDomains).roleLine s.leading

/-- What is left when the rails go off: the flash, the fuses, the latches of the converter housekeeping. -/
def State.offKept (s : State) : State :=
  let b := s.bt
  { pending := s.pending, out := s.out ++ [.railsOff], free := s.free, mode := .OFF, tick := 0
    regs := s.keepRegs fuseFld, mem := [], poison := [], cfg := [], logFlash := s.logFlash, perst := s.perst
    ledErr := s.ledErr && s.logFlash.any fun e => e.cls == 3 || e.cls == 5 || e.cls == 6
    bt := { hdr0 := b.hdr0, hdr1 := b.hdr1, ev0 := b.ev0, ev1 := b.ev1, trainCache := b.trainCache
            trip := b.trip, tripRec := b.tripRec, overV := b.overV, alertLow := b.alertLow }
    sc := { lcNext := s.sc.lcNext } }

/-- The rails go off (R376, R501): what the flash, the fuses and the converter housekeeping hold is all that is left. -/
def State.powerOff (s : State) : State :=
  if s.mode = .OFF then s else (s.clkreq false).aliveLow.offKept.roleLine s.leading

/-! ### PWR_ALERT_N (R503) -/

/-- A condition of PWR_ALERT_N holds. In OFF only a latched trip or overvoltage asserts it. -/
def State.alertDue (s : State) : Bool :=
  s.bt.trip.isSome || s.bt.overV || (s.mode != .OFF && (s.bt.powerHigh || s.bt.vinOut || s.bt.limits != []))

/-- PWR_ALERT_N follows its conditions. -/
def State.alertSync (s : State) : State :=
  if s.alertDue = s.bt.alertLow then s else { s with bt.alertLow := s.alertDue }.send (.alertN s.alertDue)

/-! ### The deassertion of PERST# (R54, R55, R76) -/

/-- The reference clock mode of the link that follows (R53, R54); common clock needs REFCLK (R61). -/
def State.clkChoose (s : State) : State :=
  let m := s.fld .HST_CLK_CFG_MODE
  let s := s.set .HST_CLK_CFG_ACTIVE 0 (if m ≠ 0 then m else if s.flag .HST_CLK_CFG_REFCLK_OK then 1 else 3)
  s.clkreq (s.fld .HST_CLK_CFG_ACTIVE == 1)

/-- FN_VF_TOTAL is taken; values that break a limit are loaded back with those in force, and the fault log records it. -/
def State.vfTake (s : State) : State :=
  let v := s.vfTotal
  if vfTotalsOk v.1 v.2.1 v.2.2 then { s with vfForce := v } else (s.setVfTotal s.vfForce).logRecord 2 1

/-! ### Domains coming up -/

/-- The wake-up order of R379: what the module powers next in BOOT. -/
def State.bootNext (s : State) : State :=
  let on (d : Nat) : Bool := s.dom d == .on
  let up (s : State) (d : Nat) : State := if s.dom d = .off then s.setDom d .powering else s
  if s.mode ≠ .BOOT ∨ s.bt.bootFail then s
  else if s.bt.image.isNone then
    if on 6 && on 7 && on 8 then s.each [1, 16, 2] up else s
  else
    let s := s.each [3, 4, 5, 17, 18] up
    if on 14 && s.bt.roleSettled then s.each [13, 9, 10, 11, 12, 15] up else s

/-- Firmware enables the ports that the record names (R379 step 6). -/
def State.enablePorts (s : State) : State :=
  s.each (List.range 16) fun s p =>
    if s.evPorts.testBit p then (s.enableWrite p true).ulkEnWrite p true else s

/-- A domain comes ON (R462): its state is reset or restored, its PLL locked. -/
def State.domUp (s : State) (d : Nat) : State :=
  let kept := s.dom d == .retained
  let s := s.setDom d .on
  let s :=
    if d = 1 then
      (((((s.timeLoad.set .CLK_STS_REF_OK 0 1).set .CLK_STS_AON_OK 0 1).set .CLK_STS_FAB_LOCK 0 1).set .CLK_STS_CPU_LOCK 0 1).set .CLK_STS_TB_LOCK 0 1)
    else if d = 8 then
      let s := s.set .CLK_STS_HOST_LOCK 0 1
      if s.perst then s else s.clkChoose.vfTake
    else if d = 14 then s.grdReload
    else if d = 17 then s.set .CLK_STS_DRAM_LOCK 0 1
    else if 9 ≤ d ∧ d ≤ 12 then s.set .CLK_STS_LANE_LOCK 0 1
    else if d = 19 then (s.set .CLK_STS_LANE_LOCK 0 1).enableWrite 16 true
    else if 2 ≤ d ∧ d ≤ 5 then
      (s.set .CLK_CORE_SEL_SEL (d - 2) 0).set .CLK_CORE_SEL_ACTIVE (d - 2) 0
    else if d = 15 ∧ kept then s.each (s.chans.map (·.1)) State.undrainChan
    else s
  let s := if s.mode = .BOOT ∧ 9 ≤ d ∧ d ≤ 15 ∧ d ≠ 14 ∧ ([9, 10, 11, 12, 13, 15].all fun e => s.dom e == .on)
    then s.enablePorts else s
  (s.bootNext).irqEval

end Sys2Proof.Machine
end

