-- ==== Sys2Proof/Machine/PwrOps.lean ====
section
/-!
DEFINITION. Power domains, cores at rest, wakes, watchdogs and device time (R458 to R476).
-/
namespace Sys2Proof.Machine

/-! ### The domains of R458 -/

/-- A domain that PWR_DOM_REQ may change, and one that has retention. -/
def domByReq (d : Nat) : Bool := (decide (2 ≤ d) && decide (d ≤ 5)) || (decide (9 ≤ d) && decide (d ≤ 13)) || d == 15 || d == 19
def domRetains (d : Nat) : Bool := (decide (2 ≤ d) && decide (d ≤ 5)) || d == 15

/-- The domains a domain requires. -/
def domNeeds (d : Nat) : List Nat :=
  if d = 0 then [] else if d = 1 ∨ d = 8 ∨ d = 18 then [0]
  else if 2 ≤ d ∧ d ≤ 5 then [1, 16]
  else if d = 6 ∨ d = 7 then [8]
  else if 9 ≤ d ∧ d ≤ 12 then [13]
  else if d = 14 then [1, 17] else if d = 15 then [1, 14] else if d = 17 then [1, 18]
  else [1]

/-- The links of a domain. -/
def domLinks (d : Nat) : List Nat :=
  if d = 19 then [16] else if 9 ≤ d ∧ d ≤ 12 then (List.range 4).map (4 * (d - 9) + ·) else []

/-- The rest of a core. -/
def State.core (s : State) (c : Nat) : CoreRest := smGet (fun _ => {}) s.bt.cores c
def State.setCore (s : State) (c : Nat) (r : CoreRest) : State :=
  let s := { s with bt.cores := smSet (fun _ => {}) s.bt.cores c r }
  s.set .PWR_CORE_CTL_ASLEEP c (bit (r.phase == .rest))

/-- A request of core `c` has not been answered. -/
def State.coreBusy (s : State) (c : Nat) : Bool :=
  let q (r : Req) : Bool := r.who == .core c
  (s.ledger.any fun e => q e.req) || (s.ldgWait.any fun e => q e.req) || (s.pReads.any fun e => q e.req)
    || s.bskWait.any q || (s.hReads.any fun e => q e.req) || (s.walks.any fun w => w.waiting.any q) || s.lockWait.any q
    || (s.govq.any fun e => q e.2) || (s.xltDrain.any fun e => q e.2) || (s.grdDrain.any fun e => q e.2)

/-- A channel has nothing in flight: no read or write of a beat is out (R279). A channel that a rinse aborts counts as
drained (R280). -/
def ChRun.still (r : ChRun) : Bool := r.beats.all fun b => !(b.st == .reading || b.st == .writing)

/-- The "Drained when" condition of R458. -/
def State.domDrained (s : State) (d : Nat) : Bool :=
  if 2 ≤ d ∧ d ≤ 5 then (s.core (d - 2)).phase != .run && !s.coreBusy (d - 2)
  else if (9 ≤ d ∧ d ≤ 12) ∨ d = 19 then
    (domLinks d).all (fun l => (s.fld .LANE_LINK_STS_STATE l == 0 && !s.flag .LANE_LINK_CTL_ENABLE l)
        || ((s.port l).txLp == 2 && (s.port l).rxLp == 2))
      && !(d == 19 && s.paired)
  else if d = 13 then (List.range 16).all fun p => s.fld .ULK_STS_STATE p == 0
  else if d = 15 then s.chans.all fun e => e.2.rinsed || (e.2.still && s.chState e.1 != chSTOPPING)
  else if d = 14 then s.walks == [] && s.ledger == [] && s.ldgWait == []
  else if d = 16 then true
  else if d = 6 ∨ d = 7 ∨ d = 8 then s.fld .HST_LINK_STS_LTSSM == 8 || !s.flag .HST_LINK_STS_DL_UP
  else true

/-- A forced request has settled: accepted writes have retired and abandoned reads are done with (R462, R275). -/
def State.domSettled (s : State) (d : Nat) : Bool :=
  if d = 15 then s.chans.all fun e => !s.chBusy e.1 else true

/-- Field `f` at instance `i` lies in a domain that can be switched by request. -/
def fldInDom (d : Nat) (f : Fld) (i : Nat) : Bool :=
  let r := (fldInfo f).reg
  match (regInfo r).block with
  | .DMA => d == 15
  | .ULK => domLinks d |>.contains (if r == .ULK_REQ_CNT then i / 16 else i)
  | .LANE => if (regInfo r).off < 0xC0000 then domLinks d |>.contains (linkOf i) else domLinks d |>.contains i
  | _ => false

/-- The level sources that a domain drives. -/
def domSrcs (d : Nat) : List Nat := (domLinks d).flatMap fun l => if l = 16 then [0x2011] else [0x2001 + l, 0x2020 + l]

/-- The rail of a domain goes off: its state is lost (R462), and its level sources read as not asserted (R460). -/
def State.domOff (s : State) (d : Nat) : State :=
  let s := s.withLevels (domSrcs d) fun s =>
    { s with regs := smKeep (fun k => !fldInDom d (Fld.ofNat (k / 1048576)) (k % 1048576)) s.regs
             lanes := smKeep (fun l => !(domLinks d).contains l) s.lanes
             laneMarks := smKeep (fun i => !(domLinks d).contains (linkOf i)) s.laneMarks
             laneSkew := smKeep (fun i => !(domLinks d).contains (linkOf i)) s.laneSkew
             laneTx := smKeep (fun i => !(domLinks d).contains (linkOf i)) s.laneTx }
  let entry : Held → Bool | .evq _ => true | .chan _ => false
  let s := if d = 15 then { s with held := s.held.filter entry, chans := [], rings := [], bursts := [], dmaDone := [], rrPos := (0, 0) } else s
  let s := if d = 1 then s.timeSave else s
  (s.setDom d .off).irqEval

/-- What becomes of a domain that drains. -/
def State.setGoal (s : State) (d op : Nat) : State := { s with bt.domGoal := nSet s.bt.domGoal d op }

/-! ### The wake of a core (R463 to R466) -/

/-- Writes the wake source record (R466). -/
def State.wakeRecord (s : State) (src target : Nat) (replayed lost : Bool) : State :=
  s.set .PWR_WAKE_LAST_RECORD 0
    (src + 256 * target + 2048 * bit replayed + 4096 * bit lost + 65536 * s.aonCount)

/-- A core starts again after a wake, with the record written before its first instruction (R465). -/
def State.coreStart (s : State) (c src : Nat) (replayed : Bool) : State :=
  (s.wakeRecord src c replayed (s.core c).lost).setCore c {}

/-- A resting core wakes (R463, R465): from HALT at once; from RETAIN or OFF its domain is powered first, on the fast
internal oscillator. A wake that comes while its domain drains waits until the entry is complete (R462, R464). -/
def State.coreWake (s : State) (c src : Nat) (replayed : Bool) : State :=
  let r := s.core c
  let d := c + 2
  if r.phase ≠ .rest then s
  else match s.dom d with
    | .off => ((s.coreStart c src replayed).setGoal d 0).setDom d .powering
    | .retained => ((s.coreStart c src replayed).setGoal d 1).setDom d .powering
    | .on => s.coreStart c src replayed
    | _ => s.setCore c { r with wake := some (r.wake.getD (src, replayed)) }

/-- The wake that waited for a core's entry acts. -/
def State.coreRetry (s : State) (d : Nat) : State :=
  if 2 ≤ d ∧ d ≤ 5 then
    match (s.core (d - 2)).wake with
    | some (src, rep) => s.coreWake (d - 2) src rep
    | none => s
  else s

/-! ### The drain handshake (R462) -/

/-- The units of a domain resume after a drain that failed, or run again after power-up. -/
def State.domResume (s : State) (d : Nat) : State :=
  if d = 15 then State.each { s with dmaDrain := false } (s.chans.map (·.1)) State.undrainChan else s.coreRetry d

/-- The units of a domain accept no new work. -/
def State.domDrain (s : State) (d : Nat) : State :=
  let s := s.setDom d .draining
  if d = 15 then State.each { s with dmaDrain := true } (s.chans.map (·.1)) State.drainChan else s

/-- A forced power-down stops the units at a beat boundary. -/
def State.domAbort (s : State) (d : Nat) : State :=
  let s := s.setDom d .aborting
  if d = 15 then
    let s := { s with dmaDrain := true }
    s.each (s.chans.map (·.1)) fun s c => (s.hardAbort c 1).chStopEnd c
  else if 2 ≤ d ∧ d ≤ 5 then s.setCore (d - 2) { s.core (d - 2) with phase := .rest, edge := none }
  else s.each (domLinks d) State.linkOff

/-- The request that runs ends with a result (R462): 0 OK, 1 BUSY, 2 REFUSED, 3 DEPENDENCY. -/
def State.domEnd (s : State) (d res : Nat) : State :=
  let s := { s with bt.domReq := none }
  let s := (s.set .PWR_DOM_RESULT_RESULT 0 res).set .PWR_DOM_RESULT_LAST 0 d
  let s := s.pwrEvt .PWR_EVT_REQ_DONE
  if res = 0 then s else s.pwrEvt .PWR_EVT_REQ_FAIL

/-- Another domain that is on requires this one. -/
def State.domNeeded (s : State) (d : Nat) : Bool :=
  (List.range 20).any fun e => s.dom e != .off && s.dom e != .retained && (domNeeds e).contains d

/-- A power-down of an ON domain begins. -/
def State.domDown (s : State) (d op : Nat) (force : Bool) : State :=
  let s := s.setGoal d op
  if force then s.domAbort d else s.domDrain d

/-- A GO in PWR_DOM_REQ (R458, R459, R462, R476). A forced request for the domain whose unforced drain runs makes that
drain forced; any other GO while a request runs is dropped. -/
def State.domRequest (s : State) (d op : Nat) (force : Bool) : State :=
  match s.bt.domReq with
  | some (e, o, _) =>
    if e = d ∧ force ∧ op = o ∧ op ≠ 1 ∧ s.dom d = .draining then
      { s with bt.domReq := some (d, op, true) }.domAbort d
    else s.pwrEvt .PWR_EVT_REQ_FAIL
  | none =>
    let run (s : State) : State := { s with bt.domReq := some (d, op, force) }
    if 20 ≤ d ∨ op = 3 ∨ !domByReq d ∨ (op = 2 ∧ !domRetains d) then s.domEnd d 2
    else if op = 1 then
      if s.dom d = .on then s.domEnd d 0
      else if (domNeeds d).any fun e => s.dom e != .on then s.domEnd d 3
      else if s.dom d = .off ∨ s.dom d = .retained then (run s).setGoal d (bit (s.dom d == .retained)) |>.setDom d .powering
      else run s
    else if s.domNeeded d then s.domEnd d 3
    else match s.dom d with
      | .off => s.domEnd d 0
      | .retained => if op = 2 then s.domEnd d 0 else (s.domOff d).domEnd d 0
      | .on => (run s).domDown d op force
      | .powering => run s
      | .draining => if force then (run s).domDown d op true else (run s).setGoal d op
      | _ => (run s).setGoal d op

/-- The clamps of a drained or settled domain close and its rail goes off, or to retention; a core that was woken meanwhile
comes up again. -/
def State.domClamp (s : State) (d : Nat) : State :=
  let s := if nGet s.bt.domGoal d = 2 then s.setDom d .retained else s.domOff d
  let s := (s.setGoal d 0).irqEval
  let s := match s.bt.domReq with
    | some (e, o, _) => if e = d ∧ o ≠ 1 then s.domEnd d 0 else s
    | none => s
  s.coreRetry d

/-- A powering domain is ON (R462): a core that was off starts from its reset; a power-down that waited for the domain starts
to drain (R476). -/
def State.domPowered (s : State) (d : Nat) : State :=
  let restored := nGet s.bt.domGoal d == 1
  let s := (s.setGoal d 0).domUp d
  let s := if !restored && decide (2 ≤ d) && decide (d ≤ 5) then s.setCore (d - 2) {} else s
  let s := if restored || d == 15 then s.domResume d else s
  match s.bt.domReq with
  | some (e, o, f) => if e = d then (if o = 1 then s.domEnd d 0 else s.domDown d o f) else s
  | none => s

/-! ### Wakes (R464 to R467) -/

/-- An edge wake input of a core (R464): inside the entry window it is lost, or latched while REPLAY was 1 at its
opening; a core that rests wakes. -/
def State.coreEdge (s : State) (c src : Nat) : State :=
  let r := s.core c
  match r.phase with
  | .run => s
  | .window =>
    if r.replay then s.setCore c { r with edge := some (r.edge.getD src) }
    else (s.setCore c { r with lost := true }).pwrEvt .PWR_EVT_LOST_EDGE
  | .rest => s.coreWake c src false

/-- The wait instruction (R463, R464): the entry window opens. -/
def State.coreWait (s : State) (c : Nat) : State :=
  if (s.core c).phase ≠ .run ∨ (s.dom (c + 2) ≠ .on ∧ s.dom (c + 2) ≠ .draining) then s
  else
    let m := s.fld .PWR_CORE_CTL_MODE c
    s.setCore c { phase := .window, mode := if m = 3 then 0 else m, replay := s.flag .PWR_CTL_REPLAY }

/-- The entry window ends (R464): the clock is gated, MODE 1 and 2 drain without force, and a latched edge is replayed
as a wake. A level input that is still asserted wakes the core at once, after its entry. -/
def State.coreGate (s : State) (c : Nat) : State :=
  let r := s.core c
  if r.phase ≠ .window then s
  else
    let s := s.setCore c { r with phase := .rest, edge := none }
    let s := if r.mode = 0 ∨ s.dom (c + 2) ≠ .on then s else (s.domDown (c + 2) (if r.mode = 1 then 2 else 0) false)
    let s := s.irqEval
    match r.edge with
    | some src => s.coreWake c src true
    | none => if (s.bestFor c).isSome then s.coreWake c 1 false else s

/-! ### Device time (R472 to R475) -/

/-- A value of a 64-bit or 32-bit register as a signed number. -/
def signedOf (w v : Nat) : Int := if v < 2 ^ (w - 1) then (v : Int) else (v : Int) - 2 ^ w
/-- A signed number as a register value. -/
def unsignedOf (w : Nat) (v : Int) : Nat := (v.emod (2 ^ w)).toNat

/-- TIM_ADJ in effect. -/
def State.timAdj (s : State) : Int := max (-500000) (min 500000 (signedOf 32 (s.fld .TIM_ADJ_PPB)))

/-- A slew in progress is cancelled (R476). -/
def State.slewStop (s : State) : State :=
  if s.flag .TIM_STS_SLEWING then
    { (s.set .TIM_STS_SLEWING 0 0).set .TIM_ADJ_PPB 0 0 with bt.slew := none }
  else s

/-- Device time moves by a signed step (R474). -/
def State.timeStep (s : State) (d : Int) : State :=
  let s := s.slewStop
  let s := s.set .TIM_NOW_NOW 0 (unsignedOf 64 ((s.now : Int) + d))
  if d < 0 then s.set .TIM_STS_STEPPED_BACK 0 1 else s

/-- One nanosecond of the time base, adjusted by TIM_ADJ (R472). -/
def State.timeTick (s : State) : State :=
  let a := s.bt.timFrac + s.timAdj
  let x : Int := if 1000000000 ≤ a then 1 else if a ≤ -1000000000 then -1 else 0
  { (s.set .TIM_NOW_NOW 0 (unsignedOf 64 ((s.now : Int) + 1 + x))) with bt.timFrac := a - 1000000000 * x }

/-- A PTM dialog that succeeded with an offset (R475). -/
def State.ptmDone (s : State) (ofs : Int) : State :=
  let s := (s.set .TIM_PTM_OFS_OFS 0 (unsignedOf 64 ofs)).set .TIM_STS_PTM_VALID 0 1
  if !s.flag .TIM_PTM_CFG_FOLLOW then s
  else
    let s := if s.fld .TIM_PTM_CFG_STEP_THR ≤ ofs.natAbs then s.timeStep ofs
      else
        let per : Int := (s.fld .TIM_PTM_CFG_PERIOD : Int)
        let ppb := max (-500000) (min 500000 (Int.tdiv (ofs * 1000) per))
        let s := s.set .TIM_ADJ_PPB 0 (unsignedOf 32 ppb)
        { s.set .TIM_STS_SLEWING 0 1 with bt.slew := some ofs }
    s.set .TIM_STS_TIME_APPROX 0 0

end Sys2Proof.Machine
end

