-- ==== Sys2Proof/Machine/FnOps.lean ====
section
/-!
DEFINITION. The life of a function (R76, R84, R93, R102 to R113): rinse, VF Enable, Bus Master Enable, BAR sizes, and
the resets of the host face (R64, R65, R381, R382, R523).
-/
namespace Sys2Proof.Machine

/-! ### Registers by address -/

/-- How an instance number counts a register with two levels of instances: LDG_SEQ of port p and initiator i is
instance 32p + i. -/
def regRow (r : Reg) : Nat := if r == .LDG_SEQ then 32 else (regInfo r).count2

/-- The BAS address of an instance of a register. -/
def regAddr (r : Reg) (i : Nat) : Nat :=
  let g := regInfo r
  blockBase g.block.ctorIdx + g.off + (i / regRow r) * g.stride + (i % regRow r) * g.stride2

/-- The fields of a register as one value, as they are stored. -/
def State.regRaw (s : State) (r : Reg) (i : Nat) : Nat :=
  (regFlds r).foldl (fun a f => a + s.fld f i * 2 ^ (fldInfo f).lo) 0

/-- A register is 8 bytes wide: some field lies above bit 31. -/
def regWide (r : Reg) : Bool := (regFlds r).any fun f => decide (32 < (fldInfo f).lo + (fldInfo f).w)

/-- Mirrors the present value of a register (R395 REG). -/
def State.mirVal (s : State) (r : Reg) (i : Nat) : State :=
  s.mirReg (regAddr r i) (if regWide r then 8 else 4) (s.regRaw r i)

/-! ### Rinse (R102 to R107, R278, R311, R416) -/

/-- The function in whose name something is held. -/
def State.heldFn (s : State) : Held → Nat
  | .evq e => e.fn
  | .chan c => if 256 ≤ c then (s.ctxOwner (c - 256)).1 else (match s.chan c with | some r => r.owner | none => 0)

/-- What is held goes on: an entry is routed again, a record is written unless it still has to wait. -/
def State.heldGo (s : State) (h : Held) : State :=
  match h with
  | .evq e => s.evqRoute e
  | .chan c =>
    if 256 ≤ c then s.ringPendRec (c - 256)
    else match s.chan c with
      | some r =>
        if s.recHolds c r then { s with held := s.held ++ [.chan c] } else (s.set .DMA_CH_STS_REC_HELD c 0).chRecord c r
      | none => s

/-- Releases what is held for the functions that satisfy `p`, in its order (R110, R277, R488). -/
def State.heldRelease (s : State) (p : Nat → Bool) : State :=
  let due := s.held.filter fun h => p (s.heldFn h)
  { s with held := s.held.filter fun h => !p (s.heldFn h) }.each due State.heldGo

/-- The sources whose PENDING a rinse clears (R311). -/
def State.rinseSrc (s : State) (f i : Nat) : Bool :=
  let x := s.fld .FN_RES_FIRST_CTX f
  let t := s.routeOf i
  i == 0x1000 + f || (decide (x ≤ i) && decide (i < x + s.fld .FN_RES_CTX_COUNT f))
    || ((t.kind == 1 || t.kind == 2) && t.func == f)

/-- The channels and rings of a function stop and are reset (R104, R278). -/
def State.rinseDma (s : State) (f : Nat) : State :=
  let s := s.each (s.chansOf f) fun s c => if s.chBusy c then (s.hardAbort c 2).chStopEnd c else s
  let s := s.each (s.chansOf f) State.chReset
  s.each (s.ctxsOf f) fun s x => (((s.set .DMA_SQ_STS_STATE x 0).ringReset x).mirVal .DMA_SQ_STS x).mirVal .DMA_CQ_PTR x

/-- The event queue registers of a function return to reset (R113). -/
def State.rinseEvq (s : State) (f : Nat) : State :=
  let s := (((s.set .FN_EVQ_BASE_BASE f 0).set .FN_EVQ_CFG_LOG2N f 4).set .FN_EVQ_CFG_EN f 0).set .FN_EVQ_HEAD_HEAD f 0
  let s := ((s.set .FN_EVQ_TAIL_TAIL f 0).set .FN_CTL_EVT_VEC f 0).set .FN_CTL_EVT_EN f 0
  { s.set .FN_CTL_ADVISORY_EN f 0 with evqWrap := bSet s.evqWrap f false }

/-- Host reads and atomics of a function that are held at the ledger are discarded without a completion (R182). -/
def State.heldDrop (s : State) (f : Nat) : State :=
  let mine (e : Nat × Req) : Bool := e.2.who == .host f
  State.each { s with heldReads := s.heldReads.filter fun e => !mine e } ((s.heldReads.filter mine).map (·.2)) State.retire

/-- A function starts to rinse for a cause: 1 FLR, 2 VF disable, 3 a reset of the host face. Event entries held for it
are diverted, its tags held, its configuration returns to reset values. -/
def State.rinseEnter (s : State) (f cause : Nat) (hidden : Bool) : State :=
  let s := (s.set .FN_STS_STATE f (if hidden then fnHIDDEN else fnRINSE)).set .FN_RINSE_CAUSE f cause
  let s := { s with rinseLeft := nSet s.rinseLeft f 90000000, prefetch := s.prefetch.filter fun l => l.who != Who.host f }
  let s := (s.rinseDma f).heldRelease (· == f)
  let s := s.rinseEvq f
  let s := ((s.holdTags (· == f) (cause == 3)).heldDrop f).resetCfg f
  let s := s.each (s.pendSrcs.filter (s.rinseSrc f)) fun s i => s.setPend i false
  (s.mbxRinse f).irqEval

/-- The VFs of a PF that are not DISABLED. -/
def State.liveVfs (s : State) (pf : Nat) : List Nat :=
  (s.listed .FN_STS_STATE).filter fun v => decide (4 ≤ v) && s.parent v == pf

/-- VF Enable 1→0 of a PF, or an FLR of it (R102). -/
def State.vfHide (s : State) (pf cause : Nat) : State :=
  s.each (s.liveVfs pf) fun s v =>
    if s.fnState v = fnACTIVE ∨ s.fnState v = fnCONTAINED then s.rinseEnter v cause true
    else if s.fnState v = fnRINSE then (s.set .FN_STS_STATE v fnHIDDEN).irqEval else s

/-- VF Enable 0→1 of a PF with its NumVFs (R102, R108). -/
def State.vfShow (s : State) (pf : Nat) : State :=
  (s.each ((s.vfsOf pf).take (s.numVfs pf)) fun s v =>
    if s.fnState v = fnDISABLED then s.set .FN_STS_STATE v fnACTIVE
    else if s.fnState v = fnHIDDEN then s.set .FN_STS_STATE v fnRINSE else s).irqEval

/-- FLR of a function (R102): in RINSE its configuration returns to reset values and the deadline stays. -/
def State.flr (s : State) (f : Nat) : State :=
  let s := if f < 4 then s.vfHide f 2 else s
  if s.fnState f = fnACTIVE ∨ s.fnState f = fnCONTAINED then s.rinseEnter f 1 false
  else if s.fnState f = fnRINSE then s.resetCfg f else s

/-- Channels and rings have stopped, and every ledger entry of the function's posted writes has retired (R104). -/
def State.rinseDone (s : State) (f : Nat) : Bool :=
  !((s.chansOf f).any s.chBusy) && !((s.ctxsOf f).any fun x => (s.ringOf x).fetching)
    && !(s.ledger.any fun e => e.req.who == .host f && !e.abandoned) && !(s.ldgWait.any fun w => w.req.who == .host f)

/-- The TDI of a function returns to CONFIG_UNLOCKED, which clears PROV_LOCK (R366). -/
def State.tdiUnlock (s : State) (f : Nat) : State :=
  if s.fld .SEC_TDI_STATE f = tdiUNLOCKED then s
  else
    let s := ((s.set .SEC_TDI_STATE f tdiUNLOCKED).set .SEC_TDI_STREAM f 0).set .SEC_TDI_ERR_CAUSE f 0
    (s.set .FN_CTL_PROV_LOCK f 0).mirVal .FN_CTL f

/-- A BAR size stored in rinse stays only when Memory Space Enable, or VF Enable for a VF BAR, is 0 at its end
(R112). -/
def State.rbarSettle (s : State) (f : Nat) : State :=
  let back (s : State) (k off : Nat) (on : Bool) : State :=
    let old := nGet s.bt.rbarOld k
    let s := if old ≠ 0 ∧ on then s.setCfgD f off (s.cfgD f off % 256 + (old - 1) * 256) else s
    { s with bt.rbarOld := nSet s.bt.rbarOld k 0 }
  if 1 ≤ f ∧ f < 4 then
    back (back s (2 * f) 0x358 ((s.cfgD f 0x004).testBit 1)) (2 * f + 1) 0x368 (s.vfEn f)
  else s

/-- A rinse ends, drained or at its deadline (R102, R104 to R106, R109, R416). The rinse is paused in CONTAIN (R73). -/
def State.rinseEnd (s : State) (f : Nat) (deadline : Bool) : State :=
  let was := s.fnState f
  if (was ≠ fnRINSE ∧ was ≠ fnHIDDEN) ∨ s.mode = .CONTAIN then s
  else
    let mine (e : LEnt) : Bool := e.req.who == .host f && !e.abandoned
    let s := if deadline && s.ledger.any mine then
        { s with ledger := mapIf mine (fun e => { e with abandoned := true }) s.ledger }.set .FN_STS_ABANDONED f 1
      else s
    let s := { s.set .FN_RINSE_DEADLINE f (bit deadline) with rinseLeft := nSet s.rinseLeft f 0 }
    let s := s.each (s.chansOf f) State.chReset
    let s := s.each (mbxsOf f) State.mbxReset
    let s := ((s.set .FN_CONT_CAUSE f 0).set .FN_CONT_REL_RESULT f 0).tdiUnlock f
    let s := (s.rbarSettle f).set .FN_STS_STATE f (if was = fnHIDDEN then fnDISABLED else fnACTIVE)
    let s := if was = fnRINSE then s.cfgApply f else s
    (if f < 4 ∧ s.vfEn f = true then s.vfShow f else s).irqEval

/-! ### Bus Master Enable (R110, R277) -/

/-- Bus Master Enable of a function has gone from 1 to 0. -/
def State.bmeOff (s : State) (f : Nat) : State :=
  let run := (s.chansOf f).filter fun c => s.chState c == chRUN || s.chState c == chWAIT || s.chState c == chDRAIN
  let s := s.each run fun s c => (s.masterOffChan c).chStopEnd c
  let s := if run = [] then s else s.set .FN_STS_MASTER_OFF f 1
  let s := s.haltRings f
  (if s.fld .SEC_TDI_STATE f = tdiRUN then s.tdiError f 2 else s).irqEval

/-- Bus Master Enable of a function has gone from 0 to 1: held records and event entries leave; nothing restarts. In
CONTAIN they stay held (R487). -/
def State.bmeOn (s : State) (f : Nat) : State :=
  if s.mode = .CONTAIN then s.irqEval else (s.heldRelease (· == f)).irqEval

/-! ### The end of function containment (R489, R490) -/

/-- The hard abort of a function has drained. -/
def State.abortDrained (s : State) (f : Nat) : Bool := !((s.chansOf f).any s.chBusy)

/-- A CONTAINED function returns to ACTIVE: FN_RELEASED goes to its queue, held interrupts are presented. -/
def State.fnRelease (s : State) (f : Nat) : State :=
  if s.fnState f ≠ fnCONTAINED then s
  else
    let s := s.set .FN_STS_STATE f fnACTIVE
    (s.evq { fn := f, typ := 0x0D, offset := nGet s.mg.contAt f, req := s.fld .FN_CONT_CAUSE f }).irqEval

/-- FN_CONT.RELEASE (R490): refused with 2 while the hard abort has not drained, with 3 while the TDI is in ERROR. -/
def State.fnContRelease (s : State) (f : Nat) : State :=
  if s.fnState f ≠ fnCONTAINED then s
  else if !s.abortDrained f then s.set .FN_CONT_REL_RESULT f 2
  else if s.fld .SEC_TDI_STATE f = tdiERROR then s.set .FN_CONT_REL_RESULT f 3
  else (s.set .FN_CONT_REL_RESULT f 1).fnRelease f

/-- Functions that STOP_INTERFACE took out of ERROR return to ACTIVE once their hard abort has drained (R366). -/
def State.stopSettle (s : State) : State :=
  let due := s.sc.stopDue.filter s.abortDrained
  State.each { s with sc.stopDue := s.sc.stopDue.filter fun f => !due.contains f } due State.fnRelease

/-! ### Host face resets (R64, R65, R523) -/

/-- The TLPs that wait for the link at an orderly DL_Down are discarded (R523). -/
def State.dropTlps (s : State) : State :=
  let w := s.jq
  let s := { s with jq := [], tlpQ := [], mirWait := [] }
  s.each w fun s w =>
    match w.msi, w.req with
    | some srcs, _ => s.each srcs fun s i => s.setPend i true
    | none, some r => if w.last then s.finish r 9 [] else s
    | none, none => s

/-- The PFs and VFs after a hot reset, Link Disable or fundamental reset (R102); those that rinse already get their
reset configuration again. -/
def State.faceReset (s : State) (fundamental : Bool) : State :=
  let s := s.each [1, 2, 3] fun s pf => s.vfHide pf 3
  let s := s.each [0, 1, 2, 3] fun s pf =>
    if s.fnState pf = fnACTIVE ∨ s.fnState pf = fnCONTAINED then s.rinseEnter pf 3 false
    else if s.fnState pf = fnRINSE then s.resetCfg pf else s
  let s := (s.holdTags (fun _ => true) true).dropTlps
  let s := { s with rid0 := 0, bt.ridTaken := false, pmeOff := false }
  let s := if fundamental then
      let lanes := List.range 16
      let s := s.each [Fld.HST_LINK_STS_RATE, .HST_LINK_STS_WIDTH, .HST_LINK_STS_FLIT, .HST_LINK_STS_REVERSED
        , .HST_LINK_STS_DL_UP, .HST_LINK_STS_L0P_WIDTH, .HST_LINK_STS_LTSSM, .HST_LANE_FAIL_FAILED, .HST_LANE_FAIL_EXCLUDE
        , .HST_RECOV_CNT_RECOVERY, .HST_RECOV_CNT_DOWNCFG, .HST_FLIT_CNT_REPLAY] fun s f => s.set f 0 0
      let s := s.each lanes fun s n => s.set .HST_LANE_ERR_CNT_CORR n 0
      let s := s.each ((s.listed .FN_CONT_CAUSE) ++ (s.listed .FN_CONT_REL_RESULT) ++ (s.listed .FN_CONT_DROPS)) fun s f =>
        if s.fnState f = fnCONTAINED then s
        else ((s.set .FN_CONT_CAUSE f 0).set .FN_CONT_REL_RESULT f 0).set .FN_CONT_DROPS f 0
      let s := s.each [Fld.BSK_TMO_CNT_TMO, .BSK_UNEXP_CNT_UNEXP, .BSK_DISCARD_CNT_DISCARD, .BSK_WAIT_CNT_WAIT] fun s f => s.set f 0 0
      { s with bt.l0pNeg := false }.eqDrop
    else s
  s.irqEval

/-- The full face appears (R102, R381): the PFs become ACTIVE, and what the RRS phase recorded is applied. -/
def State.fullFace (s : State) : State :=
  let due := s.bt.faceFlr
  let s := { s with bt.face := .full, bt.faceFlr := [] }
  let s := s.each [0, 1, 2, 3] fun s pf => if s.fnState pf = fnDISABLED then s.set .FN_STS_STATE pf fnACTIVE else s
  (s.each due State.flr).irqEval

/-- A hot reset or a Link Disable, or a fundamental reset, of the host face (R64, R381, R382). In BOOT a fundamental
reset restarts the responder at RRS; the RRS phase records a hot reset; a minimal face is replaced once FW_READY is
set. -/
def State.hostFaceReset (s : State) (fundamental : Bool) : State :=
  let s := s.faceReset fundamental
  match s.bt.face with
  | .rrs => if fundamental then { s with bt.faceFlr := [] } else { s with bt.faceFlr := [0, 1, 2, 3] }
  | .minimal =>
    if fundamental then (if s.fwReady then s else { s.resetCfg 0 with bt.face := .rrs })
    else if s.fwReady then s.fullFace else s.resetCfg 0
  | .full => s

end Sys2Proof.Machine
end

