-- ==== Sys2Proof/Machine/RegMap.lean ====
section
/-!
DEFINITION. The register map (R33 to R35): which instance of which register an address names, and writing a register's
fields as they are stored.
-/
namespace Sys2Proof.Machine

/-- Bytes of a register: 8 when some field lies above bit 31, else 4. -/
def regBytes (r : Reg) : Nat := if regWide r then 8 else 4

/-- The instance of a register that offset `off` of its block lies in, and the byte within it. -/
def regHit (r : Reg) (off : Nat) : Option (Nat × Nat) :=
  let g := regInfo r
  if off < g.off then none
  else
    let d := off - g.off
    let i := if g.stride = 0 then 0 else min (d / g.stride) (g.count - 1)
    let e := d - i * g.stride
    let j := if g.stride2 = 0 then 0 else min (e / g.stride2) (g.count2 - 1)
    let b := e - j * g.stride2
    if b < regBytes r then some (i * regRow r + j, b) else none

/-- The register at an offset of a block: the register, its instance, the byte within it. -/
def regFind (b : Block) (off : Nat) : Option (Reg × Nat × Nat) :=
  (blockRegs b).findSome? fun r => (regHit r off).map fun h => (r, h.1, h.2)

/-- Replaces the fields of a register by those of a value. -/
def State.regPut (s : State) (r : Reg) (i v : Nat) : State :=
  s.each (regFlds r) fun s f => s.set f i (v / 2 ^ (fldInfo f).lo)

/-- A register's value with the bytes from byte `off` on replaced. -/
def patch (old off : Nat) (data : List Byte) : Nat :=
  let b := toBytes 8 old
  ofBytes (b.take off ++ data ++ b.drop (off + data.length))

/-- The instances of a register that hold another value than at reset. -/
def State.regListed (s : State) (r : Reg) : List Nat :=
  let fs := (regFlds r).map (·.ctorIdx)
  ((s.regs.filter fun c => fs.contains (c.1 / 1048576)).map (·.1 % 1048576)).eraseDups

end Sys2Proof.Machine
end

