-- ==== Sys2Proof/Machine/SeamOps.lean ====
section
/-!
DEFINITION. The pair (R390 to R407): settling the roles, the loss of the twin, applying mirror records and sending a
snapshot, takeover, handover.
-/
namespace Sys2Proof.Machine

/-! ### Modes and settling (R376, R391) -/

/-- A change of mode, with PAIR_ROLE after it (R390). -/
def State.toMode (s : State) (m : Mode) : State := ({ s with mode := m }).roleLine s.leading

/-- Every UP port is compared with the twin again (R392). -/
def State.dualAll (s : State) : State := s.each (List.range 16) State.dualCompare

/-! ### The snapshot (R393) -/

/-- The registers whose writes are mirrored (R396); LDG_ ones and the side-band ones too. -/
def mirRegs : List Reg :=
  [.FN_RES, .FN_CTL, .FN_SLICE, .SHR_CTX_BIND, .DMA_SQ_BASE, .DMA_SQ_CFG, .DMA_SQ_STS, .DMA_CQ_BASE, .DMA_CQ_CFG, .DMA_CQ_PTR,
   .DMA_GRANT, .DMA_CH_CFG, .IRQ_ROUTE, .IRQ_LT, .IRQ_FALLBACK, .ULK_SB_LATCH, .ULK_SB_OUT, .LDG_CFG, .LDG_TMO,
   .LDG_STARCH_CFG]

/-- The bytes of the ENABLE and PRIORITY arrays that are not 0, as 8-byte words. -/
def State.irqArrays (s : State) : List Nat :=
  ((s.mem.filter fun c => enBase ≤ c.1 && c.1 < prioBase + 0x4000).map fun c => c.1 / 8 * 8).eraseDups

/-- CTX_PTR's argument (R395). -/
def State.ctxPtr (s : State) (x : Nat) : Nat :=
  let g := s.ringOf x
  x + g.tail * 4096 + bit g.tv * 2 ^ 28 + s.fld .DMA_CQ_PTR_HEAD x * 2 ^ 29 + 2 ^ 45

/-- The leader sends a snapshot of every mirrored item (R393, R395). -/
def State.snapshot (s : State) : State :=
  let s := s.mirror 0x0B 0 []
  let s := s.each mirRegs fun s r =>
    s.each (s.regListed r) fun s i => if r == Reg.DMA_CH_CFG && !s.chDirect i then s else s.mirVal r i
  let s := s.each s.irqArrays fun s a => s.mirReg a 8 (s.ld8 a)
  let s := s.each ((s.bitmap.filter (·.2)).map (·.1)) fun s i => s.mirror 3 i (s.entry i)
  let s := s.each (s.listed .GRD_REGION_WORD) fun s k => s.mirror 4 k [s.fld .GRD_REGION_WORD k]
  let s := s.each ((s.regListed .SHR_CTX_SHARE) ++ (s.regListed .SHR_CTX_RES)).eraseDups fun s x =>
    s.mirror 5 x [s.fld .SHR_CTX_SHARE_SHARE x, s.fld .SHR_CTX_RES_MASK x]
  let s := s.each ((s.regListed .SHR_PORT_SHARE) ++ (s.regListed .SHR_PORT_RES)).eraseDups fun s p =>
    s.mirror 5 (4096 + p) [s.fld .SHR_PORT_SHARE_SHARE p, s.fld .SHR_PORT_RES_MASK p]
  let s := s.each ((s.rings.map (·.1)) ++ s.listed .DMA_CQ_PTR_HEAD).eraseDups fun s x => s.mirror 0x0A (s.ctxPtr x) []
  let s := s.each s.ledger fun s e =>
    s.mirror 1 0 (e.words ++ (if e.init = 0 then blocksFrom (laddrOf e.req.dst) e.req.data else []))
  let s := s.each s.rings fun s g => s.each g.2.running fun s r => s.mirror 7 (g.1 + r.1 * 4096 + r.2 * 268435456) []
  s.mirror 0x0C 0 []

/-! ### Forming and refusing (R391, R392) -/

/-- The role is settled; a module in BOOT goes on (R379). -/
def State.settled (s : State) : State := ({ s with bt.roleSettled := true }).bootNext

/-- A refused pair: both modules run solo. -/
def State.pairRefuse (s : State) (loss : Nat) (e : Fld) : State :=
  let s := if s.leads && s.paired then s.set .SEM_STS_SYNC 0 0 |>.unmirror else s
  let s := ((s.set .SEM_STS_ROLE 0 0).set .SEM_STS_SYNC 0 0).set .SEM_PAIR_ID_PAIR_ID 0 0
  let s := s.set .SEM_STS_LAST_LOSS 0 loss
  (s.semEvt e).settled

/-- A pair is formed: as leader mirroring starts with a snapshot, as follower the mirror is empty until it. -/
def State.pairForm (s : State) (lead : Bool) (serial : Nat) : State :=
  let s := (s.set .SEM_STS_ROLE 0 (if lead then 1 else 2)).set .SEM_STS_SYNC 0 (if lead then 2 else 1)
  let s := { s.set .SEM_PAIR_ID_PAIR_ID 0 (min serial Config.serial) with
    seamStop := false, hbMiss := 0, twinSync := 1 }
  let s := (s.set .SEM_STS_SUSPECT 0 0).semEvt .SEM_EVT_TWIN_JOINED
  let s := if lead then s.snapshot else s
  s.dualAll.settled

/-- SEAM_HELLO of the twin (R391, R393): its identity is noted, then the pair is formed, rejoined or refused. -/
def State.seamHello (s : State) (mver md : Nat) (leading : Bool) (fw serial : Nat) : State :=
  let s := (s.set .SEM_TWIN_SERIAL 0 serial).set .SEM_TWIN_FW_FW_VER 0 fw
  let s := (s.set .SEM_STS_TWIN_MVER 0 mver).set .SEM_STS_TWIN_MODE 0 md
  if !s.flag .SEM_CTL_PAIR_EN then s.settled
  else if mver ≠ s.fld .SEM_STS_MIRROR_VER then s.pairRefuse 6 .SEM_EVT_MISMATCH
  else if leading && s.leading then s.pairRefuse 7 .SEM_EVT_CONFLICT
  else if s.paired && s.fld .SEM_STS_SYNC == 3 && (s.fld .SEM_STS_ROLE == 2 || md == 4) then
    let s := { (s.set .SEM_STS_SYNC 0 1).set .SEM_STS_SUSPECT 0 0 with
      hbMiss := 0, seamStop := false, twinSync := 1 }
    let s := s.dualAll
    (if s.fld .SEM_STS_ROLE = 2 then s.seamSend (.pairCtl 3) else s).settled
  else s.pairForm (if leading then false else if s.leading then true else decide (Config.serial < serial)) serial

/-! ### Takeover (R402) -/

/-- The descriptors a follower knows as dispatched and not recorded are dispatched again, and every enabled SQ is rung
(R402 step 6). -/
def State.redispatch (s : State) : State :=
  let ctxs := s.listed .DMA_SQ_CFG_EN
  let disp := s.mirDisp
  State.each { s with mirDisp := [] } ctxs fun s x =>
    let slots := (disp.filter fun (d : Nat × Nat × Nat) => d.1 == x).map (·.2.1)
    let s := s.setRing x { s.ringOf x with redo := slots, running := [], taken := [], fetching := false }
    s.ringBell x

/-- The host face opens at a new leader (R402 steps 6 and 7): a ROLE_CHANGE entry goes to every ACTIVE function. -/
def State.roleOpen (s : State) (loss : Nat) : State :=
  let s := (s.redispatch.semEvt .SEM_EVT_ROLE_CHANGE).logRecord 10 1
  s.each ((s.listed .FN_STS_STATE).filter fun f => s.fnState f == fnACTIVE) fun s f =>
    s.evq { fn := f, typ := 0x0A, status := 1, offset := s.fld .SEM_PAIR_ID_PAIR_ID, req := loss }

/-- A takeover for a loss code (R402). SEM_TAKE.LAST_US counts from the last heartbeat, or from the CONTAINED report that
this very command brings. -/
def State.takeover (s : State) (loss : Nat) : State :=
  let s := ({ s with seamStop := true }.toMode .LEAD).set .SEM_STS_ROLE 0 1
  let s := ((s.set .SEM_STS_SYNC 0 2).set .SEM_STS_LAST_LOSS 0 loss).set .SEM_STS_SUSPECT 0 0
  let s := { s with ledger := s.ledger.filter fun e => e.init == 0 }
  let lost := s.ledger.filter fun e => !s.flag .ULK_STS_DUAL_OK e.port
  let s := s.each lost fun s e => s.ledgerAnswer { e with abandoned := false, recd := false } 9
  let s := s.roleLines
  let s := s.each ((List.range 16).filter fun p => s.flag .ULK_STS_DUAL_OK p) State.streamSyncs
  let again (e : LEnt) : LEnt := { e with st := .opened, tag := none, mirrored := false, recd := false }
  let s := { s with ledger := s.ledger.map again, offered := none, ho := .none, hbMiss := 0, twinSync := 0 }
  let us := if loss = 2 then 0 else min 65535 ((s.tick - s.hbLast) / 1000)
  let s := (s.count .SEM_TAKE_TAKEOVERS).set .SEM_TAKE_LAST_US 0 us
  let s := s.each (s.chans.map (·.1)) State.undrainChan
  (s.roleOpen loss).irqEval

/-! ### The loss of the twin (R393, R401) -/

/-- What follows from SUSPECT, PAIR_ALIVE and PAIR_PRESENT_N (R401). -/
def State.lossDecide (s : State) : State :=
  let alive := s.flag .SEM_STS_TWIN_ALIVE
  let sync := s.fld .SEM_STS_SYNC
  if !s.paired then s
  else if !s.flag .SEM_STS_TWIN_PRESENT then s.twinLost 4
  else if s.flag .SEM_STS_SUSPECT then
    if alive then (if sync = 1 ∨ sync = 2 then s.detach true else s)
    else if s.fld .SEM_STS_ROLE = 2 ∧ sync = 2 ∧ s.mode = .FOLLOW ∧ s.flag .SEM_CTL_AUTO_TAKE then s.takeover 1
    else if sync = 3 then s else s.detach false
  else if alive then s else s.semEvt .SEM_EVT_ALIVE_FAULT

/-- SEM_HB_CFG.MISS in effect (R408). -/
def State.hbMax (s : State) : Nat :=
  let n := s.fld .SEM_HB_CFG_MISS
  if n = 0 then 5 else max 2 n

/-- 10 µs have passed without a HEARTBEAT (R400). -/
def State.hbMissed (s : State) : State :=
  if !s.paired then s
  else
    let s := { s.count .SEM_HB_CNT_MISSES with hbMiss := s.hbMiss + 1 }
    if s.hbMax ≤ s.hbMiss ∧ !s.flag .SEM_STS_SUSPECT then
      (((s.set .SEM_STS_SUSPECT 0 1).count .SEM_HB_CNT_SUSPECTS).semEvt .SEM_EVT_SUSPECT).lossDecide
    else s

/-- The pair is left (R408 LEAVE, R406 hot swap): the twin is told. -/
def State.leavePair (s : State) : State := if s.paired then (s.seamSend (.pairCtl 2)).twinLost 3 else s

/-! ### Applying mirror records (R395) -/

/-- A ledger entry from the record of its words, with its data (R156, R395). Entries of other initiators are held for
their numbers only. -/
def entOf (m : Nat) (w : List Nat) (mseq : Nat) : LEnt :=
  let w0 := wWord w 0
  let w1 := wWord w 1
  let w3 := wWord w 3
  let init := bits w0 24 20
  let port := bits w0 19 16
  let la := bits w1 39 0
  let len := bits w1 51 40 + 1
  let data := ((w.drop 4).flatMap (toBytes 8)).drop (la % 8) |>.take len
  let st : LSt := match bits w0 27 25 with | 0 => .opened | 1 => .issued | 2 => .retry | _ => .answered
  let req : Req :=
    { who := if init = 0 then .host (bits w0 43 32) else .seam, kind := .write, addr := wWord w 2, len := len
      data := if init = 0 then data else [], fn := bits w0 43 32
      slice := if w0.testBit 52 then some (bits w0 51 44) else none
      attr := m, win := bits w0 63 56, xe := bits w3 15 0, ge := bits w3 31 16
      dst := 0x100000000000 + port * 0x10000000000 + la, pois := if w0.testBit 30 then granIdx (la % 64 + len) else [] }
  { port := port, init := init, seq := bits w0 15 0, st := st, req := req, status := bits w1 55 52
    retried := w0.testBit 31, mirrored := true, abandoned := w1.testBit 56, tag := none, atom := none, recd := true, mseq := mseq
    ref := bits w3 50 32 }
where
  /-- Every granule of the data. -/
  granIdx (n : Nat) : List Nat := List.range ((n + 63) / 64)

/-- A mirrored register write: a register of the map, or bytes of the interrupt arrays. -/
def State.applyReg (s : State) (arg v : Nat) : State :=
  let a := arg % 281474976710656
  let n := if (arg / 281474976710656).testBit 4 then 8 else 4
  match regionOf a with
  | .regs b off =>
    match (blockAt b).bind fun b => regFind b off with
    | some (r, i, _) => s.regPut r i v
    | none => s
  | .sram 0 _ => s.stBytes a (toBytes n v)
  | _ => s

/-- The attributes of an entry that its record carries: STRICT and ORD_WIN. -/
def recAttr (w0 : Nat) : Nat := (if w0.testBit 29 then 2 else 0) + (if w0.testBit 55 then 4 else 0)

/-- One record (R395). -/
def State.applyRecord (s : State) (rtype mseq arg : Nat) (w : List Nat) : State :=
  match rtype with
  | 0x01 =>
    let e := entOf (recAttr (wWord w 0)) w mseq
    let same (x : LEnt) : Bool := x.port == e.port && x.init == e.init && x.seq == e.seq
    let rest := s.ledger.filter fun x => !same x
    let e := { e with slot := firstFree (rest.map (·.slot)) }
    ({ s with ledger := rest ++ [e] }.ovfOpen e).set .LDG_SEQ_NEXT (32 * e.port + e.init)
      ((e.seq + 1) % 65536)
  | 0x02 =>
    let hit (x : LEnt) : Bool := x.seq == bits arg 15 0 && x.port == bits arg 19 16 && x.init == bits arg 24 20
    { s with ledger := s.ledger.filter fun x => !hit x }
  | 0x03 =>
    let i := bits arg 18 0
    let s := (if s.entryPoison i then s.rescueGranule i else s).putEntry i w
    ((s.uncache fun j => j == i).dropLines fun l => l.idx == i).loadPin i
  | 0x04 =>
    let i := arg % 32
    let n := bits arg 9 5
    let s := s.grdKeep (32 * n + i)
    (s.set .GRD_REGION_WORD (32 * n + i) (wWord w 0)).st8 (s.fld .GRD_SHADOW_BASE_BASE * 0x10000 + 8 * (32 * n + i))
      (wWord w 0)
  | 0x05 => s.setShare (bits arg 12 0) (wWord w 0, wWord w 1)
  | 0x06 => s.applyReg arg (wWord w 0)
  | 0x07 =>
    let x := bits arg 11 0
    let slot := bits arg 27 12
    let h := (slot + 1) % s.sqSize x
    let s := { s with mirDisp := s.mirDisp ++ [(x, slot, bits arg 35 28)] }.set .DMA_SQ_STS_HEAD x h
    if h = 0 then s.set .DMA_SQ_STS_PHASE x (1 - s.fld .DMA_SQ_STS_PHASE x) else s
  | 0x08 =>
    let x := bits arg 11 0
    let slot := wWord w 0 % 65536
    let n := s.cqSize x
    let t := (s.fld .DMA_CQ_PTR_TAIL x + 1) % n
    let s := { s with mirDisp := s.mirDisp.filter fun d => !(d.1 == x && d.2.1 == slot) }.set .DMA_CQ_PTR_TAIL x t
    if t = 0 then s.set .DMA_CQ_PTR_PHASE x (1 - s.fld .DMA_CQ_PTR_PHASE x) else s
  | 0x09 =>
    let f := bits arg 11 0
    let t := (s.fld .FN_EVQ_TAIL_TAIL f + 1) % s.evqSize f
    let s := if t = 0 then { s with evqWrap := bSet s.evqWrap f (!bGet s.evqWrap f) } else s
    s.set .FN_EVQ_TAIL_TAIL f t
  | 0x0A =>
    let x := bits arg 11 0
    let s := s.setRing x { s.ringOf x with tail := bits arg 27 12, tv := arg.testBit 28 }
    if arg.testBit 45 then s.set .DMA_CQ_PTR_HEAD x (bits arg 44 29) else s
  | 0x0B => { s with ledger := [], mirDisp := [] }
  | 0x0C => (s.set .SEM_STS_SYNC 0 2).semEvt .SEM_EVT_SYNCED
  | _ => s

/-! ### Handover (R406) -/

/-- The follower accepts an OFFER: ACCEPT is sent and it takes the lead; nothing is open, so nothing is reissued. -/
def State.hoAccept (s : State) : State :=
  let s := (({ s with offered := none, twinSync := 2 }.seamSend (.handover 2 0)).toMode .LEAD).set .SEM_STS_ROLE 0 1
  let s := s.roleLines
  let s := s.each ((List.range 16).filter fun p => s.flag .ULK_STS_DUAL_OK p) State.streamSyncs
  ((s.roleOpen 0).semEvt .SEM_EVT_HO_DONE).irqEval

/-- An OFFER that names records not yet applied waits for them. -/
def State.hoOffer (s : State) (mseq : Nat) : State :=
  if s.fld .SEM_STS_ROLE ≠ 2 ∨ s.fld .SEM_STS_SYNC ≠ 2 ∨ s.mode ≠ .FOLLOW then s
  else if s.fld .SEM_MSEQ_TX = mseq then s.hoAccept
  else { s with offered := some mseq }

/-- A record reaches the follower: it is applied in MSEQ order and acknowledged; an OFFER that waited for it is
accepted. The snapshot that a DETACHED follower asked for makes it BULK (DEDUCED from R393, assumption 74). -/
def State.mirrorRx (s : State) (rtype mseq arg : Nat) (w : List Nat) : State :=
  let s := if s.fld .SEM_STS_ROLE = 2 ∧ s.fld .SEM_STS_SYNC = 3 ∧ rtype = 0x0B then s.set .SEM_STS_SYNC 0 1 else s
  let sync := s.fld .SEM_STS_SYNC
  if s.fld .SEM_STS_ROLE ≠ 2 ∨ (sync ≠ 1 ∧ sync ≠ 2) ∨ s.seamStop then s
  else
    let s := (s.applyRecord rtype mseq arg w).set .SEM_MSEQ_TX 0 mseq
    let s := (s.seamSend (.mirrorAck mseq)).set .SEM_MSEQ_ACK 0 mseq
    if s.offered = some mseq then s.hoAccept else s

/-- An acknowledgement that reaches the mirror record an update unit waits for ends its command (R395). -/
def State.ackXlt (s : State) (upTo : Nat → Bool) : State :=
  match s.xltUnit with
  | .mirror x => if upTo x then s.xltIdle else s
  | _ => s

/-- The same for the guard's update unit. -/
def State.ackGrd (s : State) (upTo : Nat → Bool) : State :=
  match s.grdUnit with
  | .mirror x => if upTo x then
      ({ s with grdUnit := .idle }.set .GRD_UPD_STS_RESULT 0 0).set .GRD_UPD_STS_BUSY 0 0 else s
  | _ => s

/-- The same for the share update unit. -/
def State.ackShr (s : State) (upTo : Nat → Bool) : State :=
  match s.shrUpd with
  | some (x, a, sh, mask) =>
    if x ≠ 0 ∧ x ≠ mseqAcked ∧ upTo (x - 1) then { s with shrUpd := some (mseqAcked, a, sh, mask) } else s
  | none => s

/-- The entries and the held deliveries that an acknowledgement reaches go on. -/
def State.ackWork (s : State) (upTo : Nat → Bool) : State :=
  let s := { s with ledger := mapIf (fun e => e.recd && upTo e.mseq) (fun e => { e with mirrored := true }) s.ledger }
  let s := s.each (s.ledger.filter fun e => e.st == .answered) State.tryRetire
  let go := s.mirWait.filter fun e => upTo e.1
  State.each { s with mirWait := s.mirWait.filter fun e => !upTo e.1 } (go.map (·.2)) State.mirGo

/-- A MIRROR_ACK reaches the leader (R397): records up to it are acknowledged, entries they opened may issue or retire,
waiting records and events leave, waiting updates finish. -/
def State.mirrorAckRx (s : State) (m : Nat) : State :=
  let upTo (x : Nat) : Bool := decide ((m + 4294967296 - x) % 4294967296 < 2147483648)
  if !s.leads then s
  else
    let done := s.mirSent.filter fun e => upTo e.1
    let longest := (done.map fun e => (s.now - e.2) / 10).foldl max (s.fld .SEM_LAG_ACK_MAX)
    let s := { s with mirSent := s.mirSent.filter fun e => !upTo e.1 }
    let s := (s.set .SEM_LAG_ACK_MAX 0 (min 65535 longest)).set .SEM_LAG_OUTSTANDING 0 (min 65535 s.mirSent.length)
    ((((s.set .SEM_MSEQ_ACK 0 m).ackWork upTo).ackXlt upTo).ackGrd upTo).ackShr upTo

/-- The follower of a leader is SYNCED and not in CONTAIN (R386, R406). -/
def State.twinSynced (s : State) : Bool :=
  s.leads && s.fld .SEM_STS_SYNC == 2 && !s.seamStop && s.twinSync == 2 && s.fld .SEM_STS_TWIN_MODE == 4

/-- A handover is requested (R406): dispatch stops, or it is refused. Answers whether it started. -/
def State.hoStart (s : State) : Bool × State :=
  if s.mode ≠ .LEAD ∨ s.ho ≠ .none then (false, s)
  else if s.twinSynced then
    (true, { s.set .SEM_STS_HO_BUSY 0 1 with ho := .drain })
  else (false, s.semEvt .SEM_EVT_HO_FAIL)

/-- HO_DRAIN has nothing running, open or unacknowledged (R406). -/
def State.hoDrained (s : State) : Bool :=
  !(s.chans.any fun c => c.2.ctx.isSome) && s.rings.all (fun g => g.2.running == []) && s.ledger == [] && s.ldgWait == []
    && !(s.bTags.any fun t => t.st == .issued) && s.mirSent == []

/-- ACCEPT reaches the old leader: it follows. The held requests are answered by the caller. -/
def State.hoAccepted (s : State) : State :=
  let s := ({ s with ho := .none }.toMode .FOLLOW).set .SEM_STS_ROLE 0 2
  let s := ((s.set .SEM_STS_SYNC 0 2).set .SEM_STS_HO_BUSY 0 0).roleLines
  ((s.semEvt .SEM_EVT_HO_DONE).logRecord 10 2).irqEval

end Sys2Proof.Machine
end

