-- ==== Sys2Proof/Machine/Secure.lean ====
section
/-!
DEFINITION. The commands of link security (R359 to R369): DOE discovery, SPDM requests, IDE key management, TDISP. Message
and error codes are those of the DMTF and PCI Express specifications that the rules name (PRESUMED, assumption 20);
signatures, digests and certificates are free values.
-/
namespace Sys2Proof.Machine

/-! ### Answers -/

/-- Bytes whose values no rule gives. -/
def State.drawBytes (s : State) : Nat → List Byte × State
  | 0 => ([], s)
  | n + 1 =>
    let (v, s) := s.draw 8
    let (t, s) := s.drawBytes n
    (BitVec.ofNat 8 v :: t, s)

/-- Sends a DOE response. -/
def State.doe (s : State) (sess : Option Nat) (code : Nat) (fields : List Nat) (data : List Byte := []) : State :=
  s.send (.doe sess code fields data)

/-- SPDM ERROR with a code. -/
def State.spdmError (s : State) (sess : Option Nat) (e : Nat) : State := s.doe sess 0x7F [e]

/-- DOE is served once FW_READY is 1 (R359). -/
def State.doeServes (s : State) (g : State → State) : State := s.when s.fwReady g

/-- The lifecycle permits SPDM requests beyond GET_VERSION and GET_CAPABILITIES (R355). -/
def State.spdmFull (s : State) : Bool := s.fld .SEC_LIFECYCLE_STATE == 1 || s.fld .SEC_LIFECYCLE_STATE == 2

/-- An SPDM request that the lifecycle and the stage of the connection permit: 1 version, 2 capabilities, 3 algorithms
agreed. -/
def State.spdmAt (s : State) (stage : Nat) (g : State → State) : State :=
  s.doeServes fun s =>
    if 1 < stage && !s.spdmFull then s.spdmError none 7
    else if stage ≤ s.sc.spdmStage then g s else s.spdmError none 4

/-- A secured session by its ID. -/
def State.session (s : State) (id : Nat) : Option SpdmSession := s.sc.sessions.find? fun e => e.id == id

/-- A request inside an open session; none such is answered with InvalidSession. -/
def State.inSession (s : State) (id : Nat) (g : State → State) : State :=
  s.doeServes fun s =>
    match s.session id with
    | some e => if e.open_ then g s else s.spdmError (some id) 2
    | none => s.spdmError none 2

/-! ### DOE and SPDM (R359 to R361) -/

/-- DOE_DISCOVERY: the protocol at an index and the next index. -/
def execDoeDiscovery (index : Nat) (s : State) : Res :=
  .next (s.doeServes fun s =>
    if index < 3 then s.doe none 0 [0x0001, index, (index + 1) % 3] else s.doe none 0 [0xFFFF, 0, 0])

/-- GET_VERSION: versions 1.1 and 1.2. The connection starts afresh. -/
def execGetVersion (s : State) : Res :=
  .next (s.doeServes fun s => State.doe { s with sc.spdmStage := 1, sc.sessions := [] } none 0x04 [0x11, 0x12])

/-- GET_CAPABILITIES: the flags of R360 and CTExponent 16. -/
def execGetCapabilities (s : State) : Res :=
  .next (s.spdmAt 1 fun s =>
    State.doe { s with sc.spdmStage := max 2 s.sc.spdmStage } none 0x61
      [16, 0x2 + 0x4 + 0x10 + 0x20 + 0x40 + 0x80 + 0x200 + 0x2000 + 0x4000])

/-- NEGOTIATE_ALGORITHMS: of what the requester offers, ECDSA P-384, SHA-384, secp384r1 and AES-256-GCM are chosen. -/
def execNegotiateAlgorithms (sig hash dhe aead : Bool) (s : State) : Res :=
  .next (s.spdmAt 2 fun s =>
    State.doe { s with sc.spdmStage := 3 } none 0x63 [bit sig, bit hash, bit dhe, bit aead])

/-- GET_DIGESTS: the digests of slots 0 and 1. -/
def execGetDigests (s : State) : Res :=
  .next (s.spdmAt 3 fun s =>
    let (d, s) := s.drawBytes 96
    s.doe none 0x01 [3] d)

/-- GET_CERTIFICATE: part of the chain of slot 0 or 1. -/
def execGetCertificate (slot off len : Nat) (s : State) : Res :=
  .next (s.spdmAt 3 fun s =>
    if 2 ≤ slot then s.spdmError none 1
    else
      let (d, s) := s.drawBytes (min len 1024)
      s.doe none 0x02 [slot, off, d.length] d)

/-- CHALLENGE: the signed response of a slot. -/
def execChallenge (slot : Nat) (s : State) : Res :=
  .next (s.spdmAt 3 fun s =>
    if 2 ≤ slot then s.spdmError none 1
    else
      let (d, s) := s.drawBytes 96
      s.doe none 0x03 [slot] d)

/-- A measurement block (R361). -/
def State.measure (s : State) (index : Nat) : List Byte × State :=
  if index = 4 then (toBytes 1 (s.fld .SEC_LIFECYCLE_STATE) ++ toBytes 1 (s.fld .DBG_STS_OPEN), s)
  else if index = 5 then (toBytes 4 s.fwVer ++ toBytes 4 0x10000, s)
  else s.drawBytes 48

/-- Unsigned GET_MEASUREMENTS is served in RETIRED, where no algorithms are agreed (R355). -/
def State.measureAt (s : State) (sign : Bool) (g : State → State) : State :=
  if s.fld .SEC_LIFECYCLE_STATE = 3 ∧ !sign then
    s.doeServes fun s => if 2 ≤ s.sc.spdmStage then g s else s.spdmError none 4
  else s.spdmAt 3 g

/-- GET_MEASUREMENTS: their number for index 0, one block for 1 to 5, all for 255; signed when asked. -/
def execGetMeasurements (index : Nat) (sign : Bool) (s : State) : Res :=
  .next (s.measureAt sign fun s =>
    let sig (s : State) : List Byte × State := if sign then s.drawBytes 96 else ([], s)
    if index = 0 then
      let (g, s) := sig s
      s.doe none 0x60 [0, 5] g
    else if index ≤ 5 ∨ index = 255 then
      let l := if index = 255 then [1, 2, 3, 4, 5] else [index]
      let (d, s) := l.foldl (fun (a : List Byte × State) i =>
        let (m, t) := a.2.measure i
        (a.1 ++ m, t)) ([], s)
      let (g, s) := sig s
      s.doe none 0x60 (l.length :: l) (d ++ g)
    else s.spdmError none 1)

/-- KEY_EXCHANGE: a session is opened; a fifth is answered Busy. -/
def execKeyExchange (slot : Nat) (s : State) : Res :=
  .next (s.spdmAt 3 fun s =>
    if 2 ≤ slot then s.spdmError none 1
    else if 4 ≤ s.sc.sessions.length then s.spdmError none 3
    else
      let id := s.sc.nextSession
      let (d, s) := s.drawBytes 96
      State.doe { s with sc.sessions := s.sc.sessions ++ [{ id := id }], sc.nextSession := id + 1 } none 0x64 [id, slot] d)

/-- Replaces a session. -/
def State.setSession (s : State) (e : SpdmSession) : State :=
  { s with sc.sessions := mapIf (fun x => x.id == e.id) (fun _ => e) s.sc.sessions }

/-- FINISH: the handshake of a session is completed when its verify data is right; else the session ends. -/
def execFinish (id : Nat) (ok : Bool) (s : State) : Res :=
  .next (s.doeServes fun s =>
    match s.session id with
    | none => s.spdmError none 2
    | some e =>
      if ok then (s.setSession { e with open_ := true }).doe (some id) 0x65 []
      else State.spdmError { s with sc.sessions := s.sc.sessions.erase e } (some id) 6)

/-- SPDM_HEARTBEAT. -/
def execSpdmHeartbeat (id : Nat) (s : State) : Res := .next (s.inSession id fun s => s.doe (some id) 0x68 [])

/-- KEY_UPDATE: 1 the requester's keys, 2 all keys, 3 verifies the new ones. -/
def execKeyUpdate (id op : Nat) (s : State) : Res :=
  .next (s.inSession id fun s =>
    if op = 0 ∨ 3 < op then s.spdmError (some id) 1
    else
      let s := match s.session id with
        | some e => if op = 3 then s else s.setSession { e with keyGen := e.keyGen + 1 }
        | none => s
      s.doe (some id) 0x69 [op])

/-- END_SESSION. -/
def execEndSession (id : Nat) (s : State) : Res :=
  .next (s.inSession id fun s =>
    State.doe { s with sc.sessions := s.sc.sessions.filter fun e => e.id != id } (some id) 0x6C [])

/-! ### IDE (R362 to R365) -/

/-- The key of a stream, key set, direction (1 transmit) and sub-stream. -/
def ideKey (stream kset dir sub : Nat) : Nat := ((stream * 2 + kset) * 2 + dir) * 3 + sub
/-- The sub-stream of a direction. -/
def ideSub (stream dir sub : Nat) : Nat := (stream * 2 + dir) * 3 + sub
/-- A key of R363 exists: 9 streams, 2 sets, 2 directions, 3 sub-streams. -/
def ideValid (stream kset dir sub : Nat) : Bool :=
  decide (stream < 9) && decide (kset < 2) && decide (dir < 2) && decide (sub < 3)

/-- A received TLP failed on a stream (R365): causes 1 MAC, 2 PCRC, 3 sequence, 4 key not programmed. -/
def State.ideFail (s : State) (stream cause : Nat) : State :=
  let s := (s.ideInsecure stream).set .SEC_IDE_STS_FAIL stream 1
  let s := s.set .SEC_IDE_STS_FAIL_CAUSE stream cause
  (s.orCfg 0 (ideCtl stream + 4) 0x80000000).evt 0x2072 .SEC_STS_IDE_FAIL

/-- IDE_KM_QUERY: whether each stream is enabled, its ID and state. -/
def execIdeKmQuery (id : Nat) (s : State) : Res :=
  .next (s.inSession id fun s =>
    s.doe (some id) 0x7E ((List.range 9).flatMap fun n => [bit (s.ideEn n), s.ideId n, s.fld .SEC_IDE_STS_STATE n]))

/-- KEY_PROG: a key set that is in use is refused (R363). -/
def execKeyProg (id stream kset dir sub key : Nat) (s : State) : Res :=
  .next (s.inSession id fun s =>
    if !ideValid stream kset dir sub || nGet s.sc.ideGo (ideSub stream dir sub) == kset + 1 then s.doe (some id) 0x7E [3, 1]
    else
      State.doe { s with sc.ideKeys := nSet s.sc.ideKeys (ideKey stream kset dir sub) (key + 1) } (some id) 0x7E [3, 0])

/-- K_SET_GO: the sub-stream uses the key set; refused when it holds no key. -/
def execKSetGo (id stream kset dir sub : Nat) (s : State) : Res :=
  .next (s.inSession id fun s =>
    if !ideValid stream kset dir sub || nGet s.sc.ideKeys (ideKey stream kset dir sub) == 0 then s.doe (some id) 0x7E [6, 1]
    else
      let s := { s with sc.ideGo := nSet s.sc.ideGo (ideSub stream dir sub) (kset + 1) }
      let s := s.set (if dir = 1 then .SEC_IDE_STS_TX_KSET else .SEC_IDE_STS_RX_KSET) stream kset
      (s.ideSettle stream).doe (some id) 0x7E [6, 0])

/-- K_SET_STOP: the key set leaves the sub-stream, whose stream is Insecure then, and its key is erased. -/
def execKSetStop (id stream kset dir sub : Nat) (s : State) : Res :=
  .next (s.inSession id fun s =>
    if !ideValid stream kset dir sub then s.doe (some id) 0x7E [6, 1]
    else
      let s := { s with sc.ideKeys := nSet s.sc.ideKeys (ideKey stream kset dir sub) 0 }
      let s := if nGet s.sc.ideGo (ideSub stream dir sub) = kset + 1 then s.ideInsecure stream else s
      s.doe (some id) 0x7E [6, 0])

/-! ### TDISP (R366 to R368) -/

/-- A TDISP response or error. -/
def State.tdisp (s : State) (id code : Nat) (fields : List Nat) : State := s.doe (some id) 0x7E (code :: fields)
def State.tdispError (s : State) (id e : Nat) : State := s.tdisp id 0x7F [e]

/-- A request for the TDI of a function that exists and is not DISABLED; else INVALID_INTERFACE. -/
def State.onTdi (s : State) (id f : Nat) (g : State → State) : State :=
  s.inSession id fun s => if f = 0 ∨ 2052 ≤ f ∨ s.fnState f = fnDISABLED then s.tdispError id 0x101 else g s

/-- GET_TDISP_VERSION: version 1.0. -/
def execGetTdispVersion (id : Nat) (f : Fn) (s : State) : Res := .next (s.onTdi id f fun s => s.tdisp id 0x01 [1, 0x10])

/-- GET_TDISP_CAPABILITIES: the seven requests, no P2P. -/
def execGetTdispCapabilities (id : Nat) (f : Fn) (s : State) : Res :=
  .next (s.onTdi id f fun s => s.tdisp id 0x02 [0x7F, 0])

/-- A TDI is locked on a stream with a fresh nonce; its provisioning is locked with it (R366, R367). -/
def State.tdiLock (s : State) (id f stream : Nat) : State :=
  let (n, s) := s.draw 64
  let s := (s.set .SEC_TDI_STATE f tdiLOCKED).set .SEC_TDI_STREAM f stream
  let s := (s.set .FN_CTL_PROV_LOCK f 1).mirVal .FN_CTL f
  State.tdisp { s with sc.tdiNonce := smIns (smErase s.sc.tdiNonce f) f n } id 0x03 [n]

/-- LOCK_INTERFACE naming a Secure selective stream (R366). -/
def execLockInterface (id : Nat) (f : Fn) (stream : Nat) (s : State) : Res :=
  .next (s.onTdi id f fun s =>
    if s.fld .SEC_TDI_STATE f ≠ tdiUNLOCKED then s.tdispError id 4
    else if stream = 0 ∨ 8 < stream ∨ s.fld .SEC_IDE_STS_STATE stream ≠ 2 then s.tdispError id 0x104
    else s.tdiLock id f stream)

/-- The ranges of an interface report: BAR0, and one for each valid inbound window (R366). -/
def State.tdiReport (s : State) (f : Nat) : List Nat :=
  let wins := (tableIdx f).filter fun i => s.entryValid i
  let bar0 := if f < 4 then 0x100000 else 0x10000
  [1 + wins.length, 0, 0, bar0] ++ wins.flatMap fun i => [2, wSrc (s.entry i), wSize (s.entry i)]

/-- GET_DEVICE_INTERFACE_REPORT of a TDI that is locked. -/
def execGetDeviceInterfaceReport (id : Nat) (f : Fn) (s : State) : Res :=
  .next (s.onTdi id f fun s => if s.tdiHeld f then s.tdisp id 0x04 (s.tdiReport f) else s.tdispError id 4)

/-- GET_DEVICE_INTERFACE_STATE. -/
def execGetDeviceInterfaceState (id : Nat) (f : Fn) (s : State) : Res :=
  .next (s.onTdi id f fun s => s.tdisp id 0x05 [s.fld .SEC_TDI_STATE f])

/-- START_INTERFACE: CONFIG_LOCKED to RUN with the nonce of the lock. -/
def execStartInterface (id : Nat) (f : Fn) (nonce : Nat) (s : State) : Res :=
  .next (s.onTdi id f fun s =>
    if s.fld .SEC_TDI_STATE f ≠ tdiLOCKED then s.tdispError id 4
    else if !(s.sc.tdiNonce.any fun e => e.1 == f.val && e.2 == nonce) then s.tdispError id 0x102
    else State.tdisp ({ s with sc.tdiNonce := smErase s.sc.tdiNonce f.val }.set .SEC_TDI_STATE f tdiRUN) id 0x06 [])

/-- STOP_INTERFACE (R366): from ERROR the function's containment ends once its hard abort has drained. -/
def execStopInterface (id : Nat) (f : Fn) (s : State) : Res :=
  .next (s.onTdi id f fun s =>
    let was := s.fld .SEC_TDI_STATE f
    let s := (s.tdiUnlock f).irqEval
    let s := if was = tdiERROR then State.stopSettle { s with sc.stopDue := s.sc.stopDue.erase f.val ++ [f.val] } else s
    s.tdisp id 0x07 [])

end Sys2Proof.Machine
end

