-- ==== Sys2Proof/Machine/Memories.lean ====
section
/-!
DEFINITION. The commands of the memories (R444, R448, R452): the zero engine, the patrol scrubber, the snapshot of the
access counters.
-/
namespace Sys2Proof.Machine

/-! ### The zero engine (R448) -/

/-- A range of memory becomes zeros with clean check bits. -/
def State.zeroRange (s : State) (lo hi : Nat) : State :=
  let out (a : Nat) : Bool := !(decide (lo ≤ a) && decide (a < hi))
  { s with mem := smKeep out s.mem, poison := smKeep out s.poison }

/-- DRS_ZERO_CTL.GO. -/
def State.zeroGo (s : State) : State :=
  let base := s.fld .DRS_ZERO_BASE_BASE * 4096
  let len := s.fld .DRS_ZERO_LEN_LEN * 4096
  if len = 0 ∨ s.sysBase < base + len ∨ s.flag .DRS_STS_ZERO_BUSY then s.drsEvt .DRS_EVT_ZERO_REFUSED
  else { (s.set .DRS_STS_ZERO_BUSY 0 1).set .DRS_ZERO_POS_POS 0 base with bt.zeroEnd := base + len }

/-- DRS_ZERO_CTL.ABORT: the engine stops at a granule boundary; how far it came is a free value. -/
def State.zeroAbort (s : State) : State :=
  if s.flag .DRS_STS_ZERO_BUSY then
    let pos := s.fld .DRS_ZERO_POS_POS
    let (v, s) := s.draw 64
    let stop := pos + 64 * (v % ((s.bt.zeroEnd - pos) / 64 + 1))
    { (s.zeroRange pos stop).set .DRS_ZERO_POS_POS 0 stop with bt.zeroEnd := 0 }.set .DRS_STS_ZERO_BUSY 0 0
  else s

/-- The engine reaches the end of its range. -/
def State.zeroDone (s : State) : State :=
  if s.flag .DRS_STS_ZERO_BUSY then
    let stop := s.bt.zeroEnd
    let s := { s.zeroRange (s.fld .DRS_ZERO_POS_POS) stop with bt.zeroEnd := 0 }
    ((s.set .DRS_ZERO_POS_POS 0 stop).set .DRS_STS_ZERO_BUSY 0 0).drsEvt .DRS_EVT_ZERO_DONE
  else s

/-- DRS_ZERO_GO. -/
def execDrsZeroGo (s : State) : Res := .next (s.when (s.domOn 17) State.zeroGo)
/-- DRS_ZERO_ABORT. -/
def execDrsZeroAbort (s : State) : Res := .next (s.when (s.domOn 17) State.zeroAbort)
/-- ZERO_COMPLETE. -/
def execZeroComplete (s : State) : Res := .next s.zeroDone

/-! ### Counters (R444) -/

/-- MEM_CNT_CTL.SNAP: the live counters are copied and cleared. Conflict cycles are free values. -/
def State.memSnap (s : State) : State :=
  let s := s.each (List.range 27) fun s m =>
    let (w, s) := s.draw 40
    (s.set .MEM_MST_ACC_COUNT m (nGet s.memAcc m)).set .MEM_MST_WAIT_CYCLES m w
  let s := s.each (List.range 16) fun s b =>
    (s.set .MEM_BANK_BUSY_BUSY b (nGet s.memBusy b)).set .MEM_BANK_BUSY_ALIAS b (nGet s.memAlias b)
  { s with memAcc := [], memBusy := [], memAlias := [] }.set .MEM_SNAP_TIME_TIME 0 s.now

/-- MEM_CNT_SNAP. -/
def execMemCntSnap (s : State) : Res := .next (s.when (s.domOn 16) State.memSnap)

/-! ### Scrubbing (R452) -/

/-- PATROL_SCRUB: the next granule of the store, or a granule of the SRAM, is read and resolved (R450); one that another
access holds is skipped. -/
def execPatrolScrub (store : Bool) (gran : Fin 524288) (held : Bool) (err : MemErr) (s : State) : Res :=
  .next (if store then
      if !s.flag .DRS_CFG_SCRUB_EN || !s.domOn 17 || s.flag .DRS_STS_SELF_REFRESH || !s.flag .DRS_STS_TRAINED then s
      else
        let a := s.fld .DRS_SCRUB_POS_POS
        let s := if held then s else (s.memRead 63 a 64 err).2.2
        if a + 64 = 0x2000000000 then
          (s.set .DRS_SCRUB_POS_POS 0 0).set .DRS_SCRUB_POS_PASSES 0 (s.fld .DRS_SCRUB_POS_PASSES + 1)
        else s.set .DRS_SCRUB_POS_POS 0 (a + 64)
    else if !s.flag .MEM_CFG_SCRUB_EN || !s.domOn 16 || held then s
    else (s.memRead 63 (sramBase + 64 * gran.val) 64 err).2.2)

/-- CE_RATE_WINDOW: a second of correctable store errors ends. -/
def execCeRateWindow (s : State) : Res :=
  .next (let n := s.ceWindow
    let thr := s.fld .DRS_CFG_CE_THR
    let s := { s with ceWindow := 0 }
    if thr ≠ 0 ∧ thr ≤ n then (s.drsEvt .DRS_EVT_CE_STORM).correctedLog 13 else s)

end Sys2Proof.Machine
end

