-- ==== Sys2Proof/Machine/HostLink.lean ====
section
/-!
DEFINITION. The commands of the host link (R45 to R74): PERST#, resets of the host face, link training, widths, lane
failures, power states, reference clock.
-/
namespace Sys2Proof.Machine

/-! ### Operations of the host link -/

/-- The host endpoint is powered (R458). -/
def State.hctlOn (s : State) : Bool := s.domOn 8 && s.mode != .OFF && s.mode != .STANDBY

/-- The data link layer goes down and the LTSSM enters a state, leaving L1 first. The host's posted credit is gone with it,
and every margined sampler is back at its place. -/
def State.dlFall (s : State) (lt : Nat) : State :=
  let up := s.flag .HST_LINK_STS_DL_UP
  let s := s.l1Leave
  let s := s.each [Fld.HST_LINK_STS_RATE, .HST_LINK_STS_WIDTH, .HST_LINK_STS_FLIT, .HST_LINK_STS_REVERSED
    , .HST_LINK_STS_DL_UP, .HST_LINK_STS_L0P_WIDTH] fun s f => s.set f 0 0
  let s := { s.set .HST_LINK_STS_LTSSM 0 lt with jCredit := 0, bt.l0pNeg := false, hp.margin := [] }
  if up then s.hstEvt .HST_EVT_DL_DOWN else s

/-- A surprise link loss (R64, R67, R73): CONTAIN, unless the module boots (R389) or enters STANDBY. -/
def State.surprise (s : State) : State :=
  let s := ((s.dlFall ltDETECT).hstEvt .HST_EVT_DL_DOWN).hstEvt .HST_EVT_SURPRISE_LOSS
  if s.bt.standby.isSome then s else s.contain 1

/-- The permitted widths, widest first. -/
def linkWidths : List Nat := [16, 8, 4, 2, 1]

/-- HST_LINK_CTL.RATE_LIMIT and WIDTH_LIMIT in effect (R74). -/
def State.rateLimit (s : State) : Nat :=
  let v := s.fld .HST_LINK_CTL_RATE_LIMIT
  if v = 0 ∨ 7 < v then 7 else v
def State.widthLimit (s : State) : Nat :=
  let v := s.fld .HST_LINK_CTL_WIDTH_LIMIT
  if linkWidths.contains v then v else 16

/-- Configuration or Recovery is entered: the limits are taken (R48). -/
def State.limTake (s : State) : State := { s with hp.rateLim := s.rateLimit, hp.widthLim := s.widthLimit }

/-- Recovery is entered from L0 (R62, R74). -/
def State.recover (s : State) : State :=
  if s.ltssm = ltL0 then
    (((s.set .HST_LINK_STS_LTSSM 0 ltRECOVERY).count .HST_RECOV_CNT_RECOVERY).hstEvt .HST_EVT_RECOVERY).limTake
  else s

/-- Recovery that the endpoint starts. -/
def State.ownRecover (s : State) : State := if s.ltssm = ltL0 then (s.send (.msg .recovery)).recover else s

/-- Physical lanes lo to lo + n - 1 hold no excluded lane. -/
def State.lanesFree (s : State) (lo n : Nat) : Bool :=
  (List.range n).all fun i => !(s.fld .HST_LANE_FAIL_EXCLUDE).testBit (lo + i)

/-- The widest width up to a limit whose lanes from 0 hold no excluded lane; failing that the widest from the other end,
reversed (R62 step 2). DESIGN CHOICE (assumption 71): with every end excluded the link trains x1 on lane 0, not reversed. -/
def State.bestWidth (s : State) (lim : Nat) : Nat × Bool :=
  match linkWidths.find? fun w => decide (w ≤ lim) && s.lanesFree 0 w with
  | some w => (w, false)
  | none =>
    match linkWidths.find? fun w => decide (w ≤ lim) && s.lanesFree (16 - w) w with
    | some w => (w, true)
    | none => (1, false)

/-- The logical lane of a physical lane; none outside the link. -/
def State.logical (s : State) (p : Nat) : Option Nat :=
  let w := s.fld .HST_LINK_STS_WIDTH
  if p < s.hp.base ∨ s.hp.base + w ≤ p then none
  else some (if s.flag .HST_LINK_STS_REVERSED then s.hp.base + w - 1 - p else p - s.hp.base)

/-- Logical lanes 0 to w - 1 hold no excluded lane (R62 step 1, R63). -/
def State.l0pFree (s : State) (w : Nat) : Bool :=
  (List.range 16).all fun p => !(s.fld .HST_LANE_FAIL_EXCLUDE).testBit p || (match s.logical p with
    | some q => decide (w ≤ q)
    | none => true)

/-- The widest width a training may take (R46, R48, R63): a link that is up is not widened unless the partner can upconfigure
and the host has left Hardware Autonomous Width Disable clear. -/
def State.trainWidth (s : State) (t : HostTrain) : Nat :=
  let lim := min t.width.val s.hp.widthLim
  let w0 := s.fld .HST_LINK_STS_WIDTH
  if w0 = 0 ∨ (t.upcfg = true ∧ (s.cfgD 0 0x080).testBit 9 = false) then lim else min lim w0

/-- Flits replayed are counted (R74); a replay is a Receiver Error of the link, a correctable error of PF0 (R480; the mapping is
PRESUMED, assumption 5). -/
def State.flitReplay (s : State) (n : Nat) : State :=
  if n = 0 then s else (s.count .HST_FLIT_CNT_REPLAY 0 n).aer 0 .correctable

/-- A host lane fails: recorded and excluded (R62), with its class 1 entry (R480). -/
def State.laneExclude (s : State) (p : Nat) : State :=
  let s := s.set .HST_LANE_FAIL_FAILED 0 (s.fld .HST_LANE_FAIL_FAILED ||| 2 ^ p)
  ((s.set .HST_LANE_FAIL_EXCLUDE 0 (s.fld .HST_LANE_FAIL_EXCLUDE ||| 2 ^ p)).hstEvt .HST_EVT_LANE_FAIL).correctedLog 1

/-- The link trains, or returns from Recovery (R46 to R50, R62): the lanes that failed are excluded, the rate and the width
follow the limits and the exclusions, the equalisation results are retained. DESIGN CHOICE (assumption 71): RATE_CHG and
WIDTH_CHG are raised also when the link comes up from no rate and width, not when it goes down. -/
def State.linkAt (s : State) (t : HostTrain) (flit : Bool) : State :=
  let s := s.each (t.failed.map (·.val)) State.laneExclude
  let rate := min (min t.rate.val s.hp.rateLim) (if flit then 7 else 5)
  let lim := s.trainWidth t
  let (w, rev) := s.bestWidth lim
  let r0 := s.fld .HST_LINK_STS_RATE
  let w0 := s.fld .HST_LINK_STS_WIDTH
  let s := s.when (decide (w < lim) && (if w0 = 0 then t.failed != [] else decide (w < w0))) fun s =>
    s.count .HST_RECOV_CNT_DOWNCFG
  let s := (s.widthTrained w).each t.eq State.eqTake
  let s := { s with hp.base := if rev then 16 - w else 0, hp.inverted := t.inverted.val, hp.eqMode := t.eqMode.val
                    hp.precode := t.precode && rate == 5, hp.retimers := t.retimers.val }
  let s := (s.flitReplay t.replayed).set .HST_LINK_STS_REVERSED 0 (bit (rev || t.reversed))
  let s := (s.set .HST_LINK_STS_RATE 0 rate).set .HST_LINK_STS_WIDTH 0 w
  let s := ((s.set .HST_LINK_STS_FLIT 0 (bit flit)).set .HST_LINK_STS_L0P_WIDTH 0 w).set .HST_LINK_STS_LTSSM 0 ltL0
  let s := if r0 = rate then s else { s with hp.margin := [] }.hstEvt .HST_EVT_RATE_CHG
  if w0 = w then s else s.hstEvt .HST_EVT_WIDTH_CHG

/-- L0p is in use: the host has enabled it (Device Control 3) and the partner has agreed (R56). -/
def State.l0pOn (s : State) : Bool := s.bt.l0pNeg && (s.cfgD 0 0x2D0).testBit 3

/-- What a lane failure makes the link do (R62, R73): in L0 with L0p the widest width that leaves the excluded lanes idle is
requested, when the link is wider now; else Recovery is entered. In Recovery the failure takes effect at its end. -/
def State.laneAct (s : State) : State :=
  if !s.flag .HST_LINK_STS_DL_UP ∨ s.ltssm ≠ ltL0 then s
  else
    match (if s.l0pOn then linkWidths.find? fun w => decide (w < s.fld .HST_LINK_STS_WIDTH) && s.l0pFree w else none) with
    | some w => if s.fld .HST_LINK_STS_L0P_WIDTH ≤ w then s else s.send (.msg (.l0pRequest w))
    | none => s.ownRecover

/-- Host lanes fail (R62). -/
def State.hostLanesFail (s : State) (ps : List Nat) : State :=
  if ps = [] then s else (s.each ps State.laneExclude).laneAct

/-- The data rate of the host link at a width, in MB/s (R43). -/
def State.hostRate (s : State) (w : Nat) : Nat := (s.set .HST_LINK_STS_L0P_WIDTH 0 w).capLink 0

/-- The clock mode, the VF totals and the full face that a deassertion of PERST# brings (R54, R76, R382). -/
def State.perstUp (s : State) : State :=
  let s := s.clkChoose.vfTake
  if s.bt.face == .minimal && s.fwReady then s.fullFace else s

/-- WAKE# is asserted for a wake event other than the deassertion of PERST#. -/
def State.wakeAssert (s : State) (src : Nat) : State :=
  if src = 0x10 ∨ s.bt.wakeOn = true then s else { s with bt.wakeOn := true }.send (.wakeN true)

/-- A module wake event (R61, R467): latched while STANDBY entry runs; in L2 and STANDBY it asserts WAKE#, and in STANDBY it
starts a warm or cold module reset (R387). -/
def State.moduleWake (s : State) (src : Nat) : State :=
  match s.bt.standby with
  | some b => if b.wake.isSome then s else { s with bt.standby := some { b with wake := some src } }
  | none =>
    if s.mode ≠ .STANDBY then (if s.mode ≠ .OFF ∧ s.ltssm = ltL2 then s.wakeAssert src else s)
    else
      let s := (s.wakeRecord src 4 false false).wakeAssert src
      (State.moduleReset { s with bt.warm := s.dom 18 == .on && s.bt.trainCache } 2).pwrEvt .PWR_EVT_MOD_WAKE

/-- STANDBY entry starts (R386): new host-bound requests stop. -/
def State.standbyStart (s : State) (retain : Bool) : State :=
  if s.bt.standby.isSome then s else { s with bt.standby := some { retain := retain }, pmeOff := true }

/-! ### PERST# and resets of the host face -/

/-- R378: this PERST# assertion resets the module. -/
def State.perstResets (s : State) : Bool :=
  s.mode != .CONTAIN && (s.flag .SEC_LIFECYCLE_ADVANCING || s.bt.bootFail || s.evFlags.testBit 0 || (s.bt.imgTry && !s.fwReady))

/-- PERST_ASSERT. -/
def execPerstAssert (s : State) : Res :=
  .next (if s.perst then s
    else
      let s := { s with perst := true }
      if !s.hctlOn then s
      else if s.perstResets then s.moduleReset 7
      else
        let s := (s.hstEvt .HST_EVT_PERST_ASSERT).dlFall ltDETECT
        s.hostFaceReset true)

/-- A deassertion of PERST# in STANDBY, or while entry to it runs, is a wake event (R61, R378). -/
def State.perstWake (s : State) : State :=
  if s.mode = .STANDBY ∨ s.bt.standby.isSome = true then s.moduleWake 0x10 else s

/-- WAKE# is released. -/
def State.wakeRelease (s : State) : State :=
  if s.bt.wakeOn then { s with bt.wakeOn := false }.send (.wakeN false) else s

/-- PERST_DEASSERT (R54, R61, R378). -/
def execPerstDeassert (s : State) : Res :=
  .next (if !s.perst then s
    else
      let s := State.wakeRelease { s with perst := false }
      (if s.hctlOn then (s.hstEvt .HST_EVT_PERST_DEASSERT).perstUp else s).perstWake)

/-- HOT_RESET_RX. -/
def execHotResetRx (s : State) : Res :=
  .next (s.when (s.hctlOn && s.flag .HST_LINK_STS_DL_UP) fun s =>
    ((s.hstEvt .HST_EVT_HOT_RESET).dlFall ltHOTRESET).hostFaceReset false)

/-- LINK_DISABLE_RX: what waits for the link is discarded (R523); the functions are reset on leaving Disabled. -/
def execLinkDisableRx (s : State) : Res :=
  .next (s.when (s.hctlOn && s.flag .HST_LINK_STS_DL_UP) fun s =>
    (((s.hstEvt .HST_EVT_LINK_DISABLE).dlFall ltDISABLED).holdTags (fun _ => true) true).dropTlps)

/-- LINK_DISABLE_EXIT. -/
def execLinkDisableExit (s : State) : Res :=
  .next (s.when (s.hctlOn && s.ltssm == ltDISABLED) fun s => (s.set .HST_LINK_STS_LTSSM 0 ltDETECT).hostFaceReset false)

/-- DL_DOWN: the data link layer goes down. After PME_TO_Ack it is L2 entry, whose events have happened; else it is a
surprise link loss (R64), also while the link retrains after a hot reset (R73). -/
def execDlDown (s : State) : Res :=
  .next (s.when (s.hctlOn && (s.flag .HST_LINK_STS_DL_UP || s.ltssm == ltHOTRESET)) State.surprise)

/-- The data link layer comes up on a link that has trained, in flit mode or not, with L0p negotiated or not; what waited
for the host goes on. -/
def State.dlRise (s : State) (t : HostTrain) (flit l0p : Bool) : State :=
  let s := (s.limTake.linkAt t flit).set .HST_LINK_STS_DL_UP 0 1
  let s := { s with bt.l0pNeg := l0p && flit }.set .CLK_STS_HOST_LOCK 0 1
  (s.hstEvt .HST_EVT_DL_UP).hostFlush

/-- DL_UP (R46, R48, R70). -/
def execDlUp (t : HostTrain) (flit l0p : Bool) (s : State) : Res :=
  .next (s.when (s.hctlOn && !s.perst && s.ltssm != ltDISABLED && !s.flag .HST_LINK_STS_DL_UP && t.rate.val != 0
      && linkWidths.contains t.width.val) fun s => s.dlRise t flit l0p)

/-- REFCLK_LOSS (R54, R55). REFCLK_OK follows the pin whether or not HCTL is powered, so that it is live when HCTL is. -/
def execRefclkLoss (s : State) : Res :=
  let s := s.set .HST_CLK_CFG_REFCLK_OK 0 0
  .next (s.when (s.hctlOn && s.fld .HST_CLK_CFG_ACTIVE == 1 && s.flag .HST_LINK_STS_DL_UP) State.surprise)

/-- REFCLK_RETURN (R54). -/
def execRefclkReturn (s : State) : Res := .next (s.set .HST_CLK_CFG_REFCLK_OK 0 1)

/-! ### Lanes, Recovery and widths -/

/-- LANE_ERR_WINDOW_END: a 1 ms window ends with the corrected symbols by physical lane, the errors of the independent
samplers that margining moves, by lane, and the flits or TLPs replayed in it (R52, R62, R74). -/
def execLaneErrWindowEnd (errs margin : List Nat) (replayed : Nat) (s : State) : Res :=
  .next (s.when (s.hctlOn && s.flag .HST_LINK_STS_DL_UP) fun s =>
    let thr := if s.fld .HST_LANE_ERR_THR_THRESHOLD = 0 then 65536 else s.fld .HST_LANE_ERR_THR_THRESHOLD
    let lanes := (errs.take 16).zipIdx
    let s := s.each lanes fun s e => s.count .HST_LANE_ERR_CNT_CORR e.2 e.1
    let s := (s.flitReplay replayed).each (margin.take 16).zipIdx fun s e => s.margErrs e.2 e.1
    if s.flag .HST_LINK_CTL_LANE_ACT then s.hostLanesFail ((lanes.filter fun e => decide (thr ≤ e.1)).map (·.2)) else s)

/-- RECOVERY_ENTRY: the partner takes the link into Recovery. -/
def execRecoveryEntry (s : State) : Res := .next (s.when s.hctlOn State.recover)

/-- RECOVERY_DONE; lanes that failed to lock or equalise in it fail (R62, R72). -/
def execRecoveryDone (t : HostTrain) (s : State) : Res :=
  .next (s.when (s.hctlOn && s.ltssm == ltRECOVERY && t.rate.val != 0 && linkWidths.contains t.width.val) fun s =>
    (s.linkAt t (s.flag .HST_LINK_STS_FLIT)).hostFlush)

/-- AUTO_REWIDEN: once per second, while the host has left Hardware Autonomous Width Disable clear (R63). -/
def execAutoRewiden (s : State) : Res :=
  .next (s.when (s.hctlOn && s.flag .HST_LINK_CTL_AUTO_REWIDEN && s.fld .HST_LANE_FAIL_EXCLUDE != 0
      && !(s.cfgD 0 0x080).testBit 9) fun s => (s.set .HST_LANE_FAIL_EXCLUDE 0 0).ownRecover)

/-- HST_RETRAIN: a write of HST_LINK_CTL.RETRAIN (R48, R74). -/
def execHstRetrain (s : State) : Res := .next (s.when s.hctlOn State.ownRecover)

/-- The class 0 and class 1 guarantees that face the host (R57). -/
def State.hostGuarantee (s : State) : Nat := max (s.gSum 0 0 + s.gSum 1 0) (s.gSum 0 1 + s.gSum 1 1)

/-- HST_LINK_CTL.L0P_MIN in effect. DESIGN CHOICE (assumption 71): a value that is no width is taken as the reset value 4. -/
def State.l0pMin (s : State) : Nat :=
  if linkWidths.contains (s.fld .HST_LINK_CTL_L0P_MIN) then s.fld .HST_LINK_CTL_L0P_MIN else 4

/-- L0P_DEMAND_CHECK: the larger demand of the two directions over the last 100 µs window, and over the last 1 µs epoch,
in MB/s (R57). L0P_AUTO allows narrowing. -/
def execL0pDemandCheck (window epoch : Nat) (s : State) : Res :=
  .next (s.when (s.hctlOn && s.l0pOn && s.linkOpen) fun s =>
    let w := s.fld .HST_LINK_STS_L0P_WIDTH
    let low := min 100 (s.fld .HST_PM_CTL_L0P_LOW)
    let high := min 100 (s.fld .HST_PM_CTL_L0P_HIGH)
    if 100 * epoch > high * s.hostRate w then
      (if 2 * w ≤ s.fld .HST_LINK_STS_WIDTH ∧ s.l0pFree (2 * w) = true then s.send (.msg (.l0pRequest (2 * w))) else s)
    else if s.flag .HST_LINK_CTL_L0P_AUTO = true ∧ s.l0pMin ≤ w / 2 ∧ 100 * window < low * s.hostRate (w / 2)
        ∧ s.hostGuarantee ≤ s.hostRate (w / 2) then
      s.send (.msg (.l0pRequest (w / 2)))
    else s)

/-- L0P_WIDTH_CHANGE_DONE: widening takes in no excluded lane (R63); a lane failure that came during the change takes over
(R73). -/
def execL0pWidthChangeDone (width : Fin 17) (s : State) : Res :=
  .next (s.when (s.hctlOn && s.l0pOn && s.flag .HST_LINK_STS_DL_UP && linkWidths.contains width.val
      && decide (width.val ≤ s.fld .HST_LINK_STS_WIDTH)
      && (decide (width.val ≤ s.fld .HST_LINK_STS_L0P_WIDTH) || s.l0pFree width)) fun s =>
    let s := (s.set .HST_LINK_STS_L0P_WIDTH 0 width).hstEvt .HST_EVT_L0P_CHG
    if s.l0pFree width then s else s.laneAct)

/-! ### Link power states -/

/-- Worst-case exit of the deepest L1 state the host has enabled, for ASPM or PCI-PM, in ns (R59). -/
def State.l1Exit (s : State) : Nat :=
  let c := s.cfgD 0 0x2A8
  if c.testBit 0 || c.testBit 2 then 100000 else if c.testBit 1 || c.testBit 3 then 12000 else 8000

/-- A channel runs a transfer whose source or destination is the host (R58). -/
def State.chToHost (s : State) (c : Nat) (r : ChRun) : Bool :=
  s.chBusy c && ((usesSrc r.words && dSrcSp r.words == 1) || (usesDst r.words && dDstSp r.words == 1)
    || r.beats.any fun b => s.beatToHost c r b)

/-- The idle conditions of R58. -/
def State.l1Idle (s : State) : Bool :=
  s.tlpQ == [] && s.jq == [] && s.bskWait == [] && s.bTags.all BTag.quarantined
    && !(s.chans.any fun c => s.chToHost c.1 c.2) && !(s.rings.any fun x => x.2.fetching)
    && !((s.listed .SHR_CTX_BIND_VALID).any fun x =>
      let sh := (s.shareNow x).1
      s.fld .SHR_CTX_BIND_FUNC x != 0 && s.regListed .SHR_CTX_SHARE != [] && (s.regListed .SHR_CTX_SHARE).contains x
        && shClass sh == 0 && shLat sh != 0 && decide (shLat sh < s.l1Exit))

/-- ASPM_L1_ENTRY: L1_IDLE has passed; the partner accepts or rejects; `unacked` is a flit awaiting acknowledgement (R58). -/
def execAspmL1Entry (accepted unacked : Bool) (s : State) : Res :=
  .next (s.when (s.hctlOn && s.linkOpen && s.aspmL1 && s.flag .HST_LINK_CTL_L1_AUTO && s.fld .HST_PM_CTL_L1_IDLE != 0
      && !unacked && s.l1Idle) fun s =>
    let s := s.send (.msg .enterL1)
    if accepted then s.l1Enter false else s)

/-- L1_SUBSTATE_ENTRY: CLKREQ# is released by both sides; L1.2 when its enable is set and the LTR threshold is met, else
L1.1, by the enables of ASPM or of PCI-PM (R56). -/
def execL1SubstateEntry (ltrMet : Bool) (s : State) : Res :=
  .next (s.when (s.hctlOn && s.ltssm == ltL1) fun s =>
    let c := s.cfgD 0 0x2A8 / (if s.hp.l1Pm then 1 else 4)
    let n := if ltrMet && c.testBit 0 then 2 else if c.testBit 1 then 1 else 0
    if n = 0 then s
    else ((s.set .HST_LINK_STS_LTSSM 0 (ltL1 + n)).clkreq false).send (.msg (.l1Substate n)))

/-- L1_EXIT. -/
def execL1Exit (s : State) : Res :=
  .next (s.when (s.hctlOn && decide (ltL1 ≤ s.ltssm) && decide (s.ltssm ≤ 7)) fun s =>
    (s.l1Leave.set .HST_LINK_STS_LTSSM 0 ltL0).hostFlush)

/-- PME_TURN_OFF_RX (R60). -/
def execPmeTurnOffRx (s : State) : Res :=
  .next (s.when (s.hctlOn && s.flag .HST_LINK_STS_DL_UP) fun s => { s with pmeOff := true })

/-- PME_TO_ACK_SEND: the Basket holds no outstanding tag, or 1 ms has passed (R60). The link enters L2, and the module
goes on to STANDBY but from CONTAIN (R388); in BOOT the entry waits for FW_READY (R389). -/
def execPmeToAckSend (expired : Bool) (s : State) : Res :=
  .next (s.when (s.hctlOn && s.pmeOff && s.flag .HST_LINK_STS_DL_UP
      && (expired || !(s.bTags.any fun t => t.st == .issued))) fun s =>
    let s := ((s.holdTags (fun _ => true) true).send (.msg .pmeToAck)).hstEvt .HST_EVT_L2_ENTRY
    let s := ((s.dlFall ltL2).dropTlps).clkreq false
    if s.mode = .CONTAIN then s else s.standbyStart (s.evFlags.testBit 1))

/-- POSTED_CREDIT_GRANT: the host returns posted credit (R181). -/
def execPostedCreditGrant (n : Nat) (s : State) : Res :=
  .next (s.when (s.hctlOn && s.flag .HST_LINK_STS_DL_UP) fun s => State.jFlush { s with jCredit := s.jCredit + n })

end Sys2Proof.Machine
end

