-- ==== Sys2Proof/Machine/RegView.lean ====
section
/-!
DEFINITION. What a register reads as (R11): the stored fields, and the fields that show something the state holds
elsewhere. Reading's side effects stand here too: read-to-clear fields, the claims of a core.
-/
namespace Sys2Proof.Machine

/-- The routing ID of a function (R78, R113): 0 until PF0 has captured its own. -/
def State.rid (s : State) (f : Nat) : Nat := if s.bt.ridTaken then (s.rid0 + f) % 65536 else 0

/-- IRQ_SRC_STS.STATE and HOLD (R303, R305). -/
def State.srcState (s : State) (i : Nat) : Nat :=
  if (s.servedBy i).isSome then 3
  else if (s.presented i).isSome then 2 else if s.isPend i then 1 else 0
def State.srcHold (s : State) (i : Nat) : Nat :=
  if !s.ready i then 0
  else if s.stranded i then 2
  else if s.stormHeld i then 3
  else match s.targetOf i with
    | some t => if s.avail t = .held then 1 else 0
    | none => 0

/-- The stack of a core, top first. -/
def State.stackOf (s : State) (c : Nat) : List (Nat × Nat) := smGet (fun _ => []) s.irqStack c

/-- IRQ_CORE_STACK: entry 0 is THR, entries above it the priorities in service, deepest last (R302). -/
def State.stackWord (s : State) (c : Nat) : Nat :=
  ofNibbles (s.fld .IRQ_CORE_CTL_THR c :: (s.stackOf c).reverse.map (·.2))
where
  /-- Four bits each, the first lowest. -/
  ofNibbles : List Nat → Nat
    | [] => 0
    | v :: t => v % 16 + 16 * ofNibbles t

/-- A routed INTx source is pending and the wire is held (R314). -/
def State.intxHeld (s : State) (pf : Nat) : Bool :=
  s.pendSrcs.any fun i => s.ready i &&
    (match s.targetOf i with
     | some t => t.kind == 2 && t.func == pf && s.avail t == .held
     | none => false)

/-- The domains whose state satisfies `p`, as a mask. -/
def State.domMask (s : State) (p : DomSt → Bool) : Nat :=
  ((List.range 20).map fun d => if p (s.dom d) then 2 ^ d else 0).sum

/-- Credits a limit leaves: a count of `w` bits, cumulative (R220). -/
def creditLeft (w limit used : Nat) : Nat :=
  let d := (limit + 2 ^ (w + 1) - used) % 2 ^ w
  if d < 2 ^ (w - 1) then d else 0

/-- The host-bound read first in line waits for space (R41). -/
def State.bskShort (s : State) : Bool :=
  match s.bskWait with
  | [] => false
  | r :: _ => decide (8192 < s.cplUnits + unitsOf r.dst r.len)

/-- Word `w` of always-on ring entry `i` (R485, R498). -/
def State.ringWord (s : State) (i w : Nat) : Nat :=
  match s.ring.reverse[(s.fld .MGT_LOG_STS_HEAD + 127 - i) % 128]? with
  | some e => ofBytes ((e.bytes.drop (8 * w)).take 8)
  | none => 0

/-- Word `w` of the image of a channel: of a pool channel that of the descriptor that runs (R282). -/
def State.imageWord (s : State) (c w : Nat) (f : Fld) : Nat :=
  match s.chan c with
  | some r => if !s.chDirect c && r.ctx.isSome then wWord r.words w else s.fld f c
  | none => s.fld f c

/-- A word of the PENDING or the ENABLE array. -/
def State.arrayWord (s : State) (base n : Nat) : Nat := s.ld4 (base + 4 * n)

/-- The value a field reads as. -/
def State.fldView (s : State) (f : Fld) (i : Nat) : Nat :=
  match f with
  | .IRQ_STS_STRANDED => bit (s.irqStranded.any (·.2))
  | .IRQ_STS_STORM_ACTIVE => bit (s.irqStorm.any (·.2))
  | .IRQ_CORE_CLAIM_SRC => (s.bestFor i).getD 0
  | .IRQ_CORE_CLAIM_PRIO => ((s.bestFor i).map s.prio).getD 0
  | .IRQ_CORE_CLAIM_NONE => bit (s.bestFor i).isNone
  | .IRQ_CORE_STS_RUN_PRIO => s.runPrio i
  | .IRQ_CORE_STS_DEPTH => (s.stackOf i).length
  | .IRQ_CORE_STS_PRESENT => bit (s.bestFor i).isSome
  | .IRQ_CORE_STS_ASLEEP => bit (!s.domOn (2 + i))
  | .IRQ_CORE_STS_TOP_SRC => ((s.stackOf i).head?.map (·.1)).getD 0
  | .IRQ_CORE_STACK_STACK => s.stackWord i
  | .IRQ_INTX_STS_WIRE => bit (bGet s.intx i)
  | .IRQ_INTX_STS_HELD => bit (s.intxHeld i)
  | .IRQ_PEND_SET_MASK => s.arrayWord pendBase i
  | .IRQ_PEND_CLR_MASK => s.arrayWord pendBase i
  | .IRQ_EN_SET_MASK => s.arrayWord enBase i
  | .IRQ_EN_CLR_MASK => s.arrayWord enBase i
  | .IRQ_ROUTE_LEVEL => bit (s.isLevel i)
  | .IRQ_SRC_STS_STATE => s.srcState i
  | .IRQ_SRC_STS_LEVEL_IN => bit (s.level i)
  | .IRQ_SRC_STS_STORM => bit (bGet s.irqStorm i)
  | .IRQ_SRC_STS_WIN_CNT => min 127 (nGet s.irqShown i)
  | .IRQ_SRC_STS_HOLD => s.srcHold i
  | .IRQ_SRC_STS_CORE => (s.servedBy i).getD 0
  | .HST_LINK_STS_CONTAINED => bit (s.mode == .CONTAIN)
  | .FN_ID_RID => s.rid i
  | .FN_ID_KIND => fnKind i
  | .FN_ID_PARENT => s.parent i
  | .FN_ID_VF_INDEX => i - 4
  | .FN_STS_BME => bit (s.bme i)
  | .FN_STS_MSE => bit (s.mse i)
  | .FN_RINSE_LEFT => (nGet s.rinseLeft i + 999) / 1000
  | .FN_SLICE_ACTIVE => bit (s.sliceActive i)
  | .XLT_EPOCH_LIVE => liveCount s.xltLive (s.fld .XLT_EPOCH_CURRENT)
  | .XLT_PIN_CNT_PINNED => s.pinned
  | .GRD_EPOCH_LIVE => liveCount s.grdLive (s.fld .GRD_EPOCH_CURRENT)
  | .LDG_STS_OPEN => s.ledger.length
  | .LDG_STS_OVF_IN_USE => bit (s.ledger.any fun e => decide (8192 ≤ e.slot) || decide (8192 ≤ e.ref))
  | .LDG_STARCH_STS_HELD => s.locks.length
  | .LDG_SEQ_OLDEST => s.seqOldest (i / 32) (i % 32)
  | .LDG_SEQ_OPEN => (s.stream (i / 32) (i % 32)).length
  | .BSK_STS_FREE => 4096 - s.bTags.length
  | .BSK_STS_QUAR => (s.bTags.filter fun t => t.st != .issued).length
  | .BSK_CPL_STS_FREE_UNITS => 8192 - s.cplUnits
  | .BSK_CPL_STS_WAITING => bit s.bskShort
  | .DMA_STS_POOL_IDLE => 256 - (s.listed .DMA_CH_CFG_MODE).length
      - ((s.listed .DMA_CH_STS_STATE).filter fun c => !s.chDirect c).length
  | .DMA_STS_RUNNING => ((s.listed .DMA_CH_STS_STATE).filter s.chBusy).length
  | .DMA_STS_DRAINING => bit s.dmaDrain
  | .DMA_CH_OP_WORD => s.imageWord i 0 f
  | .DMA_CH_COUNT_WORD => s.imageWord i 1 f
  | .DMA_CH_SRC_WORD => s.imageWord i 2 f
  | .DMA_CH_DST_WORD => s.imageWord i 3 f
  | .DMA_CH_STRIDE_WORD => s.imageWord i 4 f
  | .DMA_CH_PATTERN_WORD => s.imageWord i 5 f
  | .SHR_STS_SPILL_IN_USE => bit (s.spill != [])
  | .SHR_SPILL_USE_USED => (s.spillUse + 1023) / 1024
  | .SHR_RES_STS_CAP => s.cap i
  | .SHR_RES_SUM_G0 => s.gSum 0 i
  | .SHR_RES_SUM_G1 => s.gSum 1 i
  | .SHR_RES_STS_PRESENT => bit (s.resPresent i)
  | .SHR_CTX_STS0_WORD => s.ctxStatus i 0
  | .SHR_CTX_STS1_WORD => s.ctxStatus i 1
  | .SHR_CTX_STS2_WORD => s.ctxStatus i 2
  | .SHR_CTX_STS3_WORD => s.ctxStatus i 3
  | .ULK_STS_ATOM_NATIVE => bit (s.nativeAtomics i)
  | .ULK_STS_TX_UNACK => (s.port i).unacked
  | .ULK_STS_HELD_TAGS => (s.port i).heldTags.length
  | .ULK_CREDIT_VC0_HDR => creditLeft 12 (s.port i).hdr0 (s.port i).used0
  | .ULK_CREDIT_VC0_DATA => creditLeft 16 (s.port i).data0 (s.port i).usedD0
  | .ULK_CREDIT_VC2_HDR => creditLeft 12 (s.port i).hdr2 (s.port i).used2
  | .MBX_STS_QUEUED => s.mbxQueue.length
  | .MBX_STS_BUSY => ((s.listed .MBX_MB_CONTROL).filter fun m => s.mbxState m == 2).length
  | .MBX_CLAIM_INDEX => s.mbxQueue.head?.getD 0
  | .MBX_CLAIM_NONE => bit (s.mbxQueue == [])
  | .PWR_STS_MODE => s.mode.code
  | .PWR_STS_REQ_BUSY => bit s.bt.domReq.isSome
  | .PWR_DOM_STS_ON => s.domMask (· == .on)
  | .PWR_DOM_STS_RETAINED => s.domMask (· == .retained)
  | .PWR_DOM_STS_DRAINING => s.domMask fun d => d == .draining || d == .aborting
  | .TIM_AON_COUNT => s.aonCount
  | .SEC_STS_SESSIONS => (s.sc.sessions.filter (·.open_)).length
  | .SEC_IDE_STS_EN => bit (s.ideEn i)
  | .SEC_IDE_STS_STREAM_ID => s.ideId i
  | .DBG_STS_LC => s.fld .SEC_LIFECYCLE_STATE
  | .MGT_STS_HELD => s.mg.mctpHeld.length
  | .MGT_RING0_WORD => s.ringWord i 0
  | .MGT_RING1_WORD => s.ringWord i 1
  | .MGT_RING2_WORD => s.ringWord i 2
  | .MGT_RING3_WORD => s.ringWord i 3
  | f => match (fldInfo f).ty with
    | .WO => 0
    | _ => s.fld f i

/-- The value a register reads as. -/
def State.regView (s : State) (r : Reg) (i : Nat) : Nat :=
  (regFlds r).foldl (fun a f => a + s.fldView f i % 2 ^ (fldInfo f).w * 2 ^ (fldInfo f).lo) 0

/-- Bytes `o` to `o + n - 1` of a register hold part of a field. -/
def inLanes (f : Fld) (o n : Nat) : Bool :=
  let g := fldInfo f
  decide (g.lo < 8 * (o + n)) && decide (8 * o < g.lo + g.w)

/-- A read clears the read-to-clear fields it returns (R11). -/
def State.readClear (s : State) (r : Reg) (i o n : Nat) : State :=
  s.each (regFlds r) fun s f => if (fldInfo f).ty == .RC && inLanes f o n then s.set f i 0 else s

/-- The claim of a core (R300): the eligible source of highest priority goes into service. -/
def State.irqClaim (s : State) (c : Nat) : State :=
  match s.bestFor c with
  | none => s.count .IRQ_ERR_CNT_SPURIOUS
  | some i =>
    let p := s.prio i
    let s := (s.setPend i false).stormCount i
    { s with irqStack := smSet (fun _ => []) s.irqStack c ((i, p) :: s.stackOf c) }.irqEval

/-- A register read by a requester: the value, and what reading does. Only core `c` claims through its own
IRQ_CORE_CLAIM, and any core through MBX_CLAIM (R300, R414). -/
def State.regRead (s : State) (w : Who) (r : Reg) (i o n : Nat) : Nat × State :=
  match r, w with
  | .IRQ_CORE_CLAIM, .core c => (s.regView r i, if c = i ∧ o = 0 then s.irqClaim c else s)
  | .MBX_CLAIM, .core c => if o = 0 then s.mbxClaim c else (0, s)
  | _, _ => (s.regView r i, s.readClear r i o n)

end Sys2Proof.Machine
end

