-- ==== Sys2Proof/Machine/ContainOps.lean ====
section
/-!
DEFINITION. Module containment entered by request and its release (R486 to R488).
-/
namespace Sys2Proof.Machine

/-! ### What waits frozen -/

/-- A ledger entry ends without issue and without report: the twin has replayed it (R488 step 1). A local requester that
waits for it learns LINK_DOWN. -/
def State.entEnd (s : State) (e : LEnt) : State :=
  let same (x : LEnt) : Bool := x.port == e.port && x.init == e.init && x.seq == e.seq
  let s := { s with ledger := s.ledger.filter fun x => !same x }
  if e.atom.isSome then (s.finishRead e.port e.req 9 [] []).dropLock (granKey e.req)
  else if e.req.grp ≠ 0 then s.groupPiece e.port e.req 9 [] []
  else match e.req.who with
    | .host _ => s.retire e.req
    | .port _ => (s.answer e.req 9 []).retire e.req
    | _ => s.finish e.req 9 []

/-- Writes that wait to open an entry end likewise. -/
def State.waitEnd (s : State) (w : LWait) : State :=
  { s with ldgWait := s.ldgWait.erase w }.entEnd
    { port := w.port, init := w.init, seq := 65536, st := .opened, req := w.req, status := 9, retried := false
      mirrored := true, abandoned := false, tag := none, atom := w.atom }

/-- Reads and atomics to local ports that have not been issued end with LINK_DOWN. -/
def State.heldEnd (s : State) : State :=
  let held := s.heldReads.map (·.2)
  let s := State.each { s with heldReads := [] } held fun s r =>
    s.portReadEnd (PRead.mk ((portOf r.dst).getD 0) r none false [] [] 0 false) 9 true
  s.each (s.pReads.filter fun p => p.tag.isNone) fun s p => s.portReadEnd p 9 true

/-! ### Release (R488) -/

/-- A power domain is DRAINING or ABORTING. -/
def State.draining (s : State) : Bool := (List.range 20).any fun d => s.dom d == .draining || s.dom d == .aborting

/-- Step 1: the twin leads, and this module becomes a DETACHED follower that asks for a snapshot. -/
def State.releaseFollow (s : State) : State :=
  let s := s.each s.ledger State.entEnd
  let s := (s.each s.ldgWait State.waitEnd).heldEnd
  let s := ((s.set .SEM_STS_ROLE 0 2).set .SEM_STS_SYNC 0 3).logRecord 10 2
  s.seamSend (.pairCtl 3)

/-- Step 2: frozen entries and held reads are issued from now on, or end with LINK_DOWN. -/
def State.releaseLead (s : State) : State :=
  if s.flag .HST_CONT_REL_LEDGER_FAIL then
    (s.each (s.ledger.filter fun e => e.st == .opened || e.st == .retry) fun s e => s.ledgerAnswer e 9).heldEnd
  else s

/-- Steps 3 to 6. -/
def State.releaseRun (s : State) (m : Mode) : State :=
  let ab := s.flag .HST_CONT_REL_DMA_ABORT
  let s := s.each (s.chans.map (·.1)) fun s c => if ab then (s.hardAbort c 3).chStopEnd c else s.undrainChan c
  let s := s.withLevels [0x20F0] fun s => ({ s with mode := m }).set .HST_CONT_STS_CONTAINED 0 0
  let s := s.heldRelease fun _ => true
  let s := (s.irqEval.hostFlush).jFlush
  let acts := (s.listed .FN_STS_STATE).filter fun f => s.fnState f == fnACTIVE
  let at_ := s.fld .HST_CONT_TIME_TIME
  let why := s.fld .HST_CONT_STS_CAUSE
  let s := s.each acts fun s f => s.evq { fn := f, typ := 0x0E, offset := at_, req := why }
  s.set .HST_CONT_STS_REL_RESULT 0 1

/-- A write of HST_CONT_REL with a key while the module is contained: refused with 4 BAD_KEY, 2 LINK_DOWN or
3 DRAINING, or the release in its order. -/
def State.contRelease (s : State) (key : Nat) : State :=
  let twin := s.flag .SEM_STS_TWIN_LEADS
  if s.mode ≠ .CONTAIN then s
  else if key ≠ 0xC3 then s.set .HST_CONT_STS_REL_RESULT 0 4
  else if !s.flag .HST_LINK_STS_DL_UP && !twin then s.set .HST_CONT_STS_REL_RESULT 0 2
  else if s.draining then s.set .HST_CONT_STS_REL_RESULT 0 3
  else
    let was := s.leading
    let s := if twin then s.releaseFollow.releaseRun .FOLLOW else s.releaseLead.releaseRun .LEAD
    (s.roleLine was).starchSettle

end Sys2Proof.Machine
end

