-- ==== Sys2Proof/Machine/RegWrite.lean ====
section
/-!
DEFINITION. What a register write does (R11, and the register tables of every chapter): the fields by their types, and
the registers whose write acts.
-/
namespace Sys2Proof.Machine

/-! ### Fields by type (R11, R12) -/

/-- A field's part of a value laid over its register. -/
def fieldOf (f : Fld) (v : Nat) : Nat := v / 2 ^ (fldInfo f).lo % 2 ^ (fldInfo f).w

/-- What a field that holds `old` holds once the bits of mask `m` have taken those of `v`. -/
def laidOver (f : Fld) (old v m : Nat) : Nat :=
  let k := fieldOf f m
  if k = 2 ^ (fldInfo f).w - 1 then fieldOf f v else old - (old &&& k) + (fieldOf f v &&& k)

/-- A field after a write of value `v` in the bits of mask `m`: RW and RWP take the value, W1C clears what is written 1;
the other types store nothing. -/
def State.fldPut (s : State) (f : Fld) (i v m : Nat) : State :=
  if fieldOf f m = 0 then s
  else match (fldInfo f).ty with
  | .RW => s.set f i (laidOver f (s.fld f i) v m)
  | .RWP => s.set f i (laidOver f (s.fld f i) v m)
  | .W1C => s.set f i (s.fld f i - (s.fld f i &&& (fieldOf f v &&& fieldOf f m)))
  | _ => s

/-- A register after a write, by its fields' types. -/
def State.regStore (s : State) (r : Reg) (i v m : Nat) : State := s.each (regFlds r) fun s f => s.fldPut f i v m

/-- What a field written by `v` under mask `m` would hold. -/
def State.would (s : State) (f : Fld) (i v m : Nat) : Nat := laidOver f (s.fld f i) v m

/-- The level sources that the fields of a register drive (R283). -/
def regSrcs (r : Reg) (i : Nat) : List Nat :=
  match r with
  | .HST_EVT => [0x2000] | .HST_EVT_EN => [0x2000] | .HST_CONT_STS => [0x20F2]
  | .LANE_LINK_EVT => [0x2001 + i] | .LANE_LINK_EVT_EN => [0x2001 + i]
  | .ULK_EVT => [0x2020 + i] | .ULK_EVT_EN => [0x2020 + i]
  | .IRQ_STS => [0x2030, 0x2031, 0x2032]
  | .SHR_STS => [0x2060, 0x2061]
  | .GRD_STS => [0x2071] | .GRD_FAULT_INFO => [0x2070]
  | .SEC_STS => [0x2072, 0x2073]
  | .SEM_EVT => [0x2080] | .SEM_EVT_EN => [0x2080]
  | .MEM_EVT => [0x20D0] | .MEM_EVT_EN => [0x20D0]
  | .DRS_EVT => [0x20D1] | .DRS_EVT_EN => [0x20D1]
  | .PWR_EVT => [0x20E0] | .PWR_EVT_EN => [0x20E0]
  | .CLK_EVT => [0x20E1] | .CLK_EVT_EN => [0x20E1]
  | .MGT_LOG_STS => [0x20F1]
  | .FN_EVQ_HEAD => [0x1000 + i] | .FN_EVQ_CFG => [0x1000 + i]
  | .DMA_CQ_PTR => [i] | .DMA_CQ_CFG => [i]
  | _ => []

/-- A write by field types alone, with the level sources it drives. -/
def State.regPlain (s : State) (r : Reg) (i v m : Nat) : State := s.withLevels (regSrcs r i) fun s => s.regStore r i v m

/-! ### Interrupt controller (R292, R301, R302, R306, R309, R314) -/

/-- IRQ_CORE_COMPLETE of a core (R301). -/
def State.irqComplete (s : State) (c src : Nat) : State :=
  match s.stackOf c with
  | e :: t =>
    if e.1 = src then
      let s := { s with irqStack := smSet (fun _ => []) s.irqStack c t }
      (if s.isLevel src && s.level src then s.setPend src true else s).irqEval
    else s.set .IRQ_CORE_STS_BAD_CPL c 1
  | [] => s.set .IRQ_CORE_STS_BAD_CPL c 1

/-- IRQ_STORM word n: each 1 clears the bit and ends STORM of its source (R309). -/
def State.stormClear (s : State) (n v : Nat) : State :=
  let bitsOn := (List.range 32).filter v.testBit
  (State.each (s.fldPut .IRQ_STORM_FLAG n v v) bitsOn fun s b =>
    { s with irqStorm := bSet s.irqStorm (32 * n + b) false }).irqEval

/-- The registers of the IRQ_ block. -/
def State.irqWrite (s : State) (w : Who) (r : Reg) (i v m : Nat) : State :=
  let put := s.regPlain r i v m
  match r with
  | .IRQ_CFG => put.irqEval
  | .IRQ_CORE_CTL => put.irqEval
  | .IRQ_FALLBACK => (put.mirVal r i).irqEval
  | .IRQ_LT => (put.mirVal r i).irqEval
  | .IRQ_ROUTE => (put.mirVal r i).irqEval
  | .IRQ_CORE_COMPLETE => if fieldOf .IRQ_CORE_COMPLETE_SRC m = 0 then s else s.irqComplete i (fieldOf .IRQ_CORE_COMPLETE_SRC v)
  | .IRQ_PEND_SET => s.aliasWrite w.master 1 (pendBase + 4 * i) (toBytes 4 v) [] [] .clean
  | .IRQ_PEND_CLR => s.aliasWrite w.master 2 (pendBase + 4 * i) (toBytes 4 v) [] [] .clean
  | .IRQ_EN_SET => s.aliasWrite w.master 1 (enBase + 4 * i) (toBytes 4 v) [] [] .clean
  | .IRQ_EN_CLR => s.aliasWrite w.master 2 (enBase + 4 * i) (toBytes 4 v) [] [] .clean
  | .IRQ_STORM => s.stormClear i v
  | .IRQ_DOORBELL => if m % 4294967296 = 0 then s else (s.doorbell w (v % 4294967296)).2
  | _ => put

/-! ### Host link, containment (R74, R486, R488, R497) -/

/-- The registers of the HST_ block. -/
def State.hstWrite (s : State) (r : Reg) (i v m : Nat) : State :=
  let put := s.regPlain r i v m
  match r with
  | .HST_LINK_CTL => if fieldOf .HST_LINK_CTL_RETRAIN v = 1 then put.ownRecover else put
  | .HST_CONT_REL =>
    let t := put.contRelease (fieldOf .HST_CONT_REL_KEY v)
    if fieldOf .HST_CONT_REL_ENTER v = 1 then t.contain 4 else t
  | _ => put

/-! ### Functions (R80, R113, R367, R489, R490) -/

/-- FN_RES of a function: a write that breaks its limits is dropped whole. -/
def State.fnResWrite (s : State) (f v m : Nat) : State :=
  let a := s.would .FN_RES_FIRST_CTX f v m
  let n := s.would .FN_RES_CTX_COUNT f v m
  if (if f < 4 then 1024 else 8) < n ∨ 4096 < a + n then s.set .FN_STS_RES_DROP f 1
  else (s.regPlain .FN_RES f v m).mirVal .FN_RES f

/-- FN_SLICE entry k: an entry of a locked TDI, or one that would give a function the same PASID twice, is not written. -/
def State.sliceWrite (s : State) (k v m : Nat) : State :=
  let f := s.would .FN_SLICE_FUNC k v m
  let pasid := s.would .FN_SLICE_PASID k v m
  let valid := s.would .FN_SLICE_VALID k v m == 1
  let dup := valid && (s.listed .FN_SLICE_VALID).any fun j =>
    j != k && s.fld .FN_SLICE_FUNC j == f && s.fld .FN_SLICE_PASID j == pasid
  let locked := (s.flag .FN_SLICE_VALID k && s.tdiHeld (s.fld .FN_SLICE_FUNC k)) || (valid && s.tdiHeld f)
  if dup || locked then (s.set .FN_SLICE_ERR_DUP 0 1).set .FN_SLICE_ERR_LAST 0 k
  else ((s.regPlain .FN_SLICE k v m).mirVal .FN_SLICE k).irqEval

/-- The registers of the FN_ block. `priv` is the privileged view, firmware, or any requester but the unprivileged
view. -/
def State.fnWrite (s : State) (r : Reg) (i v m : Nat) : State :=
  let put := s.regPlain r i v m
  match r with
  | .FN_RES => s.fnResWrite i v m
  | .FN_SLICE => s.sliceWrite i v m
  | .FN_CTL =>
    let t := if put.fld .FN_CTL_PROV_LOCK i = s.fld .FN_CTL_PROV_LOCK i then put else put.mirVal .FN_CTL i
    t.irqEval
  | .FN_EVQ_BASE => put.set .FN_EVQ_BASE_BASE i (put.fld .FN_EVQ_BASE_BASE i / 4096 * 4096)
  | .FN_CONT =>
    let t := if fieldOf .FN_CONT_REQUEST v = 1 then s.fnContain i 3 { fn := i, typ := 0x0C } else s
    if fieldOf .FN_CONT_RELEASE v = 1 then t.fnContRelease i else t
  | _ => put

/-! ### Windows and guard (R118, R138, R140, R352, R353) -/

/-- The registers of the XLT_ block. -/
def State.xltWriteReg (s : State) (r : Reg) (i v m : Nat) : State :=
  let put := s.regPlain r i v m
  match r with
  | .XLT_UPD_DATA => if s.flag .XLT_UPD_STS_BUSY then s.set .XLT_UPD_STS_DROPPED 0 1 else put
  | .XLT_UPD_CMD =>
    if s.flag .XLT_UPD_STS_BUSY then s.set .XLT_UPD_STS_DROPPED 0 1
    else if fieldOf .XLT_UPD_CMD_GO v = 1 then put.xltCmd (put.fld .XLT_UPD_CMD_OP) (put.fld .XLT_UPD_CMD_INDEX) else put
  | .XLT_TBL_BASE => if fieldOf .XLT_TBL_BASE_BASE m = 0 then s else s.tblBaseWrite (s.would .XLT_TBL_BASE_BASE 0 v m)
  | .XLT_EPOCH => if fieldOf .XLT_EPOCH_ADVANCE v = 1 then s.xltAdvance else s
  | _ => put

/-- The registers of the GRD_ block. -/
def State.grdWriteReg (s : State) (w : Who) (r : Reg) (i v m : Nat) : State :=
  let put := s.regPlain r i v m
  match r with
  | .GRD_UPD_DATA => if s.flag .GRD_UPD_STS_BUSY then s.set .GRD_UPD_STS_DROPPED 0 1 else put
  | .GRD_UPD_CMD =>
    if s.flag .GRD_UPD_STS_BUSY then s.set .GRD_UPD_STS_DROPPED 0 1
    else if fieldOf .GRD_UPD_CMD_GO v = 1 then
      put.grdCmd (put.fld .GRD_UPD_CMD_SET) (put.fld .GRD_UPD_CMD_REGION) (match w with | .core c => c != jtag | _ => false)
    else put
  | .GRD_EPOCH => if fieldOf .GRD_EPOCH_ADVANCE v = 1 then s.grdAdvance else s
  | _ => put

/-! ### DMA (R251, R253, R259, R260, R265, R275, R282) -/

/-- DMA_CH_CTL.START (R259). -/
def State.dmaStart (s : State) (c : Nat) : State :=
  if s.chState c ≠ chIDLE ∨ !s.chDirect c ∨ !s.flag .DMA_CFG_EN then s.set .DMA_CH_STS_START_DROP c 1
  else
    let (f, sl) := s.chOwner c
    s.chStart c none 0 (s.chImage c) f sl

/-- DMA_CH_CTL.ABORT (R275): the stop ends at once when nothing is outstanding. -/
def State.dmaAbort (s : State) (c : Nat) : State := (s.softAbort c).chStopEnd c

/-- DMA_CH_CTL.RESUME of a DIRECT channel (R251, R260): after MASTER_OFF, or ABORTED with cause 0, the transfer restarts at
ERR_OFFSET. A channel that holds a record stays HALTED (R277). -/
def State.dmaResume (s : State) (c : Nat) : State :=
  match s.chan c with
  | none => s
  | some r =>
    let st := s.fld .DMA_CH_STS_STATUS c
    if s.chDirect c ∧ s.chState c = chHALTED ∧ s.held.contains (.chan c) = false ∧ (st = 10 ∨ (st = 0x10 ∧ bits (s.fld .DMA_CH_STS_FLAGS c) 7 6 = 0)) then
      let o := s.fld .DMA_CH_ERR_OFF_OFFSET c
      let r := { r with beats := [], next := o, done := o, stop := .run, cause := 0, errOff := none }
      let s := (s.setChan c r).set .DMA_CH_RESIDUE_RESIDUE c (r.size - o)
      (s.set .DMA_CH_STS_STATE c chRUN).chFinish c
    else s

/-- DMA_CH_CTL.CLEAR of a DIRECT channel (R251, R260). A channel that holds a record stays HALTED (R277). -/
def State.dmaClear (s : State) (c : Nat) : State :=
  if s.chDirect c ∧ s.chState c = chHALTED ∧ s.held.contains (.chan c) = false then
    let s := ((s.set .DMA_CH_STS_STATUS c 0).set .DMA_CH_STS_FLAGS c 0).set .DMA_CH_RESIDUE_RESIDUE c 0
    ((s.set .DMA_CH_ERR_OFF_OFFSET c 0).set .DMA_CH_STS_STATE c chIDLE).dropChan c
  else s

/-- DMA_CH_CTL: the actions in the order of their bits. -/
def State.dmaCtl (s : State) (c v : Nat) : State :=
  let s := if fieldOf .DMA_CH_CTL_START v = 1 then s.dmaStart c else s
  let s := if fieldOf .DMA_CH_CTL_ABORT v = 1 then s.dmaAbort c else s
  let s := if fieldOf .DMA_CH_CTL_RESUME v = 1 then s.dmaResume c else s
  if fieldOf .DMA_CH_CTL_CLEAR v = 1 then s.dmaClear c else s

/-- DMA_CH_CFG (R251): a write that changes MODE of a channel that is not IDLE is dropped. -/
def State.dmaCfg (s : State) (c v m : Nat) : State :=
  if s.would .DMA_CH_CFG_MODE c v m ≠ s.fld .DMA_CH_CFG_MODE c ∧ s.chState c ≠ chIDLE then s
  else
    let t := s.regPlain .DMA_CH_CFG c v m
    if t.chDirect c then t.mirVal .DMA_CH_CFG c else t

/-- DMA_GRANT of slot g (R253): VALID 1 needs a DIRECT IDLE channel, and a slice of the PF when SLICE_EN is 1. The grant
sets the channel's owner. -/
def State.dmaGrant (s : State) (g v m : Nat) : State :=
  let t := s.regPlain .DMA_GRANT g v m
  let c := t.fld .DMA_GRANT_CHANNEL g
  let pf := g / 64 + 1
  let sl := t.fld .DMA_GRANT_SLICE g
  let sliced := t.flag .DMA_GRANT_SLICE_EN g
  if !t.flag .DMA_GRANT_VALID g then t.mirVal .DMA_GRANT g
  else if t.chDirect c && t.chState c == chIDLE
      && (!sliced || (t.flag .FN_SLICE_VALID sl && t.fld .FN_SLICE_FUNC sl == pf)) then
    let t := ((t.set .DMA_CH_CFG_OWNER c pf).set .DMA_CH_CFG_SLICE_EN c (bit sliced)).set .DMA_CH_CFG_SLICE c
      (if sliced then sl else 0)
    (t.mirVal .DMA_CH_CFG c).mirVal .DMA_GRANT g
  else (t.set .DMA_GRANT_VALID g 0).mirVal .DMA_GRANT g

/-- DMA_RING_CTL of a context (R265, R282). -/
def State.dmaRing (s : State) (x v : Nat) : State :=
  let s := if fieldOf .DMA_RING_CTL_RESUME v = 1 then s.ringResume x else s
  if fieldOf .DMA_RING_CTL_RESET v = 1 ∧ (s.ringOf x).running = [] then
    ((s.withLevels [x] fun s => s.ringReset x).mirVal .DMA_SQ_STS x).mirVal .DMA_CQ_PTR x
  else s

/-- The registers of the DMA_ block. -/
def State.dmaWrite (s : State) (r : Reg) (i v m : Nat) : State :=
  let put := s.regPlain r i v m
  match r with
  | .DMA_CH_OP => if s.chDirect i then put else s
  | .DMA_CH_COUNT => if s.chDirect i then put else s
  | .DMA_CH_SRC => if s.chDirect i then put else s
  | .DMA_CH_DST => if s.chDirect i then put else s
  | .DMA_CH_STRIDE => if s.chDirect i then put else s
  | .DMA_CH_PATTERN => if s.chDirect i then put else s
  | .DMA_CH_CTL => s.dmaCtl i v
  | .DMA_CH_CFG => s.dmaCfg i v m
  | .DMA_GRANT => s.dmaGrant i v m
  | .DMA_SQ_BASE => put.mirVal r i
  | .DMA_SQ_CFG => (put.mirVal r i).sqSettle i
  | .DMA_SQ_STS => put.mirVal r i
  | .DMA_CQ_BASE => put.mirVal r i
  | .DMA_CQ_CFG => put.mirVal r i
  | .DMA_CQ_PTR => (put.mirVal r i).ringPendRec i
  | .DMA_RING_CTL => s.dmaRing i v
  | _ => put

/-! ### Sharing (R315, R331) -/

/-- The registers of the SHR_ block. -/
def State.shrWrite (s : State) (r : Reg) (i v m : Nat) : State :=
  let put := s.regPlain r i v m
  let busy := s.flag .SHR_UPD_STS_BUSY
  match r with
  | .SHR_UPD_DATA => if busy then s.set .SHR_UPD_STS_DROPPED 0 1 else put
  | .SHR_UPD_RES => if busy then s.set .SHR_UPD_STS_DROPPED 0 1 else put
  | .SHR_UPD_CMD =>
    if busy then s.set .SHR_UPD_STS_DROPPED 0 1
    else if fieldOf .SHR_UPD_CMD_GO v = 1 then
      put.shrUpdCmd (put.fld .SHR_UPD_CMD_ACCT) (put.fld .SHR_UPD_DATA_SHARE, put.fld .SHR_UPD_RES_MASK)
    else put
  | .SHR_CTX_BIND =>
    s.ctxBind i (s.would .SHR_CTX_BIND_VALID i v m == 1) (s.would .SHR_CTX_BIND_SLICE_EN i v m == 1)
      (s.would .SHR_CTX_BIND_SLICE i v m) (s.would .SHR_CTX_BIND_FUNC i v m) (s.would .SHR_CTX_BIND_CHARGE_IN i v m == 1)
  | _ => put

/-! ### Lanes and ports (R197, R206, R208, R239, R241, R243) -/

/-- The registers of the LANE_ block. -/
def State.laneWrite (s : State) (r : Reg) (i v m : Nat) : State :=
  let put := s.regPlain r i v m
  match r with
  | .LANE_CTL =>
    let fd := s.would .LANE_CTL_FORCE_DARN i v m
    let t := put.set .LANE_CTL_FORCE_DARN i (s.fld .LANE_CTL_FORCE_DARN i)
    let t := if fd = s.fld .LANE_CTL_FORCE_DARN i then t else t.forceWrite i (fd == 1)
    if fieldOf .LANE_CTL_TRIAL_NOW v = 1 then t.trialNow i else t
  | .LANE_LINK_CTL =>
    let en := s.would .LANE_LINK_CTL_ENABLE i v m
    let t := (put.set .LANE_LINK_CTL_ENABLE i (s.fld .LANE_LINK_CTL_ENABLE i)).enableWrite i (en == 1)
    let t := t.forceAll i
    if fieldOf .LANE_LINK_CTL_RETRAIN v = 1 then t.retrain i else t
  | _ => put

/-- The registers of the ULK_ block. -/
def State.ulkWrite (s : State) (r : Reg) (i v m : Nat) : State :=
  let put := s.regPlain r i v m
  match r with
  | .ULK_CTL =>
    let en := s.would .ULK_CTL_EN i v m
    let t := put.set .ULK_CTL_EN i (s.fld .ULK_CTL_EN i)
    let t := if en = s.fld .ULK_CTL_EN i then t else t.ulkEnWrite i (en == 1)
    if fieldOf .ULK_CTL_RESET v = 1 then t.ulkReset i else t
  | .ULK_SB_CFG => put.sbEffective i
  | .ULK_SB_LATCH => s.sbLatchWrite i (s.would .ULK_SB_LATCH_LATCH i v m)
  | .ULK_SB_OUT => s.sbOutWrite i (s.would .ULK_SB_OUT_LINES i v m)
  | _ => put

/-! ### Pair (R393, R401, R406) -/

/-- SEM_CTL.SNAP: a DETACHED follower asks for a snapshot. -/
def State.semSnap (s : State) : State :=
  if s.fld .SEM_STS_ROLE = 2 ∧ s.fld .SEM_STS_SYNC = 3 then s.seamSend (.pairCtl 3) else s

/-- The registers of the SEM_ block. -/
def State.semWrite (s : State) (r : Reg) (i v m : Nat) : State :=
  let put := s.regPlain r i v m
  match r with
  | .SEM_CTL =>
    let t := if s.flag .SEM_CTL_PAIR_EN && !put.flag .SEM_CTL_PAIR_EN then put.leavePair else put
    let t := if fieldOf .SEM_CTL_HANDOVER v = 1 then t.hoStart.2 else t
    let t := if fieldOf .SEM_CTL_LEAVE v = 1 then t.leavePair else t
    if fieldOf .SEM_CTL_SNAP v = 1 then t.semSnap else t
  | _ => put

/-! ### Power, clocks, time, reset (R462, R464, R465, R468, R474, R476, R479) -/

/-- The registers of the PWR_, CLK_, TIM_ and RST_ blocks. -/
def State.sysWrite (s : State) (r : Reg) (i v m : Nat) : State :=
  let put := s.regPlain r i v m
  match r with
  | .PWR_DOM_REQ =>
    if fieldOf .PWR_DOM_REQ_GO v = 1 then
      put.domRequest (put.fld .PWR_DOM_REQ_DOMAIN) (put.fld .PWR_DOM_REQ_OP) (put.flag .PWR_DOM_REQ_FORCE)
    else put
  | .PWR_WDOG_KICK => if fieldOf .PWR_WDOG_KICK_KEY v = 0xA5A5 then { s with bt.wdogHalf := false } else s
  | .PWR_CORE_CTL => if fieldOf .PWR_CORE_CTL_WAKE v = 1 then put.coreEdge i 2 else put
  | .CLK_CORE_SEL => put.set .CLK_CORE_SEL_ACTIVE i (put.fld .CLK_CORE_SEL_SEL i)
  | .TIM_STEP => if m = 0 then s else s.timeStep (signedOf 64 (fieldOf .TIM_STEP_DELTA v))
  | .TIM_ADJ => if m % 4294967296 = 0 then s else s.slewStop.regPlain r i v m
  | .RST_CTL => if fieldOf .RST_CTL_KEY v = 0x5A then { put with bt.rstArmed := some 3 } else put
  | .DBG_CTL => if fieldOf .DBG_CTL_RELOCK v = 1 then s.set .DBG_STS_OPEN 0 0 else s
  | _ => put

/-! ### Every block -/

/-- A write of value `v` in the bits of mask `m` to an instance of a register, by a requester that has the privileged
view of it. -/
def State.regDo (s : State) (w : Who) (r : Reg) (i v m : Nat) : State :=
  let put := s.regPlain r i v m
  match (regInfo r).block with
  | .IRQ => s.irqWrite w r i v m
  | .HST => s.hstWrite r i v m
  | .FN => s.fnWrite r i v m
  | .XLT => s.xltWriteReg r i v m
  | .GRD => s.grdWriteReg w r i v m
  | .LDG => match r with
    | .LDG_CFG => put.mirVal r i | .LDG_TMO => put.mirVal r i | .LDG_STARCH_CFG => put.mirVal r i | _ => put
  | .BSK => put
  | .DMA => s.dmaWrite r i v m
  | .SHR => s.shrWrite r i v m
  | .ULK => s.ulkWrite r i v m
  | .SEM => s.semWrite r i v m
  | .LANE => s.laneWrite r i v m
  | .MEM => if r == .MEM_CNT_CTL && fieldOf .MEM_CNT_CTL_SNAP v == 1 then s.memSnap else put
  | .DRS =>
    if r == .DRS_ZERO_CTL then
      let t := if fieldOf .DRS_ZERO_CTL_GO v = 1 then s.zeroGo else s
      if fieldOf .DRS_ZERO_CTL_ABORT v = 1 then t.zeroAbort else t
    else put
  | .MBX => if r == .MBX_DONE && fieldOf .MBX_DONE_INDEX m != 0 then s.mbxDone (fieldOf .MBX_DONE_INDEX v) else put
  | .SEC => put
  | .MGT => put
  | .PWR => s.sysWrite r i v m
  | .CLK => s.sysWrite r i v m
  | .TIM => s.sysWrite r i v m
  | .RST => s.sysWrite r i v m
  | .DBG => s.sysWrite r i v m

/-- The mask of `n` bytes from byte `o`. -/
def laneMask (o n : Nat) : Nat := (256 ^ n - 1) * 256 ^ o

/-- A field of type RWP lies in the bytes written. -/
def rwpIn (r : Reg) (o n : Nat) : Bool := (regFlds r).any fun f => (fldInfo f).ty == .RWP && inLanes f o n

/-- The mask of the fields that the unprivileged view may write. -/
def openMask (r : Reg) : Nat :=
  (regFlds r).foldl (fun a f => if (fldInfo f).ty == .RWP then a
    else a ||| ((2 ^ (fldInfo f).w - 1) * 2 ^ (fldInfo f).lo)) 0

/-- A write refused by the unprivileged view of a function is counted, with its offset (R11, R101). -/
def State.viewDeny (s : State) (f off : Nat) : State :=
  (s.count .FN_VIEW_DENY_CNT f).set .FN_VIEW_DENY_LAST_OFF f (off / 16)

/-- A write of bytes at byte `o` of a register. Through the unprivileged view of a function (`view`, with the BAR offset
written), RWP fields stay and the write is counted. -/
def State.regWrite (s : State) (w : Who) (view : Option (Nat × Nat)) (r : Reg) (i o : Nat) (data : List Byte) : State :=
  let v := ofBytes data * 256 ^ o
  let m := laneMask o data.length
  match view with
  | none => s.regDo w r i v m
  | some (f, off) =>
    let k := openMask r
    let s := if rwpIn r o data.length then s.viewDeny f off else s
    if m &&& k = 0 then s else s.regDo w r i (v &&& k) (m &&& k)

end Sys2Proof.Machine
end

