-- ==== Sys2Proof/Machine/AccessOps.lean ====
section
/-!
DEFINITION. Carrying a request to its destination, register blocks included (R32 to R38, R100, R101), the fixed system
windows of the host's BARs (R91, R92) and what the endpoint does with a host memory request before it enters the bridge
(R81, R82, R105, R368, R381, R398, R487, R489).
-/
namespace Sys2Proof.Machine

/-! ### Register blocks (R34, R35, R38, R461) -/

/-- The power domain a block, or the instance at an offset of it, lies in. SEM_ is reached in every mode but OFF and
STANDBY. -/
def blockDom (b : Block) (off : Nat) : Nat :=
  match b with
  | .IRQ => 1 | .SHR => 1 | .MBX => 1 | .SEC => 1
  | .TIM => if off < 0x20 ∨ 0x40 ≤ off then 1 else 0
  | .HST => 8 | .FN => 8 | .BSK => 8
  | .XLT => 14 | .GRD => 14 | .LDG => 14
  | .DMA => 15 | .MEM => 16 | .DRS => 17
  | .ULK => 9 + off / 0x40000
  | .LANE =>
    if 0xC0000 ≤ off then (let l := (off - 0xC0000) / 0x100; if l < 16 then 9 + l / 4 else 19)
    else (let i := off / 0x2000; if i < 64 then 9 + i / 16 else 19)
  | _ => 0

/-- The parts of an aligned access of 4 or 8 bytes at an offset of a block: one when it takes an 8-byte register whole,
else its 4-byte halves (R35). -/
def regCut (b : Block) (off n : Nat) : List (Nat × Nat) :=
  if n = 4 then [(0, 4)]
  else match regFind b off with
    | some (r, _, 0) => if regBytes r = 8 then [(0, 8)] else [(0, 4), (4, 4)]
    | _ => [(0, 4), (4, 4)]

/-- A read of 4 or 8 aligned bytes of a block. An offset that holds no register reads 0. -/
def State.blockRead (s : State) (w : Who) (b : Block) (off n : Nat) : List Byte × State :=
  (regCut b off n).foldl (fun (acc : List Byte × State) c =>
    match regFind b (off + c.1) with
    | some (r, i, o) =>
      let (v, s) := acc.2.regRead w r i o c.2
      (acc.1 ++ wordPart v o c.2, s)
    | none => (acc.1 ++ List.replicate c.2 0, acc.2)) ([], s)

/-- A write of 4 or 8 aligned bytes of a block; one at an offset that holds no register is dropped. `view` is the function
and BAR offset of a write through an unprivileged view. -/
def State.blockWrite (s : State) (w : Who) (view : Option (Nat × Nat)) (b : Block) (off : Nat) (data : List Byte) : State :=
  s.each (regCut b off data.length) fun s c =>
    match regFind b (off + c.1) with
    | some (r, i, o) =>
      s.regWrite w (view.map fun x => (x.1, x.2 + c.1)) r i o ((data.drop c.1).take c.2)
    | none => s

/-- A register address that the unprivileged view of a function reaches (R100): its own FN_ sub-block, the status of its own
contexts, the channels granted to it. -/
def State.viewMay (s : State) (f b off : Nat) : Bool :=
  if b = 2 then decide (off / 0x100 = f) && decide (off < 0x100 * 2052)
  else if b = 8 then
    decide (0x40000 ≤ off) && decide (off < 0x40000 + 0x20 * 4096) &&
      (let x := (off - 0x40000) / 0x20
       decide (s.fld .FN_RES_FIRST_CTX f ≤ x) && (s.ctxAt f (x - s.fld .FN_RES_FIRST_CTX f)).isSome)
  else if b = 7 then
    decide (0x10000 ≤ off) && decide (off < 0x20000) && fnKind f == 1 &&
      (List.range 64).any fun j => s.flag .DMA_GRANT_VALID (64 * (f - 1) + j)
        && s.fld .DMA_GRANT_CHANNEL (64 * (f - 1) + j) == (off - 0x10000) / 0x100
  else false

/-- An access to a register block. -/
def State.regAccess (s : State) (r : Req) (b off : Nat) : State :=
  match blockAt b with
  | none => (s.unmapped r).retire r
  | some blk =>
    let d := blockDom blk off
    let low := r.view == 2
    let may := !low || s.viewMay r.fn b off
    match r.kind with
    | .read =>
      if !((r.len == 4 || r.len == 8) && off % r.len == 0) then (s.unmapped r).retire r
      else if !may then s.finish r 0 (List.replicate r.len 0)
      else if !s.domOn d then (s.offAccess d).finish r 0 (List.replicate r.len 0xFF)
      else if blk = .XLT ∧ 0x18 ≤ off ∧ off < 0x20 then s.xltDrainRead r
      else if blk = .GRD ∧ 0x18 ≤ off ∧ off < 0x20 then s.grdDrainRead r
      else
        let (v, s) := s.blockRead r.who blk off r.len
        s.finish r 0 v
    | .write =>
      if beRuns r.be 0 r.data = [] then s.finish r 0 []
      else match regRun r with
        | none => (s.unmapped r).retire r
        | some (o, data) =>
          if !may then (s.finish r 0 []).viewDeny r.fn (r.addr + o)
          else if !s.domOn d then (s.offAccess d).finish r 0 []
          else (s.finish r 0 []).blockWrite r.who (if low then some (r.fn, r.addr + o) else none) blk (off + o) data
    | _ => (s.unmapped r).retire r

/-! ### The BARs (R87, R91, R100) -/

/-- What an offset of a BAR names. -/
inductive Item where
  | bas (a view : Nat)
  | bell (k o : Nat)
  | msix (off : Nat)
  | pba (off : Nat)
  | rom (off : Nat)
  /-- A grant slot without a granted channel. -/
  | denied
  /-- A reserved offset. -/
  | nothing
  deriving DecidableEq, Repr

/-- The status record of own context k. -/
def State.statusItem (s : State) (f k o : Nat) : Item :=
  match s.ctxAt f k with
  | some x => .bas (blockBase 8 + 0x40000 + 0x20 * x + o) 2
  | none => .nothing

/-- The DMA channel page of grant slot j. -/
def State.grantItem (s : State) (f j o : Nat) : Item :=
  if s.flag .DMA_GRANT_VALID (64 * (f - 1) + j) then
    .bas (blockBase 7 + 0x10000 + 0x100 * s.fld .DMA_GRANT_CHANNEL (64 * (f - 1) + j) + o) 2
  else .denied

/-- The item at an offset of a BAR other than the BAR2 of a data PF or VF. -/
def State.hostItem (s : State) (f : Nat) (bar : Bar) (a : Nat) : Item :=
  if f = 0 then
    match bar with
    | .bar0 => .bas (blockBase 0 + a) 1
    | .bar2 =>
      if a < 0x10000 then .bas (mbxAddr 1 + a) 1
      else if a < 0x18000 then .msix (a - 0x10000)
      else if a < 0x18100 then .pba (a - 0x18000)
      else if 0x2000000 ≤ a ∧ a < 0x4000000 then .bas (sramBase + (a - 0x2000000)) 1
      else .nothing
    | .bar4 => .bas a 1
    | .rom => .rom a
  else if f < 4 then
    if a < 0x40000 then (if a % 0x100 < 8 then .bell (a / 0x100) (a % 0x100) else .nothing)
    else if a < 0x40100 then .bas (blockBase 2 + 0x100 * f + (a - 0x40000)) 2
    else if 0x41000 ≤ a ∧ a < 0x49000 then s.statusItem f ((a - 0x41000) / 0x20) ((a - 0x41000) % 0x20)
    else if 0x50000 ≤ a ∧ a < 0x54000 then s.grantItem f ((a - 0x50000) / 0x100) ((a - 0x50000) % 0x100)
    else if 0x80000 ≤ a ∧ a < 0x88000 then .msix (a - 0x80000)
    else if 0x88000 ≤ a ∧ a < 0x88100 then .pba (a - 0x88000)
    else if 0xC0000 ≤ a ∧ a < 0xC4000 then .bas (mbxAddr (17 + 4 * (f - 1)) + (a - 0xC0000)) 2
    else .nothing
  else
    if a < 0x800 then (if a % 0x100 < 8 then .bell (a / 0x100) (a % 0x100) else .nothing)
    else if a < 0x900 then .bas (blockBase 2 + 0x100 * f + (a - 0x800)) 2
    else if a < 0xA00 then s.statusItem f ((a - 0x900) / 0x20) ((a - 0x900) % 0x20)
    else if 0x1000 ≤ a ∧ a < 0x2000 then .bas (mbxAddr (61 + (f - 4)) + (a - 0x1000)) 2
    else if 0x2000 ≤ a ∧ a < 0x2400 then .msix (a - 0x2000)
    else if 0x3000 ≤ a ∧ a < 0x3010 then .pba (a - 0x3000)
    else .nothing

/-- A BAR is implemented by the function and the offset lies in it (R91, R93). -/
def State.barHas (s : State) (f : Nat) (bar : Bar) (a : Nat) : Bool :=
  match fnKind f, bar with
  | 0, .bar0 => decide (a < 0x1000000)
  | 0, .bar2 => decide (a < 0x4000000)
  | 0, .bar4 => decide (a < 0x2000000000)
  | 0, .rom => decide (a < 0x100000)
  | 1, .bar0 => decide (a < 0x100000)
  | 2, .bar0 => decide (a < 0x10000)
  | _, .bar2 => decide (a < s.bar2Size f)
  | _, _ => false

/-- A request to BAR2 of a data PF or VF goes through the function's windows; any other takes its fixed window. What has
no BAS address keeps no guard key. -/
def State.resolve (s : State) (r : Req) : Req :=
  if r.bar == .bar2 && r.fn != 0 then r
  else
    let fx := if r.fn = 0 then 2 else 1
    match s.hostItem r.fn r.bar r.addr with
    | .bas a v => { r with dst := a, key := some a, fixed := fx, view := v }
    | _ => { r with dst := blockBase 0, key := none, fixed := fx, view := if r.fn = 0 then 1 else 2 }

/-! ### Items without a BAS address -/

/-- A pending bit of the PBA (R295). -/
def State.pbaBit (s : State) (f e : Nat) : Bool :=
  s.pendSrcs.any fun i => s.ready i && s.targetOf i == some ⟨1, f, e⟩

/-- A byte of an item. -/
def State.itemByte (s : State) (f : Nat) (it : Item) (j : Nat) : Byte :=
  match it with
  | .msix off => if off + j < 16 * msixSize f then s.msixB f (off + j) else 0
  | .pba off => BitVec.ofNat 8 ((List.range 8).map fun b => bit (s.pbaBit f (8 * (off + j) + b)) * 2 ^ b).sum
  | .rom off => s.bt.bdt.getD (off + j) 0
  | _ => 0

/-- A write of the MSI-X table: of the vector control dword only the mask bit is kept. -/
def State.msixWrite (s : State) (f off : Nat) (data : List Byte) (be : List Bool) : State :=
  let n := data.zipIdx
  (s.each (n.filter fun e => beOn be e.2 && off + e.2 < 16 * msixSize f) fun s e =>
    let k := (off + e.2) % 16
    s.setMsixB f (off + e.2) (if k = 12 then e.1 &&& 1 else if 12 < k then 0 else e.1)).irqEval

/-- A doorbell write of 8 bytes, or of its low 4 bytes (R317); other shapes are reserved. -/
def bellValue (o : Nat) (be : List Bool) (data : List Byte) : Option Nat :=
  match beRuns be 0 data with
  | [(i, d)] => if o + i = 0 ∧ (d.length = 4 ∨ d.length = 8) then some (ofBytes d) else none
  | _ => none

/-- An access to an item without a BAS address. -/
def State.itemAccess (s : State) (r : Req) : State :=
  let it := s.hostItem r.fn r.bar r.addr
  match r.kind with
  | .read => s.finish r 0 ((List.range r.len).map (s.itemByte r.fn it))
  | .write =>
    let s := s.finish r 0 []
    match it with
    | .bell k o => match bellValue o r.be r.data with
      | some v => s.ctxDoorbell r.fn k v
      | none => s
    | .msix off => s.msixWrite r.fn off r.data r.be
    | .denied => s.viewDeny r.fn r.addr
    | _ => s
  | _ => (s.unmapped r).retire r

/-! ### Every destination -/

/-- Releases an explicit lock of a port (R228): LOCK_LOST when it holds none there. -/
def State.unlock (s : State) (r : Req) : State :=
  match r.who with
  | .port p =>
    if s.locks.any fun l => l.gran == (granKey r).1 && l.hfn == (granKey r).2 && l.expl == some p then
      (s.dropExpl p (granKey r)).finish r 0 []
    else s.finish r 11 []
  | _ => s.finish r 11 []

/-- Performs or carries a translated and checked request (R144). -/
def State.deliver (s : State) (r : Req) : State :=
  if r.kind == .unlock then s.unlock r
  else if !r.toHost && r.key.isNone && r.who.isHost then s.itemAccess r
  else match r.toHost, regionOf r.dst, r.who with
    | _, _, .dma _ => s.deliverDma r
    | false, .regs _ _, .port _ => s.deliverMem r
    | false, .regs b off, _ => s.regAccess r b off
    | _, _, _ => s.deliverMem r

/-- A request enters the bridge: the governor's point, then the stage (R25, R325). -/
def State.enterReq (s : State) (r : Req) : State := (s.govEnter (State.stage State.deliver) r).starchSettle

/-! ### The host endpoint -/

/-- A host request is refused: a completion with a status, or a posted write dropped. -/
def State.hostRefuse (s : State) (r : Req) (status : Nat) (drop : State → State) : State :=
  if r.kind == .write then drop s else s.hostTx (.cpl r.fn r.tag status [] false r.stream)

/-- A BAR that PF0 serves in CONTAIN (R487), and what it serves in FOLLOW (R398). -/
def servedContain (f : Nat) (bar : Bar) : Bool := f == 0 && bar != .bar4
def servedFollow (f : Nat) (bar : Bar) (a : Nat) : Bool :=
  f == 0 && (bar == .bar0 || bar == .rom || (bar == .bar2 && decide (a < 0x18100)))

/-- The function decodes the address: its memory space is enabled, and for the ROM its own enable bit too. -/
def State.decodes (s : State) (r : Req) : Bool :=
  s.barHas r.fn r.bar r.addr && s.mse r.fn && (r.bar != .rom || (s.cfgD 0 0x030).testBit 0)

/-- The TDI of a function turns a request away (R368). -/
def State.tdiStops (s : State) (r : Req) : Bool :=
  if s.fld .SEC_TDI_STATE r.fn = tdiRUN then !(r.tbit && r.stream == s.fld .SEC_TDI_STREAM r.fn + 1)
  else r.tbit || s.fld .SEC_TDI_STATE r.fn == tdiERROR

/-- The slice of a PASID, when its entry is valid (R81). -/
def State.sliceOf (s : State) (f pasid : Nat) : Option Nat :=
  (s.listed .FN_SLICE_VALID).find? fun i => s.sliceBinds i && s.fld .FN_SLICE_FUNC i == f && s.fld .FN_SLICE_PASID i == pasid

/-- A follower's answer to a host request it does not serve (R398). -/
def State.followRefuse (s : State) (r : Req) : State := s.hostRefuse r 1 fun s => s.count .SEM_FOLLOW_DROP_DROPS

/-- Slice, privilege and execute attribute of a host request (R81, R82), once its PASID is accepted. -/
def State.hostAttrs (s : State) (r : Req) (sl : Option Nat) (p : Pasid) : Req :=
  let pm := match p with | some (_, m, _) => m | none => false
  let er := match p with | some (_, _, e) => e | none => false
  match sl with
  | some i => { r with slice := some i, priv := r.fn == 0 || (s.flag .FN_SLICE_PRIV_OK i && pm)
                       exec := if r.fn = 0 then er else s.flag .FN_SLICE_EXEC_OK i && er }
  | none => { r with priv := r.fn == 0, exec := r.fn == 0 && er }

/-- A host request takes its order number and enters the bridge, or waits while a handover holds new requests (R406). -/
def State.admitReq (s : State) (r : Req) : State :=
  let r := s.resolve { r with ord := s.ordNext }
  let s := { s with ordNext := s.ordNext + 1 }
  if s.ho == .offer then { s with hoHeld := s.hoHeld ++ [r] } else s.enterReq r

/-- A PASID the function does not accept: Unsupported Request, or a dropped write in the event queue, with the cause of
R481. -/
def State.pasidRefuse (s : State) (r : Req) (cause : Nat) : State := s.hostRefuse r 1 fun s => s.writeDropped r 3 cause

/-- A host request whose PASID is checked last, then admitted. DESIGN CHOICE (assumption 71): a request to PF0 with a PASID
is refused under R81, since no entry binds PF0 to a slice, though R82 gives one an Execute attribute. -/
def State.hostPasid (s : State) (r : Req) (p : Pasid) : State :=
  match p with
  | none => s.admitReq (s.hostAttrs r none p)
  | some (v, _, _) =>
    if !s.pasidEn r.fn then s.pasidRefuse r 10
    else match s.sliceOf r.fn v.val with
      | none => s.pasidRefuse r 11
      | some i => s.admitReq (s.hostAttrs r (some i) p)

/-- A host memory request reaches the endpoint (R381, R105, R368, R489, R487, R398, R81). -/
def State.submit (s : State) (r : Req) (p : Pasid) : State :=
  let s := if r.pois = [] then s else s.aer r.fn .poisonedTlp
  let st := s.fnState r.fn
  let gone (s : State) : State := s.hostRefuse r 1 id
  if s.bt.face == .rrs then gone s
  else if s.bt.face == .minimal && !(r.fn == 0 && r.bar == .bar0) then gone s
  else if st = fnRINSE then s.hostRefuse r 1 fun s => s.count .FN_RINSE_DROP_DROP r.fn
  else if s.bt.face == .full && !s.decodes r then gone s
  else if s.bt.face == .minimal && !(s.barHas 0 .bar0 r.addr && (s.cfgD 0 0x004).testBit 1) then gone s
  else if s.tdiStops r then
    (if s.fld .SEC_TDI_STATE r.fn = tdiRUN then s.guardFault r ⟨5, none⟩ else gone s)
  else if st = fnCONTAINED then s.hostRefuse r 4 fun s => s.count .FN_CONT_DROPS r.fn
  else if s.mode == .CONTAIN && !servedContain r.fn r.bar then s.hostRefuse r 4 fun s => s.count .HST_CONT_DROP_DROPS
  else if s.mode == .FOLLOW && !servedFollow r.fn r.bar r.addr then s.followRefuse r
  else s.hostPasid r p

end Sys2Proof.Machine
end

