-- ==== Sys2Proof/Machine/Functions.lean ====
section
/-!
DEFINITION. The commands of configuration space and of a function's life (R75 to R113, R381, R382): configuration reads and
writes, FLR, VF Enable, Bus Master Enable, PASID Enable, BAR sizes, rinse, the provisioning registers, the Bridge Descriptor
Table.
-/
namespace Sys2Proof.Machine

/-! ### The Bridge Descriptor Table (R95 to R99) -/

/-- A record: TYPE, LENGTH, the bytes after them. -/
def bdtRec (typ : Nat) (body : List Byte) : List Byte := toBytes 2 typ ++ toBytes 2 (body.length + 4) ++ body

/-- The LIMITS record (R97). -/
def bdtLimits : List Byte :=
  bdtRec 1 (toBytes 2 2048 ++ toBytes 2 1024 ++ toBytes 2 4096 ++ toBytes 1 8 ++ toBytes 1 0 ++ toBytes 2 256
    ++ toBytes 2 2048 ++ toBytes 1 64 ++ toBytes 1 64 ++ toBytes 2 4096 ++ toBytes 2 256 ++ toBytes 2 16384
    ++ toBytes 1 32 ++ toBytes 1 16 ++ toBytes 2 256 ++ toBytes 1 4 ++ toBytes 1 16 ++ toBytes 1 64 ++ toBytes 1 32
    ++ toBytes 2 16384 ++ toBytes 1 16 ++ toBytes 1 64 ++ toBytes 2 4096 ++ toBytes 2 512 ++ toBytes 2 4096
    ++ toBytes 2 128 ++ toBytes 2 4096 ++ toBytes 2 4096 ++ toBytes 8 0x2000000000 ++ toBytes 8 0)

/-- The FUNCTION record of a PF (R98). -/
def State.bdtFunction (s : State) (pf : Nat) : List Byte :=
  bdtRec 2 (toBytes 1 pf ++ toBytes 1 (if pf = 0 then 2 else 1) ++ toBytes 2 (s.totalVfs pf)
    ++ toBytes 2 (if pf = 0 then 0 else s.firstVfOffset pf) ++ toBytes 2 (s.firstVf pf)
    ++ toBytes 2 (s.fld .FN_RES_FIRST_CTX pf) ++ toBytes 2 (s.fld .FN_RES_CTX_COUNT pf))

/-- The WINDOW record of a valid inbound window. -/
def State.bdtWindow (s : State) (i : Nat) : List Byte :=
  let w := s.entry i
  let port := if wTarget w = 2 then (portOf (wDst w)).getD 0 else 0
  bdtRec 3 (toBytes 2 (i / 64) ++ toBytes 1 2 ++ toBytes 1 (i % 64) ++ toBytes 8 (wSrc w) ++ toBytes 8 (wSize w)
    ++ toBytes 1 (wTarget w) ++ toBytes 1 port ++ toBytes 2 (wAttr w) ++ toBytes 4 i)

/-- The QUEUES record of a function that owns contexts. -/
def State.bdtQueues (s : State) (f : Nat) : List Byte :=
  bdtRec 4 (toBytes 2 f ++ toBytes 2 (s.fld .FN_RES_FIRST_CTX f) ++ toBytes 2 (s.fld .FN_RES_CTX_COUNT f) ++ toBytes 2 0
    ++ toBytes 4 0)

/-- The MAILBOX records of the functions, then of the ports. -/
def bdtMailFn (f : Nat) : List Byte :=
  bdtRec 5 (toBytes 2 f ++ toBytes 1 (if f = 0 then 2 else 0) ++ toBytes 1 (if f = 0 then 16 else if f < 4 then 4 else 1)
    ++ toBytes 4 (if f = 0 then 0 else if f < 4 then 0xC0000 else 0x1000) ++ toBytes 4 0x1000)
def bdtMailPort (p : Nat) : List Byte :=
  bdtRec 5 (toBytes 2 (0xF000 + p) ++ toBytes 1 0xFF ++ toBytes 1 2 ++ toBytes 4 (portMbxAddr p 0) ++ toBytes 4 0x1000)

/-- The FW_ABI record: command set 0x0100, highest opcode 0x0D03, image B running, update staged, record version. -/
def State.bdtAbi (s : State) : List Byte :=
  bdtRec 6 (toBytes 2 0x0100 ++ toBytes 2 0x0D03 ++ toBytes 4 (bit (s.bt.image == some 1) + 2 * bit s.mg.stagedVer.isSome)
    ++ toBytes 4 0x0100)

/-- The records in the order of R96. -/
def State.bdtRecords (s : State) : List (List Byte) :=
  let wins := (s.bitmap.map (·.1)).filter fun i => decide (i < 0x40000) && s.entryValid i
  [bdtLimits] ++ [0, 1, 2, 3].map s.bdtFunction ++ wins.map s.bdtWindow
    ++ (s.listed .FN_RES_CTX_COUNT).map s.bdtQueues
    ++ (List.range 2052).map bdtMailFn ++ (List.range 16).map bdtMailPort ++ [s.bdtAbi, bdtRec 0xFFFF []]

/-- The header (R95) with a CRC, a generation and a total length. -/
def State.bdtHeader (s : State) (crc gen total records : Nat) : List Byte :=
  [0x5A, 0x58, 0x42, 0x44] ++ toBytes 2 0x0100 ++ toBytes 2 64 ++ toBytes 4 total ++ toBytes 4 crc ++ toBytes 2 0x9600
    ++ toBytes 2 records ++ toBytes 4 0x00010000 ++ toBytes 4 s.fwVer ++ toBytes 4 gen ++ toBytes 8 Config.serial
    ++ toBytes 1 (s.fld .SEM_STS_ROLE) ++ List.replicate 23 0

/-- Firmware builds a new table and switches the ROM to it; the generation advances (R99). -/
def State.bdtBuild (s : State) : State :=
  let recs := s.bdtRecords
  let body := recs.flatten
  let gen := (s.bt.bdtGen + 1) % 4294967296
  let total := 64 + body.length
  let crc := crc32 (s.bdtHeader 0 gen total recs.length ++ body)
  { s with bt.bdt := s.bdtHeader crc gen total recs.length ++ body, bt.bdtGen := gen }

/-- The table is rebuilt once firmware serves it. -/
def State.bdtRefresh (s : State) : State := if s.fwReady then s.bdtBuild else s

/-! ### Configuration reads (R85 to R90, R93, R381, R382) -/

/-- FUNC_STATE (R90). -/
def State.funcState (s : State) (f : Nat) : Nat :=
  let st := s.fnState f
  let code := if s.bt.face != .full then 0 else if st = fnRINSE then 1 else if st = fnCONTAINED then 2 else 0
  code + 4 * bit (s.mode == .CONTAIN) + 8 * s.fld .SEM_STS_ROLE + 32 * bit s.fwReady
    + 32768 * ((nGet s.rinseLeft f + 999) / 1000)

/-- The address bits below a BAR's size read 0 (R91, R93): `n` is the size. -/
def barLow (v n : Nat) : Nat := v - (v % n - v % 16)
def barHigh (v n : Nat) : Nat := v - v % (n / 4294967296)

/-- A configuration dword as the full face shows it: the stored one with what is live. -/
def State.cfgLive (s : State) (f off : Nat) : Nat :=
  let v := s.cfgD f off
  let k := fnKind f
  match off with
  | 0x004 => if k = 2 then v else v - v / 0x80000 % 2 * 0x80000 + 0x80000 * bit (s.pendSrcs.any fun i =>
      s.ready i && s.targetOf i == some ⟨2, f, (s.routeOf i).index⟩)
  | 0x018 => if k = 1 then barLow v (s.bar2Size f) else v
  | 0x01C => if k = 1 ∧ 4294967296 ≤ s.bar2Size f then barHigh v (s.bar2Size f) else v
  | 0x02C => 0x2D37 + s.evSubsys * 0x10000
  | 0x080 => if k = 2 then v else v % 0x10000 + (s.fld .HST_LINK_STS_RATE + 16 * s.fld .HST_LINK_STS_WIDTH) * 0x10000
      + bit (s.fld .HST_CLK_CFG_ACTIVE == 1) * 0x10000000
  | 0x0A0 => if k = 2 then v else v % 0x10000 + s.linkSts2 + bit (s.flag .HST_LINK_STS_FLIT) * 0x4000000
  | 0x1BC => if f = 0 then nGet s.hp.eqSts 4 else v
  | 0x1FC => if f = 0 then s.sts32 else v
  | 0x23C => if f = 0 then nGet s.hp.eqSts 6 else v
  | 0x254 => if f = 0 then bit s.margReady * 0x10000 else v
  | 0x31C => if k = 1 then s.totalVfs f * 0x10001 else v
  | 0x324 => if k = 1 then s.firstVfOffset f + 0x10000 else v
  | 0x33C => if k = 1 then barLow v (2 ^ (20 + bits (s.cfgD f 0x368) 13 8)) else v
  | 0x340 =>
    let n := 2 ^ (20 + bits (s.cfgD f 0x368) 13 8)
    if k = 1 ∧ 4294967296 ≤ n then barHigh v n else v
  | 0x40C => f + k * 0x1000 + s.parent f * 0x4000
  | 0x410 => s.funcState f
  | 0x414 => if f = 0 then s.bt.bdtGen else 0
  | 0x418 => if f = 0 then s.eq128 else 0
  | 0x510 => if f = 0 then v - v % 16 + s.fld .SEC_IDE_STS_STATE 0 else v
  | _ =>
    if f = 0 ∧ 0x51C ≤ off ∧ off < 0x674 ∧ (off - 0x51C) % 0x2C = 0 then
      v - v % 16 + s.fld .SEC_IDE_STS_STATE ((off - 0x51C) / 0x2C + 1)
    else match (if f = 0 then margLane off else none) with
      | some n => v % 0x10000 + s.margStatus n * 0x10000
      | none => v

/-- The dwords of PF0 that the minimal face has (R382): the header with BAR0/1, Power Management, PCI Express, AER, ARI and
the DVSEC. -/
def minimalHas (off : Nat) : Bool :=
  decide (off < 0x018) || off == 0x02C || off == 0x034 || off == 0x03C || (0x040 ≤ off && off < 0x048)
    || (0x070 ≤ off && off < 0x0AC) || (0x100 ≤ off && off < 0x150) || (0x400 ≤ off && off < 0x420)

/-- A dword of the minimal face: its capability lists skip what is absent, and ARI names no next function. -/
def State.cfgMinimal (s : State) (off : Nat) : Nat :=
  if !minimalHas off then 0
  else match off with
    | 0x040 => s.cfgD 0 0x040 % 256 + 0x7000 + s.cfgD 0 0x040 / 0x10000 * 0x10000
    | 0x070 => s.cfgD 0 0x070 % 256 + s.cfgD 0 0x070 / 0x10000 * 0x10000
    | 0x148 => 0xE + 0x10000 + 0x400 * 0x100000
    | 0x14C => 0
    | 0x400 => 0x23 + 0x10000
    | 0x410 => s.funcState 0 - 32 * bit s.fwReady + 32 * bit s.fwReady
    | off => s.cfgLive 0 off

/-- A function that configuration requests reach (R79, R102). -/
def State.cfgReach (s : State) (f : Nat) : Bool :=
  decide (f < 4) || (decide (f < 2052) && (s.fnState f == fnACTIVE || s.fnState f == fnRINSE || s.fnState f == fnCONTAINED))

/-- What a configuration request meets (R381): a completion status other than success, or the face that serves it. -/
def State.cfgAnswer (s : State) (f : Nat) : Nat :=
  match s.bt.face with
  | .rrs => 2
  | .minimal => if f = 0 then 0 else 1
  | .full => if s.cfgReach f then 0 else 1

/-- CONFIG_READ of dword `dw` of the function at offset `f` from PF0's routing ID. -/
def execConfigRead (f : Nat) (dw : Fin 1024) (tag : Nat) (s : State) : Res :=
  .next (s.when (s.hctlOn && s.linkOpen) fun s =>
    let st := s.cfgAnswer f
    if st ≠ 0 then s.hostTx (.cpl f tag st [] false 0)
    else
      let v := if s.bt.face == .minimal then s.cfgMinimal (4 * dw.val) else s.cfgLive f (4 * dw.val)
      s.hostTx (.cpl f tag 0 (toBytes 4 v) false 0))

/-! ### Configuration writes -/

/-- Mask of the enabled bytes of a dword. -/
def beMask (be : Fin 16) : Nat := ((List.range 4).map fun i => if be.val.testBit i then 255 * 256 ^ i else 0).sum

/-- The stored dword after a write. -/
def State.cfgNew (s : State) (f off v : Nat) (be : Fin 16) : Nat :=
  let old := s.cfgD f off
  let m := cfgMask f off &&& beMask be
  let c := old &&& v &&& cfgW1C off &&& beMask be
  (old - (old &&& m) + (v &&& m)) - c

/-- A TDI in CONFIG_LOCKED or RUN whose memory decoding changes enters ERROR (R366). -/
def State.tdiMoved (s : State) (f : Nat) : State := if s.tdiHeld f then s.tdiError f 1 else s
/-- The same for the VFs of a PF. -/
def State.tdiVfsMoved (s : State) (pf : Nat) : State :=
  s.each (s.heldTdis.filter fun f => decide (4 ≤ f) && s.parent f == pf) State.tdiMoved

/-- A BAR Size field: kept when memory decoding is on, remembered while the function rinses (R93, R112). DESIGN CHOICE
(assumption 71): a code outside the supported sizes is stored and used as 2^(20 + code). -/
def State.rbarWrite (s : State) (f off new : Nat) : State :=
  let vf := off == 0x368
  let on := if vf then s.vfEn f else (s.cfgD f 0x004).testBit 1
  let k := 2 * f + bit vf
  if s.fnState f = fnRINSE then
    let s := if nGet s.bt.rbarOld k = 0 then { s with bt.rbarOld := nSet s.bt.rbarOld k (s.cfgD f off / 256 + 1) } else s
    s.setCfgD f off new
  else if on then s
  else
    let s := s.setCfgD f off new
    if vf then s.tdiVfsMoved f else s.tdiMoved f

/-- The command dword: Memory Space Enable, Bus Master Enable, Interrupt Disable (R110, R366). -/
def State.cmdWrite (s : State) (f new : Nat) : State :=
  let old := s.cfgD f 0x004
  let s := s.setCfgD f 0x004 new
  if !s.inForce f then s
  else
    let s := if old.testBit 1 && !new.testBit 1 then s.tdiMoved f else s
    let s := if old.testBit 2 && !new.testBit 2 then s.bmeOff f
      else if !old.testBit 2 && new.testBit 2 then s.bmeOn f else s
    s.irqEval

/-- SR-IOV Control: VF Enable and VF Memory Space Enable (R102, R108). -/
def State.iovWrite (s : State) (f new : Nat) : State :=
  let old := s.cfgD f 0x318
  let s := s.setCfgD f 0x318 new
  if !s.inForce f then s
  else
    let s := if old.testBit 3 && !new.testBit 3 then s.tdiVfsMoved f else s
    if !old.testBit 0 && new.testBit 0 then s.vfShow f
    else if old.testBit 0 && !new.testBit 0 then s.vfHide f 2 else s

/-- The IDE control of a stream: clearing its enable makes it Insecure. While PF0 rinses it is only stored (R105). -/
def State.ideCtlWrite (s : State) (off new stream : Nat) : State :=
  let was := s.ideEn stream
  let s := s.setCfgD 0 off new
  if !s.inForce 0 then s
  else if was && !s.ideEn stream then s.ideInsecure stream else s.ideSettle stream

/-- The stream whose control dword stands at an offset. -/
def ideStreamAt (off : Nat) : Option Nat := (List.range 9).find? fun n => ideCtl n == off

/-- PCI-PM L1: a function is put in D3hot (R56). While it rinses the write is only stored (R105). -/
def State.d3Write (s : State) (f new : Nat) : State :=
  let was := s.cfgD f 0x044 % 4
  let s := s.setCfgD f 0x044 new
  if was ≠ 3 ∧ new % 4 = 3 ∧ s.inForce f = true then s.pmL1 else s

/-- The margining control of a lane (R51), while the configuration of PF0 is in effect. -/
def State.margCtlWrite (s : State) (off new n : Nat) : State :=
  let s := s.setCfgD 0 off new
  if s.inForce 0 then s.margWrite n (new % 0x10000) else s

/-- FLR by the face (R381, R382): recorded in the RRS phase, PF0 only in the minimal face, else as R102. -/
def State.flrAt (s : State) (f : Nat) : State :=
  match s.bt.face with
  | .rrs => { s with bt.faceFlr := (s.bt.faceFlr ++ [f]).eraseDups }
  | .minimal => if f = 0 then s.resetCfg 0 else s
  | .full => s.flr f

/-- A configuration dword is written and what it controls follows. -/
def State.cfgStore (s : State) (f off v : Nat) (be : Fin 16) : State :=
  let new := s.cfgNew f off v be
  match off with
  | 0x004 => s.cmdWrite f new
  | 0x018 => let t := s.setCfgD f off new; if fnKind f = 1 then t.tdiMoved f else t
  | 0x01C => let t := s.setCfgD f off new; if fnKind f = 1 then t.tdiMoved f else t
  | 0x044 => s.d3Write f new
  | 0x050 => (s.setCfgD f off new).irqEval
  | 0x078 =>
    let t := s.setCfgD f off new
    if (v &&& beMask be).testBit 15 then t.flrAt f else t
  | 0x318 => if fnKind f = 1 then s.iovWrite f new else s
  | 0x320 => if s.vfEn f then s else s.setCfgD f off new
  | 0x33C => let t := s.setCfgD f off new; if fnKind f = 1 then t.tdiVfsMoved f else t
  | 0x340 => let t := s.setCfgD f off new; if fnKind f = 1 then t.tdiVfsMoved f else t
  | 0x358 => if fnKind f = 1 then s.rbarWrite f off new else s
  | 0x368 => if fnKind f = 1 then s.rbarWrite f off new else s
  | _ => match (if f = 0 then ideStreamAt off else none) with
    | some n => s.ideCtlWrite off new n
    | none => match (if f = 0 then margLane off else none) with
      | some n => s.margCtlWrite off new n
      | none => s.setCfgD f off new

/-- A configuration write by the face that is shown. -/
def State.cfgWrite (s : State) (f off v : Nat) (be : Fin 16) : State :=
  if s.bt.face == .minimal && !minimalHas off then s else s.cfgStore f off v be

/-- PF0 captures its routing ID from the first configuration write (R113). -/
def State.ridCapture (s : State) (rid : Nat) : State :=
  if s.bt.ridTaken then s else { s with rid0 := rid / 8 * 8 % 65536, bt.ridTaken := true }

/-- CONFIG_WRITE of dword `dw` with its byte enables, addressed to the function at offset `f` from PF0's routing ID `rid`.
In the RRS phase only Initiate FLR is recorded. -/
def execConfigWrite (f : Nat) (rid : Fin 65536) (dw : Fin 1024) (v : Fin 4294967296) (be : Fin 16) (tag : Nat) (s : State) :
    Res :=
  .next (s.when (s.hctlOn && s.linkOpen) fun s =>
    let s := if f = 0 then s.ridCapture rid else s
    let st := s.cfgAnswer f
    let s := s.hostTx (.cpl f tag st [] false 0)
    if st = 0 then s.cfgWrite f (4 * dw.val) v be
    else if s.bt.face == .rrs && dw.val == 0x1E && (v.val &&& beMask be).testBit 15 && decide (f < 4) then s.flrAt f
    else s)

/-- Changes one bit of a dword by a configuration write of a function that the face serves. -/
def State.cfgBit (s : State) (f off n : Nat) (on : Bool) : State :=
  if !s.hctlOn || s.cfgAnswer f ≠ 0 then s
  else
    let v := s.cfgD f off
    s.cfgWrite f off (if on then v ||| 2 ^ n else v - (v &&& 2 ^ n)) 15

/-- FLR. -/
def execFlr (f : Fn) (s : State) : Res :=
  .next (s.when (s.hctlOn && (s.bt.face == .rrs && decide (f.val < 4) || s.cfgAnswer f == 0)) fun s => s.flrAt f)
/-- VF_ENABLE_SET and VF_ENABLE_CLEAR of a data PF. -/
def execVfEnableSet (pf : Fin 4) (s : State) : Res := .next (s.when (pf.val != 0) fun s => s.cfgBit pf 0x318 0 true)
def execVfEnableClear (pf : Fin 4) (s : State) : Res := .next (s.when (pf.val != 0) fun s => s.cfgBit pf 0x318 0 false)
/-- BME_CLEAR and BME_SET. -/
def execBmeClear (f : Fn) (s : State) : Res := .next (s.cfgBit f 0x004 2 false)
def execBmeSet (f : Fn) (s : State) : Res := .next (s.cfgBit f 0x004 2 true)
/-- PASID_ENABLE_CLEAR: the slices of the function become inactive with their bindings kept (R84). -/
def execPasidEnableClear (f : Fn) (s : State) : Res := .next (s.cfgBit f 0x304 16 false)
/-- RESIZABLE_BAR_WRITE of BAR2 of a data PF, or of the VF BAR2 of its VFs: the BAR Size field. -/
def execResizableBarWrite (pf : Fin 4) (vf : Bool) (size : Fin 64) (s : State) : Res :=
  .next (s.when (s.hctlOn && pf.val != 0 && s.cfgAnswer pf == 0) fun s =>
    s.cfgWrite pf (if vf then 0x368 else 0x358) (size.val * 256) 15)

/-! ### Rinse (R104, R106) -/

/-- RINSE_DRAINED: the function counts as drained. -/
def execRinseDrained (f : Fn) (s : State) : Res := .next (s.when (s.rinseDone f) fun s => s.rinseEnd f false)
/-- RINSE_DEADLINE: 90 ms have passed. -/
def execRinseDeadline (f : Fn) (s : State) : Res := .next (s.rinseEnd f true)

/-! ### Provisioning -/

/-- Who writes a register that only the privileged side reaches: PF0's view, or a control core. -/
def byWho (core : Option Core) : Who := match core with | some c => .core c.val | none => .host 0

/-- A register write that is a command of its own. A write to a domain that is off is dropped and counted (R38, R461). -/
def State.ctlWrite (s : State) (w : Who) (r : Reg) (i v m : Nat) : State :=
  if s.mode = .OFF ∨ s.mode = .STANDBY then s
  else
    let g := regInfo r
    let d := blockDom g.block (regAddr r i - blockBase g.block.ctorIdx)
    if s.domOn d then s.regDo w r i v m else s.offAccess d

/-- FN_SLICE_WRITE of a whole entry. -/
def execFnSliceWrite (k : Fin 256) (v : BitVec 64) (s : State) : Res :=
  .next (s.ctlWrite (.core 0) .FN_SLICE k v.toNat (laneMask 0 8))
/-- FN_RES_WRITE. -/
def execFnResWrite (f : Fn) (first count : Fin 4096) (s : State) : Res :=
  .next (s.ctlWrite (.core 0) .FN_RES f (first.val + 4096 * count.val) (laneMask 0 4))
/-- BDT_REBUILD. -/
def execBdtRebuild (s : State) : Res := .next s.bdtRefresh

end Sys2Proof.Machine
end

