-- ==== Sys2Proof/Machine/HostMem.lean ====
section
/-!
DEFINITION. The commands of host memory requests (R144, R145) and of the translation stage: window walks, the window
update unit, translation epochs (R118, R125, R139 to R141).
-/
namespace Sys2Proof.Machine

/-! ### Host memory requests -/

/-- The host link can carry a TLP with these fields: the address range stays within 4 KiB, the stream exists, and only a
TLP on a stream fails a check of it. -/
def hostTlpOk (h : HostTlp) (len : Nat) : Bool :=
  decide (h.off % 4096 + len ≤ 4096) && decide (h.stream ≤ 9) && decide (h.ideCause ≤ 4)
    && (h.ideCause == 0 || h.stream != 0)

/-- A posted write carries 1 to 512 bytes, with a byte enable for each or none. -/
def hostWriteOk (h : HostTlp) (data : List Byte) (be : List Bool) : Bool :=
  hostTlpOk h data.length && decide (1 ≤ data.length) && decide (data.length ≤ 512)
    && (be == [] || be.length == data.length)

/-- A memory read asks for up to 4,096 bytes. -/
def hostReadOk (h : HostTlp) (len : Nat) : Bool := hostTlpOk h len && decide (len ≤ 4096)

/-- Operand sizes of the atomics (R226): 4 and 8 bytes, for compare-and-swap 16 too. -/
def atomSizeOk (op : AtomOp) (n : Nat) : Bool := n == 4 || n == 8 || (op == .cas && n == 16)
/-- Bytes of operands an atomic carries. -/
def atomBytes (op : AtomOp) (n : Nat) : Nat := if op = .cas then 2 * n else n

/-- An AtomicOp has a size of its operation, its operands, and an address aligned to the size. -/
def hostAtomOk (h : HostTlp) (op : AtomOp) (n : Nat) (data : List Byte) : Bool :=
  hostTlpOk h n && atomSizeOk op n && data.length == atomBytes op n && h.off % n == 0

/-- All granules of an access, when its TLP has EP. -/
def epPois (ep : Bool) (a len : Nat) : List Nat := if ep then List.range ((a % 64 + len + 63) / 64) else []

/-- The request of a host TLP. -/
def hostReq (h : HostTlp) (kind : Kind) (len : Nat) (data : List Byte) : Req :=
  { who := .host h.fn, kind := kind, addr := h.off, len := len, data := data
    pois := epPois h.ep h.off data.length, fn := h.fn, bar := h.bar, tag := h.tag, ro := h.ro
    tbit := h.tbit, stream := h.stream }

/-- A TLP arrives on the host link: one that fails a check of its IDE stream is discarded and makes the stream Insecure,
and one on a stream that is not Secure is discarded (R365). -/
def State.tlpRx (s : State) (h : HostTlp) (g : State → State) : State :=
  if !(s.hctlOn && s.linkOpen) then s
  else if h.ideCause ≠ 0 then s.ideFail (h.stream - 1) h.ideCause
  else if h.stream ≠ 0 ∧ s.fld .SEC_IDE_STS_STATE (h.stream - 1) ≠ 2 then s
  else (g s).starchSettle

/-- HOST_POSTED_WRITE_RX. -/
def execHostPostedWriteRx (h : HostTlp) (data : List Byte) (be : List Bool) (err : MemErr) (s : State) : Res :=
  if !hostWriteOk h data be then .refused .illFormed
  else .next (s.tlpRx h fun s => s.submit { hostReq h .write data.length data with be := be, err := err } h.pasid)

/-- HOST_MEMORY_READ_RX; `err` is what its granule reads as, should it lie in the SRAM or the store (R450). -/
def execHostMemoryReadRx (h : HostTlp) (len : Nat) (err : MemErr) (s : State) : Res :=
  if !hostReadOk h len then .refused .illFormed
  else .next (s.tlpRx h fun s => s.submit { hostReq h .read len [] with err := err } h.pasid)

/-- HOST_ATOMICOP_RX. -/
def execHostAtomicopRx (h : HostTlp) (op : AtomOp) (size : Nat) (data : List Byte) (err : MemErr) (s : State) : Res :=
  if !hostAtomOk h op size data then .refused .illFormed
  else .next (s.tlpRx h fun s => s.submit { hostReq h (.atomic op) size data with err := err } h.pasid)

/-- MEMORY_READ_LOCK_RX. -/
def execMemoryReadLockRx (h : HostTlp) (s : State) : Res :=
  if !hostTlpOk h 0 then .refused .illFormed
  else .next (s.tlpRx h fun s => s.hostTx (.cpl h.fn h.tag 1 [] false h.stream))

/-! ### Window walks -/

/-- WALK_SLOT_START: the oldest walk that waits takes a free slot (R28). -/
def execWalkSlotStart (s : State) : Res :=
  .next (match s.walks.find? fun w => !w.slot with
    | some w =>
      if (s.walks.filter (·.slot)).length < 128 then
        { s with walks := mapIf (fun x => x.tbl == w.tbl) (fun x => { x with slot := true }) s.walks }
      else s
    | none => s)

/-- WINDOW_WALK_DONE of a table, with the entries whose read was lasting uncorrectable. -/
def execWindowWalkDone (tbl : Nat) (bad : List Nat) (s : State) : Res :=
  .next ((State.walkDone State.deliver s tbl bad).starchSettle)

/-! ### The window update unit -/

/-- A write of XLT_UPD_CMD with GO. -/
def State.updCmd (s : State) (core : Option Core) (op i : Nat) : State :=
  s.ctlWrite (byWho core) .XLT_UPD_CMD 0 (i + op * 1048576 + 2147483648) 0xFFFFFFFF

/-- XLT_UPD_WRITE, XLT_UPD_INVAL_ENTRY, XLT_UPD_INVAL_TABLE, XLT_UPD_INVAL_ALL: the index and the OP with GO. -/
def execXltUpdWrite (core : Option Core) (i : Fin 524288) (s : State) : Res := .next (s.updCmd core 0 i)
def execXltUpdInvalEntry (core : Option Core) (i : Fin 524288) (s : State) : Res := .next (s.updCmd core 1 i)
def execXltUpdInvalTable (core : Option Core) (i : Fin 524288) (s : State) : Res := .next (s.updCmd core 2 i)
def execXltUpdInvalAll (core : Option Core) (i : Fin 524288) (s : State) : Res := .next (s.updCmd core 3 i)

/-- XLT_UPD_COMMIT. -/
def execXltUpdCommit (s : State) : Res := .next (s.when (s.domOn 14) State.xltCommit)

/-- XLT_INVAL_DONE. -/
def execXltInvalDone (s : State) : Res := .next (s.when (s.domOn 14) State.xltInvalDone)

/-- XLT_TBL_BASE_WRITE: bits [47:24] of the base. -/
def execXltTblBaseWrite (core : Option Core) (base : Fin 16777216) (s : State) : Res :=
  .next (s.ctlWrite (byWho core) .XLT_TBL_BASE 0 (base * 16777216) 0xFFFFFFFFFFFFFFFF)

/-! ### Translation epochs -/

/-- XLT_EPOCH_ADVANCE. -/
def execXltEpochAdvance (core : Option Core) (s : State) : Res :=
  .next (s.ctlWrite (byWho core) .XLT_EPOCH 0 0x10000 0xFFFFFFFF)

/-- XLT_EPOCH_ADVANCE_APPLY. -/
def execXltEpochAdvanceApply (s : State) : Res := .next (s.when (s.domOn 14) State.xltAdvanceApply)

/-- A read of a register by PF0's BAR0 view, as a host memory read, or by a control core. -/
def State.readBy (s : State) (core : Option Core) (tag : Nat) (off len : Nat) : State :=
  match core with
  | some c => s.enterReq { who := .core c, kind := .read, addr := blockBase 0 + off, len := len, priv := true, tag := tag }
  | none => s.tlpRx { fn := 0, bar := .bar0, off := off, tag := tag } fun s =>
      s.submit (hostReq { fn := 0, bar := .bar0, off := off, tag := tag } .read len []) none

/-- XLT_EPOCH_DRAIN_READ, with the tag of its completion. -/
def execXltEpochDrainRead (core : Option Core) (tag : Nat) (s : State) : Res :=
  .next (s.readBy core tag (blockBase 3 - blockBase 0 + 0x18) 4)

/-- XLT_EPOCH_DRAIN_RETURN. -/
def execXltEpochDrainReturn (s : State) : Res := .next (s.xltDrainReturn false)

/-- XLT_EPOCH_DRAIN_TIMEOUT. -/
def execXltEpochDrainTimeout (s : State) : Res := .next (s.xltDrainReturn true)

end Sys2Proof.Machine
end

