-- ==== Sys2Proof/Machine/UrRx.lean ====
section
/-!
DEFINITION. Receiving on a Urone port and on the Seam link (R215, R216, R220, R229 to R231, R249): acknowledgements and
replay, the protocol checks of a packet, responses to the bridge's requests.
-/
namespace Sys2Proof.Machine

/-! ### Retry (R215, R216) -/

/-- Uses an ACKSEQ: progress frees bundles and restarts the count of replays. -/
def PortLL.ackTake (p : PortLL) (a : Nat) : PortLL :=
  let n := (a + 4096 - p.acked) % 4096
  let out := (p.bseq + 8191 - p.acked) % 4096
  if n = 0 ∨ out < n then p else { p with acked := a, replays := 0, replay := p.replay.drop n }

/-- REPLAY_MAX of a link. -/
def State.replayMax (s : State) (l : Nat) : Nat :=
  if l = 16 then Config.seamReplayMax
  else
    let n := s.fld .ULK_RETRY_CFG_REPLAY_MAX l
    if n = 0 then 16 else n

/-- A NAK or a timeout: every unacknowledged bundle is sent again in order, with the ACKSEQ of now, or the link goes down
after REPLAY_MAX replays without progress. -/
def State.replay (s : State) (l : Nat) : State :=
  let p := s.port l
  match p.replay with
  | [] => s
  | bs =>
    if s.replayMax l ≤ p.replays then (if l = 16 then s.linkDown 16 else s.portDown l 2)
    else
      let s := (s.setPort l { p with replays := p.replays + 1 }).each bs (State.bundleSend · l)
      if l = 16 then s else (s.count .ULK_REPLAY_CNT_REPLAYS l).ulkEvt l .ULK_EVT_REPLAY

/-- Uses what a control block says. -/
def State.ackRx (s : State) (l ackseq : Nat) (nak : Bool) : State :=
  let s := (s.setPort l ((s.port l).ackTake (ackseq % 4096))).portFlush l
  if nak then s.replay l else s

/-- A NAK is due; one is sent as NAK_ONLY unless the hold-off runs. A transmitter in low power leaves it first (R246). -/
def State.nakDue (s : State) (l : Nat) : State :=
  if (s.port l).nakSent then s
  else
    let s := s.lpExit l
    let s := (s.setPort l { s.port l with nakSent := true }).urAck l true
    if l = 16 then s else s.count .ULK_REPLAY_CNT_NAKS_SENT l

/-! ### Packets -/

/-- A packet joins those that wait to be served, with the credit it used. -/
def State.rxPut (s : State) (l : Nat) (k : UrPkt) : State :=
  let p := s.port l
  s.setPort l { p with
    rx := p.rx ++ [k], rx0 := p.rx0 + (if k.vc = 0 then 1 else 0), rxD0 := p.rxD0 + k.dataCredit
    rx2 := p.rx2 + (if k.vc = 2 then 1 else 0) }

/-- The packet fits the credit that was granted. -/
def PortLL.rxFits (p : PortLL) (k : UrPkt) : Bool :=
  (k.vc != 0 || (decide (p.rx0 + 1 ≤ p.grant0) && decide (p.rxD0 + k.dataCredit ≤ p.grantD0)))
    && (k.vc != 2 || decide (p.rx2 + 1 ≤ p.grant2))

/-- A packet of an accepted bundle is delivered, or is a protocol error (R243, R249). -/
def State.rxOne (s : State) (l : Nat) (k : UrPkt) : State :=
  if !s.urRuns l then s
  else if l = 16 then (match k with | .seam _ => s.rxPut 16 k | .flow .. => s.rxPut 16 k | _ => s)
  else match k with
    | .bad _ => s.protoFatal l 1
    | .seam _ => s.protoFatal l 1
    | .streamSync .. => s.protoErr l 3
    | .sbPoll _ => s.protoErr l 3
    | .sbCfg _ => s.protoErr l 3
    | .reqDone .. => s.protoErr l 3
    | k =>
      if (k.vc == 0 || k.vc == 2) && !(s.port l).farHello then s.protoFatal l 10
      else if !(s.port l).rxFits k then s.protoFatal l 2
      else s.rxPut l k

/-- The credit of a packet is freed. -/
def State.rxFree (s : State) (l : Nat) (k : UrPkt) : State :=
  let p := s.port l
  s.setPort l { p with
    freed0 := p.freed0 + (if k.vc = 0 then 1 else 0), freedD0 := p.freedD0 + k.dataCredit
    freed2 := p.freed2 + (if k.vc = 2 then 1 else 0) }

/-- A packet leaves those that wait for their command. -/
def State.rxDrop (s : State) (l : Nat) (k : UrPkt) : State := s.setPort l { s.port l with rx := (s.port l).rx.erase k }

/-- The command of a packet: one that a bundle has delivered is handled in its turn on its virtual channel (R218); one that no
bundle has delivered arrives with its command, under the same checks. -/
def State.rxServe (s : State) (l : Nat) (k : UrPkt) (f : State → State) : State :=
  match (s.port l).rx.find? fun q => q.vc == k.vc with
  | some q => if q = k then f (s.rxDrop l k) else if (s.port l).rx.contains k then s else s.rxOne l k
  | none =>
    let s := s.rxOne l k
    if (s.port l).rx.contains k then f (s.rxDrop l k) else s

/-- A packet may not be handled yet: it keeps the credit it used (R243, R487). -/
def State.rxHold (s : State) (l : Nat) (k : UrPkt) (err : MemErr) : State :=
  s.setPort l { s.port l with held := (s.port l).held ++ [(k, err)] }

/-- Header and data credits a receiver grants for VC0 and VC2 (R221, R394). -/
def grantSize (l vc : Nat) : Nat × Nat :=
  if l = 16 then (if vc = 0 then (1024, 4096) else (32, 0)) else if vc = 0 then (512, 1024) else (64, 0)

/-- A FLOW packet for a virtual channel whose limit has advanced (R220). -/
def State.flowTx (s : State) (l vc : Nat) : State :=
  let p := s.port l
  let (h, d) := grantSize l vc
  if vc = 0 then
    if p.freed0 + h ≤ p.grant0 ∧ p.freedD0 + d ≤ p.grantD0 then s
    else
      let p := { p with grant0 := max p.grant0 (p.freed0 + h), grantD0 := max p.grantD0 (p.freedD0 + d) }
      (s.setPort l p).urSend l (.flow 0 (p.grant0 % 4096) (p.grantD0 % 65536))
  else if p.freed2 + h ≤ p.grant2 then s
  else (s.setPort l { p with grant2 := p.freed2 + h }).urSend l (.flow 2 ((p.freed2 + h) % 4096) 0)

/-- A cumulative limit moves forward only (R220). -/
def forward (m old new : Nat) : Nat := if (new + m - old % m) % m < m / 2 then new % m else old

/-- A FLOW packet that arrives. -/
def State.flowRx (s : State) (l vc hdr data : Nat) : State :=
  let p := s.port l
  let s := if vc = 0 then s.setPort l { p with hdr0 := forward 4096 p.hdr0 hdr, data0 := forward 65536 p.data0 data }
    else if vc = 2 then s.setPort l { p with hdr2 := forward 4096 p.hdr2 hdr }
    else s
  if l = 16 then s.urFlush 16 else (s.helloCheck l).portFlush l

/-! ### Responses (R229 to R231, R234) -/

/-- A status the design may send to a write, to a read or atomic (R231, R234). -/
def wrStatusOk (st : Nat) (seqAware : Bool) : Bool :=
  st == 0 || st == 2 || st == 3 || st == 4 || (seqAware && (st == 1 || st == 6 || st == 7))
def rdStatusOk (st : Nat) : Bool := st ≤ 5

/-- A tag whose response was broken stays until its last packet. -/
def State.tagDead (s : State) (p tag : Nat) (last : Bool) : State :=
  if last then s else s.setPort p { s.port p with deadTags := (s.port p).deadTags ++ [tag] }

/-- A RESPONSE to a read or atomic follows R230: data in order without a gap, whole granules before the last packet, a final
OK with all data and no poison, a final POISONED with poison; an atomic's error without data. -/
def readRespOk (r : PRead) (st off : Nat) (last : Bool) (n : Nat) (pois : List Nat) : Bool :=
  let total := r.req.len + r.req.ext
  let got := r.got.length
  if r.req.kind == .read || r.emul then
    (n == 0 || (off == got && decide (got + n ≤ total)))
      && (last || (st == 0 && n != 0 && (r.req.dst + off + n) % 64 == 0))
      && (!last || !(st == 0 || st == 5) || (got + n == total && (r.pois != [] || pois != []) == (st == 5)))
  else last && off == 0 && (if st = 0 ∨ st = 5 then n == r.req.len && (pois != []) == (st == 5) else n == 0)

/-- The address that byte 0 of the answer to a tag lies at, modulo 64, by which its data are laid out (R230). -/
def State.tagBase (s : State) (p tag : Nat) : Nat :=
  match s.pReads.find? fun r => r.port == p && r.tag == some tag with
  | some r => if r.req.kind == .read || r.emul then laddrOf r.req.dst % 64 else 0
  | none => 0

/-- A RESPONSE from a design. -/
def State.urResponse (s : State) (p tag st off : Nat) (last : Bool) (data : List Byte) (pois : List Nat) : State :=
  match s.ledger.find? fun e => e.port == p && e.st == .issued && e.tag == some tag with
  | some e =>
    if !last || data != [] || off != 0 then ((s.protoErr p 6).tagDead p tag last).ledgerResponse e 2
    else if wrStatusOk st (s.flag .ULK_FAR_SEQ_AWARE p) then s.ledgerResponse e st
    else (s.protoErr p 5).ledgerResponse e 2
  | none =>
    match s.pReads.find? fun r => r.port == p && r.tag == some tag with
    | some r =>
      let good := rdStatusOk st
      let s := if good then s else s.protoErr p 5
      let st := if good then st else 2
      if !readRespOk r st off last data.length pois then ((s.protoErr p 6).tagDead p tag last).portReadEnd r 2
      else
        let q := { r with got := r.got ++ data, pois := r.pois ++ poisWhole r.req.addr pois off }
        if last then (s.setPRead q).portReadEnd q st else s.readForward q
    | none =>
      let l := s.port p
      if l.heldTags.contains tag then
        (if last then s.setPort p { l with heldTags := l.heldTags.erase tag } else s).count .LDG_LATE_CNT_LATE
      else if l.deadTags.contains tag then
        (if last then s.setPort p { l with deadTags := l.deadTags.erase tag } else s)
      else s.protoErr p 4

/-- A tag is held after its timeout (R227): beyond 2,048 the link goes down. -/
def State.tagHold (s : State) (p tag : Nat) : State :=
  let s := s.setPort p { s.port p with heldTags := (s.port p).heldTags ++ [tag] }
  if 2048 < (s.port p).heldTags.length then s.portDown p 6 else s

/-! ### Completions that are dropped (R107, R179) -/

/-- The event queue entry of a completion that is not delivered, or of a timeout. -/
def cplEnt (b : BTag) (typ st : Nat) : EvqEnt :=
  { fn := b.fn, typ := typ, seq := b.tag, port := (match b.req.who with | .port p => p | _ => 255), status := st
    window := b.req.win, slice := b.req.hslice, offset := b.req.dst + b.off, len := b.len, req := b.req.who.req
    epoch := b.req.xe }

/-- A completion for a HELD tag, or one in a quarantine that follows it: discarded and counted. -/
def State.cplDiscard (s : State) (b : BTag) (st : Nat) : State :=
  let s := (s.count .FN_ADV_CNT_DISCARD b.fn).count .BSK_DISCARD_CNT_DISCARD
  if s.flag .FN_CTL_ADVISORY_EN b.fn then s.evq (cplEnt b 6 st) else s

/-- An Unexpected Completion of a function. -/
def State.cplUnexpected (s : State) (e : EvqEnt) : State :=
  let s := ((s.aer e.fn .unexpectedCpl).count .FN_ADV_CNT_UNEXP e.fn).count .BSK_UNEXP_CNT_UNEXP
  if s.flag .FN_CTL_ADVISORY_EN e.fn then s.evq e else s

end Sys2Proof.Machine
end

