-- ==== Sys2Proof/Machine/UrServe.lean ====
section
/-!
DEFINITION. What packets of a local design do (R223 to R228, R236, R239, R242), and the packets that were held while the port
was in HELLO or the module contained (R243, R487).
-/
namespace Sys2Proof.Machine

/-! ### Requests -/

/-- The bytes from an address fit the span rule of R224: at most 4,096 bytes in at most 64 granules. -/
def spanOk (addr len : Nat) : Bool := decide (1 ≤ len) && decide (len ≤ 4096) && decide ((addr % 64 + len + 63) / 64 ≤ 64)

/-- An ATOMIC follows R226; the reserved codes match no length. -/
def urAtomOk (aop asz addr bytes : Nat) : Bool :=
  match AtomOp.ofCode aop with
  | some op =>
    let n := aszBytes asz
    (n == 4 || n == 8 || (op == .cas && n == 16)) && addr % n == 0 && bytes == (if op = .cas then 2 * n else n)
  | none => false

/-- A request of a design takes its tag and enters the module; while the lead is offered it is held (R406). -/
def State.portEnter (s : State) (p tag : Nat) (r : Req) : State :=
  let l := s.port p
  let s := s.setPort p { l with dreq := l.dreq ++ [tag] }
  let r := { r with stream := l.gen, tag := tag, ord := s.jNext }
  let s := { s with jNext := s.jNext + 1 }
  if s.ho == .offer then { s with hoHeld := s.hoHeld ++ [r] } else s.enterReq r

/-- A request of a design that may be handled (R223, R249, R398, R406): a tag that is still out takes the link down, a
follower answers ACCESS_DENIED, a breach of the format is answered TARGET_ERROR. -/
def State.portTake (s : State) (p : Nat) (tag : Nat) (ok : Bool) (r : Req) : State :=
  if (s.port p).dreq.contains tag then s.protoFatal p 4
  else if s.mode = .FOLLOW then (s.count .SEM_FOLLOW_DROP_DROPS).urSend p (.response tag 4 0 true [] none 0)
  else if !ok then (s.protoErr p 6).urSend p (.response tag 2 0 true [] none 0)
  else s.portEnter p tag r

/-- A request of a port at a local address. -/
def portReq (p : Nat) (kind : Kind) (addr len : Nat) (data : List Byte) (priv exec : Bool) : Req :=
  { who := .port p, kind := kind, addr := addr, len := len, data := data, priv := priv, exec := exec }

/-- The tag of a request packet, whether it follows R224 and R226, and the request. INIT, SEQ and RETRY are ignored; mask bits
beyond the last granule too. -/
def reqOf (p : Nat) (err : MemErr) : UrPkt → Option (Nat × Bool × Req)
  | .read tag len a priv ex => some (tag, spanOk a len, { portReq p .read a len [] priv ex with err := err })
  | .write tag _ _ a _ priv ex data mask =>
    some (tag, spanOk a data.length, { portReq p .write a data.length data priv ex with
      err := err, pois := (poisOf mask).filter fun i => decide (i < (a % 64 + data.length + 63) / 64) })
  | .atomic tag aop asz a priv ex ops =>
    some (tag, urAtomOk aop asz a ops.length, { portReq p (.atomic ((AtomOp.ofCode aop).getD .fetchAdd)) a (aszBytes asz) ops
      priv ex with err := err })
  | .lock tag a priv ex => some (tag, true, portReq p .lock a 1 [] priv ex)
  | .unlock tag a priv ex => some (tag, true, portReq p .unlock a 1 [] priv ex)
  | _ => none

/-! ### Side-band state, request lines, late errors -/

/-- The inbound lines of a port change (R239, R240, R248, R283): ULK_SB_IN in one step, ULK_SB_EVT, and the lines' interrupt
sources. The answer to a poll is read under the latches of the poll. -/
def State.sbTake (s : State) (p lines : Nat) (unsol : Bool) : State :=
  let l := s.port p
  let latch := if unsol then s.fld .ULK_SB_LATCH_LATCH p else l.oldLatch.getD (s.fld .ULK_SB_LATCH_LATCH p)
  let s := if unsol then s else s.setPort p { l with pollOut := false, oldLatch := none }
  let old := s.fld .ULK_SB_IN_LINES p
  let chg := (List.range 64).filter fun i =>
    if latch.testBit i then lines.testBit i else lines.testBit i != old.testBit i
  let evt := chg.foldl (fun m i => m ||| 2 ^ i) (s.fld .ULK_SB_EVT_CHG p)
  let src (i : Nat) : Nat := 0x2400 + 64 * p + i
  let moved := ((List.range 64).filter fun i => s.isLevel (src i) && lines.testBit i != old.testBit i).map src
  let s := s.withLevels moved fun s => (s.set .ULK_SB_IN_LINES p lines).set .ULK_STS_SB_VALID p 1
  let s := s.set .ULK_SB_EVT_CHG p evt
  let s := if chg = [] then s else s.ulkEvt p .ULK_EVT_SB_CHG
  s.each chg fun s i => if s.isLevel (src i) then s else s.raise (src i)

/-- New requests on a line (R242). -/
def State.reqTake (s : State) (p line count : Nat) : State :=
  let i := 16 * p + line
  let n := s.fld .ULK_REQ_CNT_PENDING i + count % 65536
  let s := s.set .ULK_REQ_CNT_PENDING i (min 65535 n)
  if n ≤ 65535 then s else (s.count .ULK_REQ_CNT_OVF i (n - 65535)).ulkEvt p .ULK_EVT_REQ_OVF

/-- A late-error notice (R166, R236). -/
def State.lateTake (s : State) (p init seq status : Nat) : State :=
  let s := s.ulkEvt p .ULK_EVT_LATE_NOTICE
  let st := if 2 ≤ status ∧ status ≤ 5 then status else 2
  if s.ledger.any fun e => e.port == p && e.init == init && e.seq == seq then
    { s with late := s.late ++ [⟨p, init, seq, st⟩] }
  else match (if init = 0 then s.hist.find? fun h => h.port == p && h.seq == seq else none) with
    | some h => s.lateError h st
    | none => s.lateMiss p init seq st

/-! ### Handling -/

/-- A VC0 or VC2 packet of a design does what it says; its credit is freed. -/
def State.pktDo (s : State) (p : Nat) (k : UrPkt) (err : MemErr) : State :=
  let s := s.rxFree p k
  match reqOf p err k with
  | some (tag, ok, r) => s.portTake p tag ok r
  | none => match k with
    | .sbState _ unsol lines => s.sbTake p (lines % 2 ^ 64) unsol
    | .req line count => s.reqTake p (line % 16) count
    | .lateError init seq st => s.lateTake p init seq st
    | _ => s

/-- A packet waits: the port is in HELLO (R243), or the module is contained and it is a request (R487). -/
def State.pktWaits (s : State) (p : Nat) (k : UrPkt) : Bool :=
  s.fld .ULK_STS_STATE p == 1 || (s.mode == .CONTAIN && k.vc == 0)

/-- Packets that were held and need not wait any more, in order (R243, R487). -/
def State.heldServe (s : State) (p : Nat) : State :=
  let l := s.port p
  let wait := l.held.filter fun e => s.pktWaits p e.1
  if wait.length = l.held.length then s
  else
    let go := l.held.filter fun e => !s.pktWaits p e.1
    ((s.setPort p { l with held := wait }).each go fun s e => if s.urRuns p then s.pktDo p e.1 e.2 else s).starchSettle

/-- The command of a VC0 or VC2 packet of a design: after those held before it, it is handled, or held itself. -/
def State.pktRx (s : State) (p : Nat) (k : UrPkt) (err : MemErr) : State :=
  if !s.urRuns p then s
  else ((s.heldServe p).rxServe p k fun s => if s.pktWaits p k then s.rxHold p k err else s.pktDo p k err).starchSettle

/-- Requests that a failed handover put back, and what waited behind them, go on; and what ports held in CONTAIN (R487). -/
def State.hoFlush (s : State) : State :=
  (State.govFlush (State.stage State.deliver) s).starchSettle.each (List.range 16) State.heldServe

end Sys2Proof.Machine
end

