-- ==== Sys2Proof/Machine/UrReq.lean ====
section
/-!
DEFINITION. The commands of requests from a local design (R144, R223 to R228, R398, R399, R406, R487).
-/
namespace Sys2Proof.Machine

/-- UR_READ_RX; `err` is what its granule reads as, should it lie in the SRAM or the store (R450). -/
def execUrReadRx (p : Port) (tag : Fin 4096) (len : Nat) (addr : Fin 1099511627776) (priv exec : Bool) (err : MemErr) (s : State) :
    Res :=
  .next (s.pktRx p (.read tag len addr priv exec) err)

/-- UR_WRITE_RX. -/
def execUrWriteRx (p : Port) (tag : Fin 4096) (init seq : Nat) (addr : Fin 1099511627776) (retry priv exec : Bool) (data : List Byte)
    (mask : Option Nat) (err : MemErr) (s : State) : Res :=
  .next (s.pktRx p (.write tag init seq addr retry priv exec data mask) err)

/-- UR_ATOMIC_RX. -/
def execUrAtomicRx (p : Port) (tag : Fin 4096) (aop : Fin 16) (asz : Fin 4) (addr : Fin 1099511627776) (priv exec : Bool)
    (ops : List Byte) (err : MemErr) (s : State) : Res :=
  .next (s.pktRx p (.atomic tag aop asz addr priv exec ops) err)

/-- UR_LOCK_RX. -/
def execUrLockRx (p : Port) (tag : Fin 4096) (addr : Fin 1099511627776) (priv exec : Bool) (s : State) : Res :=
  .next (s.pktRx p (.lock tag addr priv exec) .clean)

/-- UR_UNLOCK_RX. -/
def execUrUnlockRx (p : Port) (tag : Fin 4096) (addr : Fin 1099511627776) (priv exec : Bool) (s : State) : Res :=
  .next (s.pktRx p (.unlock tag addr priv exec) .clean)

end Sys2Proof.Machine
end

