-- ==== Sys2Proof/Machine/Pair.lean ====
section
/-!
DEFINITION. The commands of the pair (R390 to R407): Seam packets, side-band lines, heartbeats, the handover.
-/
namespace Sys2Proof.Machine

/-- A Seam packet is taken while the link layer is UP. -/
def State.seamRx (s : State) (k : SeamPkt) (g : State → State) : State :=
  s.when (s.urUp 16) fun s => (s.rxServe 16 (.seam k) fun s => g (s.rxFree 16 (.seam k))).starchSettle

/-- SEAM_HELLO_RX, with the dual-homed designs the twin shows: port and DESIGN_ID (R391, R392). -/
def execSeamHelloRx (version mver mode : Nat) (leading : Bool) (fw serial : Nat) (far : List (Nat × Nat)) (s : State) : Res :=
  .next (s.seamRx (.hello version mver mode leading fw serial) fun s =>
    ({ s with twinFar := far }.seamHello mver mode leading fw serial).hoFlush)

/-- HEARTBEAT_TX (R394). -/
def execHeartbeatTx (s : State) : Res :=
  .next (s.when (s.urUp 16) fun s =>
    let m := s.fld .SEM_MSEQ_TX
    State.seamSend { s with hbCount := (s.hbCount + 1) % 256 }
      (.heartbeat s.hbCount s.leading (s.mode == .CONTAIN) (s.fld .SEM_STS_SYNC) m))

/-- A heartbeat is heard: the count of missed ones restarts, and TWIN_MODE follows it; a twin that neither leads nor is
contained and has a mirror state follows (DEDUCED, assumption 74). It is ignored once the Seam receiver has stopped (R400,
R407). -/
def State.hbTake (s : State) (leading contained : Bool) (sync : Nat) : State :=
  if s.seamStop then s
  else
    let md := if contained then Mode.CONTAIN.code else if leading then Mode.LEAD.code
      else if sync ≠ 0 then Mode.FOLLOW.code else s.fld .SEM_STS_TWIN_MODE
    ({ s with hbMiss := 0, hbLast := s.tick, twinSync := sync }.set .SEM_STS_SUSPECT 0 0).set .SEM_STS_TWIN_MODE 0 md

/-- HEARTBEAT_RX. -/
def execHeartbeatRx (count : Nat) (leading contained : Bool) (sync mseq : Nat) (s : State) : Res :=
  .next (s.seamRx (.heartbeat count leading contained sync mseq) fun s => s.hbTake leading contained sync)

/-- HEARTBEAT_MISS. -/
def execHeartbeatMiss (s : State) : Res := .next s.hbMissed.hoFlush

/-- PAIR_ALIVE_TOGGLE. -/
def execPairAliveToggle (s : State) : Res :=
  .next (s.when (s.mode == .LEAD || s.mode == .FOLLOW || s.mode == .CONTAIN) fun s =>
    { s with mg.aliveOut := !s.mg.aliveOut }.send (.pairAlive (!s.mg.aliveOut)))

/-- PAIR_ALIVE_EDGE. -/
def execPairAliveEdge (s : State) : Res :=
  .next (s.when (s.mode != .OFF) fun s => s.set .SEM_STS_TWIN_ALIVE 0 1)

/-- ALIVE_WIN_EXPIRE (R401). -/
def execAliveWinExpire (s : State) : Res :=
  .next (s.when (s.mode != .OFF) fun s => ((s.set .SEM_STS_TWIN_ALIVE 0 0).lossDecide).hoFlush)

/-- SEAM powers up for a twin that is present, when the record enables the pair (R391). -/
def State.seamPower (s : State) : State :=
  if s.flag .SEM_STS_TWIN_PRESENT && s.evFlags.testBit 2 && s.domOn 1 && s.dom 19 == .off then s.setDom 19 .powering else s

/-- TWIN_PRESENT_CHANGE: PAIR_PRESENT_N goes low (`present`) or high. -/
def execTwinPresentChange (present : Bool) (s : State) : Res :=
  .next (
    let s := s.set .SEM_STS_TWIN_PRESENT 0 (bit present)
    if s.mode = .OFF then s
    else if !present then
      let s := s.lossDecide.hoFlush
      if s.mode = .BOOT ∧ s.bt.image.isSome ∧ !s.bt.roleSettled then s.settled else s
    else
      let s := if s.mode = .LEAD ∨ s.mode = .FOLLOW ∨ s.mode = .CONTAIN then s.seamPower else s
      if s.flag .PWR_WAKE_EN_TWIN then s.moduleWake 0x13 else s)

/-- PAIR_ROLE_CHANGE: the twin's PAIR_ROLE line. -/
def execPairRoleChange (high : Bool) (s : State) : Res := .next (s.set .SEM_STS_TWIN_LEADS 0 (bit high))

/-- MIRROR_RX (R395). -/
def execMirrorRx (rtype mseq arg : Nat) (payload : List Nat) (s : State) : Res :=
  .next (s.seamRx (.mirror rtype mseq arg payload) fun s => s.mirrorRx rtype mseq arg payload)

/-- MIRROR_ACK_RX (R397). -/
def execMirrorAckRx (mseq : Nat) (s : State) : Res := .next (s.seamRx (.mirrorAck mseq) fun s => s.mirrorAckRx mseq)

/-- A request held at the old leader is answered as a follower answers it (R398, R399, R406). -/
def State.hoAnswer (s : State) (r : Req) : State :=
  if r.who.isHost then s.followRefuse r else (s.count .SEM_FOLLOW_DROP_DROPS).answer r 4 []

/-- HANDOVER_RX: 1 OFFER, 2 ACCEPT, 3 ABORT (R406). A leader that is contained meanwhile stays contained (R388): its handover
fails, and the twin's lead is found at the release. -/
def execHandoverRx (op : Fin 8) (mseq : Nat) (s : State) : Res :=
  .next (s.seamRx (.handover op mseq) fun s =>
    if op.val = 1 then s.hoOffer mseq
    else if op.val = 2 then
      (if s.ho ≠ .offer then s
       else if s.mode ≠ .LEAD then s.hoFail.hoFlush
       else
        let held := s.hoHeld
        State.each { s with hoHeld := [] }.hoAccepted held State.hoAnswer)
    else if op.val = 3 then { s with offered := none }
    else s)

/-- PAIR_CTL_RX: 1 CONTAINED, 2 LEAVE, 3 SNAP_REQ (R393, R401). -/
def execPairCtlRx (op : Fin 8) (s : State) : Res :=
  .next (s.seamRx (.pairCtl op) fun s =>
    if op.val = 1 then
      let s := s.set .SEM_STS_TWIN_MODE 0 Mode.CONTAIN.code
      (if s.paired && s.fld .SEM_STS_ROLE == 2 && s.fld .SEM_STS_SYNC == 2 && s.mode == .FOLLOW
          && s.flag .SEM_STS_TWIN_PRESENT && s.linkOpen then s.takeover 2 else s)
    else if op.val = 2 then (s.twinLost 3).hoFlush
    else if op.val = 3 then
      (if s.leads then State.snapshot ({ s with seamStop := false, twinSync := 1 }.set .SEM_STS_SYNC 0 2) else s)
    else s)

/-- A write of 1 to an action bit of SEM_CTL. -/
def State.semCtl (s : State) (core : Option Core) (f : Fld) : State :=
  s.ctlWrite (byWho core) .SEM_CTL 0 (2 ^ (fldInfo f).lo) (2 ^ (fldInfo f).lo)

/-- SEM_CTL_HANDOVER, SEM_CTL_LEAVE, SEM_CTL_SNAP. -/
def execSemCtlHandover (core : Option Core) (s : State) : Res := .next (s.semCtl core .SEM_CTL_HANDOVER)
def execSemCtlLeave (core : Option Core) (s : State) : Res := .next (s.semCtl core .SEM_CTL_LEAVE).hoFlush
def execSemCtlSnap (core : Option Core) (s : State) : Res := .next (s.semCtl core .SEM_CTL_SNAP)

/-- HO_DRAIN_DONE: OFFER with the last MSEQ; new requests are held from now on. -/
def execHoDrainDone (s : State) : Res :=
  .next (s.when (s.ho == .drain && s.mode == .LEAD && s.hoDrained) fun s =>
    State.seamSend { s with ho := .offer } (.handover 1 (s.fld .SEM_MSEQ_TX)))

/-- HO_DRAIN_TIMEOUT: ABORT is sent and the lead stays. -/
def execHoDrainTimeout (s : State) : Res :=
  .next (s.when (s.ho == .drain) fun s => ((s.seamSend (.handover 3 0)).hoFail).hoFlush)

end Sys2Proof.Machine
end

