-- ==== Sys2Proof/Machine/Mailbox.lean ====
section
/-!
DEFINITION. Mailboxes as their owners and firmware use them (R412, R414), and what is common to the commands served in
them (R411, R416 to R419): who asks, the checks in their order, the response, and the wait for the mirror (R397).
-/
namespace Sys2Proof.Machine

/-! ### The commands of the mailbox control unit -/

/-- A write of ACT by the owner's route. The management mailbox is on no requester's route (R409). -/
def State.actBy (s : State) (m act : Nat) : State :=
  s.when (s.domOn 1) fun s => s.mbxAct m act (m != 0)

/-- MBX_POST, MBX_RELEASE, MBX_CANCEL. -/
def execMbxPost (m : Fin 2109) (s : State) : Res := .next (s.actBy m 1)
def execMbxRelease (m : Fin 2109) (s : State) : Res := .next (s.actBy m 2)
def execMbxCancel (m : Fin 2109) (s : State) : Res := .next (s.actBy m 3)

/-- MBX_CLAIM: a core reads the claim register. -/
def execMbxClaim (c : Core) (s : State) : Res :=
  .next (s.enterReq { who := .core c, kind := .read, addr := regAddr .MBX_CLAIM 0, len := 4, priv := true })

/-! ### Requests and responses -/

/-- A request in a mailbox: the mailbox, its class (R419), the requesting function or port, the payload. -/
structure Cmd where
  m : Nat
  cls : Nat
  who : Nat
  pay : List Byte
  deriving DecidableEq, Repr

/-- A payload field. -/
def Cmd.n (c : Cmd) (off size : Nat) : Nat := ofBytes ((c.pay.drop off).take size)

/-- Requester class by mailbox: M 0, P 1, D 2, V 3, L 4. -/
def mbxClass (m : Nat) : Nat :=
  match mbxOwner m with
  | .mgmt => 0
  | .fn f => if f = 0 then 1 else if f < 4 then 2 else 3
  | .port _ => 4

/-- The request a mailbox holds. -/
def State.cmdAt (s : State) (m : Nat) : Cmd :=
  { m := m, cls := mbxClass m, pay := s.ldBytes (mbxAddr m + 0x40) (min 4032 (ofBytes (s.ldBytes (mbxAddr m + 0x0C) 2)))
    who := match mbxOwner m with | .mgmt => 0xFFFF | .fn f => f | .port p => 0xF000 + p }

/-- The OPCODE, ABI and REQ_LEN of the header. -/
def State.mbxOp (s : State) (m : Nat) : Nat := ofBytes (s.ldBytes (mbxAddr m + 8) 2)
def State.mbxAbi (s : State) (m : Nat) : Nat := ofBytes (s.ldBytes (mbxAddr m + 0x0E) 2)
def State.mbxLen (s : State) (m : Nat) : Nat := ofBytes (s.ldBytes (mbxAddr m + 0x0C) 2)

/-- Firmware writes a response: payload, STATUS, DETAIL, RSP_LEN, DONE_TIME (R411). -/
def State.cmdRespond (s : State) (m st de : Nat) (rsp : List Byte) : State :=
  let b := mbxAddr m
  let s := s.stBytes (b + 0x40) rsp
  let s := s.stBytes (b + 0x14) (toBytes 2 st ++ toBytes 2 de ++ toBytes 2 rsp.length)
  s.st8 (b + 0x28) s.now

/-- Firmware responds and writes MBX_DONE. -/
def State.cmdEnd (s : State) (m st de : Nat) (rsp : List Byte) : State := (s.cmdRespond m st de rsp).mbxDone m

/-- DETAIL of STATE: mode code and role (R418). -/
def State.modeRole (s : State) : Nat := s.mode.code + 8 * s.fld .SEM_STS_ROLE

/-! ### What a command may answer -/

/-- The outcome of a command's action: it ends with STATUS, DETAIL and a response; it cannot begin yet; it has begun and
goes on, with a note for the next look. -/
inductive Ans where
  | done (st de : Nat) (rsp : List Byte)
  | hold
  | wait (note : Nat)
  deriving DecidableEq, Repr

/-- Status codes with what DETAIL holds (R418). -/
def Ans.ok (rsp : List Byte) : Ans := .done 0 0 rsp
def Ans.badParam (off : Nat) : Ans := .done 6 off []
def Ans.locked (f : Nat) : Ans := .done 7 f []
def Ans.refused (result : Nat) : Ans := .done 8 result []
def Ans.busy : Ans := .done 9 0 []
def State.badState (s : State) : Ans := .done 5 s.modeRole []

/-- What a command's action does to the state. The number is 0 at its beginning, and one more than the note afterwards. -/
abbrev Act : Type := Cmd → Nat → State → Ans × State

/-- What the tables of R420 to R431 list of a command: opcode, permitted classes, bounds of the request length; whether
it changes an item mirrored under R395 or R396; whether a CONTAINED function may give it (R416). -/
structure CmdRule where
  op : Nat
  who : List Nat := [0, 1]
  lo : Nat := 0
  hi : Nat := 0
  mir : Bool := false
  free : Bool := false

/-- A command of the fixed request length n. -/
def CmdRule.len (k : CmdRule) (n : Nat) : CmdRule := { k with lo := n, hi := n }

/-- Checks 2 to 5 of R419: the first that fails, with its DETAIL. -/
def State.cmdCheck (s : State) (k : CmdRule) (c : Cmd) : Option (Nat × Nat) :=
  let abi := s.mbxAbi c.m
  let len := s.mbxLen c.m
  if abi ≠ 0 ∧ abi ≠ 0x0100 then some (2, 0x0100)
  else if !k.who.contains c.cls then some (3, c.cls)
  else if len < k.lo then some (4, k.lo)
  else if k.hi < len then some (4, k.hi)
  else if (1 ≤ c.cls && c.cls ≤ 3 && s.fnState c.who == fnCONTAINED && !k.free)
      || (s.mode == .FOLLOW && (k.mir || decide (2 ≤ c.cls))) then some (5, s.modeRole)
  else none

/-- A REG, WINDOW, GUARD or SHARE record with this MSEQ has been acknowledged. -/
def State.mirAcked (s : State) (m : Nat) : Bool :=
  decide ((s.fld .SEM_MSEQ_ACK + 4294967296 - m) % 4294967296 < 2147483648)

/-- A command's action has ended. A leader that mirrors holds the completion of a mirrored change until the follower has
acknowledged it; one that does not mirror reports UNMIRRORED (R397, R418). -/
def State.cmdDone (s : State) (k : CmdRule) (m tx : Nat) (st de : Nat) (rsp : List Byte) : State :=
  let lone := k.mir && st == 0 && s.leads && !s.mirrors
  let s := s.cmdRespond m st (if lone then de ||| 0x8000 else de) rsp
  let now := s.fld .SEM_MSEQ_TX
  if k.mir && st == 0 && s.mirrors && now != tx then { s with mg.cmdRun := nSet s.mg.cmdRun m (2 * now + 2) }
  else s.mbxDone m

/-- Runs a command's action. -/
def State.cmdAct (s : State) (k : CmdRule) (m note : Nat) (act : Act) : State :=
  let tx := s.fld .SEM_MSEQ_TX
  match act (s.cmdAt m) note s with
  | (.done st de rsp, s) => s.cmdDone k m tx st de rsp
  | (.hold, s) => s
  | (.wait n, s) => { s with mg.cmdRun := nSet s.mg.cmdRun m (2 * n + 1) }

/-- Firmware works on a BUSY mailbox whose OPCODE is this command's: it begins the command, or goes on with it. Commands
of data PFs, VFs and local ports wait while the module is in CONTAIN (R416); up to four commands run at once (R414). -/
def State.command (s : State) (m : Nat) (k : CmdRule) (act : Act) : State :=
  let c := s.cmdAt m
  let run := nGet s.mg.cmdRun m
  if !s.fwReady || s.mbxState m != 2 || s.mbxOp m != k.op then s
  else if run % 2 = 1 then s.cmdAct k m (run / 2 + 1) act
  else if run ≠ 0 then
    let q := run / 2 - 1
    if s.mirrors && !s.mirAcked q then s
    else if s.mirAcked q then s.mbxDone m
    else (s.stBytes (mbxAddr m + 0x16) (toBytes 2 0x8000)).mbxDone m
  else if (s.mode == .CONTAIN && decide (2 ≤ c.cls)) || decide (4 ≤ s.mg.cmdRun.length) then s
  else if s.mbxCancelReq m then s.cmdEnd m 0x0C 0 []
  else match s.cmdCheck k c with
    | some (st, de) => s.cmdEnd m st de []
    | none => s.cmdAct k m 0 act

/-- The opcodes served (R420 to R431). -/
def cmdOpcodes : List Nat :=
  [0x0001, 0x0002, 0x0101, 0x0102, 0x0103, 0x0104, 0x0105, 0x0106, 0x0201, 0x0202, 0x0203, 0x0204, 0x0205, 0x0206,
   0x0301, 0x0302, 0x0303, 0x0304, 0x0401, 0x0402, 0x0501, 0x0502, 0x0503, 0x0601, 0x0602, 0x0603, 0x0701, 0x0702,
   0x0703, 0x0801, 0x0802, 0x0803, 0x0804, 0x0805, 0x0901, 0x0902, 0x0903, 0x0904, 0x0905, 0x0906, 0x0A01, 0x0A02,
   0x0A03, 0x0B01, 0x0B02, 0x0B03, 0x0C01, 0x0C02, 0x0D01, 0x0D02, 0x0D03]

/-- MBX_DONE: firmware's write. A BUSY mailbox whose OPCODE is not served gets BAD_OPCODE first (R418, R419). -/
def execMbxDone (m : Fin 2109) (s : State) : Res :=
  .next (s.when (s.domOn 1) fun s =>
    let s := if s.fwReady && s.mbxState m == 2 && !cmdOpcodes.contains (s.mbxOp m) then s.cmdRespond m 1 0 [] else s
    s.mbxDone m)

/-! ### Shared by the commands -/

/-- All classes; the classes that name functions and contexts; those and the ports (R419). -/
def whoAll : List Nat := [0, 1, 2, 3, 4]
def whoFn : List Nat := [0, 1, 2, 3]

/-- A context as a requester names it: its own index for D and V, the global one for M and P. -/
def State.cmdCtx (s : State) (c : Cmd) (v : Nat) : Option Nat :=
  let x := if c.cls < 2 then v else s.fld .FN_RES_FIRST_CTX c.who + v
  if (c.cls < 2 || decide (v < s.fld .FN_RES_CTX_COUNT c.who)) && decide (x < 4096) then some x else none

/-- A register value from fields, and the mask of those fields. -/
def fieldsVal (l : List (Fld × Nat)) : Nat := l.foldl (fun a e => a ||| (e.2 % 2 ^ (fldInfo e.1).w) * 2 ^ (fldInfo e.1).lo) 0
def fieldsMask (l : List (Fld × Nat)) : Nat := l.foldl (fun a e => a ||| (2 ^ (fldInfo e.1).w - 1) * 2 ^ (fldInfo e.1).lo) 0

/-- The serving core writes fields of a register. -/
def State.cmdPut (s : State) (c : Cmd) (r : Reg) (i : Nat) (l : List (Fld × Nat)) : State :=
  s.regDo (.core (s.fld .MBX_MB_CORE c.m)) r i (fieldsVal l) (fieldsMask l)

/-- The serving core writes a whole register. -/
def State.cmdReg (s : State) (c : Cmd) (r : Reg) (i v : Nat) : State :=
  s.regDo (.core (s.fld .MBX_MB_CORE c.m)) r i v (laneMask 0 (regBytes r))

/-- A register value as response bytes. -/
def State.rspReg (s : State) (n : Nat) (r : Reg) (i : Nat) : List Byte := toBytes n (s.regView r i)

end Sys2Proof.Machine
end

