-- ==== Sys2Proof/Machine/Share.lean ====
section
/-!
DEFINITION. The commands of the share governor (R315, R318, R326, R329 to R334).
-/
namespace Sys2Proof.Machine

/-- GOV_EPOCH: credit is granted, and what waited for it goes on. -/
def execGovEpoch (s : State) : Res :=
  .next (s.when (s.domOn 1) fun s => (State.govFlush (State.stage State.deliver) s.govEpoch).starchSettle)

/-- GOV_WINDOW_END. -/
def execGovWindowEnd (s : State) : Res := .next (s.when (s.domOn 1) State.govWindow)

/-- GOV_STEP. -/
def execGovStep (s : State) : Res := .next (s.when (s.domOn 1) State.govStep)

/-- SHR_UPD_CMD: the account with GO. -/
def execShrUpdCmd (core : Option Core) (acct : Fin 8192) (s : State) : Res :=
  .next (s.ctlWrite (byWho core) .SHR_UPD_CMD 0 (acct.val + 2147483648) 0xFFFFFFFF)

/-- SHR_UPD_DONE. -/
def execShrUpdDone (s : State) : Res := .next (s.when (s.domOn 1) State.shrUpdDone)

/-- SHR_CTX_BIND_WRITE of a context. -/
def execShrCtxBindWrite (core : Option Core) (x : Ctx) (v : BitVec 32) (s : State) : Res :=
  .next (s.ctlWrite (byWho core) .SHR_CTX_BIND x v.toNat 0xFFFFFFFF)

/-- A spilled request goes back into its inbound queue. -/
def State.unspill (s : State) (r : Req) : State :=
  let s := { s with spill := s.spill.erase r }
  if s.govStays s.govq r then { s with govq := s.govq ++ [(s.tick, r)] }
  else ((State.stage State.deliver) (s.govTake r s.tick) r).starchSettle

/-- SPILL_RETURN: the oldest spilled request of a function that now fits goes back. -/
def execSpillReturn (f : Fn) (s : State) : Res :=
  .next (match s.spill.find? fun r => r.fn == f.val with
    | none => s
    | some r =>
      if s.inboundUse f ≠ 0 ∧ s.fld .SHR_CFG_IN_FN_MAX * 1024 < s.inboundUse f + inboundBytes r then s else s.unspill r)

end Sys2Proof.Machine
end

