-- ==== Sys2Proof/Machine/CmdItems.lean ====
section
/-!
DEFINITION. The commands on functions, contexts, windows, guard regions, interrupts, channels and shares (R420 to R426).
-/
namespace Sys2Proof.Machine

/-! ### General (R420) -/

/-- NOP. -/
def execNop (m : Fin 2109) (s : State) : Res :=
  .next (s.command m { op := 0x0001, who := whoAll, hi := 4032 } fun c _ s => (.ok c.pay, s))

/-- GET_INFO. -/
def execGetInfo (m : Fin 2109) (s : State) : Res :=
  .next (s.command m { op := 0x0002, who := whoAll, free := true } fun c _ s =>
    (.ok (toBytes 2 0x0100 ++ toBytes 2 0x0D03 ++ toBytes 4 s.fwVer ++ toBytes 1 s.mode.code
      ++ toBytes 1 (s.fld .SEM_STS_ROLE) ++ toBytes 2 c.m ++ toBytes 2 c.who), s))

/-! ### Functions (R421) -/

/-- FN_QUERY: a D or V requester may name itself and, for a data PF, its VFs. -/
def execFnQuery (m : Fin 2109) (s : State) : Res :=
  .next (s.command m (CmdRule.len { op := 0x0101, who := whoFn, free := true } 2) fun c _ s =>
    let f := if c.n 0 2 = 0xFFFF then c.who else c.n 0 2
    if 2052 ≤ f ∨ (2 ≤ c.cls ∧ f ≠ c.who ∧ ¬(c.cls = 2 ∧ s.parent f = c.who)) then (.badParam 0, s)
    else (.ok (s.rspReg 4 .FN_ID f ++ s.rspReg 4 .FN_STS f ++ s.rspReg 4 .FN_RES f ++ toBytes 4 (s.funcState f)), s))

/-- Another function's context range overlaps [a, a + n). -/
def State.resOverlap (s : State) (f a n : Nat) : Bool :=
  (s.listed .FN_RES_CTX_COUNT).any fun g =>
    g != f && decide (a < s.fld .FN_RES_FIRST_CTX g + s.fld .FN_RES_CTX_COUNT g) && decide (s.fld .FN_RES_FIRST_CTX g < a + n)
      && n != 0

/-- FN_SET_RES. -/
def execFnSetRes (m : Fin 2109) (s : State) : Res :=
  .next (s.command m (CmdRule.len { op := 0x0102, mir := true } 6) fun c _ s =>
    let f := c.n 0 2
    let a := c.n 2 2
    let n := c.n 4 2
    let leaves (x : Nat) : Bool := s.flag .SHR_CTX_BIND_VALID x && s.fld .SHR_CTX_BIND_FUNC x == f
      && (decide (x < a) || decide (a + n ≤ x))
    if 2052 ≤ f then (.badParam 0, s)
    else if 4096 < a + n ∨ s.resOverlap f a n = true then (.badParam 2, s)
    else if (if f < 4 then 1024 else 8) < n then (.badParam 4, s)
    else if ((List.range (s.fld .FN_RES_CTX_COUNT f)).map (s.fld .FN_RES_FIRST_CTX f + ·)).any leaves then (s.badState, s)
    else (.ok [], s.cmdPut c .FN_RES f [(.FN_RES_FIRST_CTX, a), (.FN_RES_CTX_COUNT, n)]))

/-- SLICE_BIND: a duplicate ends BAD_PARAM, a locked TDI LOCKED. -/
def execSliceBind (m : Fin 2109) (s : State) : Res :=
  .next (s.command m (CmdRule.len { op := 0x0103, mir := true } 8) fun c _ s =>
    let k := c.n 0 1
    let f := c.n 2 2
    let pasid := c.n 4 4
    let dup := (s.listed .FN_SLICE_VALID).any fun j =>
      j != k && s.fld .FN_SLICE_FUNC j == f && s.fld .FN_SLICE_PASID j == pasid
    let old := s.fld .FN_SLICE_FUNC k
    if f = 0 ∨ 2052 ≤ f then (.badParam 2, s)
    else if 1048576 ≤ pasid ∨ dup = true then (.badParam 4, s)
    else if s.flag .FN_SLICE_VALID k && s.tdiHeld old then (.locked old, s)
    else if s.tdiHeld f then (.locked f, s)
    else
      let t := s.cmdPut c .FN_SLICE k [(.FN_SLICE_VALID, 1), (.FN_SLICE_PRIV_OK, c.n 1 1 % 2),
        (.FN_SLICE_EXEC_OK, c.n 1 1 / 2 % 2), (.FN_SLICE_FUNC, f), (.FN_SLICE_PASID, pasid)]
      (.ok [], t.bdtRefresh))

/-- SLICE_UNBIND. -/
def execSliceUnbind (m : Fin 2109) (s : State) : Res :=
  .next (s.command m (CmdRule.len { op := 0x0104, mir := true } 1) fun c _ s =>
    let k := c.n 0 1
    let old := s.fld .FN_SLICE_FUNC k
    if s.flag .FN_SLICE_VALID k && s.tdiHeld old then (.locked old, s)
    else (.ok [], (s.cmdPut c .FN_SLICE k [(.FN_SLICE_VALID, 0)]).bdtRefresh))

/-- FN_LOCK. -/
def execFnLock (m : Fin 2109) (s : State) : Res :=
  .next (s.command m (CmdRule.len { op := 0x0105, mir := true } 3) fun c _ s =>
    let f := c.n 0 2
    if 2052 ≤ f then (.badParam 0, s)
    else if 1 < c.n 2 1 then (.badParam 2, s)
    else if c.n 2 1 = 0 ∧ s.tdiHeld f = true then (.locked f, s)
    else (.ok [], s.cmdPut c .FN_CTL f [(.FN_CTL_PROV_LOCK, c.n 2 1)]))

/-- Bytes laid over others at an offset. -/
def overlay (b : List Byte) (off : Nat) (d : List Byte) : List Byte := b.take off ++ d ++ b.drop (off + d.length)

/-- An Evoset record with every field at its default (R385). -/
def evDefault : List Byte :=
  [0x45, 0x56, 0x53, 0x52] ++ toBytes 2 0x0100 ++ toBytes 2 0x40 ++ toBytes 8 0 ++ [0, 6] ++ toBytes 2 1 ++ toBytes 2 1024
    ++ toBytes 2 512 ++ toBytes 2 512 ++ toBytes 2 0xFFFF ++ toBytes 4 0 ++ toBytes 8 0x1FF0000000 ++ toBytes 8 0x1FE0000000
    ++ toBytes 8 0x1FDC000000 ++ toBytes 8 0x1FF1000000

/-- The copy of the record in use, or the defaults, as 4,096 bytes, and its LENGTH. -/
def State.evBuffer (s : State) : List Byte × Nat :=
  let b := match evPick s.bt.ev0 s.bt.ev1 with | some r => r.body | none => evDefault
  ((b ++ List.replicate (4096 - b.length) 0).take 4096, b.length)

/-- Writes the copy that is not in use, with SEQ + 1, LENGTH and CRC (R385, R429). Answers SEQ. -/
def State.evCommit (s : State) (buf : List Byte) (len : Nat) : Nat × State :=
  let used := evPick s.bt.ev0 s.bt.ev1
  let seq := (((used.map (·.seq)).getD 0) + 1) % 4294967296
  let b := overlay (overlay (overlay buf 6 (toBytes 2 len)) 8 (toBytes 4 seq)) 0x0C [0, 0, 0, 0] |>.take len
  let r : EvRec := { good := true, seq := seq, body := overlay b 0x0C (toBytes 4 (crc32 b)) }
  (seq, if used = some s.bt.ev0 then { s with bt.ev1 := r } else { s with bt.ev0 := r })

/-- VF_TOTAL: FN_VF_TOTAL and the record. -/
def execVfTotal (m : Fin 2109) (s : State) : Res :=
  .next (s.command m (CmdRule.len { op := 0x0106 } 6) fun c _ s =>
    let v := (c.n 0 2, c.n 2 2, c.n 4 2)
    if 1024 < v.1 then (.badParam 0, s)
    else if 1024 < v.2.1 then (.badParam 2, s)
    else if !vfTotalsOk v.1 v.2.1 v.2.2 then (.badParam 4, s)
    else
      let (buf, len) := s.evBuffer
      (.ok [], ((s.setVfTotal v).evCommit (overlay buf 0x14 c.pay) (max len 0x1A)).2))

/-! ### Contexts (R422) -/

/-- A write of SHR_CTX_BIND, or why it is dropped. -/
def State.cmdBind (s : State) (c : Cmd) (x : Nat) (valid sliceEn : Bool) (slice f : Nat) (chargeIn : Bool) : Ans × State :=
  let old := s.fld .SHR_CTX_BIND_FUNC x
  if s.bindBad x valid sliceEn slice f chargeIn then
    let s := s.set .SHR_STS_BIND_DROP 0 1
    (if s.flag .FN_CTL_PROV_LOCK f then .locked f else if s.flag .FN_CTL_PROV_LOCK old then .locked old else s.badState, s)
  else
    (.ok [], (s.cmdPut c .SHR_CTX_BIND x [(.SHR_CTX_BIND_VALID, bit valid), (.SHR_CTX_BIND_SLICE_EN, bit sliceEn),
      (.SHR_CTX_BIND_SLICE, slice), (.SHR_CTX_BIND_FUNC, f), (.SHR_CTX_BIND_CHARGE_IN, bit chargeIn)]).bdtRefresh)

/-- CTX_BIND. -/
def execCtxBind (m : Fin 2109) (s : State) : Res :=
  .next (s.command m (CmdRule.len { op := 0x0201, mir := true } 6) fun c _ s =>
    let x := c.n 0 2
    if 4096 ≤ x then (.badParam 0, s)
    else if 2052 ≤ c.n 2 2 then (.badParam 2, s)
    else s.cmdBind c x true ((c.n 5 1).testBit 0) (c.n 4 1) (c.n 2 2) ((c.n 5 1).testBit 1))

/-- CTX_UNBIND: VALID falls, the other fields stay. -/
def execCtxUnbind (m : Fin 2109) (s : State) : Res :=
  .next (s.command m (CmdRule.len { op := 0x0202, mir := true } 2) fun c _ s =>
    let x := c.n 0 2
    if 4096 ≤ x then (.badParam 0, s)
    else s.cmdBind c x false (s.flag .SHR_CTX_BIND_SLICE_EN x) (s.fld .SHR_CTX_BIND_SLICE x) (s.fld .SHR_CTX_BIND_FUNC x)
      (s.flag .SHR_CTX_BIND_CHARGE_IN x))

/-- Why a CTX_SETUP payload is bad: the first bad field. Its owner is a data PF or a VF, which may use the spaces HOST
and BAR2 (R254). -/
def setupBad (c : Cmd) : Option Nat :=
  let log (n : Nat) : Bool := decide (4 ≤ n) && decide (n ≤ 16)
  let space (n : Nat) : Bool := n == 1 || n == 2
  if !log (c.n 2 1) then some 2
  else if !log (c.n 3 1) then some 3
  else if !space (c.n 4 1) then some 4
  else if !space (c.n 5 1) then some 5
  else if c.n 6 1 = 0 ∨ 8 < c.n 6 1 then some 6
  else if c.n 8 8 % 4096 ≠ 0 then some 8
  else if c.n 0x10 8 % 4096 ≠ 0 then some 0x10
  else none

/-- A descriptor of the context is running. -/
def State.ctxRuns (s : State) (x : Nat) : Bool := (s.ringOf x).running != []

/-- The steps of R422 on a context, and the response. -/
def State.ctxSetup (s : State) (c : Cmd) (x : Nat) : List Byte × State :=
  let s := (s.cmdPut c .DMA_SQ_CFG x [(.DMA_SQ_CFG_EN, 0)]).cmdPut c .DMA_CQ_CFG x [(.DMA_CQ_CFG_EN, 0)]
  let s := s.cmdPut c .DMA_RING_CTL x [(.DMA_RING_CTL_RESET, 1)]
  let s := (s.cmdReg c .DMA_SQ_BASE x (c.n 8 8)).cmdReg c .DMA_CQ_BASE x (c.n 0x10 8)
  let s := s.cmdPut c .DMA_CQ_CFG x [(.DMA_CQ_CFG_LOG2N, c.n 3 1), (.DMA_CQ_CFG_SPACE, c.n 5 1)]
  let s := s.cmdPut c .DMA_SQ_CFG x [(.DMA_SQ_CFG_LOG2N, c.n 2 1), (.DMA_SQ_CFG_SPACE, c.n 4 1),
    (.DMA_SQ_CFG_PAR, c.n 6 1)]
  let s := if (c.n 7 1).testBit 0 then
      (s.cmdPut c .DMA_CQ_CFG x [(.DMA_CQ_CFG_EN, 1)]).cmdPut c .DMA_SQ_CFG x [(.DMA_SQ_CFG_EN, 1)]
    else s
  let k := x - s.fld .FN_RES_FIRST_CTX (s.fld .SHR_CTX_BIND_FUNC x)
  (toBytes 2 x ++ [0, 0] ++ toBytes 4 (0x100 * k), s.bdtRefresh)

/-- CTX_SETUP. -/
def execCtxSetup (m : Fin 2109) (s : State) : Res :=
  .next (s.command m (CmdRule.len { op := 0x0203, who := whoFn, mir := true } 24) fun c _ s =>
    match s.cmdCtx c (c.n 0 2) with
    | none => (.badParam 0, s)
    | some x =>
      if !s.flag .SHR_CTX_BIND_VALID x || (decide (2 ≤ c.cls) && s.fld .SHR_CTX_BIND_FUNC x != c.who) then (.badParam 0, s)
      else match setupBad c with
        | some o => (.badParam o, s)
        | none => if s.ctxRuns x then (.busy, s) else (.ok (s.ctxSetup c x).1, (s.ctxSetup c x).2))

/-- CTX_QUERY: the status record and the ring status. -/
def execCtxQuery (m : Fin 2109) (s : State) : Res :=
  .next (s.command m (CmdRule.len { op := 0x0204, who := whoFn, free := true } 2) fun c _ s =>
    match s.cmdCtx c (c.n 0 2) with
    | none => (.badParam 0, s)
    | some x => (.ok ((List.range 4).flatMap (fun w => toBytes 8 (s.ctxStatus x w)) ++ s.rspReg 4 .DMA_SQ_STS x
        ++ [0, 0, 0, 0] ++ s.rspReg 8 .DMA_CQ_PTR x), s))

/-- RING_RESUME. -/
def execRingResume (m : Fin 2109) (s : State) : Res :=
  .next (s.command m (CmdRule.len { op := 0x0205, who := whoFn } 2) fun c _ s =>
    match s.cmdCtx c (c.n 0 2) with
    | none => (.badParam 0, s)
    | some x =>
      if s.fld .DMA_SQ_STS_STATE x ≠ 3 then (s.badState, s)
      else (.ok [], s.cmdPut c .DMA_RING_CTL x [(.DMA_RING_CTL_RESUME, 1)]))

/-- RING_RESET. -/
def execRingReset (m : Fin 2109) (s : State) : Res :=
  .next (s.command m (CmdRule.len { op := 0x0206, who := whoFn, mir := true } 2) fun c _ s =>
    match s.cmdCtx c (c.n 0 2) with
    | none => (.badParam 0, s)
    | some x =>
      if s.ctxRuns x then (.busy, s)
      else (.ok [], s.cmdPut c .DMA_RING_CTL x [(.DMA_RING_CTL_RESET, 1)]))

/-! ### Windows and guard (R423) -/

/-- The end of a command that ran an update unit, with UNMIRRORED of the unit. -/
def unitOk (unmirrored : Bool) : Ans := .done 0 (0x8000 * bit unmirrored) []

/-- The command waits for the window update unit, which works as far as it can. -/
def State.winGo (s : State) : Ans × State :=
  let s := s.xltCommit.xltInvalDone
  (if s.flag .XLT_UPD_STS_BUSY then .wait 0 else unitOk (s.flag .XLT_UPD_STS_UNMIRRORED), s)

/-- A command is written to the window update unit. -/
def State.winCmd (s : State) (c : Cmd) (i op : Nat) : State :=
  let s := s.cmdPut c .XLT_UPD_STS 0 [(.XLT_UPD_STS_UNMIRRORED, 1)]
  s.cmdPut c .XLT_UPD_CMD 0 [(.XLT_UPD_CMD_INDEX, i), (.XLT_UPD_CMD_OP, op), (.XLT_UPD_CMD_GO, 1)]

/-- What follows a command to the unit, whose CHECK may have refused it. -/
def State.winStart (s : State) : Ans × State :=
  if s.flag .XLT_UPD_STS_BUSY then s.winGo else (.refused (s.fld .XLT_UPD_STS_RESULT), s)

/-- WIN_WRITE's data and command are written to the unit. -/
def State.winLoad (s : State) (c : Cmd) : State :=
  (s.each (List.range 4) fun s k => s.cmdReg c .XLT_UPD_DATA k (c.n (8 + 8 * k) 8)).winCmd c (c.n 0 4) 0

/-- The table is rebuilt when a change of a window has ended. -/
def winEnd (r : Ans × State) : Ans × State :=
  match r.1 with
  | .done _ _ _ => (r.1, r.2.bdtRefresh)
  | _ => r

/-- WIN_WRITE. -/
def execWinWrite (m : Fin 2109) (s : State) : Res :=
  .next (s.command m (CmdRule.len { op := 0x0301, mir := true } 40) fun c n s =>
    if n ≠ 0 then winEnd s.winGo
    else if 524288 ≤ c.n 0 4 then (.badParam 0, s)
    else if s.flag .XLT_UPD_STS_BUSY then (.hold, s)
    else winEnd (s.winLoad c).winStart)

/-- WIN_READ: the entry as held in the table. -/
def execWinRead (m : Fin 2109) (s : State) : Res :=
  .next (s.command m (CmdRule.len { op := 0x0302 } 4) fun c _ s =>
    if 524288 ≤ c.n 0 4 then (.badParam 0, s) else (.ok ((s.entry (c.n 0 4)).flatMap (toBytes 8)), s))

/-- WIN_INVAL: OP 1 to 3. -/
def execWinInval (m : Fin 2109) (s : State) : Res :=
  .next (s.command m (CmdRule.len { op := 0x0303 } 5) fun c n s =>
    if n ≠ 0 then s.winGo
    else if 524288 ≤ c.n 0 4 then (.badParam 0, s)
    else if c.n 4 1 = 0 ∨ 3 < c.n 4 1 then (.badParam 4, s)
    else if s.flag .XLT_UPD_STS_BUSY then (.hold, s)
    else (s.winCmd c (c.n 0 4) (c.n 4 1)).winStart)

/-- The response of EPOCH_SYNC. -/
def syncRsp (cur : Nat) (live : List (Nat × Nat)) (ok : Bool) : Ans :=
  .ok (toBytes 2 cur ++ toBytes 2 (oldestLive live cur) ++ [BitVec.ofNat 8 (bit ok)])

/-- The drain register read once: it returns when older epochs have retired or tDRN has passed (`late`). -/
def syncRead (cur thr : Nat) (live : List (Nat × Nat)) (late : Bool) : Ans :=
  if drained live cur thr || late then syncRsp cur live (drained live cur thr) else .wait thr

/-- EPOCH_SYNC: the advance, then one read of the drain register, which tDRN may end (`late`). -/
def execEpochSync (m : Fin 2109) (late : Bool) (s : State) : Res :=
  .next (s.command m (CmdRule.len { op := 0x0304 } 1) fun c n s =>
    if 1 < c.n 0 1 then (.badParam 0, s)
    else if c.n 0 1 = 0 then
      let s := if n = 0 then s.cmdPut c .XLT_EPOCH 0 [(.XLT_EPOCH_ADVANCE, 1)] else s
      let cur := s.fld .XLT_EPOCH_CURRENT
      (syncRead cur (if n = 0 then cur else n - 1) s.xltLive late, s)
    else
      let s := if n = 0 then s.cmdPut c .GRD_EPOCH 0 [(.GRD_EPOCH_ADVANCE, 1)] else s
      let cur := s.fld .GRD_EPOCH_CURRENT
      (syncRead cur (if n = 0 then cur else n - 1) s.grdLive late, s))

/-- The command waits for the guard's update unit. -/
def State.grdGo (s : State) : Ans × State :=
  let s := s.grdCommit
  (if s.flag .GRD_UPD_STS_BUSY then .wait 0 else unitOk (s.flag .GRD_UPD_STS_UNMIRRORED), s)

/-- GRD_WRITE's data and command are written to the unit. -/
def State.grdLoad (s : State) (c : Cmd) : State :=
  let s := (s.cmdPut c .GRD_UPD_STS 0 [(.GRD_UPD_STS_UNMIRRORED, 1)]).cmdReg c .GRD_UPD_DATA 0 (c.n 8 8)
  s.cmdPut c .GRD_UPD_CMD 0 [(.GRD_UPD_CMD_REGION, c.n 1 1), (.GRD_UPD_CMD_SET, c.n 0 1), (.GRD_UPD_CMD_GO, 1)]

/-- GRD_WRITE, by the control cluster. -/
def execGrdWrite (m : Fin 2109) (s : State) : Res :=
  .next (s.command m (CmdRule.len { op := 0x0401, mir := true } 16) fun c n s =>
    if n ≠ 0 then s.grdGo
    else if 32 ≤ c.n 0 1 then (.badParam 0, s)
    else if 32 ≤ c.n 1 1 then (.badParam 1, s)
    else if s.flag .GRD_UPD_STS_BUSY then (.hold, s)
    else
      let s := s.grdLoad c
      if s.flag .GRD_UPD_STS_BUSY then s.grdGo else (.refused (s.fld .GRD_UPD_STS_RESULT), s))

/-- GRD_READ. -/
def execGrdRead (m : Fin 2109) (s : State) : Res :=
  .next (s.command m (CmdRule.len { op := 0x0402 } 2) fun c _ s =>
    if 18 < c.n 0 1 then (.badParam 0, s)
    else if 32 ≤ c.n 1 1 then (.badParam 1, s)
    else (.ok (toBytes 8 (s.grdWord (c.n 0 1) (c.n 1 1))), s))

/-! ### Interrupts (R424) -/

/-- A D or V requester may name the completion sources of its own contexts and its own event source. -/
def State.srcMay (s : State) (c : Cmd) (i : Nat) : Bool :=
  decide (i < 16384) && !srcReserved i && (decide (c.cls < 2) || i == 0x1000 + c.who
    || (decide (s.fld .FN_RES_FIRST_CTX c.who ≤ i) && decide (i < s.fld .FN_RES_FIRST_CTX c.who + s.fld .FN_RES_CTX_COUNT c.who)))

/-- A route that a requester may set: for D and V of KIND 0 or 1, to itself, without doorbell fields. -/
def routeMay (c : Cmd) (v : Nat) : Bool :=
  decide (c.cls < 2) || (decide (fieldOf .IRQ_ROUTE_KIND v < 2) && fieldOf .IRQ_ROUTE_FUNC v == c.who && bits v 40 32 == 0)

/-- IRQ_SET: the priority byte, the route, then ENABLE through the bit-set or bit-clear alias. -/
def execIrqSet (m : Fin 2109) (s : State) : Res :=
  .next (s.command m (CmdRule.len { op := 0x0501, who := whoFn, mir := true } 16) fun c _ s =>
    let i := c.n 0 2
    let w := (Who.core (s.fld .MBX_MB_CORE c.m)).master
    if !s.srcMay c i then (.badParam 0, s)
    else if 15 < c.n 2 1 ∧ c.n 2 1 ≠ 0xFF then (.badParam 2, s)
    else if 2 < c.n 3 1 then (.badParam 3, s)
    else if !routeMay c (c.n 8 8) then (.badParam 8, s)
    else
      let s := if c.n 2 1 = 0xFF then s else s.memWrite w (prioBase + i) (toBytes 1 (c.n 2 1)) [] [] .clean
      let s := s.cmdReg c .IRQ_ROUTE i (c.n 8 8)
      let s := if c.n 3 1 = 2 then s
        else s.aliasWrite w (if c.n 3 1 = 1 then 1 else 2) (enBase + i / 8) (toBytes 1 (2 ^ (i % 8))) [] [] .clean
      (.ok [], s))

/-- IRQ_GET. -/
def execIrqGet (m : Fin 2109) (s : State) : Res :=
  .next (s.command m (CmdRule.len { op := 0x0502, who := whoFn } 2) fun c _ s =>
    let i := c.n 0 2
    if !s.srcMay c i then (.badParam 0, s)
    else (.ok (s.rspReg 8 .IRQ_ROUTE i ++ toBytes 1 (s.prio i) ++ toBytes 1 (bit (s.isEn i)) ++ [0, 0]
      ++ s.rspReg 4 .IRQ_SRC_STS i), s))

/-- IRQ_LT_SET. -/
def execIrqLtSet (m : Fin 2109) (s : State) : Res :=
  .next (s.command m (CmdRule.len { op := 0x0503, mir := true } 16) fun c _ s =>
    if 64 ≤ c.n 0 1 then (.badParam 0, s) else (.ok [], s.cmdReg c .IRQ_LT (c.n 0 1) (c.n 8 8)))

/-! ### DMA channels (R425) -/

/-- DMA_GRANT. -/
def execDmaGrant (m : Fin 2109) (s : State) : Res :=
  .next (s.command m (CmdRule.len { op := 0x0601, mir := true } 5) fun c _ s =>
    let pf := c.n 0 1
    let g := 64 * (pf - 1) + c.n 1 1
    let ch := c.n 2 1
    let sliced := (c.n 3 1).testBit 0
    let sl := c.n 4 1
    if pf = 0 ∨ 3 < pf then (.badParam 0, s)
    else if 64 ≤ c.n 1 1 ∨ s.flag .DMA_GRANT_VALID g = true then (.badParam 1, s)
    else if sliced && !(s.flag .FN_SLICE_VALID sl && s.fld .FN_SLICE_FUNC sl == pf) then (.badParam 4, s)
    else if s.chState ch ≠ chIDLE then (.busy, s)
    else
      let s := s.cmdPut c .DMA_CH_CFG ch [(.DMA_CH_CFG_MODE, 0)]
      (.ok [], s.cmdPut c .DMA_GRANT g [(.DMA_GRANT_CHANNEL, ch), (.DMA_GRANT_VALID, 1), (.DMA_GRANT_SLICE_EN, bit sliced),
        (.DMA_GRANT_SLICE, sl)]))

/-- DMA_REVOKE: it goes on until the channel has stopped. -/
def execDmaRevoke (m : Fin 2109) (s : State) : Res :=
  .next (s.command m (CmdRule.len { op := 0x0602, mir := true } 2) fun c n s =>
    let pf := c.n 0 1
    let g := 64 * (pf - 1) + c.n 1 1
    let ch := s.fld .DMA_GRANT_CHANNEL g
    if pf = 0 ∨ 3 < pf then (.badParam 0, s)
    else if 64 ≤ c.n 1 1 ∨ s.flag .DMA_GRANT_VALID g = false then (.badParam 1, s)
    else
      let s := if n = 0 && s.chBusy ch then s.cmdPut c .DMA_CH_CTL ch [(.DMA_CH_CTL_ABORT, 1)] else s
      let s := if s.chBusy ch then s else s.cmdPut c .DMA_CH_CTL ch [(.DMA_CH_CTL_CLEAR, 1)]
      if s.chState ch ≠ chIDLE then (.wait 0, s)
      else
        let s := s.cmdPut c .DMA_GRANT g [(.DMA_GRANT_VALID, 0)]
        (.ok [], s.cmdPut c .DMA_CH_CFG ch [(.DMA_CH_CFG_MODE, 1)]))

/-- DMA_ABORT: a D requester names its grant slot; it ends when the channel has stopped. -/
def execDmaAbort (m : Fin 2109) (s : State) : Res :=
  .next (s.command m (CmdRule.len { op := 0x0603, who := [0, 1, 2] } 1) fun c n s =>
    let g := 64 * (c.who - 1) + c.n 0 1
    let ch := if c.cls = 2 then s.fld .DMA_GRANT_CHANNEL g else c.n 0 1
    if c.cls = 2 && (decide (64 ≤ c.n 0 1) || !s.flag .DMA_GRANT_VALID g) then (.badParam 0, s)
    else
      let s := if n = 0 && s.chBusy ch then s.cmdPut c .DMA_CH_CTL ch [(.DMA_CH_CTL_ABORT, 1)] else s
      if s.chBusy ch then (.wait 0, s)
      else (.ok (toBytes 8 (s.fld .DMA_CH_STS_STATUS ch) ++ toBytes 8 (s.fld .DMA_CH_RESIDUE_RESIDUE ch)), s))

/-! ### Shares (R426) -/

/-- The command waits for the share update unit. -/
def State.shareGo (s : State) : Ans × State :=
  let s := s.shrUpdDone
  (if s.flag .SHR_UPD_STS_BUSY then .wait 0 else unitOk (s.flag .SHR_UPD_STS_UNMIRRORED), s)

/-- SHARE_SET's data and command are written to the unit. -/
def State.shareLoad (s : State) (c : Cmd) : State :=
  let s := s.cmdPut c .SHR_UPD_STS 0 [(.SHR_UPD_STS_UNMIRRORED, 1)]
  let s := (s.cmdReg c .SHR_UPD_DATA 0 (c.n 8 8)).cmdReg c .SHR_UPD_RES 0 (c.n 0x10 8)
  s.cmdPut c .SHR_UPD_CMD 0 [(.SHR_UPD_CMD_ACCT, c.n 0 2), (.SHR_UPD_CMD_GO, 1)]

/-- SHARE_SET: the share update of R331. -/
def execShareSet (m : Fin 2109) (s : State) : Res :=
  .next (s.command m (CmdRule.len { op := 0x0701, mir := true } 24) fun c n s =>
    if n ≠ 0 then s.shareGo
    else if 8192 ≤ c.n 0 2 then (.badParam 0, s)
    else if s.flag .SHR_UPD_STS_BUSY then (.hold, s)
    else
      let s := s.shareLoad c
      if s.flag .SHR_UPD_STS_BUSY then s.shareGo
      else match s.fld .SHR_UPD_STS_RESULT with
        | 1 => (.badParam 0, s)
        | 2 => (.badParam (if badShare (c.n 8 8, 0) then 8 else 0x10), s)
        | r => (.refused (r + 256 * s.fld .SHR_UPD_STS_RES), s))

/-- SHARE_GET: the committed share and mask; D and V name a context. -/
def execShareGet (m : Fin 2109) (s : State) : Res :=
  .next (s.command m (CmdRule.len { op := 0x0702, who := whoFn } 2) fun c _ s =>
    let a := if c.cls < 2 then (if c.n 0 2 < 4112 then some (c.n 0 2) else none) else s.cmdCtx c (c.n 0 2)
    match a with
    | none => (.badParam 0, s)
    | some a =>
      if a < 4096 then (.ok (s.rspReg 8 .SHR_CTX_SHARE a ++ s.rspReg 8 .SHR_CTX_RES a), s)
      else (.ok (s.rspReg 8 .SHR_PORT_SHARE (a - 4096) ++ s.rspReg 8 .SHR_PORT_RES (a - 4096)), s))

/-- RES_QUERY. -/
def execResQuery (m : Fin 2109) (s : State) : Res :=
  .next (s.command m (CmdRule.len { op := 0x0703 } 1) fun c _ s =>
    let r := c.n 0 1
    if resCount ≤ r then (.badParam 0, s)
    else (.ok (s.rspReg 8 .SHR_RES_STS r ++ s.rspReg 8 .SHR_RES_SUM r ++ s.rspReg 8 .SHR_RES_MEAS r), s))

end Sys2Proof.Machine
end

