-- ==== Sys2Proof/Machine/CmdSys.lean ====
section
/-!
DEFINITION. The commands on the pair, firmware, power, log, time, lifecycle and debug (R427 to R432).
-/
namespace Sys2Proof.Machine

/-! ### Pair (R427) -/

/-- PAIR_STATUS. -/
def execPairStatus (m : Fin 2109) (s : State) : Res :=
  .next (s.command m { op := 0x0801 } fun _ _ s =>
    (.ok (s.rspReg 8 .SEM_STS 0 ++ s.rspReg 8 .SEM_TWIN 0 ++ s.rspReg 8 .SEM_PAIR_ID 0 ++ s.rspReg 8 .SEM_MSEQ 0
      ++ s.rspReg 4 .SEM_TWIN_FW 0), s))

/-- PAIR_HANDOVER: OK at HO_DONE, REFUSED at HO_FAIL. -/
def execPairHandover (m : Fin 2109) (s : State) : Res :=
  .next (s.command m { op := 0x0802 } fun c n s =>
    if n ≠ 0 then
      (if s.ho ≠ .none then .wait 0 else if s.mode = .FOLLOW ∧ s.fld .SEM_STS_SYNC = 2 then .ok [] else .refused 0, s)
    else if s.mode ≠ .LEAD ∨ s.fld .SEM_STS_ROLE = 2 then (s.badState, s)
    else if s.ho ≠ .none then (.busy, s)
    else
      let s := s.cmdPut c .SEM_CTL 0 [(.SEM_CTL_HANDOVER, 1)]
      (if s.ho = .none then .refused 0 else .wait 0, s)).hoFlush

/-- PAIR_LEAVE. -/
def execPairLeave (m : Fin 2109) (s : State) : Res :=
  .next (s.command m { op := 0x0803 } fun c _ s => (.ok [], s.cmdPut c .SEM_CTL 0 [(.SEM_CTL_LEAVE, 1)])).hoFlush

/-- PAIR_SNAP, at a DETACHED follower. -/
def execPairSnap (m : Fin 2109) (s : State) : Res :=
  .next (s.command m { op := 0x0804 } fun c _ s =>
    if s.fld .SEM_STS_ROLE = 2 ∧ s.fld .SEM_STS_SYNC = 3 then (.ok [], s.cmdPut c .SEM_CTL 0 [(.SEM_CTL_SNAP, 1)])
    else (s.badState, s))

/-- The takeover that PAIR_TAKE runs (R402): an unpaired follower is solo afterwards (R376). -/
def State.pairTake (s : State) : State :=
  let loss := s.fld .SEM_STS_LAST_LOSS
  let t := s.takeover (if loss = 0 then 1 else loss)
  if s.paired then t else (State.set { t with seamStop := false } .SEM_STS_ROLE 0 0).set .SEM_STS_SYNC 0 0

/-- PAIR_TAKE: only without a PAIR_ALIVE edge within ALIVE_WIN; DETAIL [15] tells that the mirror was not SYNCED. -/
def execPairTake (m : Fin 2109) (s : State) : Res :=
  .next (s.command m { op := 0x0805 } fun _ _ s =>
    if s.mode ≠ .FOLLOW ∨ s.flag .SEM_STS_TWIN_ALIVE = true then (s.badState, s)
    else (unitOk (s.fld .SEM_STS_SYNC != 2 || !s.paired), s.pairTake)).hoFlush

/-! ### Firmware and configuration (R428, R429) -/

/-- FW_STAGE_BEGIN. -/
def execFwStageBegin (m : Fin 2109) (s : State) : Res :=
  .next (s.command m (CmdRule.len { op := 0x0901 } 16) fun c _ s =>
    let size := c.n 4 4
    let base := c.n 8 8
    if 1 < c.n 0 1 then (.badParam 0, s)
    else if c.n 1 1 = 0 ∨ 3 < c.n 1 1 then (.badParam 1, s)
    else if 15 * 1048576 < size then (.badParam 4, s)
    else if c.n 0 1 = 1 ∧ 0x2000000000 < base + size then (.badParam 8, s)
    else if s.mg.staging.isSome then (.busy, s)
    else
      let h := s.hdr
      let s := if h.attempt = 0 then s else s.putHdr { h with attempt := 0, tries := 0 }
      (.ok [], { s with mg.staging := some { source := c.n 0 1, tries := c.n 1 1, size := size, base := base }
                        mg.stagedVer := none }))

/-- FW_STAGE_DATA: OFFSET must equal the bytes received so far. -/
def execFwStageData (m : Fin 2109) (s : State) : Res :=
  .next (s.command m { op := 0x0902, lo := 16, hi := 4032 } fun c _ s =>
    match s.mg.staging with
    | none => (s.badState, s)
    | some g =>
      let d := c.pay.drop 8
      if g.source ≠ 0 then (s.badState, s)
      else if c.n 0 4 ≠ g.data.length ∨ g.size < g.data.length + d.length then (.badParam 0, s)
      else (.ok [], { s with mg.staging := some { g with data := g.data ++ d } }))

/-- The image slot that is not running. -/
def State.spareSlot (s : State) : Nat := if s.bt.image = some 0 then 1 else 0

/-- A staged image that verifies goes to the slot that is not running, and is tried at the next resets. -/
def State.stageCommit (s : State) (g : Staging) (ver : BitVec 32) : State :=
  let k := s.spareSlot
  let h := { s.hdr with attempt := k + 1, tries := g.tries }
  let s := s.putHdr (if k = 0 then { h with verA := ver.toNat } else { h with verB := ver.toNat })
  State.bdtRefresh { s with mg.staging := none, mg.stagedVer := some ver.toNat }

/-- FW_STAGE_COMMIT, with the outcome of the verification and the version of the staged image. -/
def execFwStageCommit (m : Fin 2109) (good : Bool) (ver : BitVec 32) (s : State) : Res :=
  .next (s.command m { op := 0x0903 } fun _ _ s =>
    match s.mg.staging with
    | none => (s.badState, s)
    | some g =>
      if g.source = 0 ∧ g.data.length ≠ g.size then (s.badState, s)
      else if !good then (.done 0x0B 3 [], s)
      else (.ok (toBytes 4 ver.toNat), s.stageCommit g ver))

/-- FW_STAGE_ABORT. -/
def execFwStageAbort (m : Fin 2109) (s : State) : Res :=
  .next (s.command m { op := 0x0904 } fun _ _ s => (.ok [], { s with mg.staging := none }))

/-- MODULE_RESET: the reset is armed and follows DELAY later, with the cause command. -/
def execModuleReset (m : Fin 2109) (s : State) : Res :=
  .next (s.command m (CmdRule.len { op := 0x0905 } 2) fun c _ s =>
    if 1000 < c.n 0 2 then (.badParam 0, s) else (.ok [], { s with bt.rstArmed := some 3 }))

/-- MODULE_RESET_DELAY_EXPIRE. -/
def execModuleResetDelayExpire (s : State) : Res :=
  .next (match s.bt.rstArmed with
    | none => s
    | some cause => State.moduleReset { s with bt.rstArmed := none } cause)

/-- The buffer of EVOSET_WRITE, a copy of the record in use at first, with the bytes of a command laid over it, and its
LENGTH. -/
def State.evLaid (s : State) (c : Cmd) : List Byte × Nat :=
  let off := c.n 0 2
  let d := c.pay.drop 8
  let b := s.mg.evBuf.getD s.evBuffer
  (overlay b.1 off d, if d = [] then b.2 else max b.2 (off + d.length))

/-- EVOSET_WRITE: COMMIT writes the other copy. -/
def execEvosetWrite (m : Fin 2109) (s : State) : Res :=
  .next (s.command m { op := 0x0906, lo := 8, hi := 4032 } fun c _ s =>
    if 4096 < c.n 0 2 + (c.pay.drop 8).length then (.badParam 0, s)
    else if (c.n 2 1).testBit 0 then
      let (seq, t) := State.evCommit { s with mg.evBuf := none } (s.evLaid c).1 (s.evLaid c).2
      (.ok (toBytes 4 seq), t)
    else (.ok [], { s with mg.evBuf := some (s.evLaid c) }))

/-! ### Power, log, time (R430) -/

/-- STANDBY: it ends OK, and entry begins. -/
def execStandby (m : Fin 2109) (s : State) : Res :=
  .next (s.command m (CmdRule.len { op := 0x0A01 } 1) fun c _ s =>
    if s.mode ≠ .LEAD ∧ s.mode ≠ .FOLLOW then (s.badState, s)
    else (.ok [], if s.bt.standby.isSome then s
      else { s with bt.standby := some { retain := (c.n 0 1).testBit 0 }, pmeOff := true }))

/-- DOMAIN_POWER: it ends with the result of the power controller; a domain that no request may change is a bad parameter
(R458). -/
def execDomainPower (m : Fin 2109) (s : State) : Res :=
  .next (s.command m (CmdRule.len { op := 0x0A02 } 3) fun c n s =>
    let d := c.n 0 1
    let fin (s : State) : Ans × State :=
      (if s.bt.domReq.isSome then .wait 0
       else match s.fld .PWR_DOM_RESULT_RESULT with
        | 0 => .ok []
        | 1 => .busy
        | r => .refused r, s)
    if n ≠ 0 then fin s
    else if !domByReq d || d == 2 + s.fld .MBX_MB_CORE c.m then (.badParam 0, s)
    else if 1 < c.n 1 1 then (.badParam 1, s)
    else if s.bt.domReq.isSome then (.hold, s)
    else fin (s.cmdPut c .PWR_DOM_REQ 0 [(.PWR_DOM_REQ_DOMAIN, d), (.PWR_DOM_REQ_OP, c.n 1 1),
      (.PWR_DOM_REQ_FORCE, c.n 2 1 % 2), (.PWR_DOM_REQ_GO, 1)])).starchSettle

/-- PORT_ENABLE: ULK_CTL.EN and LANE_LINK_CTL.ENABLE of each port in MASK. -/
def execPortEnable (m : Fin 2109) (s : State) : Res :=
  .next (s.command m (CmdRule.len { op := 0x0A03 } 3) fun c _ s =>
    if 1 < c.n 2 1 then (.badParam 2, s)
    else (.ok [], s.each ((List.range 16).filter (c.n 0 2).testBit) fun s p =>
      (s.cmdPut c .ULK_CTL p [(.ULK_CTL_EN, c.n 2 1)]).cmdPut c .LANE_LINK_CTL p [(.LANE_LINK_CTL_ENABLE, c.n 2 1)])).starchSettle

/-- An entry of the working copy as LOG_READ returns it: a diverted event entry follows the one that introduces it
(R484). -/
def LogEnt.read (e : LogEnt) : List (Nat × List Byte) :=
  (e.num, e.bytes) :: (match e.div with | some d => [((e.num + 1) % 4294967296, d.bytes false d.time)] | none => [])

/-- The response of LOG_READ: as many entries as MAX and the mailbox allow. -/
def State.logReadRsp (s : State) (c : Cmd) : List Byte :=
  let first := c.n 0 4
  let all := (s.logWork.flatMap LogEnt.read).filter fun e => first == 0xFFFFFFFF || decide (first ≤ e.1)
  let l := all.take (min 125 (c.n 4 2))
  let next := match l.getLast? with
    | some e => (e.1 + 1) % 4294967296
    | none => match all.head? with | some e => e.1 | none => s.fld .MGT_LOG_NEXT_NEXT
  toBytes 4 next ++ toBytes 2 l.length ++ toBytes 2 32 ++ l.flatMap (·.2)

/-- LOG_READ. -/
def execLogRead (m : Fin 2109) (s : State) : Res :=
  .next (s.command m (CmdRule.len { op := 0x0B01 } 6) fun c _ s => (.ok (s.logReadRsp c), s))

/-- Entries below a number go from all three levels, the LED's error condition ends (R492), and a record says so (R480). -/
def State.logDrop (s : State) (upto : Nat) : State :=
  let keep (l : List LogEnt) : List LogEnt := l.filter fun e => decide (upto ≤ e.num)
  let fresh := s.ring.drop (s.ring.length - s.fld .MGT_LOG_STS_AON_USED)
  let s := { s with ring := keep s.ring, logWork := keep s.logWork, logFlash := keep s.logFlash, ledErr := false }
  (s.set .MGT_LOG_STS_AON_USED 0 (keep fresh).length).logRecord 22 3

/-- LOG_CLEAR. -/
def execLogClear (m : Fin 2109) (s : State) : Res :=
  .next (s.command m (CmdRule.len { op := 0x0B02 } 4) fun c _ s => (.ok [], s.logDrop (c.n 0 4)))

/-- WAKE_SRC. -/
def execWakeSrc (m : Fin 2109) (s : State) : Res :=
  .next (s.command m { op := 0x0B03 } fun _ _ s => (.ok (s.rspReg 8 .PWR_WAKE_LAST 0), s))

/-- TIME_GET. -/
def execTimeGet (m : Fin 2109) (s : State) : Res :=
  .next (s.command m { op := 0x0C01, who := whoAll } fun c _ s =>
    (.ok (toBytes 8 s.now ++ toBytes 8 (s.ld8 (mbxAddr c.m + 0x20)) ++ toBytes 1 (s.fld .TIM_STS_TIME_APPROX)), s))

/-- TIME_SYNC: device time is stepped by HOST_NS less POST_TIME. -/
def execTimeSync (m : Fin 2109) (s : State) : Res :=
  .next (s.command m (CmdRule.len { op := 0x0C02 } 8) fun c _ s =>
    let d := (c.n 0 8 + 18446744073709551616 - s.ld8 (mbxAddr c.m + 0x20)) % 18446744073709551616
    let s := s.cmdReg c .TIM_STEP 0 d
    (.ok (toBytes 8 d), s.cmdPut c .TIM_STS 0 [(.TIM_STS_TIME_APPROX, 1)]))

/-! ### Lifecycle and debug (R431, R432) -/

/-- NONCE_GET: a fresh nonce, in force from now on. -/
def execNonceGet (m : Fin 2109) (s : State) : Res :=
  .next (s.command m { op := 0x0D01 } fun _ _ s =>
    let (b, s) := s.drawBytes 32
    (.ok b, { s with sc.nonce := some (ofBytes b, s.tick) }))

/-- The authorisation block of a command (R432): DETAIL of AUTH_FAIL, or that it holds. A nonce is used up by the block
that carries it. -/
def State.authCheck (s : State) (c : Cmd) (sigOk : Bool) : Option Nat × State :=
  match s.sc.nonce with
  | none => (some 1, s)
  | some (v, t) =>
    if v ≠ c.n 0x10 32 ∨ 60000000000 < s.tick - t then (some 1, s)
    else
      let s := { s with sc.nonce := none }
      (if c.n 8 8 ≠ Config.serial % 18446744073709551616 then some 2 else if !sigOk then some 3 else none, s)

/-- LIFECYCLE_ADVANCE, with the outcome of the signature check. -/
def execLifecycleAdvance (m : Fin 2109) (sigOk : Bool) (s : State) : Res :=
  .next (s.command m (CmdRule.len { op := 0x0D02 } 160) fun c _ s =>
    let target := c.n 2 1
    if c.n 0 2 ≠ 0x0D02 then (.badParam 0, s)
    else if 3 < target ∨ target ≤ s.fld .SEC_LIFECYCLE_STATE then (.badParam 2, s)
    else match s.authCheck c sigOk with
      | (some e, s) => (.done 0x0B e [], s)
      | (none, s) => (.ok [], { s with sc.lcNext := some target }.set .SEC_LIFECYCLE_ADVANCING 0 1))

/-- DEBUG_UNLOCK, with the outcome of the signature check. -/
def execDebugUnlock (m : Fin 2109) (sigOk : Bool) (s : State) : Res :=
  .next (s.command m (CmdRule.len { op := 0x0D03 } 160) fun c _ s =>
    if c.n 0 2 ≠ 0x0D03 then (.badParam 0, s)
    else if c.n 2 1 ≠ 0 then (.badParam 2, s)
    else match s.authCheck c sigOk with
      | (some e, s) => (.done 0x0B e [], s)
      | (none, s) => (.ok [], if s.fld .SEC_LIFECYCLE_STATE = lcPRODUCTION then s.set .DBG_STS_OPEN 0 1 else s))

end Sys2Proof.Machine
end

