-- ==== Sys2Proof/Machine/Manage.lean ====
section
/-!
DEFINITION. The management endpoint (R433 to R435): MCTP control, the transport of Iluman commands in type 0x7E messages,
PLDM with its sensors. Command and completion codes are those of the DMTF specifications the rules name (PRESUMED,
assumption 20).
-/
namespace Sys2Proof.Machine

/-! ### Messages -/

/-- A message is taken in every mode but OFF, when its binding is served; SMBus packets need a good PEC, and a message
with IC = 1 is dropped (R433). -/
def State.mctpServe (s : State) (h : MctpHdr) (g : State → State) : State :=
  if s.mode = .OFF then s
  else if h.binding = 0 then
    if !s.flag .MGT_CFG_SMB_MCTP_EN then s
    else if !h.pec then s.count .MGT_ERR_CNT_PEC_ERR
    else if h.ic then s else g s
  else if s.flag .MGT_CFG_VDM_EN && s.linkOpen && !h.ic then g s else s

/-- An MCTP control response, with completion code 0. -/
def State.mctpControl (s : State) (h : MctpHdr) (cmd : Nat) (fields : List Nat) (data : List Byte) : State :=
  s.send (.mctp h.binding cmd (0 :: fields) data)

/-- MCTP_MESSAGE_RX: a type 0x7E request is posted in mailbox 0, held, or answered BUSY (R434). -/
def execMctpMessageRx (h : MctpHdr) (opcode abi : BitVec 16) (tag : BitVec 32) (payload : List Byte) (s : State) : Res :=
  .next (s.mctpServe h fun s =>
    let q : MctpReq := { binding := h.binding, opcode := opcode.toNat, abi := abi.toNat, tag := tag.toNat, payload := payload }
    let answer (st de : Nat) (s : State) : State :=
      s.send (.mctp q.binding 0x7E [q.opcode, 0x8000, 0, st, q.tag, de, q.abi] [])
    let free := s.mg.mctpNow.isNone && (s.mbxState 0 == 0 || s.mbxState 0 == 3)
    if !s.fwReady then s
    else if 4032 < payload.length then answer 4 4032 s
    else if free && s.mg.mctpHeld == [] && s.flag .MBX_CFG_EN then State.mctpPost { s with mg.mctpHeld := [q] }
    else if s.mg.mctpHeld.any fun e => e.binding == q.binding then answer 9 0 (s.count .MGT_ERR_CNT_BUSY_ANS)
    else { s with mg.mctpHeld := s.mg.mctpHeld ++ [q] })

/-! ### MCTP control (R433) -/

/-- SET_ENDPOINT_ID, from a bus owner. -/
def execSetEndpointId (h : MctpHdr) (eid owner : BitVec 8) (s : State) : Res :=
  .next (s.mctpServe h fun s =>
    let s := (s.set .MGT_EID_EID 0 eid.toNat).set .MGT_EID_OWNER_EID 0 owner.toNat
    s.mctpControl h 1 [eid.toNat] [])

/-- GET_ENDPOINT_ID. -/
def execGetEndpointId (h : MctpHdr) (s : State) : Res :=
  .next (s.mctpServe h fun s => s.mctpControl h 2 [s.fld .MGT_EID_EID] [])

/-- GET_ENDPOINT_UUID. -/
def execGetEndpointUuid (h : MctpHdr) (s : State) : Res :=
  .next (s.mctpServe h fun s => s.mctpControl h 3 [] (toBytes 16 Config.uuid.toNat))

/-- GET_MCTP_VERSION_SUPPORT of a message type. -/
def execGetMctpVersionSupport (h : MctpHdr) (typ : BitVec 8) (s : State) : Res :=
  .next (s.mctpServe h fun s => s.mctpControl h 4 [typ.toNat, (Config.mctpVersion typ.toNat).toNat] [])

/-- GET_MESSAGE_TYPE_SUPPORT: MCTP control, PLDM, vendor-defined PCI. -/
def execGetMessageTypeSupport (h : MctpHdr) (s : State) : Res :=
  .next (s.mctpServe h fun s => s.mctpControl h 5 [0x00, 0x01, 0x7E] [])

/-- GET_VENDOR_DEFINED_MESSAGE_SUPPORT: the PCI vendor ID and the command set version. -/
def execGetVendorDefinedMessageSupport (h : MctpHdr) (s : State) : Res :=
  .next (s.mctpServe h fun s => s.mctpControl h 6 [0x2D37, Config.vendorVersion.toNat] [])

/-! ### Sensors (R435, R514) -/

/-- Upper limits of sensors 1 to 3 in units of 0.5 °C: warning, critical, fatal (R514). -/
def tempLimits (i : Nat) : List Int := if i = 1 then [200, 220, 240] else if i = 2 then [170, 190, 210] else [210, 230, 250]

/-- The limits a temperature has reached: 0 none, 1 warning, 2 critical, 3 fatal; a limit once crossed is left 5 °C below
it. -/
def tempLevel (i : Nat) (old : Nat) (v : Int) : Nat :=
  let up := ((tempLimits i).filter fun l => decide (l ≤ v)).length
  let keep := ((tempLimits i).filter fun l => decide (l - 10 < v)).length
  max up (min old keep)

/-- The threshold state of a numeric sensor: 0 within, then its warning, critical and fatal limits; for VIN, 1 below and 2
above the operating range. -/
def sensLevel (i old : Nat) (v : Int) : Nat :=
  if i ≤ 3 then tempLevel i old v
  else if i = 4 then (if v < 180 then 1 else if 1200 < v then 2 else 0)
  else if i = 5 then (if 1800 ≤ v then 2 else 0)
  else if 1500 ≤ v then 2 else if 1400 ≤ v then 1 else 0

/-- The state sensors: mode, role, health. -/
def State.health (s : State) : Nat :=
  if s.bt.bootFail then 3
  else if s.mode = .CONTAIN then 2
  else if (s.listed .LANE_STS_STATE).any (fun i => s.lane i == lnDARNED)
      || (s.listed .SHR_RES_STS_LEVEL).any fun r => s.flag .SHR_RES_STS_LEVEL r then 1
  else 0
def State.stateSensor (s : State) (i : Nat) : Nat :=
  if i = 7 then s.mode.code else if i = 8 then s.fld .SEM_STS_ROLE else s.health

/-- A reading; one that was never taken is a free value. -/
def State.reading (s : State) (i : Nat) : Int × State :=
  match s.mg.sensVal.find? fun e => e.1 == i with
  | some e => (e.2, s)
  | none =>
    let (v, s) := s.draw 16
    (v, s)

/-- A PlatformEventMessage of a sensor, to the receiver that is set (R435): sensor, new and old state, reading. -/
def State.pldmEvent (s : State) (i new old : Nat) (v : Int) : State :=
  match s.mg.pldmRecv with
  | some (b, eid) => if s.flag .MGT_PLDM_CFG_EVT_EN then s.send (.pldm b 0x20A 0 [eid, i, new, old, v]) else s
  | none => s

/-- A sensor's state is shown, with an event when it has changed. -/
def State.sensShow (s : State) (i new : Nat) (v : Int) : State :=
  let old := nGet s.mg.sensShown i
  if new = old ∨ bGet s.mg.sensOff i = true then s
  else State.pldmEvent { s with mg.sensShown := nSet s.mg.sensShown i new } i new old v

/-- A PLDM response: type and command, completion code, fields. -/
def State.pldm (s : State) (h : MctpHdr) (code cc : Nat) (fields : List Int) : State :=
  s.send (.pldm h.binding code cc fields)

/-- A PLDM request that firmware answers. -/
def State.pldmServe (s : State) (h : MctpHdr) (g : State → State) : State := s.mctpServe h fun s => s.when s.fwReady g

/-- Sensors 4 to 7 are served before FW_READY. -/
def State.sensServed (s : State) (i : Nat) : Bool := s.fwReady || (decide (4 ≤ i) && decide (i ≤ 7))

/-! ### PLDM type 0 -/

/-- SET_TID, GET_TID. -/
def execSetTid (h : MctpHdr) (tid : BitVec 8) (s : State) : Res :=
  .next (s.pldmServe h fun s => State.pldm { s with mg.tid := tid.toNat } h 0x01 0 [])
def execGetTid (h : MctpHdr) (s : State) : Res := .next (s.pldmServe h fun s => s.pldm h 0x02 0 [s.mg.tid])

/-- GET_PLDM_VERSION of a PLDM type; 0x83 for a type that is not supported. -/
def execGetPldmVersion (h : MctpHdr) (typ : BitVec 8) (s : State) : Res :=
  .next (s.pldmServe h fun s =>
    if typ.toNat = 0 ∨ typ.toNat = 2 then s.pldm h 0x03 0 [(Config.pldmVersion typ.toNat).toNat] else s.pldm h 0x03 0x83 [])

/-- GET_PLDM_TYPES: 0 and 2. -/
def execGetPldmTypes (h : MctpHdr) (s : State) : Res := .next (s.pldmServe h fun s => s.pldm h 0x04 0 [0, 2])

/-- GET_PLDM_COMMANDS of a PLDM type. -/
def execGetPldmCommands (h : MctpHdr) (typ : BitVec 8) (s : State) : Res :=
  .next (s.pldmServe h fun s =>
    if typ.toNat = 0 then s.pldm h 0x05 0 [1, 2, 3, 4, 5]
    else if typ.toNat = 2 then s.pldm h 0x05 0 [0x04, 0x10, 0x11, 0x21, 0x50, 0x51]
    else s.pldm h 0x05 0x83 [])

/-! ### PLDM type 2 -/

/-- GET_SENSOR_READING of a numeric sensor: disabled or not, threshold state, reading. Completion 0x80 for another ID, 4 while
the sensor is not served. -/
def execGetSensorReading (h : MctpHdr) (sensor : BitVec 16) (s : State) : Res :=
  .next (s.mctpServe h fun s =>
    let i := sensor.toNat
    if i = 0 ∨ 6 < i then s.pldm h 0x211 0x80 []
    else if !s.sensServed i then s.pldm h 0x211 4 []
    else
      let (v, s) := s.reading i
      s.pldm h 0x211 0 [i, bit (bGet s.mg.sensOff i), sensLevel i (nGet s.mg.sensShown i) v, v])

/-- GET_STATE_SENSOR_READINGS of mode, role or health. -/
def execGetStateSensorReadings (h : MctpHdr) (sensor : BitVec 16) (s : State) : Res :=
  .next (s.mctpServe h fun s =>
    let i := sensor.toNat
    if i < 7 ∨ 9 < i then s.pldm h 0x221 0x80 []
    else if !s.sensServed i then s.pldm h 0x221 4 []
    else s.pldm h 0x221 0 [i, s.stateSensor i])

/-- SET_NUMERIC_SENSOR_ENABLE. -/
def execSetNumericSensorEnable (h : MctpHdr) (sensor : BitVec 16) (on : Bool) (s : State) : Res :=
  .next (s.pldmServe h fun s =>
    let i := sensor.toNat
    if i = 0 ∨ 6 < i then s.pldm h 0x210 0x80 []
    else State.pldm { s with mg.sensOff := bSet s.mg.sensOff i (!on) } h 0x210 0 [])

/-- GET_PDR_REPOSITORY_INFO: one record for each sensor. -/
def execGetPdrRepositoryInfo (h : MctpHdr) (s : State) : Res :=
  .next (s.pldmServe h fun s => s.pldm h 0x250 0 [9, Config.pdrSizes.toNat])

/-- GET_PDR: the record of a sensor, handle 0 for the first: next handle, sensor, numeric or state, upper limits. -/
def execGetPdr (h : MctpHdr) (handle : BitVec 32) (s : State) : Res :=
  .next (s.pldmServe h fun s =>
    let i := if handle.toNat = 0 then 1 else handle.toNat
    if 9 < i then s.pldm h 0x251 0x82 []
    else
      let limits : List Int := if i ≤ 3 then tempLimits i else if i = 4 then [180, 1200] else if i = 5 then [1800]
        else if i = 6 then [1400, 1500] else []
      s.pldm h 0x251 0 ((if i = 9 then 0 else i + 1 : Nat) :: (i : Int) :: (bit (decide (7 ≤ i)) : Int) :: limits))

/-- SET_EVENT_RECEIVER. -/
def execSetEventReceiver (h : MctpHdr) (eid : BitVec 8) (s : State) : Res :=
  .next (s.pldmServe h fun s => State.pldm { s with mg.pldmRecv := some (h.binding, eid.toNat) } h 0x204 0 [])

/-- The temperatures of the eight packages after a reading of sensor 2, in units of 0.5 °C (R457): the hottest shows it, the
others are free values, not above it. -/
def State.pkgTemps (s : State) (v : Int) : State :=
  let t := (v / 2 % 256).toNat
  let (j, s) := s.draw 3
  s.each (List.range 8) fun s k =>
    let (x, s) := s.draw 8
    s.set .DRS_PKG_STS_TEMP k (if k = j then t else if 0 ≤ v then min x t else x)

/-- Readings of the numeric sensors are taken where they are served and enabled, and the events of what has changed are
sent. -/
def State.refresh (s : State) (readings : List (Nat × Int)) : State :=
  let vals := readings.filter fun e => s.sensServed e.1 && !bGet s.mg.sensOff e.1
  let keep := s.mg.sensVal.filter fun e => !(vals.any fun v => v.1 == e.1)
  let s := { s with mg.sensVal := keep ++ vals }
  let s := match vals.find? fun e => e.1 == 2 with
    | some e => if s.domOn 17 then s.pkgTemps e.2 else s
    | none => s
  let s := s.each vals fun s (e : Nat × Int) => s.sensShow e.1 (sensLevel e.1 (nGet s.mg.sensShown e.1) e.2) e.2
  s.each ([7, 8, 9].filter s.sensServed) fun s i => s.sensShow i (s.stateSensor i) 0

/-- PLDM_SENSOR_REFRESH: the readings of sensors 1 to 6. -/
def execPldmSensorRefresh (r1 r2 r3 r4 r5 r6 : BitVec 16) (s : State) : Res :=
  .next (if s.mode = .OFF then s
    else s.refresh [(1, r1.toInt), (2, r2.toInt), (3, r3.toInt), (4, r4.toInt), (5, r5.toInt), (6, r6.toInt)])

end Sys2Proof.Machine
end

