-- ==== Sys2Proof/Machine/Power.lean ====
section
/-!
DEFINITION. The commands of power, clocks and device time (R458 to R479), and the converter's limits (R503, R514, R515).
-/
namespace Sys2Proof.Machine

/-! ### Domains (R462) -/

/-- PWR_DOM_REQ with GO. -/
def execPwrDomReq (core : Option Core) (dom : Fin 32) (op : Fin 4) (force : Bool) (s : State) : Res :=
  .next (s.ctlWrite (byWho core) .PWR_DOM_REQ 0 (dom.val + 32 * op.val + 128 * bit force + 2147483648) 0xFFFFFFFF).starchSettle

/-- DOMAIN_DRAINED: the drained condition holds, or a forced abort has settled. -/
def execDomainDrained (d : Fin 20) (s : State) : Res :=
  .next (if (s.dom d = .draining ∧ s.domDrained d = true) ∨ (s.dom d = .aborting ∧ s.domSettled d = true) then
    (s.domClamp d).starchSettle else s)

/-- DOMAIN_DRAIN_TIMEOUT: the units resume, and a request that waits ends BUSY. -/
def execDomainDrainTimeout (d : Fin 20) (s : State) : Res :=
  .next (if s.dom d = .draining ∧ s.domDrained d = false then
      let s := ((s.setDom d .on).setGoal d 0).domResume d
      match s.bt.domReq with
      | some (e, _, _) => if e = d.val then s.domEnd d 1 else s
      | none => s
    else s)

/-- DOMAIN_POWERED. -/
def execDomainPowered (d : Fin 20) (s : State) : Res :=
  .next (if s.dom d = .powering then s.domPowered d else s)

/-! ### Cores (R463 to R467) -/

/-- CORE_WAIT, CORE_ENTRY_WINDOW_END. -/
def execCoreWait (c : Core) (s : State) : Res := .next (s.coreWait c)
def execCoreEntryWindowEnd (c : Core) (s : State) : Res := .next (s.coreGate c)

/-- CORE_WAKE: a debug request, which is an edge, or an interrupt presented to the core. -/
def execCoreWake (c : Core) (debug : Bool) (s : State) : Res :=
  .next (if debug then s.coreEdge c 4 else if (s.bestFor c).isSome then s.coreWake c 1 false else s)

/-- PWR_CORE_WAKE_WRITE. -/
def execPwrCoreWakeWrite (core : Option Core) (c : Core) (s : State) : Res :=
  .next (s.ctlWrite (byWho core) .PWR_CORE_CTL c 4 4)

/-- CLK_CORE_SEL_WRITE. -/
def execClkCoreSelWrite (by_ c : Core) (pll : Bool) (s : State) : Res :=
  .next (s.ctlWrite (.core by_) .CLK_CORE_SEL c (bit pll) 0xFFFFFFFF)

/-- WAKE_TIMER_FIRE, once the count has reached AT. -/
def execWakeTimerFire (s : State) : Res :=
  .next (if s.mode = .OFF ∨ s.flag .PWR_WAKE_TIMER_ARMED = false ∨ s.aonCount < s.fld .PWR_WAKE_TIMER_AT then s
    else
      let s := s.set .PWR_WAKE_TIMER_ARMED 0 0
      let t := s.fld .PWR_WAKE_TIMER_TARGET
      if t < 4 then s.coreEdge t 3 else if t = 4 ∧ s.flag .PWR_WAKE_EN_TIMER = true then s.moduleWake 3 else s)

/-! ### Watchdog, clocks, reset (R465, R468, R469, R479) -/

/-- WDOG_KICK with a key. -/
def execWdogKick (core : Option Core) (key : BitVec 16) (s : State) : Res :=
  .next (s.ctlWrite (byWho core) .PWR_WDOG_KICK 0 key.toNat 0xFFFFFFFF)

/-- The firmware watchdog runs. -/
def State.wdogRuns (s : State) : Bool := s.flag .PWR_WDOG_CFG_EN && s.domOn 1

/-- WDOG_WARN: half of PERIOD has passed. -/
def execWdogWarn (s : State) : Res :=
  .next (s.when (s.wdogRuns && !s.bt.wdogHalf) fun s => { s with bt.wdogHalf := true }.pwrEvt .PWR_EVT_WDOG_WARN)

/-- WDOG_EXPIRE: all of PERIOD has passed. -/
def execWdogExpire (s : State) : Res :=
  .next (s.when (s.wdogRuns && s.bt.wdogHalf) fun s => (s.faultLog { cls := 6, unit := 18, code := 6 }).moduleReset 6)

/-- PLL_LOSS_OF_LOCK: 0 fabric, 1 cluster, 2 time base PLL, 3 the reference oscillator. -/
def execPllLossOfLock (which : Fin 4) (s : State) : Res :=
  .next (if s.mode = .OFF ∨ (which.val < 3 ∧ s.domOn 1 = false) then s
    else
      let s := if which.val = 3 then s.set .CLK_STS_REF_OK 0 0 else s
      (s.faultLog { cls := 6, unit := 18, code := 8 }).moduleReset 8)

/-- LANE_PLL_UNLOCK of the host lanes (HCTL, 8) or of a local group or the Seam (their domain). The host link fails as for
a lost REFCLK; the other links of the domain go down and retrain. -/
def execLanePllUnlock (d : Fin 20) (s : State) : Res :=
  .next (if !s.domOn d then s
    else if d.val = 8 then
      let s := (s.set .CLK_STS_HOST_LOCK 0 0).clkEvt .CLK_EVT_HOST_UNLOCK
      if s.flag .HST_LINK_STS_DL_UP then s.surprise else s
    else if (9 ≤ d.val ∧ d.val ≤ 12) ∨ d.val = 19 then
      let s := (s.set .CLK_STS_LANE_LOCK 0 0).clkEvt .CLK_EVT_LANE_UNLOCK
      (s.each ((domLinks d).filter fun l => s.fld .LANE_LINK_STS_STATE l != 0) State.linkDown).starchSettle
    else s)

/-- RST_CTL_KEY: a write of KEY 0x5A with DELAY. -/
def execRstCtlKey (core : Core) (delay : Fin 1024) (s : State) : Res :=
  .next (s.ctlWrite (.core core) .RST_CTL 0 (delay.val + 0x5A0000) 0xFFFFFFFF)

/-! ### Device time (R474, R475) -/

/-- TIM_STEP_WRITE. -/
def execTimStepWrite (core : Core) (delta : BitVec 64) (s : State) : Res :=
  .next (s.ctlWrite (.core core) .TIM_STEP 0 delta.toNat (laneMask 0 8))

/-- PTM_DIALOG, while PTM Enable and PERIOD allow dialogs: it succeeds with an offset, or fails. -/
def execPtmDialog (good : Bool) (ofs : BitVec 64) (s : State) : Res :=
  .next (s.when (s.domOn 1 && s.linkOpen && (s.cfgD 0 0x2C0).testBit 0 && s.flag .TIM_PTM_CFG_PERIOD) fun s =>
    if good then s.ptmDone ofs.toInt else s.set .TIM_STS_PTM_VALID 0 0)

/-- SLEW_COMPLETE. -/
def execSlewComplete (s : State) : Res := .next s.slewStop

/-! ### Converter and thermal limits -/

/-- A limit is crossed upward: the alert, the PLDM event. -/
def State.limitUp (s : State) (i lv : Nat) : State :=
  let s := { s with bt.limits := nSet s.bt.limits i (max lv (nGet s.bt.limits i)) }.alertSync
  let (v, s) := s.reading i
  s.sensShow i (max lv (nGet s.mg.sensShown i)) v

/-- A class 7 entry of a warning; its CODE is a free value. -/
def State.warnLog (s : State) : State :=
  let (v, s) := s.draw 8
  s.logRecord 15 v

/-- THERMAL_WARNING of a sensor. -/
def execThermalWarning (i : Fin 3) (s : State) : Res :=
  .next (s.when (s.mode != .OFF) fun s => (s.limitUp (i.val + 1) 1).warnLog)

/-- THERMAL_CRITICAL. -/
def execThermalCritical (i : Fin 3) (s : State) : Res :=
  .next (s.when (s.mode != .OFF) fun s =>
    ((s.limitUp (i.val + 1) 2).warnLog).faultLog { cls := 4, unit := 15, code := 0x82 })

/-- THERMAL_LIMIT_CLEARED: a sensor is 5 °C below its warning limit, or below its critical limit only. -/
def execThermalLimitCleared (i : Fin 3) (warning : Bool) (s : State) : Res :=
  .next (s.when (s.mode != .OFF) fun s =>
    let lv := if warning then 0 else min 1 (nGet s.bt.limits (i.val + 1))
    { s with bt.limits := nSet s.bt.limits (i.val + 1) lv }.alertSync)

/-- INPUT_POWER_WARNING. -/
def execInputPowerWarning (high : Bool) (s : State) : Res :=
  .next (s.when (s.mode != .OFF) fun s => { s with bt.powerHigh := high }.alertSync)

/-- VIN_OUT_OF_RANGE. -/
def execVinOutOfRange (outside : Bool) (s : State) : Res :=
  .next (s.when (s.mode != .OFF) fun s => { s with bt.vinOut := outside }.alertSync)

end Sys2Proof.Machine
end

