-- ==== Sys2Proof/Machine/Contain.lean ====
section
/-!
DEFINITION. The commands of containment, of the fault log and of SMBus raw mode (R484 to R497), and the write of a register
that has no command of its own (R11).
-/
namespace Sys2Proof.Machine

/-! ### Containment -/

/-- DATAPATH_ERROR: a failure whose request cannot be identified (cause 2), or a lasting error in the SRAM of firmware
(cause 3). -/
def execDatapathError (sram : Bool) (s : State) : Res := .next (s.contain (if sram then 3 else 2))

/-- HST_CONT_ENTER. -/
def execHstContEnter (core : Option Core) (s : State) : Res :=
  .next (s.ctlWrite (byWho core) .HST_CONT_REL 0 1024 1024)

/-- CONTAIN_RELEASE: a write of HST_CONT_REL with a key and what becomes of frozen entries and channels. -/
def execContainRelease (core : Option Core) (key : BitVec 8) (ledgerFail dmaAbort : Bool) (s : State) : Res :=
  .next (s.ctlWrite (byWho core) .HST_CONT_REL 0 (key.toNat + 256 * bit ledgerFail + 512 * bit dmaAbort) 0xFFFFFFFF).hoFlush

/-- FN_CONT_REQUEST, FN_CONT_RELEASE from the privileged view or firmware. -/
def execFnContRequest (core : Option Core) (f : Fn) (s : State) : Res :=
  .next (s.ctlWrite (byWho core) .FN_CONT f 16 16)
def execFnContRelease (core : Option Core) (f : Fn) (s : State) : Res :=
  .next (s.ctlWrite (byWho core) .FN_CONT f 32 32)

/-! ### The fault log (R485) -/

/-- The last n elements of a list. -/
def lastN (n : Nat) (l : List LogEnt) : List LogEnt := l.drop (l.length - n)

/-- FAULT_LOG_COPY: firmware copies the ring's new entries to the working copy. -/
def execFaultLogCopy (s : State) : Res :=
  .next (s.when s.fwReady fun s =>
    let new := lastN (s.fld .MGT_LOG_STS_AON_USED) s.ring
    { s with logWork := lastN 131072 (s.logWork ++ new) }.set .MGT_LOG_STS_AON_USED 0 0)

/-- The working copy's new entries go to flash. -/
def State.logFlush (s : State) : State :=
  let new := s.logWork.filter fun e => !(s.logFlash.any fun o => o.num == e.num)
  { s with logFlash := lastN 32768 (s.logFlash ++ new) }

/-- FAULT_LOG_FLUSH. -/
def execFaultLogFlush (s : State) : Res := .next (s.when s.fwReady State.logFlush)

/-! ### SMBus raw mode (R493) -/

/-- Raw mode answers in every mode but OFF; a packet with a bad PEC is dropped and counted. -/
def State.rawServe (s : State) (pec : Bool) (g : State → State) : State :=
  if s.mode = .OFF then s else if pec then g s else s.count .MGT_ERR_CNT_PEC_ERR

/-- A block write with other data is refused and counted. -/
def State.rawData (s : State) (good : Bool) (g : State → State) : State :=
  if good then g s else (s.count .MGT_ERR_CNT_PEC_ERR).send .rawNack

/-- The row of R492 that applies, counted from 1. -/
def State.ledRow (s : State) : Nat :=
  if s.bt.bootFail ∨ (s.mode = .OFF ∧ (s.bt.trip.isSome = true ∨ s.bt.overV = true)) then 1
  else if s.mode = .CONTAIN then 2
  else if s.ledErr then 3
  else if (s.listed .LANE_STS_STATE).any (fun i => s.lane i == lnDARNED) || s.fld .HST_LANE_FAIL_EXCLUDE != 0 then 4
  else 5

/-- What the fault LED shows (R492). -/
inductive Led where
  | steady
  | blink1Hz
  | blinkQuarterHz
  | off
  deriving DecidableEq, Repr

/-- The fault LED. -/
def State.led (s : State) : Led :=
  match s.ledRow with
  | 1 => .steady
  | 2 => .steady
  | 3 => .blink1Hz
  | 4 => .blinkQuarterHz
  | _ => .off

/-- The 16 bytes of RAW_STATUS. -/
def State.rawStatusBytes (s : State) : List Byte :=
  let b1 := s.fld .SEM_STS_ROLE + 4 * bit s.fwReady + 8 * bit s.bt.bootFail + 16 * bit (s.mode == .CONTAIN)
    + 32 * s.fld .TIM_STS_TIME_APPROX
  toBytes 1 s.mode.code ++ toBytes 1 b1 ++ toBytes 1 (s.fld .HST_CONT_STS_CAUSE)
    ++ toBytes 1 (s.fld .RST_CAUSE_CAUSE) ++ toBytes 2 (s.fld .RST_CAUSE_COUNT) ++ toBytes 1 (s.fld .SEC_LIFECYCLE_STATE)
    ++ toBytes 1 s.ledRow ++ toBytes 4 (s.fld .MGT_LOG_NEXT_NEXT) ++ toBytes 1 (s.fld .MGT_LOG_STS_AON_USED) ++ [0, 0, 0]

/-- RAW_STATUS. -/
def execRawStatus (pec : Bool) (s : State) : Res := .next (s.rawServe pec fun s => s.send (.rawData s.rawStatusBytes))

/-- RAW_WAKE_LAST. -/
def execRawWakeLast (pec : Bool) (s : State) : Res :=
  .next (s.rawServe pec fun s => s.send (.rawData (toBytes 8 (s.fld .PWR_WAKE_LAST_RECORD))))

/-- RAW_LOG_SEEK: a number no longer in the ring selects the oldest entry. -/
def execRawLogSeek (pec : Bool) (num : BitVec 32) (s : State) : Res :=
  .next (s.rawServe pec fun s =>
    if s.ring.any fun e => e.num == num.toNat then { s with mg.rawSeek := some num.toNat }
    else { s with mg.rawSeek := s.ring.head?.map (·.num) })

/-- RAW_LOG_READ: the selected entry, zeros when none is left. -/
def execRawLogRead (pec : Bool) (s : State) : Res :=
  .next (s.rawServe pec fun s =>
    let at_ := s.mg.rawSeek.getD 0
    match s.ring.find? fun e => decide (at_ ≤ e.num) with
    | some e => { s with mg.rawSeek := some (e.num + 1) }.send (.rawData e.bytes)
    | none => s.send (.rawData (List.replicate 32 0)))

/-- RAW_WAKE. -/
def execRawWake (pec : Bool) (data : List Byte) (s : State) : Res :=
  .next (s.rawServe pec fun s => s.rawData (data == [0xA5]) fun s =>
    if s.flag .PWR_WAKE_EN_RAW then s.moduleWake 0x11 else s)

/-- RAW_RESET. -/
def execRawReset (pec : Bool) (data : List Byte) (s : State) : Res :=
  .next (s.rawServe pec fun s => s.rawData (data == [0x5A, 0xA5]) fun s => s.moduleReset 4)

/-- RAW_CONTAIN. -/
def execRawContain (pec : Bool) (data : List Byte) (s : State) : Res :=
  .next (s.rawServe pec fun s => s.rawData (data == [0xC3, 0x3C]) fun s =>
    if s.mode = .LEAD ∨ s.mode = .FOLLOW then s.contain 4 else s)

/-! ### Any other register -/

/-- REGISTER_WRITE: 4 bytes at a dword of the register blocks, or 8 bytes at its quadword, by a core at the BAS address or by
the host through PF0's view. -/
def execRegisterWrite (core : Option Core) (dw : Fin 5767168) (wide : Bool) (v : BitVec 64) (s : State) : Res :=
  .next (
    let off := if wide then dw.val / 2 * 8 else 4 * dw.val
    let n := if wide then 8 else 4
    match core with
    | some c => (s.enterReq
        { who := .core c, kind := .write, addr := blockBase 0 + off, len := n, data := toBytes n v.toNat, priv := true }).hoFlush
    | none =>
      let h : HostTlp := { fn := 0, bar := .bar0, off := off }
      (s.tlpRx h fun s => s.submit (hostReq h .write n (toBytes n v.toNat)) none).hoFlush)

end Sys2Proof.Machine
end

