-- ==== Sys2Proof/Machine/Boot.lean ====
section
/-!
DEFINITION. The commands of the module's life (R376 to R387, R501, R515, R516): power-up and power-down, boot, STANDBY,
module reset.
-/
namespace Sys2Proof.Machine

/-! ### OFF (R376, R501, R515, R516) -/

/-- The number after the highest one in flash (R485). -/
def State.logAfter (s : State) : Nat :=
  s.logFlash.foldl (fun n e => max n (e.num + 1 + bit e.div.isSome)) 0 % 4294967296

/-- The always-on domain powers on and BOOT starts (R379 step 1): a latched overvoltage and a thermal trip are recorded. -/
def State.powerUp (s : State) : State :=
  let s := { s with mode := .BOOT, tick := 0, doms := [(0, .on)] }
  let s := (s.set .MGT_LOG_NEXT_NEXT 0 s.logAfter).set .RST_CAUSE_CAUSE 0 1
  let s := if s.bt.overV then
      { s with bt.overV := false }.faultLog { cls := 6, unit := 15, code := 0x81 } else s
  let s := match s.bt.tripRec with
    | some i => { s with bt.tripRec := none }.faultLog { cls := 6, unit := 15, code := 0x80, info := i }
    | none => s
  (s.lifecycleMove.evLoad.bootDomains).alertSync

/-- POWER_UP: a latched thermal trip keeps the module in OFF (R516). -/
def execPowerUp (s : State) : Res := .next (if s.mode ≠ .OFF ∨ s.bt.trip.isSome = true then s else s.powerUp)

/-- POWER_DOWN. -/
def execPowerDown (s : State) : Res := .next s.powerOff.alertSync

/-- OVERVOLTAGE. -/
def execOvervoltage (s : State) : Res :=
  .next (let s := s.powerOff
    State.alertSync { s with bt.overV := true })

/-- THERMAL_TRIP of a sensor. -/
def execThermalTrip (i : Fin 3) (s : State) : Res :=
  .next (let s := s.powerOff
    State.alertSync { s with bt.trip := some (i.val + 1), bt.tripRec := some (i.val + 1) })

/-- THERMAL_TRIP_CLEAR. -/
def execThermalTripClear (s : State) : Res :=
  .next (if s.mode = .OFF then State.alertSync { s with bt.trip := none } else s)

/-! ### Boot (R379, R384) -/

/-- The image that the boot ROM chooses before verification, and whether the header is written first (R384). -/
def State.imageChoice (s : State) : Nat × State :=
  let h := s.hdr
  if h.attempt ≠ 0 ∧ 0 < h.tries then (h.attempt - 1, s.putHdr { h with tries := h.tries - 1 })
  else if s.bt.wdogFailed = 2 ^ h.active then (1 - h.active, s)
  else (h.active, s)

/-- No image may run: BOOT_FAIL, and the minimal face (R382). -/
def State.bootFailNow (s : State) : State := { s with bt.bootFail := true, bt.face := .minimal }

/-- The chosen image starts (R379 step 3, R384): the start is recorded and the units that follow power up. -/
def State.imageStart (s : State) (run : Nat) (trying : Bool) (ver : BitVec 32) (mirrorVer : BitVec 8) : State :=
  let s := { s with bt.image := some run, bt.imgTry := trying, fwVer := ver.toNat }
  let s := ((s.set .SEC_STS_FW_AUTH 0 1).set .SEC_STS_IMAGE_B 0 run).set .SEM_STS_MIRROR_VER 0 mirrorVer.toNat
  let s := (s.set .CLK_CORE_SEL_SEL 0 1).set .CLK_CORE_SEL_ACTIVE 0 1
  let seam := s.flag .SEM_STS_TWIN_PRESENT && s.evFlags.testBit 2
  let s := if seam then s.seamPower else { s with bt.roleSettled := true }
  (s.logRecord 22 2).bootNext

/-- IMAGE_VERIFIED: the verification of images A and B, the version of the image that starts and its mirror version. -/
def execImageVerified (okA okB : Bool) (ver : BitVec 32) (mirrorVer : BitVec 8) (s : State) : Res :=
  .next (if s.mode ≠ .BOOT ∨ s.bt.image.isSome = true ∨ s.bt.bootFail = true ∨ s.domOn 1 = false ∨ s.domOn 16 = false
      ∨ s.domOn 2 = false then s
    else
      let h := s.hdr
      let trying := h.attempt != 0 && decide (0 < h.tries)
      let (img, s) := s.imageChoice
      let good (i : Nat) : Bool := if i = 0 then okA else okB
      let run := if good img then img else 1 - img
      if !good run || s.bt.wdogFailed == 3 then s.bootFailNow
      else s.imageStart run (trying && run == h.attempt - 1) ver mirrorVer)

/-- The bases of the record are written; a cold boot clears the bitmap and the shadow; the store is trained, and the
translation stage powers up (R379 step 4). -/
def State.storeStart (s : State) : State :=
  let tbl := s.evBase 0x20 0x1FF0000000 0x1000000
  let ovf := s.evBase 0x28 0x1FE0000000 0x10000000
  let spill := s.evBase 0x30 0x1FDC000000 0x4000000
  let shadow := s.evBase 0x38 0x1FF1000000 0x10000
  let s := (s.set .XLT_TBL_BASE_BASE 0 (tbl / 0x1000000)).set .LDG_OVF_BASE_BASE 0 (ovf / 0x10000000)
  let s := (s.set .SHR_SPILL_BASE_BASE 0 (spill / 0x4000000)).set .GRD_SHADOW_BASE_BASE 0 (shadow / 0x10000)
  let s := s.set .DRS_SYS_BASE_BASE 0 (min (min tbl ovf) (min spill shadow) / 0x4000000)
  let s := if s.bt.warm then s else { s.zeroRange shadow (shadow + 4864) with bitmap := [] }
  let s := ((s.set .DRS_STS_TRAINED 0 1).set .DRS_STS_CACHED 0 (bit s.bt.trainCache)).set .DRS_STS_PKG_OK 0 255
  let s := (s.set .DRS_STS_SELF_REFRESH 0 0).each (List.range 8) fun s k =>
    (s.set .DRS_PKG_STS_SR k 0).set .DRS_PKG_STS_TRAINED k 1
  State.setDom { s with bt.trainCache := true } 14 .powering

/-- STORE_TRAINED. -/
def execStoreTrained (s : State) : Res :=
  .next (if s.mode ≠ .BOOT ∨ s.domOn 17 = false ∨ s.domOn 18 = false ∨ s.flag .DRS_STS_TRAINED = true then s
    else s.storeStart)

/-! ### Provisioning (R387) -/

/-- The commands a provisioning may hold, by opcode, served in the management mailbox. -/
def provCommand (op : Nat) : Option (Fin 2109 → State → Res) :=
  match op with
  | 0x0102 => some execFnSetRes | 0x0103 => some execSliceBind | 0x0104 => some execSliceUnbind | 0x0105 => some execFnLock
  | 0x0106 => some execVfTotal | 0x0201 => some execCtxBind | 0x0202 => some execCtxUnbind | 0x0203 => some execCtxSetup
  | 0x0301 => some execWinWrite | 0x0303 => some execWinInval | 0x0401 => some execGrdWrite | 0x0501 => some execIrqSet
  | 0x0503 => some execIrqLtSet | 0x0601 => some execDmaGrant | 0x0701 => some execShareSet
  | _ => none

/-- One command of the provisioning: its header as bytes 0x08 to 0x0F of a mailbox, then its payload. It is carried out as
if the management mailbox held it. -/
def State.provRun (s : State) (hdr pay : List Byte) : State :=
  match provCommand (ofBytes (hdr.take 2)) with
  | none => s
  | some run =>
    let s := (s.set .MBX_MB_CONTROL 0 2).stBytes (mbxAddr 0 + 8) hdr
    match run 0 (s.stBytes (mbxAddr 0 + 0x40) pay) with
    | .next t => t.mbxReset 0
    | _ => s.mbxReset 0

/-- The commands in the bytes of a PROVISION field, one after another; `n` bounds their number. -/
def State.provAll (s : State) : Nat → List Byte → State
  | 0, _ => s
  | n + 1, b =>
    if b.length < 8 then s
    else
      let len := ofBytes ((b.drop 4).take 2)
      (s.provRun (b.take 8) ((b.drop 8).take len)).provAll n (b.drop (8 + len))

/-- The registers, and the field of FN_CTL, that a retained store keeps for a warm boot (R113, R387). -/
def provKept (f : Fld) : Bool :=
  match (fldInfo f).reg with
  | .FN_SLICE | .FN_RES | .SHR_CTX_BIND | .SHR_CTX_SHARE | .SHR_CTX_RES | .SHR_PORT_SHARE | .SHR_PORT_RES | .IRQ_ROUTE
  | .DMA_GRANT | .DMA_CH_CFG => true
  | _ => f == .FN_CTL_PROV_LOCK

/-- Provisioning is restored after STANDBY with a retained store, else taken from the record. A leader sends its follower
the picture as a snapshot afterwards. -/
def State.provision (s : State) : State :=
  let role := s.fld .SEM_STS_ROLE
  let s := s.set .SEM_STS_ROLE 0 0
  let s := if s.bt.warm then s.each s.bt.provSave fun s e => s.set (Fld.ofNat (e.1 / 1048576)) (e.1 % 1048576) e.2
    else s.provAll s.evProvision.length s.evProvision
  let s := s.set .SEM_STS_ROLE 0 role
  if s.mirrors then s.snapshot else s

/-- The image reaches FW_READY: the record of watchdog expiries ends, and a TRY image becomes ACTIVE (R384). -/
def State.imageReady (s : State) : State :=
  let h := s.hdr
  let s := if s.bt.imgTry then s.putHdr { h with active := h.attempt - 1, attempt := 0, tries := 0 } else s
  { s with bt.imgTry := false, bt.wdogFailed := 0 }

/-- Every step of R379 before the last has ended. -/
def State.readyDue (s : State) : Bool :=
  s.mode == .BOOT && s.bt.image.isSome && !s.bt.bootFail && s.bt.roleSettled && s.flag .DRS_STS_TRAINED
    && [9, 10, 11, 12, 13, 14, 15].all fun d => s.domOn d

/-- Boot ends (R376, R379 step 7, R382): provisioning, the mode of the role, the full face, the Bridge Descriptor Table. -/
def State.bootEnd (s : State) : State :=
  let s := State.provision { s with fwReady := true, logWork := if s.logWork = [] then s.logFlash else s.logWork }
  let s := { s.imageReady with bt.provSave := [], bt.warm := false, bt.wdogHalf := false }
  let s := (s.set .MBX_CFG_EN 0 1).set .PWR_WDOG_CFG_EN 0 1
  let s := s.toMode (if s.fld .SEM_STS_ROLE = 2 then .FOLLOW else .LEAD)
  let s := if s.bt.face == .rrs then s.fullFace else s
  ((s.bdtBuild).logRecord 22 1).irqEval

/-- FW_READY. -/
def execFwReady (s : State) : Res := .next (if !s.readyDue || s.fwReady then s else s.bootEnd)

/-- BOOT_WATCHDOG_EXPIRE. -/
def execBootWatchdogExpire (s : State) : Res :=
  .next (match s.bt.image with
    | some i =>
      if s.mode ≠ .BOOT ∨ s.fwReady = true then s
      else
        let s := { s with bt.wdogFailed := s.bt.wdogFailed ||| 2 ^ i }.faultLog { cls := 6, unit := 18, code := 5 }
        s.moduleReset 5
    | none => s)

/-- RRS_TIMEOUT. -/
def execRrsTimeout (s : State) : Res :=
  .next (if s.mode = .BOOT ∧ s.bt.face = .rrs ∧ s.perst = false ∧ s.hctlOn = true then { s with bt.face := .minimal } else s)

/-- MODULE_RESET_EVENT of a cause other than power-on. -/
def execModuleResetEvent (cause : Fin 9) (s : State) : Res :=
  .next (if cause.val < 2 then s else s.moduleReset cause)

/-! ### STANDBY (R386, R387, R453) -/

/-- The ports go DOWN and their lanes OFF; what is left in the ledger ends with LINK_DOWN. -/
def State.portsOff (s : State) : State :=
  (s.each ((List.range 17).filter fun l => s.fld .LANE_LINK_STS_STATE l != 0) State.linkOff).starchSettle

/-- What STANDBY keeps: the always-on registers, the fault log, the flash, and with `retain` the store with its training
and the provisioning. DESIGN CHOICE (assumption 71): the state of the functions is not kept, as R64 and R387 say, though R102
has it kept through STANDBY. -/
def State.sleepKept (s : State) (retain : Bool) : State :=
  let store (a : Nat) : Bool := retain && decide (a < 0x2000000000)
  let b := s.bt
  { pending := s.pending, out := s.out, free := s.free, tick := s.tick, mode := .STANDBY
    regs := s.keepRegs keptFld, mem := smKeep store s.mem, poison := smKeep store s.poison
    bitmap := if retain then s.bitmap else []
    ring := s.ring, logWork := if retain then s.logWork else [], logFlash := s.logFlash, ledErr := s.ledErr
    perst := s.perst, doms := if retain then [(0, .on), (18, .on)] else [(0, .on)]
    bt := { hdr0 := b.hdr0, hdr1 := b.hdr1, ev0 := b.ev0, ev1 := b.ev1, evUse := b.evUse, wdogFailed := b.wdogFailed
            trainCache := b.trainCache, wakeOn := b.wakeOn
            provSave := if retain then s.keepRegs provKept else []
            trip := b.trip, tripRec := b.tripRec, overV := b.overV, limits := b.limits
            powerHigh := b.powerHigh, vinOut := b.vinOut, alertLow := b.alertLow }
    sc := { lcNext := s.sc.lcNext }
    mg := { sensVal := s.mg.sensVal, rawSeek := s.mg.rawSeek } }

/-- Everything but the always-on domain, and the store when it is retained, is powered down. -/
def State.sleep (s : State) (retain : Bool) (wake : Option Nat) : State :=
  let t := s.zeroAbort.logFlush.beforeReset.sleepKept retain
  let t := (if retain then (t.selfRefresh).set .DRS_ZERO_POS_POS 0 (s.zeroAbort.fld .DRS_ZERO_POS_POS) else t).roleLine s.leading
  match wake with
  | some src => t.moduleWake src
  | none => t

/-- The step of STANDBY entry that is reached. -/
def State.sbStep (s : State) (b : Standby) (n : Nat) : State := { s with bt.standby := some { b with step := n } }

/-- STANDBY entry goes on by one step, when the step before it has ended. -/
def State.sbAdvance (s : State) (b : Standby) : State :=
  match b.step with
  | 1 =>
    let s := s.sbStep b 2
    if s.twinSynced && s.ho == .none then s.hoStart.2 else s
  | 2 =>
    if s.ho ≠ .none then s
    else
      let s := s.leavePair.sbStep b 3
      if s.dom 15 = .on then s.domDown 15 0 false else s
  | 3 =>
    match s.dom 15 with
    | .off => s.sbStep b 4
    | .retained => s.sbStep b 4
    | .on => (s.domDown 15 0 (b.busy != 0)).sbStep { b with busy := b.busy + 1 } 3
    | _ => s
  | 4 => if s.ledger = [] ∧ s.ldgWait = [] then s.portsOff.sbStep b 5 else s
  | _ => s.sleep b.retain b.wake

/-- STANDBY_ENTRY: entry that has started goes on, in LEAD or FOLLOW; the module entering CONTAIN ends it (R486). -/
def execStandbyEntry (s : State) : Res :=
  .next (match s.bt.standby with
    | none => s
    | some b =>
      if s.mode = .LEAD ∨ s.mode = .FOLLOW then (s.sbAdvance b).hoFlush
      else if s.mode = .CONTAIN then { s with bt.standby := none, pmeOff := s.ltssm == ltL2 }
      else s)

/-- STANDBY_LEDGER_TIMEOUT: 100 ms of run-on have passed. -/
def execStandbyLedgerTimeout (s : State) : Res :=
  .next (match s.bt.standby with
    | some b => if b.step = 4 ∧ (s.mode = .LEAD ∨ s.mode = .FOLLOW) then s.portsOff.sbStep b 5 else s
    | none => s)

/-- MODULE_WAKE by a wake source (R466), when it is enabled (R467). -/
def execModuleWake (src : BitVec 8) (s : State) : Res :=
  .next (match src.toNat with
    | 0x03 => if s.flag .PWR_WAKE_EN_TIMER then s.moduleWake 0x03 else s
    | 0x10 => s.moduleWake 0x10
    | 0x11 => if s.flag .PWR_WAKE_EN_RAW then s.moduleWake 0x11 else s
    | 0x13 => if s.flag .PWR_WAKE_EN_TWIN then s.moduleWake 0x13 else s
    | _ => s)

end Sys2Proof.Machine
end

