-- ==== Sys2Proof/Machine/Dma.lean ====
section
/-!
DEFINITION. The commands of the DMA engine and its rings (R251 to R282, R316).
-/
namespace Sys2Proof.Machine

/-! ### Register writes -/

/-- A write of DMA_CH_CTL with one action bit. -/
def State.chCtl (s : State) (core : Option Core) (c : Chan) (f : Fld) : State :=
  s.ctlWrite (byWho core) .DMA_CH_CTL c (2 ^ (fldInfo f).lo) 0xFFFFFFFF

/-- DMA_CH_START. -/
def execDmaChStart (core : Option Core) (c : Chan) (s : State) : Res := .next (s.chCtl core c .DMA_CH_CTL_START)
/-- DMA_CH_ABORT. -/
def execDmaChAbort (core : Option Core) (c : Chan) (s : State) : Res := .next (s.chCtl core c .DMA_CH_CTL_ABORT)
/-- DMA_CH_RESUME. -/
def execDmaChResume (core : Option Core) (c : Chan) (s : State) : Res := .next (s.chCtl core c .DMA_CH_CTL_RESUME)
/-- DMA_CH_CLEAR. -/
def execDmaChClear (core : Option Core) (c : Chan) (s : State) : Res := .next (s.chCtl core c .DMA_CH_CTL_CLEAR)
/-- DMA_CH_CFG_WRITE of a whole register. -/
def execDmaChCfgWrite (core : Option Core) (c : Chan) (v : BitVec 64) (s : State) : Res :=
  .next (s.ctlWrite (byWho core) .DMA_CH_CFG c v.toNat (laneMask 0 8))
/-- DMA_GRANT_WRITE: slot j of PF 1 to 3. -/
def execDmaGrantWrite (core : Option Core) (pf : Fin 3) (j : Fin 64) (v : BitVec 32) (s : State) : Res :=
  .next (s.ctlWrite (byWho core) .DMA_GRANT (64 * pf.val + j.val) v.toNat 0xFFFFFFFF)
/-- DMA_RING_RESUME_WRITE. -/
def execDmaRingResumeWrite (core : Option Core) (x : Ctx) (s : State) : Res :=
  .next (s.ctlWrite (byWho core) .DMA_RING_CTL x (2 ^ (fldInfo .DMA_RING_CTL_RESUME).lo) 0xFFFFFFFF)
/-- DMA_RING_RESET_WRITE. -/
def execDmaRingResetWrite (core : Option Core) (x : Ctx) (s : State) : Res :=
  .next (s.ctlWrite (byWho core) .DMA_RING_CTL x (2 ^ (fldInfo .DMA_RING_CTL_RESET).lo) 0xFFFFFFFF)

/-- DOORBELL_WRITE: a host write of 8 bytes to doorbell k in BAR0 of a data PF or VF (R316, R317). -/
def execDoorbellWrite (f : Fn) (k : Fin 1024) (v : BitVec 64) (s : State) : Res :=
  let h : HostTlp := { fn := f, bar := .bar0, off := 256 * k }
  .next (s.when (f.val != 0 && (decide (f.val < 4) || decide (k.val < 8))) fun s =>
    s.tlpRx h fun s => s.submit (hostReq h .write 8 (toBytes 8 v.toNat)) none)

/-! ### Results of the engine's accesses -/

/-- The results of completed record writes of a channel or ring are used up. -/
def State.dropRecDone (s : State) (ch : Nat) : State :=
  { s with dmaDone := s.dmaDone.filter fun e => !(e.ch == ch && tagKind e.tag == 3) }

/-- Takes the oldest result of a channel or ring that satisfies `p`. -/
def State.takeDone (s : State) (ch : Nat) (p : BeatDone → Bool) (g : State → BeatDone → State) : State :=
  let s := s.dropRecDone ch
  match s.dmaDone.find? fun e => e.ch == ch && p e with
  | some e => g { s with dmaDone := s.dmaDone.erase e } e
  | none => s

/-- DESC_FETCH_DONE of a context. -/
def execDescFetchDone (x : Ctx) (s : State) : Res :=
  .next (s.takeDone (256 + x) (fun _ => true) fun s e => s.ringTake x e)

/-- RING_DISPATCH of a context: no dispatch while the lead is handed over (R406). -/
def execRingDispatch (x : Ctx) (s : State) : Res := .next (s.when (s.ho == .none) fun s => s.ringDispatch x)

/-- DMA_BEAT_ISSUE: one cycle of half 0 or 1. -/
def execDmaBeatIssue (half : Fin 2) (err : MemErr) (s : State) : Res := .next (s.dmaCycle half err).starchSettle

/-- DMA_REQ_TAKE of a line: the waiting channel of highest priority, of equal priority the lowest number. -/
def execDmaReqTake (line : Fin 256) (s : State) : Res :=
  .next (
    let wait := s.chans.filter fun e => s.chState e.1 == chWAIT && dLine e.2.words == line.val
    let top := (wait.map fun e => dPrio e.2.words).foldl max 0
    match wait.find? fun e => dPrio e.2.words == top with
    | some e => s.when (s.domOn 15) fun s => s.takeUnit e.1 e.2
    | none => s)

/-- DMA_BEAT_READ_DONE of a channel. -/
def execDmaBeatReadDone (c : Chan) (s : State) : Res :=
  .next (s.takeDone c (fun e => tagKind e.tag < 2) fun s e => (s.readResult c e).chSettle c)

/-- DMA_BEAT_ARRIVED of a channel. -/
def execDmaBeatArrived (c : Chan) (s : State) : Res :=
  .next (s.takeDone c (fun e => tagKind e.tag == 2) fun s e => (s.writeResult c e).chSettle c)

/-- A stop of a channel ends; TDIs that waited for it end their containment (R366). -/
def State.stopEnd (s : State) (c : Nat) (hard : Bool) : State :=
  match s.chan c with
  | some r => s.when ((r.stop == .hard) == hard) fun s => (s.chStopEnd c).stopSettle
  | none => s

/-- DMA_SOFT_STOP_DONE of a channel. -/
def execDmaSoftStopDone (c : Chan) (s : State) : Res := .next (s.stopEnd c false)
/-- DMA_HARD_ABORT_DONE of a channel. -/
def execDmaHardAbortDone (c : Chan) (s : State) : Res := .next (s.stopEnd c true)

/-- REQ_DONE_SEND of a line of a port: the units served since the last REQ_DONE. -/
def execReqDoneSend (p : Port) (line : Fin 16) (s : State) : Res :=
  .next (
    let l := s.port p
    let n := min 65535 (nGet l.served line)
    s.when (s.urUp p && n != 0) fun s =>
      (s.setPort p { l with served := nSet l.served line (nGet l.served line - n) }).urSend p (.reqDone line n))

end Sys2Proof.Machine
end

