-- ==== Sys2Proof/Machine/Guard.lean ====
section
/-!
DEFINITION. The commands of the guard's update unit and epochs (R352, R353) and of debug access (R357, R358, R374).
-/
namespace Sys2Proof.Machine

/-- GRD_UPD_CMD: set and region with GO. -/
def execGrdUpdCmd (core : Option Core) (set region : Fin 32) (s : State) : Res :=
  .next (s.ctlWrite (byWho core) .GRD_UPD_CMD 0
    (region.val * 2 ^ (fldInfo .GRD_UPD_CMD_REGION).lo + set.val * 2 ^ (fldInfo .GRD_UPD_CMD_SET).lo
      + 2 ^ (fldInfo .GRD_UPD_CMD_GO).lo) 0xFFFFFFFF)

/-- GRD_UPD_DONE: the accepted region is committed. -/
def execGrdUpdDone (s : State) : Res := .next (s.when (s.domOn 14) State.grdCommit)

/-- GRD_EPOCH_ADVANCE. -/
def execGrdEpochAdvance (core : Option Core) (s : State) : Res :=
  .next (s.ctlWrite (byWho core) .GRD_EPOCH 0 (2 ^ (fldInfo .GRD_EPOCH_ADVANCE).lo) 0xFFFFFFFF)

/-- GRD_EPOCH_ADVANCE_APPLY. -/
def execGrdEpochAdvanceApply (s : State) : Res := .next (s.when (s.domOn 14) State.grdAdvanceApply)

/-- GRD_EPOCH_DRAIN_READ, with the tag of its completion. -/
def execGrdEpochDrainRead (core : Option Core) (tag : Nat) (s : State) : Res :=
  .next (s.readBy core tag (blockBase 4 - blockBase 0 + 0x18) 4)

/-- GRD_EPOCH_DRAIN_RETURN: older epochs have retired, or tGDRN has passed (`late`). -/
def execGrdEpochDrainReturn (late : Bool) (s : State) : Res := .next (s.grdDrainReturn late)

/-- An access of `len` bytes touches addresses that are locked against debug access (R357). -/
def State.dbgLocked (s : State) (a len : Nat) : Bool :=
  let meets (b n : Nat) : Bool := decide (a < b + n) && decide (b < a + max 1 len)
  ((s.listed .GRD_REGION_WORD).any fun k =>
      let w := s.fld .GRD_REGION_WORD k
      w.testBit 0 && w.testBit 1 && meets (gBase w) (gSize w))
    || meets (blockBase Block.SEC.ctorIdx) 0x100000 || meets (s.fld .GRD_SHADOW_BASE_BASE * 0x10000) 4864

/-- DEBUG_ACCESS of JTAG: a write of bytes, or with no data a read of `len` bytes; in PRODUCTION refused by the lock
state, else performed as a privileged access subject to set 18. -/
def execDebugAccess (addr : Fin 281474976710656) (data : List Byte) (len : Nat) (err : MemErr) (s : State) : Res :=
  .next (s.when (s.domOn 0 && s.mode != .OFF) fun s =>
    let write := data != []
    let n := if write then data.length else len
    if s.fld .SEC_LIFECYCLE_STATE = lcPRODUCTION ∧ (!s.flag .DBG_STS_OPEN || s.dbgLocked addr n) then
      s.dbgRefuse addr write n
    else s.enterReq
      { who := .core jtag, kind := if write then .write else .read, addr := addr, len := n, data := data, priv := true
        err := err })

/-- RELOCK. -/
def execRelock (s : State) : Res := .next (s.ctlWrite (.core 0) .DBG_CTL 0 1 0xFFFFFFFF)

end Sys2Proof.Machine
end

