-- ==== Sys2Proof/Machine/Irq.lean ====
section
/-!
DEFINITION. The commands of the interrupt controller (R283 to R309).
-/
namespace Sys2Proof.Machine

/-- The controller is powered. -/
def State.irqOn (s : State) (g : State → State) : State := s.when (s.domOn 1) g

/-- IRQ_DOORBELL_WRITE: from the host, a core or a design as the 4-byte write it is; a DMA channel and the Seam engine
have passed their checks already. -/
def execIrqDoorbellWrite (w : DbWriter) (v : BitVec 32) (s : State) : Res :=
  .next (match w with
    | .host =>
      let h : HostTlp := { fn := 0, bar := .bar0, off := 0x10000 }
      s.tlpRx h fun s => s.submit (hostReq h .write 4 (toBytes 4 v.toNat)) none
    | .core c => s.ctlWrite (.core c) .IRQ_DOORBELL 0 v.toNat 0xFFFFFFFF
    | .port p tag =>
      let d := toBytes 4 v.toNat
      s.pktRx p (.write tag 0 0 0xFFFFF00000 false false false d none) .clean
    | .dma c => s.irqOn fun s => (s.doorbell (.dma c) v.toNat).2
    | .seam => s.irqOn fun s => (s.doorbell .seam v.toNat).2)

/-- IRQ_RAISE: a unit raises a source. -/
def execIrqRaise (i : Src) (s : State) : Res := .next (s.irqOn fun s => s.raise i)

/-- IRQ_LEVEL_FALL: the level input of a source has become 0; that of a software source becomes 0 here (R284). -/
def execIrqLevelFall (i : Src) (s : State) : Res :=
  .next (s.irqOn fun s =>
    if 0x2800 ≤ i.val then s.dbDeassert i else if s.level i then s else s.levelFall i)

/-- IRQ_ARRAY_WRITE by a core: plain (0), bit-set (1) or bit-clear (2), at an offset of the arrays. -/
def execIrqArrayWrite (c : Core) (al : Fin 3) (off : Fin 65536) (data : List Byte) (s : State) : Res :=
  .next (s.enterReq
    { who := .core c, kind := .write, addr := pendBase + al.val * 0x100000000 + off.val, len := data.length, data := data
      priv := true })

/-- A write of one of the four mask registers of the arrays. -/
def State.irqMask (s : State) (core : Option Core) (r : Reg) (n : Fin 512) (v : BitVec 32) : State :=
  s.ctlWrite (byWho core) r n v.toNat 0xFFFFFFFF

/-- IRQ_PEND_SET, IRQ_PEND_CLR, IRQ_EN_SET, IRQ_EN_CLR. -/
def execIrqPendSet (core : Option Core) (n : Fin 512) (v : BitVec 32) (s : State) : Res :=
  .next (s.irqMask core .IRQ_PEND_SET n v)
def execIrqPendClr (core : Option Core) (n : Fin 512) (v : BitVec 32) (s : State) : Res :=
  .next (s.irqMask core .IRQ_PEND_CLR n v)
def execIrqEnSet (core : Option Core) (n : Fin 512) (v : BitVec 32) (s : State) : Res :=
  .next (s.irqMask core .IRQ_EN_SET n v)
def execIrqEnClr (core : Option Core) (n : Fin 512) (v : BitVec 32) (s : State) : Res :=
  .next (s.irqMask core .IRQ_EN_CLR n v)

/-- IRQ_ROUTE_WRITE of a whole route. -/
def execIrqRouteWrite (core : Option Core) (i : Src) (v : BitVec 64) (s : State) : Res :=
  .next (s.ctlWrite (byWho core) .IRQ_ROUTE i v.toNat (laneMask 0 8))

/-- IRQ_CORE_CLAIM: core c reads its claim register. -/
def execIrqCoreClaim (c : Core) (s : State) : Res :=
  .next (s.enterReq { who := .core c, kind := .read, addr := regAddr .IRQ_CORE_CLAIM c, len := 4, priv := true })

/-- IRQ_CORE_COMPLETE of core c with a source. -/
def execIrqCoreComplete (core : Option Core) (c : Core) (i : Src) (s : State) : Res :=
  .next (s.ctlWrite (byWho core) .IRQ_CORE_COMPLETE c i 0xFFFFFFFF)

/-- IRQ_CORE_THR_WRITE of core c. -/
def execIrqCoreThrWrite (core : Option Core) (c : Core) (thr : Fin 16) (s : State) : Res :=
  .next (s.ctlWrite (byWho core) .IRQ_CORE_CTL c thr 0xF)

/-- The sources that the message of an MSI-X entry would deliver now: presented there, highest priority first, of equal
priority the lowest number. -/
def State.msixSrcs (s : State) (f e : Nat) : List Nat :=
  let l := s.pendSrcs.filter fun i => s.presented i == some ⟨1, f, e⟩
  (List.range 16).reverse.flatMap fun p => l.filter fun i => s.prio i == p

/-- The slice whose context raised a source (R83). -/
def State.srcSlice (s : State) (i : Nat) : Option Nat :=
  if i < 4096 then (s.ctxOwner i).2 else none

/-- The message of an MSI-X entry goes to the host for the sources it delivers, `i` first. -/
def State.msixSend (s : State) (f e i : Nat) (t : List Nat) : State :=
  let srcs := i :: t
  let sl := s.srcSlice i
  let s := s.each srcs fun s i => (s.setPend i false).stormCount i
  (s.jSend { fn := f, slice := sl, addr := s.msixAddr f e, data := s.msixData f e, msi := some srcs }).irqEval

/-- MSIX_MESSAGE_SEND of an entry of a function. -/
def execMsixMessageSend (f : Fn) (e : Fin 2048) (s : State) : Res :=
  .next (match s.msixSrcs f e with
    | [] => s
    | i :: t => s.msixSend f e i t)

/-- A source is delivered to a local target: a privileged 4-byte write under initiator code 18. -/
def State.localSend (s : State) (i : Nat) (t : Target) : State :=
  let p := s.fld .IRQ_LT_PORT t.index
  let la := s.fld .IRQ_LT_ADDR t.index / 4 * 4
  let v := i + s.prio i * 65536
  let s := (s.setPend i false).stormCount i
  (s.deliverMem
    { who := .seam, kind := .write, addr := la, len := 4, data := toBytes 4 v, priv := true, fixed := 6, tag := i
      dst := 0x100000000000 + p * 0x10000000000 + la, key := some (0x100000000000 + p * 0x10000000000 + la) }).irqEval

/-- The source that a local target is delivered next: the one of the highest priority, of equal priority the lowest number
(R299). -/
def State.localFirst (s : State) (t : Target) : Option Nat :=
  let l := s.pendSrcs.filter fun i => s.presented i == some t
  ((List.range 16).reverse.flatMap fun p => l.filter fun i => s.prio i == p).head?

/-- LOCAL_IRQ_DELIVERY of a source to its local target. -/
def execLocalIrqDelivery (i : Src) (s : State) : Res :=
  .next (match s.presented i with
    | some t => if t.kind ≠ 4 ∨ s.localFirst t ≠ some i then s else s.localSend i t
    | none => s)

/-- Sources in STORM below the release rate leave it; the window starts afresh (R309). -/
def State.stormEnd (s : State) : State :=
  let out := (s.irqStorm.map (·.1)).filter fun i => decide (nGet s.irqRaises i < s.fld .IRQ_STORM_CFG_RELEASE)
  let s := s.each out fun s i => { s with irqStorm := bSet s.irqStorm i false }
  State.irqEval { s with irqShown := [], irqRaises := [] }

/-- STORM_WINDOW_END. -/
def execStormWindowEnd (s : State) : Res := .next (s.irqOn State.stormEnd)

/-- IRQ_STORM_WRITE of a word of the array. -/
def execIrqStormWrite (core : Option Core) (n : Fin 512) (v : BitVec 32) (s : State) : Res :=
  .next (s.irqMask core .IRQ_STORM n v)

end Sys2Proof.Machine
end

