-- ==== Sys2Proof/Machine/Lanes.lean ====
section
/-!
DEFINITION. The commands of the lane layer (R185 to R211): training, darning and reinstatement, markers, low power. A
command for a link whose power domain is off has no effect.
-/
namespace Sys2Proof.Machine

/-- The domain of a link is on. -/
def State.linkOn (s : State) (l : Nat) : Bool := s.domOn (linkDom l)

/-- LANE_ENABLE: a write of LANE_LINK_CTL.ENABLE (R197). -/
def execLaneEnable (l : Link) (on : Bool) (s : State) : Res :=
  .next (s.when (s.linkOn l) fun s => s.enableWrite l on)

/-- LANE_RETRAIN: a write of LANE_LINK_CTL.RETRAIN (R197). -/
def execLaneRetrain (l : Link) (s : State) : Res :=
  .next (s.when (s.linkOn l) fun s => s.retrain l)

/-- One coefficient request of a TRAIN block applied to a transmitter tap of `n` steps (R198): the new step and the
status of the answer. -/
def tapStep (req cur init n : Nat) : Nat × Nat :=
  if req = 1 then (if cur + 1 < n then (cur + 1, 1) else (cur, 2))
  else if req = 2 then (if 0 < cur then (cur - 1, 1) else (cur, 2))
  else if req = 3 then (init, 1)
  else (cur, 0)

/-- Coefficient requests of the far end and the own ones (R198). A far request is answered once, until it is back to 0; an
own one goes back to 0 with its answer, and a new one is made in EQUALISE unless HOLD is 1. -/
def State.trainTaps (s : State) (i : Nat) (b : TrainBlk) (rx : LaneRx) : State :=
  let t := s.ltx i
  let pre := if t.preSts ≠ 0 then (s.fld .LANE_TXEQ_PRE i, t.preSts)
    else tapStep b.preReq (s.fld .LANE_TXEQ_PRE i) (s.fld .LANE_TXEQ_PRE_INIT i) 8
  let post := if t.postSts ≠ 0 then (s.fld .LANE_TXEQ_POST i, t.postSts)
    else tapStep b.postReq (s.fld .LANE_TXEQ_POST i) (s.fld .LANE_TXEQ_POST_INIT i) 16
  let may := s.lane i == lnEQUALISE && !s.flag .LANE_TXEQ_HOLD i
  let own (now sts ask : Nat) : Nat := if now ≠ 0 then (if sts ≠ 0 then 0 else now) else if may && sts == 0 then ask else 0
  let s := s.setLtx i { t with
    preSts := if b.preReq = 0 then 0 else pre.2, postSts := if b.postReq = 0 then 0 else post.2
    preReq := own t.preReq b.preSts rx.askPre, postReq := own t.postReq b.postSts rx.askPost
    rxReady := decide (lnEQUALISE ≤ s.lane i) && rx.equalised, readySeen := b.rxReady }
  (s.set .LANE_TXEQ_PRE i pre.1).set .LANE_TXEQ_POST i post.1

/-- A good TRAIN block on a locked lane: what the far end says is recorded (R197). -/
def State.trainTake (s : State) (i : Nat) (b : TrainBlk) : State :=
  let s := ((s.set .LANE_FAR_LINK_ID i b.linkId).set .LANE_FAR_LANE i b.lane).set .LANE_FAR_RATES i b.rates
  s.set .LANE_FAR_WIDTH i b.width

/-- A lane fails. -/
def State.laneFail (s : State) (cause i : Nat) : State := (s.setLane i lnFAILED).set .LANE_STS_FAIL_CAUSE i cause

/-- Lanes in EXCHANGE whose far WIDTH or LINK_ID does not fit fail with MISWIRE (R197). Of lanes that differ, each differs
from another: all of them in EXCHANGE fail (DEDUCED, assumption 73). -/
def State.miswireCheck (s : State) (l : Nat) : State :=
  let met := (lanesOf l).filter fun i => decide (lnEXCHANGE ≤ s.lane i) && s.lane i != lnFAILED
  let bad := (s.lanesIn l lnEXCHANGE).filter fun i => s.fld .LANE_FAR_WIDTH i != linkWidth l
    || met.any fun j => s.fld .LANE_FAR_LINK_ID j != s.fld .LANE_FAR_LINK_ID i
  if bad = [] then s else (s.each bad (State.laneFail · 1)).laneEvt l .LANE_LINK_EVT_MISWIRE

/-- The receiver holds lane lock (R196). -/
def rxLocked (rx : LaneRx) : Bool :=
  decide (100 ≤ rx.signal) && decide (rx.ppm ≤ 200) && decide (1000 ≤ rx.ppmTime) && decide (64 ≤ rx.headers)

/-- The deskew limit of a link in units of 100 ps (R201). -/
def skewLimit (l : Nat) : Nat := if l = 16 then 800 else 400

/-- A good TRAIN block on a locked lane moves the lane on (R197, R201). -/
def State.trainStep (s : State) (i : Nat) (b : TrainBlk) (rx : LaneRx) : State :=
  let l := linkOf i
  let s := ((s.set .LANE_STS_SIG i 1).set .LANE_STS_CDR_LOCK i 1).set .LANE_STS_BLOCK_LOCK i 1
  let s := (s.trainTake i b).trainTaps i b rx
  let st := s.lane i
  if st = lnDETECT then
    let s := (s.set .LANE_STS_INVERTED i (bit rx.inverted)).setLane i lnEXCHANGE
    (s.miswireCheck l).exchangeCheck l
  else if st = lnEXCHANGE then (s.miswireCheck l).exchangeCheck l
  else if st = lnEQUALISE ∧ b.rxReady ∧ b.readySeen ∧ rx.skew ≤ skewLimit l then s.setLane i lnREADY
  else s

/-- The TRAIN block that a lane sends is another one now; it goes on with that. -/
def State.trainAgain (s : State) (i : Nat) (old : LaneTx) : State :=
  if s.ltx i = old then s else s.trainLane (s.fld .LANE_LINK_STS_RATE (linkOf i)) (bit (s.lane i == lnEQUALISE)) 0 i

/-- TRAIN_BLOCK_RX: a lane control block out of its periodic place: a TRAIN block drives the lane (R193, R197, R198, R201);
one with a bad CRC or of an unknown type is discarded and counted. -/
def execTrainBlockRx (i : Lane) (word : Nat) (rx : LaneRx) (s : State) : Res :=
  .next (s.when (s.linkOn (linkOf i) && s.lane i != lnOFF) fun s =>
    match laneCtl word with
    | .bad => s.count .LANE_ERR_CNT_MARKER_ERR i
    | .marker _ => s
    | .train b =>
      let s := { s with laneSkew := bSet s.laneSkew i (decide (skewLimit (linkOf i) < rx.skew)) }
      if rxLocked rx then (s.trainStep i b rx).trainAgain i (s.ltx i) else s)

/-- LANE_EQ_TIMEOUT: a lane has been in EQUALISE for 2 ms (R197). -/
def execLaneEqTimeout (i : Lane) (s : State) : Res :=
  .next (s.when (s.lane i == lnEQUALISE) fun s => s.laneFail (if bGet s.laneSkew i then 3 else 2) i)

/-- LINK_TRAIN_DECIDE: enough lanes are READY, or every lane has settled and too few are (R199). -/
def execLinkTrainDecide (l : Link) (s : State) : Res :=
  .next (s.when (s.linkOn l && s.fld .LANE_LINK_STS_STATE l == 1) fun s =>
    let k := s.lk l
    let ready := (s.lanesIn l lnREADY).length + s.activeRx l
    let need := if k.target = 0 then s.darnMin l else max ((linkWidth l + 1) / 2) (s.darnMin l)
    let busy := s.lanesIn l lnEQUALISE != [] || (s.lanesIn l lnEXCHANGE ++ s.lanesIn l lnDETECT).any fun i => !s.lags i
    if need ≤ ready then s.linkActive l
    else if busy then s
    else if k.target = 0 then (s.set .LANE_LINK_STS_STATE l 0).setLk l { k with failed := true }
    else
      let t := k.target - 1
      let s := (s.setLk l { k with target := t }).set .LANE_LINK_STS_RATE l t
      let go := s.lanesIn l lnREADY ++ s.lanesIn l lnACTIVE ++ s.lanesIn l lnEXCHANGE
      ((s.each go fun s i => s.setLane i lnEQUALISE).trainTx go t 1 0).laneEvt l .LANE_LINK_EVT_RATE_LOW)

/-- DETECT_TIMEOUT: 10 ms in DETECT (R200). -/
def execDetectTimeout (l : Link) (s : State) : Res :=
  .next (s.when (s.linkOn l && s.fld .LANE_LINK_STS_STATE l == 1) fun s =>
    let still := s.lanesIn l lnDETECT
    if still = [] then s
    else if (lanesOf l).all fun i => s.lane i == lnDETECT then s.laneTrain l
    else
      let k := s.lk l
      (s.setLk l { k with lag := k.lag ||| ownMask l still }).exchangeCheck l)

/-- TRAIN_RESTART_TIMEOUT: 10 ms after training failed at rate code 0 (R199). -/
def execTrainRestartTimeout (l : Link) (s : State) : Res :=
  .next (s.when (s.linkOn l && (s.lk l).failed) fun s => s.laneTrain l)

/-- TRAIN_BEACON_TICK: the part of the 10 ms period in which a link without signal sends TRAIN begins or ends (R200). -/
def execTrainBeaconTick (l : Link) (on : Bool) (s : State) : Res :=
  .next (s.when (s.linkOn l && s.fld .LANE_LINK_STS_STATE l == 1 && !((lanesOf l).any fun i => s.flag .LANE_STS_SIG i))
    fun s =>
      let s := s.setLk l { s.lk l with sending := on }
      if on then s.trainTx (lanesOf l) 0 0 0 else s.send (.laneIdle l))

/-- LANE_SIGNAL_DETECT: signal detect on a lane (R196, R200). -/
def execLaneSignalDetect (i : Lane) (s : State) : Res :=
  let l := linkOf i
  .next (s.when (s.linkOn l) fun s =>
    let first := !((lanesOf l).any fun j => s.flag .LANE_STS_SIG j)
    let s := s.set .LANE_STS_SIG i 1
    if first && s.fld .LANE_LINK_STS_STATE l == 1 && !(s.lk l).sending then
      (s.setLk l { s.lk l with sending := true }).trainTx (lanesOf l) 0 0 0
    else s)

/-- A lane has lost lane lock (R196): an ACTIVE lane is darned, a trial is not clean; an ADD_REQ of the lane is over. -/
def State.lockLost (s : State) (i : Nat) : State :=
  if s.lane i = lnACTIVE then s.darn i
  else if s.lane i = lnTRIAL then
    if ((s.lk (linkOf i)).adding &&& s.farBit i) ≠ 0 then s.trialDrop i else s.setLtx i { s.ltx i with winBad := true }
  else s

/-- LANE_LOCK_LOSS: signal detect, clock recovery lock and block lock of a lane as its receiver finds them; lane lock goes
with any of them (R196, R205). -/
def execLaneLockLoss (i : Lane) (w : LaneLoss) (s : State) : Res :=
  .next (s.when (s.linkOn (linkOf i)) fun s =>
    let sig := s.flag .LANE_STS_SIG i && decide (w.dark < 100)
    let cdr := s.flag .LANE_STS_CDR_LOCK i && !(decide (300 < w.ppm) && decide (100 ≤ w.ppmTime))
    let blk := s.flag .LANE_STS_BLOCK_LOCK i && decide (w.headerErrs < 16)
    let s := ((s.set .LANE_STS_SIG i (bit sig)).set .LANE_STS_CDR_LOCK i (bit cdr)).set .LANE_STS_BLOCK_LOCK i (bit blk)
    if sig && cdr && blk then s else s.lockLost i)

/-- LANE_SYNC_ERR_WINDOW: a 1 ms window ends with so many sync header errors on a lane (R208). -/
def execLaneSyncErrWindow (i : Lane) (errs : Nat) (s : State) : Res :=
  .next (s.when (s.linkOn (linkOf i)) fun s =>
    let s := s.count .LANE_ERR_CNT_SYNC_ERR i errs
    let thr := s.fld .LANE_CTL_ERR_THR i
    if s.lane i = lnACTIVE ∧ thr ≠ 0 ∧ thr ≤ errs then s.darn i else s)

/-- LANE_FORCE_DARN_WRITE: a write of LANE_CTL.FORCE_DARN (R208). -/
def execLaneForceDarnWrite (i : Lane) (v : Bool) (s : State) : Res :=
  .next (s.when (s.linkOn (linkOf i)) fun s => s.forceWrite i v)

/-- TRIAL_NOW: a write of LANE_CTL.TRIAL_NOW (R206). -/
def execTrialNow (i : Lane) (s : State) : Res :=
  .next (s.when (s.linkOn (linkOf i)) fun s => s.trialNow i)

/-- The four conditions of a clean window (R206). -/
def State.winClean (s : State) (i : Nat) (w : TrialWin) : Bool :=
  (match w.lockAt with | some t => decide (t ≤ 100) | none => false) && w.syncErrs == 0 && !(s.ltx i).winBad

/-- TRIAL_WINDOW_END: a boundary of the 1 ms windows of a darned lane; a trial that ran is clean or not (R197, R206). -/
def execTrialWindowEnd (i : Lane) (w : TrialWin) (s : State) : Res :=
  let l := linkOf i
  .next (s.when (s.linkOn l && s.linkUp l && (s.port l).rxLp == 0) fun s =>
    if s.lane i = lnDARNED then (if s.mayTry i then s.trialStart i else s)
    else if s.lane i ≠ lnTRIAL ∨ ((s.lk l).adding &&& s.farBit i) ≠ 0 then s
    else if !s.winClean i w then
      let s := s.set .LANE_STS_CLEAN i 0
      if s.mayTry i then s.trialStart i else s.setLane i lnDARNED
    else
      let s := ((s.set .LANE_STS_SIG i 1).set .LANE_STS_CDR_LOCK i 1).set .LANE_STS_BLOCK_LOCK i 1
      if s.fld .LANE_STS_CLEAN i < 2 then
        (s.set .LANE_STS_CLEAN i (s.fld .LANE_STS_CLEAN i + 1)).trialStart i
      else
        let k := s.lk l
        ((s.setLk l { k with adding := k.adding ||| s.farBit i }).lpExit l).sendMarker l 3 (s.farBit i))

/-- A periodic marker of a lane is missing or outside the deskew limit: the second in a row loses alignment (R196); a trial
window with one is not clean (R206). -/
def State.markerLate (s : State) (i : Nat) : State :=
  let n := nGet s.laneMarks i + 1
  let s := { s with laneMarks := nSet s.laneMarks i (if 2 ≤ n then 0 else n) }
  if s.lane i = lnTRIAL then s.setLtx i { s.ltx i with winBad := true }
  else if 2 ≤ n ∧ s.lane i = lnACTIVE then s.darn i else s

/-- MARKER_RX: what came in a periodic marker's place on a lane, and the lane's skew (R193, R194, R196, R201). -/
def execMarkerRx (i : Lane) (word : Option Nat) (skew : Nat) (s : State) : Res :=
  let l := linkOf i
  .next (s.when (s.linkOn l && s.lane i != lnOFF) fun s =>
    match word.map laneCtl with
    | some .bad =>
      let s := s.count .LANE_ERR_CNT_MARKER_ERR i
      if s.linkUp l then s.markerLate i else s
    | some (.marker _) =>
      if !s.linkUp l then s
      else if skew ≤ skewLimit l then { s with laneMarks := nSet s.laneMarks i 0 } else s.markerLate i
    | _ => if s.linkUp l then s.markerLate i else s)

/-- Answers with one STRIPE for a transmit set (R205, R206), with TRAIN in PHASE 2 on the lanes that it excludes; a
transmitter in low power leaves it first (R210). -/
def State.answerStripe (s : State) (l tx : Nat) : State :=
  let out := (lanesOf l).filter fun i => !tx.testBit (i - laneBase l)
  let s := s.set .LANE_LINK_STS_TX_ACTIVE l tx
  let s := s.each (lanesOf l) fun s i => s.set .LANE_STS_TX_DARNED i (bit (out.contains i))
  let s := if (s.port l).txLp = 0 then (s.sendMarker l 1 0).laneSync l else s.lpExit l
  s.trainTx out (s.fld .LANE_LINK_STS_RATE l) 2 0

/-- The transmit set that a DARN_REQ and an ADD_REQ with the far receiver's RX_OK ask for (R205, R206): at least one lane
stays, and a lane whose RX_OK bit is 0 is not added. None: nothing is answered. -/
def State.stripeWanted (s : State) (l darn add rxok : Nat) : Option Nat :=
  let tx := s.fld .LANE_LINK_STS_TX_ACTIVE l
  let more := (add &&& rxok) % 2 ^ linkWidth l
  let less := tx - (tx &&& darn)
  if darn ≠ 0 ∧ less ≠ 0 then some (less ||| more)
  else if more ≠ 0 then some (tx ||| more)
  else none

/-- DARN_REQ_RX: a DARN_REQ that names own transmit lanes (R205), with an ADD_REQ that awaits its answer (R210). -/
def execDarnReqRx (l : Link) (arg add rxok : Nat) (s : State) : Res :=
  .next (s.when (s.linkOn l && s.linkUp l) fun s =>
    match s.stripeWanted l arg add rxok with
    | some tx => s.answerStripe l tx
    | none => s)

/-- ADD_REQ_RX: an ADD_REQ that names own transmit lanes, with the far receiver's RX_OK (R206), with a DARN_REQ that awaits
its answer (R210). -/
def execAddReqRx (l : Link) (arg rxok darn : Nat) (s : State) : Res :=
  .next (s.when (s.linkOn l && s.linkUp l) fun s =>
    match s.stripeWanted l darn arg rxok with
    | some tx => s.answerStripe l tx
    | none => s)

/-- A lane holds signal detect, clock recovery lock and block lock. -/
def State.laneLock (s : State) (i : Nat) : Bool :=
  s.flag .LANE_STS_SIG i && s.flag .LANE_STS_CDR_LOCK i && s.flag .LANE_STS_BLOCK_LOCK i

/-- A STRIPE with the far end's ACTIVE lanes and the skew measured at it takes effect: lanes enter and leave the set, a
remap that it completes is timed. A lane that it brings in and that cannot be used is asked out again. -/
def State.stripeTake (s : State) (l active skew : Nat) : State :=
  let has (i : Nat) : Bool := (s.farBit i &&& active) != 0
  let k := s.lk l
  let back := (s.lanesIn l lnTRIAL).filter fun i => has i && (k.adding &&& s.farBit i) != 0 && s.laneLock i
  let ready := (s.lanesIn l lnREADY).filter has
  let was := (s.lanesIn l lnACTIVE).filter fun i => !has i
  let gone := was ++ (s.lanesIn l lnREADY).filter fun i => !has i
  let odd := (s.lanesIn l lnDARNED ++ s.lanesIn l lnTRIAL).filter fun i =>
    has i && !back.contains i && (k.darning &&& s.farBit i) == 0
  let s := s.each (ready ++ back) fun s i => (s.setLane i lnACTIVE).set .LANE_STS_CLEAN i 0
  let s := s.each gone fun s i => s.setLane i lnDARNED
  let s := s.each was State.darnNote
  let s := s.each back fun s i => s.count .LANE_DARN_CNT_REINSTATES i
  let s := if back = [] then s else s.laneEvt l .LANE_LINK_EVT_REINSTATE
  let s := (s.set .LANE_LINK_STS_RX_ACTIVE l (active % 2 ^ linkWidth l)).set .LANE_SKEW_SKEW l (min 4095 skew)
  let done := k.darning != 0 && (k.darning &&& active) == 0
  let s := s.setLk l { k with darning := if done then 0 else k.darning, adding := k.adding - (k.adding &&& active) }
  let s := if done then
      let t := min 65535 (s.tick - k.lost)
      let s := (s.set .LANE_LINK_REMAP_LAST l t).set .LANE_LINK_REMAP_MAX l (max t (s.fld .LANE_LINK_REMAP_MAX l))
      s.laneEvt l .LANE_LINK_EVT_DARN
    else s
  let s := s.laneSync l
  if !s.linkUp l then s
  else
    let s := if odd = [] then s else s.darnAsk l odd
    (s.forceAll l).upperUp l

/-- STRIPE_RX (R195, R197, R205, R206); in training it makes READY lanes ACTIVE. -/
def execStripeRx (l : Link) (active skew : Nat) (s : State) : Res :=
  .next (s.when (s.linkOn l && (s.linkUp l || s.lanesIn l lnREADY != [])) fun s => s.stripeTake l active skew)

/-- The receive direction of a link goes into doze or deep sleep (R202, R203, R210). In deep sleep the clock recovery loops
stop; trials are abandoned. -/
def State.rxSleep (s : State) (l deep : Nat) : State :=
  let s := s.setPort l { s.port l with rxLp := deep }
  let s := s.each (s.lanesIn l lnTRIAL ++ s.lanesIn l lnDARNED) State.trialDrop
  let s := s.each (s.lanesIn l lnACTIVE) fun s i => s.setLane i (if deep = 2 then lnDEEP else lnDOZE)
  let s := if deep = 2 then
      s.each (lanesOf l) fun s i => (s.set .LANE_STS_CDR_LOCK i 0).set .LANE_STS_BLOCK_LOCK i 0
    else s
  s.laneSync l

/-- DOZE_MARKER_RX (R202). -/
def execDozeMarkerRx (l : Link) (s : State) : Res :=
  .next (s.when (s.linkOn l && s.linkUp l && s.flag .LANE_LINK_CTL_DOZE_EN l && (s.port l).rxLp == 0) fun s =>
    s.rxSleep l 1)

/-- Deep sleep is allowed on a link (R204): never on the Seam link of a paired module. -/
def State.deepOk (s : State) (l : Nat) : Bool := s.flag .LANE_LINK_CTL_DEEP_EN l && (l != 16 || !s.paired)

/-- DEEP_MARKER_RX (R203). -/
def execDeepMarkerRx (l : Link) (s : State) : Res :=
  .next (s.when (s.linkOn l && s.linkUp l && s.deepOk l && (s.port l).rxLp == 0) fun s => s.rxSleep l 2)

/-- DARN_REQ_REPEAT: 0.5 µs without an answering STRIPE (R205). -/
def execDarnReqRepeat (l : Link) (s : State) : Res :=
  .next (s.when (s.linkOn l && s.linkUp l && (s.lk l).darning != 0) fun s => s.sendMarker l 2 (s.lk l).darning)

/-- DARN_GIVE_UP: 10 µs without an answering STRIPE (R205). -/
def execDarnGiveUp (l : Link) (s : State) : Res :=
  .next (s.when (s.linkOn l && s.linkUp l && (s.lk l).darning != 0) fun s => s.linkDown l)

/-- PERIODIC_MARKER_TX: the 16,384th block on every driven lane (R194). -/
def execPeriodicMarkerTx (l : Link) (s : State) : Res :=
  .next (s.when (s.linkOn l && s.linkUp l && (s.port l).txLp == 0) fun s =>
    let k := s.lk l
    (s.setLk l { k with mcount := (k.mcount + 1) % 256 }).sendMarker l 0 0)

/-- A packet waits for a port in its queues or in those of the ledger and the reads (R246). -/
def State.portWork (s : State) (l : Nat) : Bool :=
  let p := s.port l
  p.txq != [] || p.ackOwed || p.sbDue
    || (l != 16 && ((s.ledger.any fun e => e.port == l && (e.st == .opened || e.st == .retry))
          || s.pReads.any fun r => r.port == l && r.tag.isNone))

/-- The transmitter of a link may go into low power (R210, R246): nothing waits or is unacknowledged, no remap is in
progress. -/
def State.mayIdle (s : State) (l : Nat) : Bool :=
  s.linkUp l && s.urUp l && !s.portWork l && (s.port l).unacked == 0 && (s.lk l).darning == 0

/-- Sends DOZE or DEEP and idles the lanes (R202, R203). -/
def State.txSleep (s : State) (l deep : Nat) : State :=
  (((s.sendMarker l (if deep = 2 then 5 else 4) 0).setTxLp l deep).send (.laneIdle l)).laneSync l

/-- DOZE_ENTRY: DOZE_IDLE of idle sending has passed (R204, R246). -/
def execDozeEntry (l : Link) (far : Bool) (s : State) : Res :=
  .next (s.when (s.linkOn l && s.mayIdle l && (s.port l).txLp == 0 && s.flag .LANE_LINK_CTL_DOZE_EN l
      && (if l.val = 16 then far else s.flag .ULK_FAR_DOZE_OK l && s.fld .ULK_PM_CFG_DOZE_IDLE l != 0)) fun s =>
    s.txSleep l 1)

/-- DEEP_ENTRY: DEEP_IDLE of idle sending has passed (R204, R246). A transmitter in doze leaves it for the marker. -/
def execDeepEntry (l : Link) (far : Bool) (s : State) : Res :=
  .next (s.when (s.linkOn l && s.mayIdle l && (s.port l).txLp != 2 && s.deepOk l
      && (if l.val = 16 then far else s.flag .ULK_FAR_DEEP_OK l && s.fld .ULK_PM_CFG_DEEP_IDLE l != 0)) fun s =>
    (s.lpExit l).txSleep l 2)

/-- LOW_POWER_EXIT: a packet or an acknowledgement waits for a transmitter in low power (R202, R246). -/
def execLowPowerExit (l : Link) (s : State) : Res :=
  .next (s.when (s.linkOn l && s.portWork l) fun s => s.lpExit l)

/-- LOW_POWER_EXIT_DONE: the receive lanes have left low power; `failed` are the far lanes that did not relock in time
(R197, R202). -/
def execLowPowerExitDone (l : Link) (failed : Nat) (s : State) : Res :=
  .next (s.when (s.linkOn l && s.linkUp l) fun s => s.rxExit l failed)

end Sys2Proof.Machine
end

