-- ==== Sys2Proof/Machine/Ledger.lean ====
section
/-!
DEFINITION. The commands of the ledger, the Basket and Starch (R144 to R184): entries opening, being issued, timing out;
reads of local ports and of the host; locks.
-/
namespace Sys2Proof.Machine

/-- The LEDGER_OPEN record of an entry (R395). -/
def openRecord (e : LEnt) : List Nat :=
  e.words ++ (if e.init = 0 then blocksFrom (laddrOf e.req.dst) e.req.data else [])

/-- The Seam has room for a record in this cycle (R397). -/
def State.seamRoom (s : State) (payload : List Nat) : Bool :=
  let k : UrPkt := .seam (.mirror 1 0 0 payload)
  s.canSend 16 k && !((s.port 16).txq.any fun q => q.vc == 0)

/-- The entry that a waiting write opens: the next SEQ of its stream, a place and, for the host, a data unit. DESIGN CHOICE
(assumption 72): of the free places and units the lowest are taken, those of the die first. -/
def State.newEnt (s : State) (w : LWait) (p init : Nat) : LEnt :=
  { port := p, init := init, seq := s.seqNext p init, st := .opened, req := w.req, status := 0, retried := false
    mirrored := false, abandoned := false, tag := none, atom := w.atom, slot := firstFree (s.ledger.map (·.slot))
    ref := if init = 0 then firstFree ((s.ledger.filter fun e => e.init == 0).map (·.ref)) else 0 }

/-- The entry opens, unless its record finds no room on the Seam link (R397). -/
def State.entryOpen (s : State) (w : LWait) (p init : Nat) : State :=
  let e := s.newEnt w p init
  if s.mirrors && !s.seamRoom (openRecord e) then s
  else
    let mir := s.mirrors
    let s := if mir then s.mirror 1 0 (openRecord e) else s
    let e := if mir then { e with recd := true, mseq := s.fld .SEM_MSEQ_TX } else e
    let s := { s with ldgWait := s.ldgWait.erase w, ledger := s.ledger ++ [e] }.ovfOpen e
    s.set .LDG_SEQ_NEXT (32 * p + init) ((e.seq + 1) % 65536)

/-- The write of a stream that opens its entry next: the oldest. While its granule is locked it waits (R172), and only the
write of an atomic, which holds a lock of its own, goes before it. -/
def State.nextOpen (s : State) (p init : Nat) : Option LWait :=
  let mine := s.ldgWait.filter fun w => w.port == p && w.init == init
  match mine with
  | [] => none
  | w :: _ => if w.atom.isNone && s.lockHolds w.req then mine.find? fun x => x.atom.isSome else some w

/-- LEDGER_ENTRY_OPEN: the oldest write of an initiator that waits for a port opens its entry (R154, R155, R157, R397).
-/
def execLedgerEntryOpen (p : Port) (init : Fin 19) (s : State) : Res :=
  .next (match s.nextOpen p init with
    | none => s
    | some w =>
      if !s.ldgFree init || decide (s.pairMax ≤ (s.stream p init).length) then s else s.entryOpen w p init)

/-- The WRITE packet of an entry (R223). -/
def wrPkt (e : LEnt) (tag : Nat) : UrPkt :=
  .write tag e.init e.seq (laddrOf e.req.dst) e.retried e.req.priv e.req.exec e.req.data (maskOf e.req.pois)

/-- The entry may be issued as far as the mirror is concerned (R397). -/
def State.mirrorOk (s : State) (e : LEnt) : Bool :=
  !s.flag .ULK_STS_DUAL_OK e.port || !s.mirrors || e.mirrored || !e.recd

/-- An OPEN entry waits for the lock on its granule (R172). One that an atomic's write waits behind in its stream does
not: that write holds the lock others wait for, and what has an entry waits for no lock (R180). -/
def State.entLocked (s : State) (st : List LEnt) (e : LEnt) : Bool :=
  e.atom.isNone && s.lockedFor e.req && !(st.any fun x => x.atom.isSome)
    && !(s.ldgWait.any fun w => w.port == e.port && w.init == e.init && w.atom.isSome)

/-- An entry is about to be sent: bad data from the overflow area ends it with TARGET_ERROR (R183), else its WRITE leaves
under a tag. -/
def State.entSend (s : State) (e : LEnt) (tag : Nat) : State :=
  if s.ovfBad e then (s.set .LDG_STS_OVF_ERR 0 1).ledgerAnswer e 2
  else (s.setEnt { e with st := .issued, tag := some tag }).urSend e.port (wrPkt e tag)

/-- LEDGER_ISSUE: the oldest OPEN entry of a stream is sent with a free tag (R157, R227, R245). -/
def execLedgerIssue (p : Port) (init : Fin 19) (tag : Nat) (s : State) : Res :=
  .next (s.when (s.mode != .CONTAIN && s.mode != .FOLLOW) fun s =>
    let st := s.stream p init
    if st.any fun e => e.st == .retry then s
    else match st.find? fun e => e.st == .opened with
      | none => s
      | some e =>
        if !s.mirrorOk e || s.entLocked st e then s
        else if s.fld .ULK_STS_STATE p = 0 then (s.ledgerAnswer e 9).starchSettle
        else if s.tagFree p tag && s.canIssue p (wrPkt e tag) then s.entSend e tag
        else s)

/-- Packets leave a port one behind the other, after `n` blocks, when there is credit and room for all of them. -/
def PortLL.fitsAll (l : PortLL) (n : Nat) : List UrPkt → Bool
  | [] => true
  | k :: t => l.fits k && l.room (n + k.blocks) && (l.charge k).fitsAll (n + k.blocks) t

/-- LEDGER_RETRY_REISSUE: the RETRY entries of a stream are sent again in SEQ order and back to back under their own tags,
once there is room for all of them (R157, R158). -/
def execLedgerRetryReissue (p : Port) (init : Fin 19) (s : State) : Res :=
  .next (s.when (s.mode != .CONTAIN && s.mode != .FOLLOW) fun s =>
    let st := s.stream p init
    let due := st.filter fun e => e.st == .retry
    let pkt (e : LEnt) : UrPkt := wrPkt e (e.tag.getD 0)
    match due with
    | [] => s
    | e :: _ =>
      if (st.any fun e => e.st == .issued) || !s.canIssue p (pkt e) || !(s.port p).fitsAll 0 (due.map pkt) then s
      else (s.urBatch p fun s => s.each due fun s e => s.entSend e (e.tag.getD 0)).starchSettle)

/-- LEDGER_WRITE_TIMEOUT: WR_TMO has passed since the entry with a tag was issued (R161, R227). -/
def execLedgerWriteTimeout (p : Port) (tag : Nat) (s : State) : Res :=
  .next (match s.ledger.find? fun e => e.port == p.val && e.st == .issued && e.tag == some tag with
    | none => s
    | some e => ((s.ledgerAnswer e 8).tagHold p tag).starchSettle)

/-- PORT_READ_TIMEOUT: RD_TMO has passed since the read with a tag was issued (R160, R161, R227). -/
def execPortReadTimeout (p : Port) (tag : Nat) (s : State) : Res :=
  .next (match s.pReads.find? fun r => r.port == p.val && r.tag == some tag with
    | none => s
    | some r => ((s.portReadEnd r 8).tagHold p tag).starchSettle)

/-- HELD_READ_RELEASE: the first host read or atomic held at the ledger with no earlier posted write of its domain left
goes on (R148). -/
def execHeldReadRelease (s : State) : Res :=
  .next (s.when (s.mode != .CONTAIN) fun s =>
    match s.heldReads.find? fun e => !s.heldByWrites e.2 with
    | none => s
    | some e =>
      let s := { s with heldReads := s.heldReads.erase e }
      if e.2.kind ≠ .read then s.starch e.2
      else if s.lockHolds e.2 || s.lockBehind e.2 then { s with lockWait := s.lockWait ++ [e.2] }
      else s.queueRead ((portOf e.2.dst).getD 0) e.2)

/-- CPL_TO_PORT_RELEASE: the first held host completion with no earlier posted write left goes to its port (R148,
R149). -/
def execCplToPortRelease (s : State) : Res :=
  .next (match s.cplHeld.find? fun h => !s.cplHeldBy h.port h.ord h.req.ro with
    | none => s
    | some h =>
      let s := ({ s with cplHeld := s.cplHeld.erase h }).respond h.req h.pkt
      match h.pkt with
      | .response _ _ _ true _ _ _ => s.retire h.req
      | _ => s)

/-- BASKET_READ_ISSUE: the first read that waits at the Basket is issued when its space and its tags are there (R41,
R175, R176). -/
def execBasketReadIssue (s : State) : Res := .next (s.bskIssue.starchSettle)

/-- The request packet of a read or atomic. An atomic is sent as such only while its port performs atomics natively
(R226), else its operand is read (R173). -/
def State.rdPkt (s : State) (r : PRead) (tag : Nat) : Bool × UrPkt :=
  let la := laddrOf r.req.dst
  match r.req.kind with
  | .atomic op =>
    if r.emul || !s.nativeAtomics r.port then (true, .read tag r.req.len la r.req.priv r.req.exec)
    else (false, .atomic tag op.code (aszCode r.req.len) la r.req.priv r.req.exec r.req.data)
  | _ => (false, .read tag (r.req.len + r.req.ext) la r.req.priv r.req.exec)

/-- PORT_READ_ISSUE: the first read that waits for a port, and whose granule is not locked, is issued with a free tag when
its response space is there (R172, R173, R176, R226, R245). -/
def execPortReadIssue (p : Port) (tag : Nat) (s : State) : Res :=
  .next (s.when (s.mode != .CONTAIN && s.mode != .FOLLOW) fun s =>
    match s.pReads.find? fun r => r.port == p.val && r.tag.isNone && !s.lockHolds r.req with
    | none => s
    | some r =>
      if s.fld .ULK_STS_STATE p = 0 then (s.portReadEnd r 9 true).starchSettle
      else
        let (emul, k) := s.rdPkt r tag
        if s.tagFree p tag && s.canIssue p k && decide (s.respUsed p + r.req.len + r.req.ext ≤ 65536) then
          { s with pReads := mapIf (fun x => x == r) (fun x => { x with tag := some tag, emul := emul }) s.pReads }.urSend p k
        else s)

/-- HOST_COMPLETION_RX: a completion of the host for a tag: its completion status, its data, EP, and whether it is the
last for the tag (R177, R179). -/
def execHostCompletionRx (tag : Nat) (status : Nat) (data : List Byte) (ep last : Bool) (s : State) : Res :=
  .next (let s := { s with ordNext := s.ordNext + 1 }
    match s.bTags.find? fun b => b.tag == tag with
    | none => s.cplUnexpected { fn := 0, typ := 5, seq := tag, status := status }
    | some b =>
      let s := if ep then s.aer b.fn .poisonedTlp else s
      match b.st with
      | .issued => (s.hostData b status data ep).starchSettle
      | .held =>
        let s := if last then
            { s with bTags := mapIf (fun x => x.tag == tag) (fun x => { x with st := .quarantine false }) s.bTags } else s
        s.cplDiscard b status
      | .quarantine rep => if rep then s.cplUnexpected (cplEnt b 5 status) else s.cplDiscard b status)

/-- The read of a tag ends at its timeout with HOST_TIMEOUT, and the tag is quarantined. -/
def State.tagTimeout (s : State) (tag : Nat) (b : BTag) : State :=
  let s := { s with bTags := mapIf (fun x => x.tag == tag) (fun x => { x with st := .quarantine true }) s.bTags }
  let s := (s.aer b.fn .cplTimeout).evq (cplEnt b 4 0x0F)
  ((s.count .BSK_TMO_CNT_TMO).hostEnd b.rid 8).starchSettle

/-- BASKET_TAG_TIMEOUT: the completion timer of a tag expires (R177, R178). -/
def execBasketTagTimeout (tag : Nat) (s : State) : Res :=
  .next (match s.bTags.find? fun b => b.tag == tag with
    | none => s
    | some b =>
      match b.st with
      | .issued => s.tagTimeout tag b
      | .held => { s with bTags := mapIf (fun x => x.tag == tag) (fun x => { x with st := .quarantine false }) s.bTags }
      | .quarantine _ => s)

/-- BASKET_QUARANTINE_EXPIRE: the quarantine of a tag ends (R177). -/
def execBasketQuarantineExpire (tag : Nat) (s : State) : Res :=
  .next { s with bTags := s.bTags.filter fun b => !(b.tag == tag && b.quarantined) }

/-- LDG_STARCH_CFG.HOST_RUN in effect. -/
def State.hostRun (s : State) : Nat :=
  let n := s.fld .LDG_STARCH_CFG_HOST_RUN
  if n = 0 ∨ 16 < n then 16 else n

/-- STARCH_GRANT: the lock of a granule is free and Starch has room for the atomic that is due (R171, R172). `hfn` is the
issuing function plus one for a host address. -/
def execStarchGrant (gran hfn : Nat) (s : State) : Res :=
  .next (let mine := s.lockWait.filter fun r => granKey r == (gran, hfn) && r.kind != .read && r.kind != .write
    let host := mine.find? fun r => r.who.isHost
    let loc := mine.find? fun r => !r.who.isHost
    let run := ((s.starchRun.find? fun e => e.1 == gran && e.2.1 == hfn).map (·.2.2)).getD 0
    let pick := match host, loc with
      | some h, some l => if s.hostRun ≤ run then some (l, 0) else some (h, run + 1)
      | some h, none => some (h, 0)
      | none, some l => some (l, 0)
      | none, none => none
    match pick with
    | none => s
    | some (r, n) =>
      if s.lockedFor r || s.lockBehind r || decide (1024 ≤ s.locks.length) then s
      else
        let rest := s.starchRun.filter fun (e : Nat × Nat × Nat) => !(e.1 == gran && e.2.1 == hfn)
        let s := { s with lockWait := s.lockWait.erase r, starchRun := if n = 0 then rest else rest ++ [(gran, hfn, n)] }
        (s.grant r).starchSettle)

/-- STARCH_HOLD_EXPIRE: an explicit lock has been held for HOLD_MAX (R174). -/
def execStarchHoldExpire (p : Port) (gran hfn : Nat) (s : State) : Res :=
  .next (s.when (s.locks.any fun l => l.gran == gran && l.hfn == hfn && l.expl == some p.val) fun s =>
    ((s.set .LDG_STARCH_STS_FORCED 0 1).dropExpl p (gran, hfn)).starchSettle)

end Sys2Proof.Machine
end

