-- ==== Sys2Proof/Machine/Urone.lean ====
section
/-!
DEFINITION. The commands of the Urone link layer (R212 to R250) but for requests from a design: bundles, acknowledgements
and replay, credit, HELLO, resets, responses, side-band state, request lines.
-/
namespace Sys2Proof.Machine

/-- The bundle that is expected is accepted: the packets that end in it are taken in order, the blocks of one that goes on
are kept, and it is acknowledged. -/
def State.bundleTake (s : State) (l : Nat) (data : List Nat) : State :=
  let p := s.port l
  let ws := p.rxPart ++ data
  let got := readPkts (l == 16) (s.tagBase l) ws.length ws
  let s := s.setPort l { p with e := (p.e + 1) % 4096, nakSent := false, rxPart := got.2 }
  let s := s.each got.1 fun s k => s.rxOne l k
  if !s.urRuns l then s
  else if (s.port l).txLp = 0 then s.urAck l false
  else s.setPort l { s.port l with ackOwed := true }

/-- A run of data blocks and the control block after it are a good bundle (R213, R215). -/
def bundleGood (data : List Nat) (ctl : Nat) : Bool :=
  data.length == 16 && ctlGood ctl data && (ctl % 256 == ctBUNDLE_ACK || ctl % 256 == ctBUNDLE_NAK)

/-- The receiver takes blocks of the stripe: its direction is awake, and no remap is open (R205). -/
def State.streamOpen (s : State) (l : Nat) : Bool := s.urRuns l && (s.port l).rxLp == 0 && (s.lk l).darning == 0

/-- BUNDLE_RX: the data blocks since the last control block, and the control block that comes after them (R213, R215). -/
def execBundleRx (l : Link) (data : List Nat) (ctl : Nat) (s : State) : Res :=
  .next (s.when (s.streamOpen l) fun s =>
    if !bundleGood data ctl then s.nakDue l
    else
      let s := s.ackRx l (fieldAt ctl 31 20) (ctl % 256 == ctBUNDLE_NAK)
      let p := s.port l
      let bseq := fieldAt ctl 19 8
      if !s.urRuns l then s
      else if bseq = p.e then s.bundleTake l data
      else if (p.e + 4096 - bseq) % 4096 ≤ 2048 then s
      else s.nakDue l)

/-- ACK_NAK_ONLY_RX: a control block between bundles (R215): an ACK_ONLY or NAK_ONLY, one of a reserved type, or one that
should have ended a bundle. -/
def execAckNakOnlyRx (l : Link) (word : Nat) (s : State) : Res :=
  .next (s.when (s.streamOpen l) fun s =>
    let t := word % 256
    if t = ctACK_ONLY ∨ t = ctNAK_ONLY then
      (if ctlGood word [] then s.ackRx l (fieldAt word 31 20) (t == ctNAK_ONLY) else s)
    else if t = ctBUNDLE_ACK ∨ t = ctBUNDLE_NAK then s.nakDue l
    else s.protoErr l 9)

/-- REPLAY_TIMEOUT: REPLAY_TMO without ACKSEQ progress (R216). -/
def execReplayTimeout (l : Link) (s : State) : Res := .next (s.when (s.urRuns l) fun s => s.replay l)

/-- NAK_HOLDOFF_EXPIRE: tNAKH has passed since a NAK (R215). -/
def execNakHoldoffExpire (l : Link) (s : State) : Res :=
  .next (s.when (s.urRuns l) fun s => s.setPort l { s.port l with nakSent := false })

/-- FLOW_RX (R220). -/
def execFlowRx (l : Link) (vc hdr data : Nat) (s : State) : Res :=
  .next (s.when (s.urRuns l) fun s =>
    let s := s.rxServe l (.flow vc hdr data) fun s => s.flowRx l vc hdr data
    if l.val = 16 then s else s.heldServe l)

/-- FLOW_TX: the time or the freed share of the buffer for a FLOW packet has come (R220). In CONTAIN a port returns no
VC0 credit (R487). -/
def execFlowTx (l : Link) (vc2 : Bool) (s : State) : Res :=
  .next (s.when (s.urRuns l && (vc2 || l.val == 16 || s.mode != .CONTAIN)) fun s => s.flowTx l (if vc2 then 2 else 0))

/-- A HELLO of major version 1 is taken in HELLO (R243, R244). -/
def State.helloTake (s : State) (p version : Nat) (atomic seqAware dual dozeOk deepOk : Bool) (sbMin design : Nat) : State :=
  let s := ((s.set .ULK_FAR_DESIGN_ID p design).set .ULK_FAR_VERSION p version).set .ULK_FAR_ATOMIC p (bit atomic)
  let s := ((s.set .ULK_FAR_SEQ_AWARE p (bit seqAware)).set .ULK_FAR_DUAL p (bit dual)).set .ULK_FAR_DOZE_OK p
    (bit dozeOk)
  let s := (s.set .ULK_FAR_DEEP_OK p (bit deepOk)).set .ULK_FAR_SB_MIN p (min 4000 (max 1 sbMin))
  let s := (s.sbEffective p).setPort p { s.port p with farHello := true }
  s.helloCheck p

/-- What the twin's ULK_FAR of a port shows with DUAL = 1. -/
def State.twinShows (s : State) (p : Nat) (twin : Option Nat) : State :=
  let tf : List (Nat × Nat) := s.twinFar.filter fun (e : Nat × Nat) => e.1 != p
  { s with twinFar := match twin with | some d => tf ++ [(p, d)] | none => tf }

/-- HELLO_RX: the design's HELLO, and the DESIGN_ID the twin's ULK_FAR of the port shows with DUAL = 1 (R243, R244,
R392). -/
def execHelloRx (p : Port) (version : Nat) (atomic seqAware dual dozeOk deepOk : Bool) (sbMin design : Nat)
    (twin : Option Nat) (s : State) : Res :=
  let k : UrPkt := .hello version atomic seqAware dual dozeOk deepOk sbMin design
  .next (s.when (s.urRuns p) fun s =>
    (s.rxServe p k fun s =>
      let s := s.twinShows p twin
      if s.fld .ULK_STS_STATE p = 2 then s.protoFatal p 7
      else if version / 16 % 16 ≠ 1 then s.protoFatal p 6
      else s.helloTake p version atomic seqAware dual dozeOk deepOk sbMin design).heldServe p)

/-- HELLO_TIMEOUT: tHELLO has passed in HELLO (R243): CREDIT_MIN when the minimums were not granted (R249). -/
def execHelloTimeout (p : Port) (s : State) : Res :=
  .next (s.when (s.fld .ULK_STS_STATE p == 1) fun s =>
    ((if (s.port p).minCredit then s else s.protoErr p 8)).portDown p 5)

/-- ULK_RESET: a write of ULK_CTL.RESET (R243). -/
def execUlkReset (p : Port) (s : State) : Res :=
  .next (s.when (s.domOn (linkDom p)) fun s => s.ulkReset p)

/-- ULK_EN_WRITE: a write of ULK_CTL.EN (R243). -/
def execUlkEnWrite (p : Port) (on : Bool) (s : State) : Res :=
  .next (s.when (s.domOn (linkDom p)) fun s => s.ulkEnWrite p on)

/-- UR_RESPONSE_RX: a RESPONSE of a design (R229, R230, R231, R249). -/
def execUrResponseRx (p : Port) (tag status off : Nat) (last : Bool) (data : List Byte) (mask : Option Nat) (s : State) :
    Res :=
  .next (s.when (s.urRuns p) fun s =>
    (s.rxServe p (.response tag status off last data mask (s.tagBase p tag)) fun s =>
      s.urResponse p tag status off last data (poisOf mask)).starchSettle)

/-- SB_POLL_TICK: the effective period P ends (R239). -/
def execSbPollTick (p : Port) (s : State) : Res :=
  .next (s.when (s.urUp p && s.flag .ULK_SB_CFG_POLL_EN p && (s.port p).txLp != 2 && (s.port p).rxLp != 2) fun s =>
    if (s.port p).pollOut then s.count .ULK_SB_SKIP_SKIP p else s.sbPollNow p)

/-- SB_STATE_RX: a design's SB_STATE, polled or unsolicited (R238, R239, R240, R246). -/
def execSbStateRx (p : Port) (id : Nat) (unsol : Bool) (lines : Nat) (s : State) : Res :=
  .next (s.pktRx p (.sbState id unsol lines) .clean)

/-- SB_OUT_SEND: a period P has passed since the last SB_STATE and ULK_SB_OUT has changed (R241). -/
def execSbOutSend (p : Port) (s : State) : Res :=
  .next (s.when (s.urUp p && (s.port p).sbDirty) fun s => s.sbSend p)

/-- ULK_SB_LATCH_WRITE (R241). -/
def execUlkSbLatchWrite (p : Port) (v : Nat) (s : State) : Res :=
  .next (s.when (s.domOn (linkDom p)) fun s => s.sbLatchWrite p v)

/-- REQ_RX: a REQ packet (R242). -/
def execReqRx (p : Port) (line : Fin 16) (count : Nat) (s : State) : Res := .next (s.pktRx p (.req line count) .clean)

/-- LATE_ERROR_RX: a late-error notice of a design (R166, R236). -/
def execLateErrorRx (p : Port) (init seq status : Nat) (s : State) : Res :=
  .next (s.pktRx p (.lateError init seq status) .clean)

end Sys2Proof.Machine
end

