-- ==== Sys2Proof/Machine/Dispatch.lean ====
section
/-!
DEFINITION. The dispatcher: one arm per command, each one direct call of its meaning.
-/
namespace Sys2Proof.Machine

/-- The effect of a command on everything but the queue. -/
def exec (i : Instr) (s : State) : Host.Outcome State Fault Refusal :=
  match i with
  | .powerUp => Sys2Proof.Machine.execPowerUp s
  | .powerDown => Sys2Proof.Machine.execPowerDown s
  | .overvoltage => Sys2Proof.Machine.execOvervoltage s
  | .thermalWarning idx => Sys2Proof.Machine.execThermalWarning idx s
  | .thermalCritical idx => Sys2Proof.Machine.execThermalCritical idx s
  | .thermalTrip idx => Sys2Proof.Machine.execThermalTrip idx s
  | .thermalTripClear => Sys2Proof.Machine.execThermalTripClear s
  | .imageVerified okA okB ver mirrorVer => Sys2Proof.Machine.execImageVerified okA okB ver mirrorVer s
  | .storeTrained => Sys2Proof.Machine.execStoreTrained s
  | .fwReady => Sys2Proof.Machine.execFwReady s
  | .bootWatchdogExpire => Sys2Proof.Machine.execBootWatchdogExpire s
  | .rrsTimeout => Sys2Proof.Machine.execRrsTimeout s
  | .moduleResetEvent cause => Sys2Proof.Machine.execModuleResetEvent cause s
  | .standbyEntry => Sys2Proof.Machine.execStandbyEntry s
  | .standbyLedgerTimeout => Sys2Proof.Machine.execStandbyLedgerTimeout s
  | .moduleWake src => Sys2Proof.Machine.execModuleWake src s
  | .perstAssert => Sys2Proof.Machine.execPerstAssert s
  | .perstDeassert => Sys2Proof.Machine.execPerstDeassert s
  | .hotResetRx => Sys2Proof.Machine.execHotResetRx s
  | .linkDisableRx => Sys2Proof.Machine.execLinkDisableRx s
  | .dlDown => Sys2Proof.Machine.execDlDown s
  | .dlUp t flit l0p => Sys2Proof.Machine.execDlUp t flit l0p s
  | .refclkLoss => Sys2Proof.Machine.execRefclkLoss s
  | .laneErrWindowEnd errs margin replayed => Sys2Proof.Machine.execLaneErrWindowEnd errs margin replayed s
  | .recoveryDone t => Sys2Proof.Machine.execRecoveryDone t s
  | .autoRewiden => Sys2Proof.Machine.execAutoRewiden s
  | .hstRetrain => Sys2Proof.Machine.execHstRetrain s
  | .l0pDemandCheck window epoch => Sys2Proof.Machine.execL0pDemandCheck window epoch s
  | .l0pWidthChangeDone width => Sys2Proof.Machine.execL0pWidthChangeDone width s
  | .aspmL1Entry accepted unacked => Sys2Proof.Machine.execAspmL1Entry accepted unacked s
  | .l1Exit => Sys2Proof.Machine.execL1Exit s
  | .pmeTurnOffRx => Sys2Proof.Machine.execPmeTurnOffRx s
  | .pmeToAckSend expired => Sys2Proof.Machine.execPmeToAckSend expired s
  | .hostPostedWriteRx h data be err => Sys2Proof.Machine.execHostPostedWriteRx h data be err s
  | .hostMemoryReadRx h len err => Sys2Proof.Machine.execHostMemoryReadRx h len err s
  | .hostAtomicopRx h op size data err => Sys2Proof.Machine.execHostAtomicopRx h op size data err s
  | .memoryReadLockRx h => Sys2Proof.Machine.execMemoryReadLockRx h s
  | .configRead f dw tag => Sys2Proof.Machine.execConfigRead f dw tag s
  | .configWrite f rid dw v be tag => Sys2Proof.Machine.execConfigWrite f rid dw v be tag s
  | .flr f => Sys2Proof.Machine.execFlr f s
  | .vfEnableSet pf => Sys2Proof.Machine.execVfEnableSet pf s
  | .vfEnableClear pf => Sys2Proof.Machine.execVfEnableClear pf s
  | .bmeClear f => Sys2Proof.Machine.execBmeClear f s
  | .bmeSet f => Sys2Proof.Machine.execBmeSet f s
  | .pasidEnableClear f => Sys2Proof.Machine.execPasidEnableClear f s
  | .resizableBarWrite pf vf size => Sys2Proof.Machine.execResizableBarWrite pf vf size s
  | .rinseDrained f => Sys2Proof.Machine.execRinseDrained f s
  | .rinseDeadline f => Sys2Proof.Machine.execRinseDeadline f s
  | .fnSliceWrite k v => Sys2Proof.Machine.execFnSliceWrite k v s
  | .fnResWrite f first count => Sys2Proof.Machine.execFnResWrite f first count s
  | .bdtRebuild => Sys2Proof.Machine.execBdtRebuild s
  | .walkSlotStart => Sys2Proof.Machine.execWalkSlotStart s
  | .windowWalkDone tbl bad => Sys2Proof.Machine.execWindowWalkDone tbl bad s
  | .xltUpdWrite core idx => Sys2Proof.Machine.execXltUpdWrite core idx s
  | .xltUpdCommit => Sys2Proof.Machine.execXltUpdCommit s
  | .xltUpdInvalEntry core idx => Sys2Proof.Machine.execXltUpdInvalEntry core idx s
  | .xltUpdInvalTable core idx => Sys2Proof.Machine.execXltUpdInvalTable core idx s
  | .xltUpdInvalAll core idx => Sys2Proof.Machine.execXltUpdInvalAll core idx s
  | .xltInvalDone => Sys2Proof.Machine.execXltInvalDone s
  | .xltTblBaseWrite core base => Sys2Proof.Machine.execXltTblBaseWrite core base s
  | .xltEpochAdvance core => Sys2Proof.Machine.execXltEpochAdvance core s
  | .xltEpochAdvanceApply => Sys2Proof.Machine.execXltEpochAdvanceApply s
  | .xltEpochDrainRead core tag => Sys2Proof.Machine.execXltEpochDrainRead core tag s
  | .xltEpochDrainReturn => Sys2Proof.Machine.execXltEpochDrainReturn s
  | .xltEpochDrainTimeout => Sys2Proof.Machine.execXltEpochDrainTimeout s
  | .ledgerEntryOpen p init => Sys2Proof.Machine.execLedgerEntryOpen p init s
  | .ledgerIssue p init tag => Sys2Proof.Machine.execLedgerIssue p init tag s
  | .ledgerRetryReissue p init => Sys2Proof.Machine.execLedgerRetryReissue p init s
  | .ledgerWriteTimeout p tag => Sys2Proof.Machine.execLedgerWriteTimeout p tag s
  | .portReadTimeout p tag => Sys2Proof.Machine.execPortReadTimeout p tag s
  | .heldReadRelease => Sys2Proof.Machine.execHeldReadRelease s
  | .cplToPortRelease => Sys2Proof.Machine.execCplToPortRelease s
  | .basketReadIssue => Sys2Proof.Machine.execBasketReadIssue s
  | .portReadIssue p tag => Sys2Proof.Machine.execPortReadIssue p tag s
  | .hostCompletionRx tag status data ep last => Sys2Proof.Machine.execHostCompletionRx tag status data ep last s
  | .basketTagTimeout tag => Sys2Proof.Machine.execBasketTagTimeout tag s
  | .basketQuarantineExpire tag => Sys2Proof.Machine.execBasketQuarantineExpire tag s
  | .starchGrant gran hfn => Sys2Proof.Machine.execStarchGrant gran hfn s
  | .starchHoldExpire p gran hfn => Sys2Proof.Machine.execStarchHoldExpire p gran hfn s
  | .lateErrorRx p init seq status => Sys2Proof.Machine.execLateErrorRx p init seq status s
  | .laneEnable l on => Sys2Proof.Machine.execLaneEnable l on s
  | .laneRetrain l => Sys2Proof.Machine.execLaneRetrain l s
  | .trainBlockRx idx word rx => Sys2Proof.Machine.execTrainBlockRx idx word rx s
  | .laneEqTimeout idx => Sys2Proof.Machine.execLaneEqTimeout idx s
  | .linkTrainDecide l => Sys2Proof.Machine.execLinkTrainDecide l s
  | .detectTimeout l => Sys2Proof.Machine.execDetectTimeout l s
  | .trainRestartTimeout l => Sys2Proof.Machine.execTrainRestartTimeout l s
  | .trainBeaconTick l on => Sys2Proof.Machine.execTrainBeaconTick l on s
  | .laneSignalDetect idx => Sys2Proof.Machine.execLaneSignalDetect idx s
  | .laneLockLoss idx w => Sys2Proof.Machine.execLaneLockLoss idx w s
  | .laneSyncErrWindow idx errs => Sys2Proof.Machine.execLaneSyncErrWindow idx errs s
  | .laneForceDarnWrite idx v => Sys2Proof.Machine.execLaneForceDarnWrite idx v s
  | .trialNow idx => Sys2Proof.Machine.execTrialNow idx s
  | .trialWindowEnd idx w => Sys2Proof.Machine.execTrialWindowEnd idx w s
  | .markerRx idx word skew => Sys2Proof.Machine.execMarkerRx idx word skew s
  | .darnReqRx l arg add rxok => Sys2Proof.Machine.execDarnReqRx l arg add rxok s
  | .addReqRx l arg rxok darn => Sys2Proof.Machine.execAddReqRx l arg rxok darn s
  | .stripeRx l active skew => Sys2Proof.Machine.execStripeRx l active skew s
  | .dozeMarkerRx l => Sys2Proof.Machine.execDozeMarkerRx l s
  | .deepMarkerRx l => Sys2Proof.Machine.execDeepMarkerRx l s
  | .darnReqRepeat l => Sys2Proof.Machine.execDarnReqRepeat l s
  | .darnGiveUp l => Sys2Proof.Machine.execDarnGiveUp l s
  | .periodicMarkerTx l => Sys2Proof.Machine.execPeriodicMarkerTx l s
  | .dozeEntry l far => Sys2Proof.Machine.execDozeEntry l far s
  | .deepEntry l far => Sys2Proof.Machine.execDeepEntry l far s
  | .lowPowerExit l => Sys2Proof.Machine.execLowPowerExit l s
  | .lowPowerExitDone l failed => Sys2Proof.Machine.execLowPowerExitDone l failed s
  | .bundleRx l data ctl => Sys2Proof.Machine.execBundleRx l data ctl s
  | .ackNakOnlyRx l word => Sys2Proof.Machine.execAckNakOnlyRx l word s
  | .replayTimeout l => Sys2Proof.Machine.execReplayTimeout l s
  | .nakHoldoffExpire l => Sys2Proof.Machine.execNakHoldoffExpire l s
  | .flowRx l vc hdr data => Sys2Proof.Machine.execFlowRx l vc hdr data s
  | .flowTx l vc2 => Sys2Proof.Machine.execFlowTx l vc2 s
  | .helloRx p version atomic seqAware dual dozeOk deepOk sbMin design twin => Sys2Proof.Machine.execHelloRx p version atomic seqAware dual dozeOk deepOk sbMin design twin s
  | .helloTimeout p => Sys2Proof.Machine.execHelloTimeout p s
  | .ulkReset p => Sys2Proof.Machine.execUlkReset p s
  | .ulkEnWrite p on => Sys2Proof.Machine.execUlkEnWrite p on s
  | .urReadRx p tag len addr priv exec err => Sys2Proof.Machine.execUrReadRx p tag len addr priv exec err s
  | .urWriteRx p tag init seq addr retry priv exec data mask err => Sys2Proof.Machine.execUrWriteRx p tag init seq addr retry priv exec data mask err s
  | .urAtomicRx p tag aop asz addr priv exec ops err => Sys2Proof.Machine.execUrAtomicRx p tag aop asz addr priv exec ops err s
  | .urLockRx p tag addr priv exec => Sys2Proof.Machine.execUrLockRx p tag addr priv exec s
  | .urUnlockRx p tag addr priv exec => Sys2Proof.Machine.execUrUnlockRx p tag addr priv exec s
  | .urResponseRx p tag status off last data mask => Sys2Proof.Machine.execUrResponseRx p tag status off last data mask s
  | .sbPollTick p => Sys2Proof.Machine.execSbPollTick p s
  | .sbStateRx p id unsol lines => Sys2Proof.Machine.execSbStateRx p id unsol lines s
  | .sbOutSend p => Sys2Proof.Machine.execSbOutSend p s
  | .ulkSbLatchWrite p v => Sys2Proof.Machine.execUlkSbLatchWrite p v s
  | .reqRx p line count => Sys2Proof.Machine.execReqRx p line count s
  | .dmaChStart core c => Sys2Proof.Machine.execDmaChStart core c s
  | .dmaChAbort core c => Sys2Proof.Machine.execDmaChAbort core c s
  | .dmaChResume core c => Sys2Proof.Machine.execDmaChResume core c s
  | .dmaChClear core c => Sys2Proof.Machine.execDmaChClear core c s
  | .dmaChCfgWrite core c v => Sys2Proof.Machine.execDmaChCfgWrite core c v s
  | .dmaGrantWrite core pf j v => Sys2Proof.Machine.execDmaGrantWrite core pf j v s
  | .doorbellWrite f k v => Sys2Proof.Machine.execDoorbellWrite f k v s
  | .descFetchDone x => Sys2Proof.Machine.execDescFetchDone x s
  | .ringDispatch x => Sys2Proof.Machine.execRingDispatch x s
  | .dmaBeatIssue half err => Sys2Proof.Machine.execDmaBeatIssue half err s
  | .dmaReqTake line => Sys2Proof.Machine.execDmaReqTake line s
  | .dmaBeatReadDone c => Sys2Proof.Machine.execDmaBeatReadDone c s
  | .dmaBeatArrived c => Sys2Proof.Machine.execDmaBeatArrived c s
  | .dmaSoftStopDone c => Sys2Proof.Machine.execDmaSoftStopDone c s
  | .dmaHardAbortDone c => Sys2Proof.Machine.execDmaHardAbortDone c s
  | .reqDoneSend p line => Sys2Proof.Machine.execReqDoneSend p line s
  | .dmaRingResumeWrite core x => Sys2Proof.Machine.execDmaRingResumeWrite core x s
  | .dmaRingResetWrite core x => Sys2Proof.Machine.execDmaRingResetWrite core x s
  | .irqDoorbellWrite w v => Sys2Proof.Machine.execIrqDoorbellWrite w v s
  | .irqRaise idx => Sys2Proof.Machine.execIrqRaise idx s
  | .irqLevelFall idx => Sys2Proof.Machine.execIrqLevelFall idx s
  | .irqArrayWrite c al off data => Sys2Proof.Machine.execIrqArrayWrite c al off data s
  | .irqPendSet core n v => Sys2Proof.Machine.execIrqPendSet core n v s
  | .irqPendClr core n v => Sys2Proof.Machine.execIrqPendClr core n v s
  | .irqEnSet core n v => Sys2Proof.Machine.execIrqEnSet core n v s
  | .irqEnClr core n v => Sys2Proof.Machine.execIrqEnClr core n v s
  | .irqRouteWrite core idx v => Sys2Proof.Machine.execIrqRouteWrite core idx v s
  | .irqCoreClaim c => Sys2Proof.Machine.execIrqCoreClaim c s
  | .irqCoreComplete core c idx => Sys2Proof.Machine.execIrqCoreComplete core c idx s
  | .irqCoreThrWrite core c thr => Sys2Proof.Machine.execIrqCoreThrWrite core c thr s
  | .msixMessageSend f e => Sys2Proof.Machine.execMsixMessageSend f e s
  | .localIrqDelivery idx => Sys2Proof.Machine.execLocalIrqDelivery idx s
  | .stormWindowEnd => Sys2Proof.Machine.execStormWindowEnd s
  | .irqStormWrite core n v => Sys2Proof.Machine.execIrqStormWrite core n v s
  | .govEpoch => Sys2Proof.Machine.execGovEpoch s
  | .govWindowEnd => Sys2Proof.Machine.execGovWindowEnd s
  | .govStep => Sys2Proof.Machine.execGovStep s
  | .shrUpdCmd core acct => Sys2Proof.Machine.execShrUpdCmd core acct s
  | .shrUpdDone => Sys2Proof.Machine.execShrUpdDone s
  | .shrCtxBindWrite core x v => Sys2Proof.Machine.execShrCtxBindWrite core x v s
  | .spillReturn f => Sys2Proof.Machine.execSpillReturn f s
  | .grdUpdCmd core set region => Sys2Proof.Machine.execGrdUpdCmd core set region s
  | .grdUpdDone => Sys2Proof.Machine.execGrdUpdDone s
  | .grdEpochAdvance core => Sys2Proof.Machine.execGrdEpochAdvance core s
  | .grdEpochDrainRead core tag => Sys2Proof.Machine.execGrdEpochDrainRead core tag s
  | .grdEpochDrainReturn late => Sys2Proof.Machine.execGrdEpochDrainReturn late s
  | .debugAccess addr data len err => Sys2Proof.Machine.execDebugAccess addr data len err s
  | .relock => Sys2Proof.Machine.execRelock s
  | .getVersion => Sys2Proof.Machine.execGetVersion s
  | .getCapabilities => Sys2Proof.Machine.execGetCapabilities s
  | .negotiateAlgorithms sig hash dhe aead => Sys2Proof.Machine.execNegotiateAlgorithms sig hash dhe aead s
  | .getDigests => Sys2Proof.Machine.execGetDigests s
  | .getCertificate slot off len => Sys2Proof.Machine.execGetCertificate slot off len s
  | .challenge slot => Sys2Proof.Machine.execChallenge slot s
  | .getMeasurements index sign => Sys2Proof.Machine.execGetMeasurements index sign s
  | .keyExchange slot => Sys2Proof.Machine.execKeyExchange slot s
  | .finish id ok => Sys2Proof.Machine.execFinish id ok s
  | .spdmHeartbeat id => Sys2Proof.Machine.execSpdmHeartbeat id s
  | .keyUpdate id op => Sys2Proof.Machine.execKeyUpdate id op s
  | .endSession id => Sys2Proof.Machine.execEndSession id s
  | .ideKmQuery id => Sys2Proof.Machine.execIdeKmQuery id s
  | .keyProg id stream kset dir sub key => Sys2Proof.Machine.execKeyProg id stream kset dir sub key s
  | .kSetGo id stream kset dir sub => Sys2Proof.Machine.execKSetGo id stream kset dir sub s
  | .kSetStop id stream kset dir sub => Sys2Proof.Machine.execKSetStop id stream kset dir sub s
  | .getTdispVersion id f => Sys2Proof.Machine.execGetTdispVersion id f s
  | .getTdispCapabilities id f => Sys2Proof.Machine.execGetTdispCapabilities id f s
  | .lockInterface id f stream => Sys2Proof.Machine.execLockInterface id f stream s
  | .getDeviceInterfaceReport id f => Sys2Proof.Machine.execGetDeviceInterfaceReport id f s
  | .getDeviceInterfaceState id f => Sys2Proof.Machine.execGetDeviceInterfaceState id f s
  | .startInterface id f nonce => Sys2Proof.Machine.execStartInterface id f nonce s
  | .stopInterface id f => Sys2Proof.Machine.execStopInterface id f s
  | .seamHelloRx version mver mode leading fw serial far => Sys2Proof.Machine.execSeamHelloRx version mver mode leading fw serial far s
  | .heartbeatTx => Sys2Proof.Machine.execHeartbeatTx s
  | .heartbeatRx count leading contained sync mseq => Sys2Proof.Machine.execHeartbeatRx count leading contained sync mseq s
  | .heartbeatMiss => Sys2Proof.Machine.execHeartbeatMiss s
  | .pairAliveToggle => Sys2Proof.Machine.execPairAliveToggle s
  | .aliveWinExpire => Sys2Proof.Machine.execAliveWinExpire s
  | .twinPresentChange present => Sys2Proof.Machine.execTwinPresentChange present s
  | .mirrorRx rtype mseq arg payload => Sys2Proof.Machine.execMirrorRx rtype mseq arg payload s
  | .mirrorAckRx mseq => Sys2Proof.Machine.execMirrorAckRx mseq s
  | .handoverRx op mseq => Sys2Proof.Machine.execHandoverRx op mseq s
  | .pairCtlRx op => Sys2Proof.Machine.execPairCtlRx op s
  | .semCtlHandover core => Sys2Proof.Machine.execSemCtlHandover core s
  | .semCtlLeave core => Sys2Proof.Machine.execSemCtlLeave core s
  | .semCtlSnap core => Sys2Proof.Machine.execSemCtlSnap core s
  | .hoDrainDone => Sys2Proof.Machine.execHoDrainDone s
  | .hoDrainTimeout => Sys2Proof.Machine.execHoDrainTimeout s
  | .mbxPost m => Sys2Proof.Machine.execMbxPost m s
  | .mbxRelease m => Sys2Proof.Machine.execMbxRelease m s
  | .mbxCancel m => Sys2Proof.Machine.execMbxCancel m s
  | .mbxClaim c => Sys2Proof.Machine.execMbxClaim c s
  | .mbxDone m => Sys2Proof.Machine.execMbxDone m s
  | .nop m => Sys2Proof.Machine.execNop m s
  | .getInfo m => Sys2Proof.Machine.execGetInfo m s
  | .fnQuery m => Sys2Proof.Machine.execFnQuery m s
  | .fnSetRes m => Sys2Proof.Machine.execFnSetRes m s
  | .sliceBind m => Sys2Proof.Machine.execSliceBind m s
  | .sliceUnbind m => Sys2Proof.Machine.execSliceUnbind m s
  | .fnLock m => Sys2Proof.Machine.execFnLock m s
  | .vfTotal m => Sys2Proof.Machine.execVfTotal m s
  | .ctxBind m => Sys2Proof.Machine.execCtxBind m s
  | .ctxUnbind m => Sys2Proof.Machine.execCtxUnbind m s
  | .ctxSetup m => Sys2Proof.Machine.execCtxSetup m s
  | .ctxQuery m => Sys2Proof.Machine.execCtxQuery m s
  | .ringResume m => Sys2Proof.Machine.execRingResume m s
  | .ringReset m => Sys2Proof.Machine.execRingReset m s
  | .winWrite m => Sys2Proof.Machine.execWinWrite m s
  | .winRead m => Sys2Proof.Machine.execWinRead m s
  | .winInval m => Sys2Proof.Machine.execWinInval m s
  | .epochSync m late => Sys2Proof.Machine.execEpochSync m late s
  | .grdWrite m => Sys2Proof.Machine.execGrdWrite m s
  | .grdRead m => Sys2Proof.Machine.execGrdRead m s
  | .irqSet m => Sys2Proof.Machine.execIrqSet m s
  | .irqGet m => Sys2Proof.Machine.execIrqGet m s
  | .irqLtSet m => Sys2Proof.Machine.execIrqLtSet m s
  | .dmaGrant m => Sys2Proof.Machine.execDmaGrant m s
  | .dmaRevoke m => Sys2Proof.Machine.execDmaRevoke m s
  | .dmaAbort m => Sys2Proof.Machine.execDmaAbort m s
  | .shareSet m => Sys2Proof.Machine.execShareSet m s
  | .shareGet m => Sys2Proof.Machine.execShareGet m s
  | .resQuery m => Sys2Proof.Machine.execResQuery m s
  | .pairStatus m => Sys2Proof.Machine.execPairStatus m s
  | .pairHandover m => Sys2Proof.Machine.execPairHandover m s
  | .pairLeave m => Sys2Proof.Machine.execPairLeave m s
  | .pairSnap m => Sys2Proof.Machine.execPairSnap m s
  | .pairTake m => Sys2Proof.Machine.execPairTake m s
  | .fwStageBegin m => Sys2Proof.Machine.execFwStageBegin m s
  | .fwStageData m => Sys2Proof.Machine.execFwStageData m s
  | .fwStageCommit m good ver => Sys2Proof.Machine.execFwStageCommit m good ver s
  | .fwStageAbort m => Sys2Proof.Machine.execFwStageAbort m s
  | .moduleReset m => Sys2Proof.Machine.execModuleReset m s
  | .moduleResetDelayExpire => Sys2Proof.Machine.execModuleResetDelayExpire s
  | .evosetWrite m => Sys2Proof.Machine.execEvosetWrite m s
  | .standby m => Sys2Proof.Machine.execStandby m s
  | .domainPower m => Sys2Proof.Machine.execDomainPower m s
  | .portEnable m => Sys2Proof.Machine.execPortEnable m s
  | .logRead m => Sys2Proof.Machine.execLogRead m s
  | .logClear m => Sys2Proof.Machine.execLogClear m s
  | .wakeSrc m => Sys2Proof.Machine.execWakeSrc m s
  | .timeGet m => Sys2Proof.Machine.execTimeGet m s
  | .timeSync m => Sys2Proof.Machine.execTimeSync m s
  | .nonceGet m => Sys2Proof.Machine.execNonceGet m s
  | .lifecycleAdvance m sigOk => Sys2Proof.Machine.execLifecycleAdvance m sigOk s
  | .debugUnlock m sigOk => Sys2Proof.Machine.execDebugUnlock m sigOk s
  | .mctpMessageRx h opcode abi tag payload => Sys2Proof.Machine.execMctpMessageRx h opcode abi tag payload s
  | .setEndpointId h eid owner => Sys2Proof.Machine.execSetEndpointId h eid owner s
  | .getEndpointId h => Sys2Proof.Machine.execGetEndpointId h s
  | .getEndpointUuid h => Sys2Proof.Machine.execGetEndpointUuid h s
  | .getMctpVersionSupport h typ => Sys2Proof.Machine.execGetMctpVersionSupport h typ s
  | .getMessageTypeSupport h => Sys2Proof.Machine.execGetMessageTypeSupport h s
  | .getVendorDefinedMessageSupport h => Sys2Proof.Machine.execGetVendorDefinedMessageSupport h s
  | .getTid h => Sys2Proof.Machine.execGetTid h s
  | .setTid h tid => Sys2Proof.Machine.execSetTid h tid s
  | .getPldmVersion h typ => Sys2Proof.Machine.execGetPldmVersion h typ s
  | .getPldmTypes h => Sys2Proof.Machine.execGetPldmTypes h s
  | .getPldmCommands h typ => Sys2Proof.Machine.execGetPldmCommands h typ s
  | .getSensorReading h sensor => Sys2Proof.Machine.execGetSensorReading h sensor s
  | .getStateSensorReadings h sensor => Sys2Proof.Machine.execGetStateSensorReadings h sensor s
  | .setNumericSensorEnable h sensor on => Sys2Proof.Machine.execSetNumericSensorEnable h sensor on s
  | .getPdrRepositoryInfo h => Sys2Proof.Machine.execGetPdrRepositoryInfo h s
  | .getPdr h handle => Sys2Proof.Machine.execGetPdr h handle s
  | .setEventReceiver h eid => Sys2Proof.Machine.execSetEventReceiver h eid s
  | .pldmSensorRefresh r1 r2 r3 r4 r5 r6 => Sys2Proof.Machine.execPldmSensorRefresh r1 r2 r3 r4 r5 r6 s
  | .patrolScrub store gran held err => Sys2Proof.Machine.execPatrolScrub store gran held err s
  | .ceRateWindow => Sys2Proof.Machine.execCeRateWindow s
  | .drsZeroGo => Sys2Proof.Machine.execDrsZeroGo s
  | .drsZeroAbort => Sys2Proof.Machine.execDrsZeroAbort s
  | .zeroComplete => Sys2Proof.Machine.execZeroComplete s
  | .memCntSnap => Sys2Proof.Machine.execMemCntSnap s
  | .pwrDomReq core dom op force => Sys2Proof.Machine.execPwrDomReq core dom op force s
  | .domainDrained d => Sys2Proof.Machine.execDomainDrained d s
  | .domainDrainTimeout d => Sys2Proof.Machine.execDomainDrainTimeout d s
  | .domainPowered d => Sys2Proof.Machine.execDomainPowered d s
  | .coreWait c => Sys2Proof.Machine.execCoreWait c s
  | .coreEntryWindowEnd c => Sys2Proof.Machine.execCoreEntryWindowEnd c s
  | .coreWake c debug => Sys2Proof.Machine.execCoreWake c debug s
  | .pwrCoreWakeWrite core c => Sys2Proof.Machine.execPwrCoreWakeWrite core c s
  | .clkCoreSelWrite by_ c pll => Sys2Proof.Machine.execClkCoreSelWrite by_ c pll s
  | .wakeTimerFire => Sys2Proof.Machine.execWakeTimerFire s
  | .wdogKick core key => Sys2Proof.Machine.execWdogKick core key s
  | .wdogWarn => Sys2Proof.Machine.execWdogWarn s
  | .wdogExpire => Sys2Proof.Machine.execWdogExpire s
  | .pllLossOfLock which => Sys2Proof.Machine.execPllLossOfLock which s
  | .lanePllUnlock d => Sys2Proof.Machine.execLanePllUnlock d s
  | .rstCtlKey core delay => Sys2Proof.Machine.execRstCtlKey core delay s
  | .timStepWrite core delta => Sys2Proof.Machine.execTimStepWrite core delta s
  | .ptmDialog good ofs => Sys2Proof.Machine.execPtmDialog good ofs s
  | .datapathError sram => Sys2Proof.Machine.execDatapathError sram s
  | .hstContEnter core => Sys2Proof.Machine.execHstContEnter core s
  | .containRelease core key ledgerFail dmaAbort => Sys2Proof.Machine.execContainRelease core key ledgerFail dmaAbort s
  | .fnContRequest core f => Sys2Proof.Machine.execFnContRequest core f s
  | .fnContRelease core f => Sys2Proof.Machine.execFnContRelease core f s
  | .faultLogCopy => Sys2Proof.Machine.execFaultLogCopy s
  | .faultLogFlush => Sys2Proof.Machine.execFaultLogFlush s
  | .rawStatus pec => Sys2Proof.Machine.execRawStatus pec s
  | .rawWakeLast pec => Sys2Proof.Machine.execRawWakeLast pec s
  | .rawLogSeek pec num => Sys2Proof.Machine.execRawLogSeek pec num s
  | .rawLogRead pec => Sys2Proof.Machine.execRawLogRead pec s
  | .rawWake pec data => Sys2Proof.Machine.execRawWake pec data s
  | .rawReset pec data => Sys2Proof.Machine.execRawReset pec data s
  | .rawContain pec data => Sys2Proof.Machine.execRawContain pec data s
  | .registerWrite core dw wide v => Sys2Proof.Machine.execRegisterWrite core dw wide v s
  | .pairAliveEdge => Sys2Proof.Machine.execPairAliveEdge s
  | .pairRoleChange high => Sys2Proof.Machine.execPairRoleChange high s
  | .linkDisableExit => Sys2Proof.Machine.execLinkDisableExit s
  | .recoveryEntry => Sys2Proof.Machine.execRecoveryEntry s
  | .l1SubstateEntry ltrMet => Sys2Proof.Machine.execL1SubstateEntry ltrMet s
  | .postedCreditGrant n => Sys2Proof.Machine.execPostedCreditGrant n s
  | .grdEpochAdvanceApply => Sys2Proof.Machine.execGrdEpochAdvanceApply s
  | .doeDiscovery index => Sys2Proof.Machine.execDoeDiscovery index s
  | .thermalLimitCleared idx warning => Sys2Proof.Machine.execThermalLimitCleared idx warning s
  | .inputPowerWarning high => Sys2Proof.Machine.execInputPowerWarning high s
  | .vinOutOfRange outside => Sys2Proof.Machine.execVinOutOfRange outside s
  | .refclkReturn => Sys2Proof.Machine.execRefclkReturn s
  | .slewComplete => Sys2Proof.Machine.execSlewComplete s

end Sys2Proof.Machine
end

