-- ==== Sys2Proof/Machine/Tick.lean ====
section
/-!
DEFINITION. One nanosecond with no command (log entry 9): the time base runs (R472, R474), and the rinse deadlines of the
functions come nearer (R102).
-/
namespace Sys2Proof.Machine

/-- The time left of each rinse after one more nanosecond. -/
def rinseTick (m : List (Nat × Nat)) : List (Nat × Nat) := (m.map fun p => (p.1, p.2 - 1)).filter fun p => p.2 != 0

/-- One nanosecond passes. Nothing runs in OFF; device time runs while the control domain is on; in CONTAIN no rinse
timer runs (R73). -/
def State.idle (s : State) : State :=
  if s.mode = .OFF then s
  else
    let s := { s with tick := s.tick + 1 }
    let s := if s.domOn 1 then s.timeTick else s
    if s.mode = .CONTAIN then s else { s with rinseLeft := rinseTick s.rinseLeft }

end Sys2Proof.Machine
end

