-- ==== Sys2Proof/WellFormed.lean ====
section
/-!
DEFINITION. Which commands a sender can send. The operand types already bound most operands; what is left are the host's
memory requests, whose data lists must have the length that their form states (R44, R145, R170).
-/
namespace Sys2Proof

/-- A command some sender can send. The meanings refuse exactly the others, as `illFormed`. -/
def Instr.wf : Instr → Bool
  | .hostPostedWriteRx h data be _ => Machine.hostWriteOk h data be
  | .hostMemoryReadRx h len _ => Machine.hostReadOk h len
  | .hostAtomicopRx h op size data _ => Machine.hostAtomOk h op size data
  | .memoryReadLockRx h => Machine.hostTlpOk h 0
  | _ => true

end Sys2Proof
end

