-- ==== Sys2Proof/Safety.lean ====
section
/-!
DEFINITION. What counts as a sound state and a safe step, in the terms the statements use.
-/
namespace Sys2Proof

/-- A command that stores no byte anywhere: not in the SRAM or the store, not in configuration space, not in an MSI-X table. -/
def Instr.storesNothing : Instr → Bool
  | .thermalTripClear | .rrsTimeout | .l0pDemandCheck .. | .aspmL1Entry .. | .pmeTurnOffRx | .bdtRebuild
  | .walkSlotStart | .xltInvalDone | .xltEpochAdvanceApply | .cplToPortRelease | .basketQuarantineExpire ..
  | .laneEqTimeout .. | .trainBeaconTick .. | .laneSignalDetect .. | .trialNow .. | .darnReqRepeat ..
  | .periodicMarkerTx .. | .nakHoldoffExpire .. | .flowTx .. | .sbPollTick .. | .sbOutSend .. | .ulkSbLatchWrite ..
  | .dmaReqTake .. | .reqDoneSend .. | .govWindowEnd | .shrUpdDone | .getVersion | .finish .. | .spdmHeartbeat ..
  | .keyUpdate .. | .endSession .. | .ideKmQuery .. | .keyProg .. | .kSetGo .. | .getTdispVersion ..
  | .getTdispCapabilities .. | .lockInterface .. | .getDeviceInterfaceReport .. | .getDeviceInterfaceState ..
  | .startInterface .. | .heartbeatTx | .pairAliveToggle | .hoDrainDone | .setEndpointId .. | .getEndpointId ..
  | .getEndpointUuid .. | .getMctpVersionSupport .. | .getMessageTypeSupport .. | .getVendorDefinedMessageSupport ..
  | .getTid .. | .setTid .. | .getPldmVersion .. | .getPldmTypes .. | .getPldmCommands .. | .getSensorReading ..
  | .getStateSensorReadings .. | .setNumericSensorEnable .. | .getPdrRepositoryInfo .. | .getPdr ..
  | .setEventReceiver .. | .pldmSensorRefresh .. | .memCntSnap | .ptmDialog .. | .faultLogCopy | .faultLogFlush
  | .rawStatus .. | .rawWakeLast .. | .rawLogSeek .. | .rawLogRead .. | .pairAliveEdge | .pairRoleChange ..
  | .l1SubstateEntry .. | .grdEpochAdvanceApply | .doeDiscovery .. | .thermalLimitCleared .. | .inputPowerWarning ..
  | .vinOutOfRange .. | .refclkReturn | .slewComplete => true
  | _ => false

/-- Every field of a TRAIN block holds a value of its width (R193). -/
def TrainBlk.fits (b : TrainBlk) : Prop :=
  b.lane < 8 ∧ b.width < 16 ∧ b.rates < 8 ∧ b.target < 4 ∧ b.preReq < 4 ∧ b.postReq < 4 ∧ b.preSts < 4 ∧ b.postSts < 4
    ∧ b.phase < 4 ∧ b.linkId < 256

/-- Every field of a MARKER block holds a value of its width (R193). -/
def MarkBlk.fits (b : MarkBlk) : Prop :=
  b.lane < 8 ∧ b.active < 256 ∧ b.rxok < 256 ∧ b.cmd < 16 ∧ b.arg < 256 ∧ b.mcount < 256

/-- Every field of a Seam packet holds a value of its width (R394). -/
def SeamPkt.fits : SeamPkt → Prop
  | .hello v mv mode _ fw ser => v < 256 ∧ mv < 256 ∧ mode < 8 ∧ fw < 2 ^ 32 ∧ ser < 2 ^ 64
  | .heartbeat n _ _ sync mseq => n < 256 ∧ sync < 4 ∧ mseq < 2 ^ 32
  | .mirror rt mseq arg w => rt < 256 ∧ mseq < 2 ^ 32 ∧ arg < 2 ^ 64 ∧ w.length < 256
  | .mirrorAck mseq => mseq < 2 ^ 32
  | .handover op mseq => op < 8 ∧ mseq < 2 ^ 32
  | .pairCtl op => op < 8

/-- Every field of a Urone packet holds a value of its width, its data have a length a packet can carry, and a RESPONSE's
data are laid out by its tag's request (R220 to R244). No packet of a reserved KIND fits. -/
def UrPkt.fits (base : Nat → Nat) : UrPkt → Prop
  | .flow vc h d => vc < 4 ∧ h < 4096 ∧ d < 65536
  | .hello v _ _ _ _ _ sb id => v < 256 ∧ sb < 4096 ∧ id < 2 ^ 32
  | .read tag len addr _ _ => tag < 4096 ∧ 1 ≤ len ∧ len ≤ 8192 ∧ addr < 2 ^ 40
  | .write tag init seq addr _ _ _ d _ =>
    tag < 4096 ∧ init < 32 ∧ seq < 65536 ∧ addr < 2 ^ 40 ∧ 1 ≤ d.length ∧ d.length ≤ 8192
  | .atomic tag aop asz addr _ _ o =>
    tag < 4096 ∧ aop < 16 ∧ asz < 4 ∧ addr < 2 ^ 40 ∧ 1 ≤ o.length ∧ o.length ≤ 8192
  | .lock tag addr _ _ => tag < 4096 ∧ addr < 2 ^ 40
  | .unlock tag addr _ _ => tag < 4096 ∧ addr < 2 ^ 40
  | .streamSync init first => init < 32 ∧ first < 65536
  | .response tag st off _ d _ b => tag < 4096 ∧ st < 16 ∧ off < 8192 ∧ d.length ≤ 8192 ∧ b = base tag
  | .sbPoll id => id < 256
  | .sbState id _ lines => id < 256 ∧ lines < 2 ^ 64
  | .sbCfg latch => latch < 2 ^ 64
  | .req line n => line < 16 ∧ n < 65536
  | .reqDone line n => line < 16 ∧ n < 65536
  | .lateError init seq st => init < 32 ∧ seq < 65536 ∧ st < 16
  | .bad _ => False
  | .seam _ => False

end Sys2Proof

namespace Sys2Proof.Machine

/-- The register file is in canonical form and every field holds a value of its width. -/
def State.regsWf (s : State) : Bool :=
  smWf regDefault s.regs && s.regs.all fun e => decide (e.2 < 2 ^ (fldInfo (Fld.ofNat (e.1 / 1048576))).w)

/-- SRAM and store bytes, poison marks, configuration space and MSI-X tables are in canonical form: equal contents are
equal data. -/
def State.bytesWf (s : State) : Bool :=
  s.memWf && smWf (fun _ => false) s.poison && smWf cfgDefault s.cfg && smWf msixDefault s.msix

/-- A command that writes a register reaches it: the module runs and the domain of the register's block is on. -/
def State.regOn (s : State) (r : Reg) (i : Nat) : Bool :=
  s.mode != .OFF && s.mode != .STANDBY
    && s.domOn (blockDom (regInfo r).block (regAddr r i - blockBase (regInfo r).block.ctorIdx))

/-- Firmware begins the command of a mailbox: it is BUSY with this command's OPCODE, no command runs in it, none of the
reasons of R414 and R416 to wait applies, it is not cancelled, and checks 2 to 5 of R419 pass. -/
def State.begins (s : State) (m : Nat) (k : CmdRule) : Prop :=
  s.fwReady = true ∧ s.mbxState m = 2 ∧ s.mbxOp m = k.op ∧ nGet s.mg.cmdRun m = 0 ∧ s.mg.cmdRun.length < 4
    ∧ (s.mode ≠ .CONTAIN ∨ (s.cmdAt m).cls < 2) ∧ s.mbxCancelReq m = false ∧ s.cmdCheck k (s.cmdAt m) = none

/-- A packet that arrives with its command passes the checks of its reception (R243, R249, R394). -/
def State.rxPasses (s : State) (l : Nat) (k : UrPkt) : Bool :=
  s.urRuns l && (if l = 16 then (match k with
      | .seam _ => true
      | .flow .. => true
      | _ => false)
    else (match k with
      | .bad _ => false
      | .seam _ => false
      | .streamSync .. => false
      | .sbPoll _ => false
      | .sbCfg _ => false
      | .reqDone .. => false
      | k => (!(k.vc == 0 || k.vc == 2) || (s.port l).farHello) && (s.port l).rxFits k))

/-- The state in which a packet's command acts: the packet is the oldest that bundles have delivered on its virtual channel,
or none waits there and it arrives now and passes the checks (R218). -/
def State.rxGives (s : State) (l : Nat) (k : UrPkt) : Option State :=
  match (s.port l).rx.find? fun q => q.vc == k.vc with
  | some q => if q = k then some (s.rxDrop l k) else none
  | none => if s.rxPasses l k then some ((s.rxPut l k).rxDrop l k) else none

/-- A step that neither faults nor is refused. -/
def State.Safe (s : State) : Prop := ∃ t, step s = .next t

end Sys2Proof.Machine
end

