-- ==== Sys2Proof/Certificates/Slice0/Obligations.lean ====
section
/-!
DEFINITION. The statements about the block. A completion statement gives, for each command it names, the conditions on the
state and the operands alone under which the command has its own effect, and the whole next state in the operations of the
model: what they do not change is as before. The other statements say what those operations do.
-/
open Sys2Proof Sys2Proof.Machine

/-! ### Life of the module -/

/-- Power, boot and mode commands (R376, R379, R384, R386, R501, R515, R516): what each does where it applies. -/
def Obligations.LifeComplete : Prop :=
  ∀ s : State,
    (s.mode = .OFF → s.bt.trip = none → exec .powerUp s = .next s.powerUp) ∧
    exec .powerDown s = .next s.powerOff.alertSync ∧
    exec .overvoltage s = .next (State.alertSync { s.powerOff with bt.overV := true }) ∧
    (∀ (i : Fin 3), exec (.thermalTrip i) s = .next (State.alertSync
      { s.powerOff with bt.trip := some (i.val + 1), bt.tripRec := some (i.val + 1) })) ∧
    (s.mode = .OFF → exec .thermalTripClear s = .next (State.alertSync { s with bt.trip := none })) ∧
    (∀ (i : Fin 3), s.mode ≠ .OFF → exec (.thermalWarning i) s = .next (s.limitUp (i.val + 1) 1).warnLog) ∧
    (∀ (i : Fin 3), s.mode ≠ .OFF → exec (.thermalCritical i) s = .next ((s.limitUp (i.val + 1) 2).warnLog.faultLog
      { cls := 4, unit := 15, code := 0x82 })) ∧
    (∀ (i : Fin 3), s.mode ≠ .OFF → exec (.thermalLimitCleared i true) s = .next (State.alertSync
      { s with bt.limits := nSet s.bt.limits (i.val + 1) 0 })) ∧
    (∀ (b : Bool), s.mode ≠ .OFF → exec (.inputPowerWarning b) s = .next (State.alertSync
      { s with bt.powerHigh := b })) ∧
    (∀ (b : Bool), s.mode ≠ .OFF → exec (.vinOutOfRange b) s = .next (State.alertSync { s with bt.vinOut := b })) ∧
    (∀ c : Fin 9, 2 ≤ c.val → exec (.moduleResetEvent c) s = .next (s.moduleReset c)) ∧
    (s.mode = .BOOT → s.fwReady = false → ∀ i, s.bt.image = some i → exec .bootWatchdogExpire s = .next
      (State.moduleReset ({ s with bt.wdogFailed := s.bt.wdogFailed ||| 2 ^ i }.faultLog
      { cls := 6, unit := 18, code := 5 }) 5)) ∧
    (s.mode = .BOOT → s.bt.face = .rrs → s.perst = false → s.hctlOn = true → exec .rrsTimeout s = .next
      { s with bt.face := .minimal }) ∧
    (∀ b, s.bt.standby = some b → s.mode = .LEAD ∨ s.mode = .FOLLOW → exec .standbyEntry s = .next (s.sbAdvance
      b).hoFlush) ∧
    (∀ b, s.bt.standby = some b → s.mode = .LEAD ∨ s.mode = .FOLLOW → b.step = 4 → exec .standbyLedgerTimeout s =
      .next (s.portsOff.sbStep b 5)) ∧
    (s.flag .PWR_WAKE_EN_TIMER = true → exec (.moduleWake 3) s = .next (s.moduleWake 3)) ∧
    exec (.moduleWake 0x10) s = .next (s.moduleWake 0x10) ∧
    (∀ n, s.bt.rstArmed = some n → exec .moduleResetDelayExpire s = .next (State.moduleReset
      { s with bt.rstArmed := none } n)) ∧
    (s.mode = .BOOT → s.domOn 1 = true → s.domOn 16 = true → s.domOn 2 = true → ∀ ver mv, s.bt.image = none →
      s.bt.bootFail = false → s.hdr.attempt = 0 → s.hdr.active = 0 → s.bt.wdogFailed = 0 → exec (.imageVerified true
      false ver mv) s = .next (s.imageStart 0 false ver mv)) ∧
    (s.mode = .BOOT → s.domOn 17 = true → s.domOn 18 = true → s.flag .DRS_STS_TRAINED = false → exec .storeTrained
      s = .next s.storeStart) ∧
    (s.readyDue = true → s.fwReady = false → exec .fwReady s = .next s.bootEnd)

/-! ### The host link -/

/-- PERST#, the resets of the host face and the data link layer going down and up (R46 to R55, R61, R64 to R67, R378). -/
def Obligations.HostFaceComplete : Prop :=
  ∀ s : State,
    (s.perst = false → s.hctlOn = true → s.perstResets = false → exec .perstAssert s = .next
      ((({ s with perst := true }.hstEvt .HST_EVT_PERST_ASSERT).dlFall ltDETECT).hostFaceReset true)) ∧
    (s.perst = true → (State.wakeRelease { s with perst := false }).hctlOn = true → exec .perstDeassert s = .next
      (((State.wakeRelease { s with perst := false }).hstEvt .HST_EVT_PERST_DEASSERT).perstUp).perstWake) ∧
    (s.hctlOn = true → s.flag .HST_LINK_STS_DL_UP = true → exec .hotResetRx s = .next (((s.hstEvt
      .HST_EVT_HOT_RESET).dlFall ltHOTRESET).hostFaceReset false)) ∧
    (s.hctlOn = true → s.flag .HST_LINK_STS_DL_UP = true → exec .linkDisableRx s = .next ((((s.hstEvt
      .HST_EVT_LINK_DISABLE).dlFall ltDISABLED).holdTags (fun _ => true) true).dropTlps)) ∧
    (s.hctlOn = true → s.ltssm = ltDISABLED → exec .linkDisableExit s = .next ((s.set .HST_LINK_STS_LTSSM 0
      ltDETECT).hostFaceReset false)) ∧
    (s.hctlOn = true → (s.flag .HST_LINK_STS_DL_UP = true ∨ s.ltssm = ltHOTRESET) → exec .dlDown s = .next s.surprise) ∧
    (∀ (train : HostTrain) (flit l0p : Bool), s.hctlOn = true → s.perst = false → s.ltssm ≠ ltDISABLED → s.flag
      .HST_LINK_STS_DL_UP = false → train.rate.val ≠ 0 → train.width.val ∈ linkWidths → exec (.dlUp train flit l0p) s =
      .next (s.dlRise train flit l0p)) ∧
    (s.hctlOn = true → s.fld .HST_CLK_CFG_ACTIVE = 1 → s.flag .HST_LINK_STS_DL_UP = true → exec .refclkLoss s =
      .next (s.set .HST_CLK_CFG_REFCLK_OK 0 0).surprise) ∧
    exec .refclkReturn s = .next (s.set .HST_CLK_CFG_REFCLK_OK 0 1)

/-- Lanes, Recovery, widths, power states and posted credit of the host link (R48, R52, R56 to R60, R62, R63, R72 to R74,
R181). -/
def Obligations.HostLaneComplete : Prop :=
  ∀ s : State,
    (∀ (errs margin : List Nat) (replayed : Nat), s.hctlOn = true → s.flag .HST_LINK_STS_DL_UP = true → ∃ t, t =
      ((s.each (errs.take 16).zipIdx fun s e => s.count .HST_LANE_ERR_CNT_CORR e.2 e.1).flitReplay replayed).each
        (margin.take 16).zipIdx (fun s e => s.margErrs e.2 e.1) ∧
      (t.flag .HST_LINK_CTL_LANE_ACT = false → exec (.laneErrWindowEnd errs margin replayed) s = .next t) ∧
      (t.flag .HST_LINK_CTL_LANE_ACT = true → exec (.laneErrWindowEnd errs margin replayed) s = .next (t.hostLanesFail
        (((errs.take 16).zipIdx.filter fun e => decide ((if s.fld .HST_LANE_ERR_THR_THRESHOLD = 0 then 65536 else
          s.fld .HST_LANE_ERR_THR_THRESHOLD) ≤ e.1)).map (·.2))))) ∧
    (s.hctlOn = true → s.ltssm = ltL0 → exec .recoveryEntry s = .next ((((s.set .HST_LINK_STS_LTSSM 0
      ltRECOVERY).count .HST_RECOV_CNT_RECOVERY).hstEvt .HST_EVT_RECOVERY).limTake)) ∧
    (∀ (train : HostTrain), s.hctlOn = true → s.ltssm = ltRECOVERY → train.rate.val ≠ 0 → train.width.val ∈ linkWidths →
      exec (.recoveryDone train) s = .next (s.linkAt train (s.flag .HST_LINK_STS_FLIT)).hostFlush) ∧
    (s.hctlOn = true → s.flag .HST_LINK_CTL_AUTO_REWIDEN = true → s.fld .HST_LANE_FAIL_EXCLUDE ≠ 0 → (s.cfgD 0
      0x080).testBit 9 = false → exec .autoRewiden s = .next (s.set .HST_LANE_FAIL_EXCLUDE 0 0).ownRecover) ∧
    (s.hctlOn = true → s.ltssm = ltL0 → exec .hstRetrain s = .next (s.send (.msg .recovery)).recover) ∧
    (∀ (window epoch w : Nat), s.hctlOn = true → s.l0pOn = true → s.linkOpen = true → s.fld .HST_LINK_STS_L0P_WIDTH = w →
      (min 100 (s.fld .HST_PM_CTL_L0P_HIGH) * s.hostRate w < 100 * epoch → 2 * w ≤ s.fld .HST_LINK_STS_WIDTH →
        s.l0pFree (2 * w) = true → exec (.l0pDemandCheck window epoch) s = .next (s.send (.msg (.l0pRequest (2 * w))))) ∧
      (100 * epoch ≤ min 100 (s.fld .HST_PM_CTL_L0P_HIGH) * s.hostRate w → s.flag .HST_LINK_CTL_L0P_AUTO = true →
        s.l0pMin ≤ w / 2 → 100 * window < min 100 (s.fld .HST_PM_CTL_L0P_LOW) * s.hostRate (w / 2) → s.hostGuarantee ≤
        s.hostRate (w / 2) → exec (.l0pDemandCheck window epoch) s = .next (s.send (.msg (.l0pRequest (w / 2)))))) ∧
    (∀ width : Fin 17, s.hctlOn = true → s.l0pOn = true → s.flag .HST_LINK_STS_DL_UP = true → width.val ∈ linkWidths →
      width.val ≤ s.fld .HST_LINK_STS_WIDTH → width.val ≤ s.fld .HST_LINK_STS_L0P_WIDTH ∨ s.l0pFree width = true → ∃ t, t =
      (s.set .HST_LINK_STS_L0P_WIDTH 0 width).hstEvt .HST_EVT_L0P_CHG ∧ exec (.l0pWidthChangeDone width) s = .next (if
      t.l0pFree width = true then t else t.laneAct)) ∧
    (s.hctlOn = true → s.linkOpen = true → s.aspmL1 = true → s.flag .HST_LINK_CTL_L1_AUTO = true → s.fld
      .HST_PM_CTL_L1_IDLE ≠ 0 → s.l1Idle = true → exec (.aspmL1Entry true false) s = .next ((s.send (.msg
      .enterL1)).l1Enter false) ∧ exec (.aspmL1Entry false false) s = .next (s.send (.msg .enterL1))) ∧
    (∀ (ltrMet : Bool) (n : Nat), s.hctlOn = true → s.ltssm = ltL1 → n = 2 ∧ ltrMet = true ∧ (s.cfgD 0 0x2A8 / (if
      s.hp.l1Pm then 1 else 4)).testBit 0 = true ∨ n = 1 ∧ (ltrMet = false ∨ (s.cfgD 0 0x2A8 / (if s.hp.l1Pm then 1 else
      4)).testBit 0 = false) ∧ (s.cfgD 0 0x2A8 / (if s.hp.l1Pm then 1 else 4)).testBit 1 = true → exec (.l1SubstateEntry
      ltrMet) s = .next (((s.set .HST_LINK_STS_LTSSM 0 (ltL1 + n)).clkreq false).send (.msg (.l1Substate n)))) ∧
    (s.hctlOn = true → ltL1 ≤ s.ltssm → s.ltssm ≤ 7 → exec .l1Exit s = .next (s.l1Leave.set .HST_LINK_STS_LTSSM 0
      ltL0).hostFlush) ∧
    (s.hctlOn = true → s.flag .HST_LINK_STS_DL_UP = true → exec .pmeTurnOffRx s = .next { s with pmeOff := true }) ∧
    (∀ (expired : Bool), s.hctlOn = true → s.pmeOff = true → s.flag .HST_LINK_STS_DL_UP = true → expired = true ∨
      (∀ b ∈ s.bTags, b.st ≠ .issued) → ∃ t, exec (.pmeToAckSend expired) s = .next (if t.mode = .CONTAIN then t else
      t.standbyStart (t.evFlags.testBit 1)) ∧ t = (((((s.holdTags (fun _ => true) true).send (.msg .pmeToAck)).hstEvt
      .HST_EVT_L2_ENTRY).dlFall ltL2).dropTlps).clkreq false) ∧
    (∀ (n : Nat), s.hctlOn = true → s.flag .HST_LINK_STS_DL_UP = true → exec (.postedCreditGrant n) s = .next
      (State.jFlush { s with jCredit := s.jCredit + n }))

/-! ### Host requests and translation -/

/-- A memory request of the host that its link carries (R144, R145), on no stream or on a Secure one (R365): it enters the
module as the request it is, and Starch settles. -/
def Obligations.HostMemoryComplete : Prop :=
  ∀ (s : State) (h : HostTlp), s.hctlOn = true → s.linkOpen = true → h.ideCause = 0 → (h.stream = 0 ∨ s.fld .SEC_IDE_STS_STATE (h.stream - 1) = 2) →
    (∀ (data : List Byte) (be : List Bool) (err : MemErr), hostWriteOk h data be = true → exec (.hostPostedWriteRx h data
      be err) s = .next (s.submit { hostReq h .write data.length data with be := be, err := err } h.pasid).starchSettle) ∧
    (∀ (len : Nat) (err : MemErr), hostReadOk h len = true → exec (.hostMemoryReadRx h len err) s = .next (s.submit
      { hostReq h .read len [] with err := err } h.pasid).starchSettle) ∧
    (∀ (op : AtomOp) (size : Nat) (data : List Byte) (err : MemErr), hostAtomOk h op size data = true → exec
      (.hostAtomicopRx h op size data err) s = .next (s.submit { hostReq h (.atomic op) size data with err := err }
      h.pasid).starchSettle) ∧
    (hostTlpOk h 0 = true → exec (.memoryReadLockRx h) s = .next (s.hostTx (.cpl h.fn h.tag 1 [] false
      h.stream)).starchSettle)

/-- Window walks, the window update unit and translation epochs (R28, R118, R125, R139 to R141). -/
def Obligations.TranslationComplete : Prop :=
  ∀ s : State,
    (∀ w, (s.walks.find? fun w => !w.slot) = some w → (s.walks.filter (·.slot)).length < 128 → exec .walkSlotStart
      s = .next { s with walks := mapIf (fun x => x.tbl == w.tbl) (fun x => { x with slot := true }) s.walks }) ∧
    (∀ (tbl : Nat) (bad : List Nat), exec (.windowWalkDone tbl bad) s = .next (State.walkDone State.deliver s tbl
      bad).starchSettle) ∧
    (∀ (core : Option Core) (i : Fin 524288), s.regOn .XLT_UPD_CMD 0 = true → s.flag .XLT_UPD_STS_BUSY = false →
      exec (.xltUpdWrite core i) s = .next (((s.set .XLT_UPD_CMD_INDEX 0 i).set .XLT_UPD_CMD_OP 0 0).xltWrite i)) ∧
    (∀ (core : Option Core) (i : Fin 524288), s.regOn .XLT_UPD_CMD 0 = true → s.flag .XLT_UPD_STS_BUSY = false →
      exec (.xltUpdInvalEntry core i) s = .next (((s.set .XLT_UPD_CMD_INDEX 0 i).set .XLT_UPD_CMD_OP 0 1).xltInval 1
      i)) ∧
    (∀ (core : Option Core) (i : Fin 524288), s.regOn .XLT_UPD_CMD 0 = true → s.flag .XLT_UPD_STS_BUSY = false →
      exec (.xltUpdInvalTable core i) s = .next (((s.set .XLT_UPD_CMD_INDEX 0 i).set .XLT_UPD_CMD_OP 0 2).xltInval 2
      i)) ∧
    (∀ (core : Option Core) (i : Fin 524288), s.regOn .XLT_UPD_CMD 0 = true → s.flag .XLT_UPD_STS_BUSY = false →
      exec (.xltUpdInvalAll core i) s = .next (((s.set .XLT_UPD_CMD_INDEX 0 i).set .XLT_UPD_CMD_OP 0 3).xltInval 3
      i)) ∧
    (s.domOn 14 = true → exec .xltUpdCommit s = .next s.xltCommit) ∧
    (s.domOn 14 = true → exec .xltInvalDone s = .next s.xltInvalDone) ∧
    (∀ (core : Option Core) (base : Fin 16777216), s.regOn .XLT_TBL_BASE 0 = true → exec (.xltTblBaseWrite core
      base) s = .next (s.tblBaseWrite base)) ∧
    (∀ (core : Option Core), s.regOn .XLT_EPOCH 0 = true → exec (.xltEpochAdvance core) s = .next s.xltAdvance) ∧
    (∀ (core : Option Core) (tag : Nat), exec (.xltEpochDrainRead core tag) s = .next (s.readBy core tag 0x300018
      4)) ∧
    (s.domOn 14 = true → exec .xltEpochAdvanceApply s = .next s.xltAdvanceApply) ∧
    exec .xltEpochDrainReturn s = .next (s.xltDrainReturn false) ∧
    exec .xltEpochDrainTimeout s = .next (s.xltDrainReturn true)

/-! ### Functions -/

/-- Configuration requests the face serves, FLR, the enables, BAR sizes, rinse and provisioning (R75 to R113, R381, R382). -/
def Obligations.FunctionComplete : Prop :=
  ∀ s : State,
    (∀ (f : Nat) (dw : Fin 1024) (tag : Nat), s.hctlOn = true → s.linkOpen = true → s.bt.face = .full → s.cfgReach
      f = true → exec (.configRead f dw tag) s = .next (s.hostTx (.cpl f tag 0 (toBytes 4 (s.cfgLive f (4 *
      dw.val))) false 0))) ∧
    (∀ (f : Nat) (rid : Fin 65536) (dw : Fin 1024) (v : Fin 4294967296) (be : Fin 16) (tag : Nat), f ≠ 0 → s.hctlOn
      = true → s.linkOpen = true → s.cfgAnswer f = 0 → exec (.configWrite f rid dw v be tag) s = .next ((s.hostTx
      (.cpl f tag 0 [] false 0)).cfgWrite f (4 * dw.val) v be)) ∧
    (∀ (f : Fn), s.hctlOn = true → s.bt.face = .full → s.cfgReach f = true → exec (.flr f) s = .next (s.flr f)) ∧
    (∀ (pf : Fin 4), pf.val ≠ 0 → s.hctlOn = true → s.cfgAnswer pf = 0 → exec (.vfEnableSet pf) s = .next
      (s.cfgWrite pf 0x318 (s.cfgD pf 0x318 ||| 1) 15)) ∧
    (∀ (pf : Fin 4), pf.val ≠ 0 → s.hctlOn = true → s.cfgAnswer pf = 0 → exec (.vfEnableClear pf) s = .next
      (s.cfgWrite pf 0x318 (s.cfgD pf 0x318 - (s.cfgD pf 0x318 &&& 1)) 15)) ∧
    (∀ (f : Fn), s.hctlOn = true → s.cfgAnswer f = 0 → exec (.bmeSet f) s = .next (s.cfgWrite f 0x004 (s.cfgD f
      0x004 ||| 4) 15)) ∧
    (∀ (f : Fn), s.hctlOn = true → s.cfgAnswer f = 0 → exec (.bmeClear f) s = .next (s.cfgWrite f 0x004 (s.cfgD f
      0x004 - (s.cfgD f 0x004 &&& 4)) 15)) ∧
    (∀ (f : Fn), s.hctlOn = true → s.cfgAnswer f = 0 → exec (.pasidEnableClear f) s = .next (s.cfgWrite f 0x304
      (s.cfgD f 0x304 - (s.cfgD f 0x304 &&& 0x10000)) 15)) ∧
    (∀ (pf : Fin 4) (vf : Bool) (size : Fin 64), pf.val ≠ 0 → s.hctlOn = true → s.cfgAnswer pf = 0 → exec
      (.resizableBarWrite pf vf size) s = .next (s.cfgWrite pf (if vf then 0x368 else 0x358) (size.val * 256) 15)) ∧
    (∀ (f : Fn), s.rinseDone f = true → exec (.rinseDrained f) s = .next (s.rinseEnd f false)) ∧
    (∀ (f : Fn), exec (.rinseDeadline f) s = .next (s.rinseEnd f true)) ∧
    (∀ (k : Fin 256) (v : BitVec 64), s.regOn .FN_SLICE k = true → exec (.fnSliceWrite k v) s = .next (s.sliceWrite
      k v.toNat 0xFFFFFFFFFFFFFFFF)) ∧
    (∀ (f : Fn) (first count : Fin 4096), s.regOn .FN_RES f = true → count.val ≤ 8 → first.val + count.val ≤ 4096 →
      exec (.fnResWrite f first count) s = .next (((s.set .FN_RES_FIRST_CTX f first).set .FN_RES_CTX_COUNT f
      count).mirVal .FN_RES f)) ∧
    (s.fwReady = true → exec .bdtRebuild s = .next s.bdtBuild)

/-! ### Ledger, Basket, Starch -/

/-- Ledger entries opening, being issued and ending, and what waits for them (R148, R154 to R161, R172, R227, R245, R397). -/
def Obligations.LedgerComplete : Prop :=
  ∀ s : State,
    (∀ (p : Port) (init : Fin 19) w t, (s.ldgWait.filter fun w => w.port == p.val && w.init == init.val) = w :: t →
      s.lockHolds w.req = false → s.ldgFree init = true → (s.stream p init).length < s.pairMax → s.mirrors = false → exec
      (.ledgerEntryOpen p init) s = .next (s.entryOpen w p init)) ∧
    (∀ (p : Port) (init : Fin 19) (tag : Nat) e, s.mode = .LEAD → (s.stream p init).any (fun e => e.st == .retry) =
      false → (s.stream p init).find? (fun e => e.st == .opened) = some e → s.mirrorOk e = true → s.entLocked (s.stream p
      init) e = false → s.fld .ULK_STS_STATE p ≠ 0 → s.tagFree p tag = true → s.canIssue p (wrPkt e tag) = true → s.ovfBad e =
      false → exec (.ledgerIssue p init tag) s = .next ((s.setEnt { e with st := .issued, tag := some tag }).urSend e.port
      (wrPkt e tag))) ∧
    (∀ (p : Port) (init : Fin 19) e t, s.mode = .LEAD → (s.stream p init).filter (fun e => e.st == .retry) = e :: t →
      (s.stream p init).any (fun e => e.st == .issued) = false → s.canIssue p (wrPkt e (e.tag.getD 0)) = true → (s.port
      p).fitsAll 0 ((e :: t).map fun e => wrPkt e (e.tag.getD 0)) = true → exec (.ledgerRetryReissue p init) s = .next
      (s.urBatch p fun s => s.each (e :: t) fun s e => s.entSend e (e.tag.getD 0)).starchSettle) ∧
    (∀ (p : Port) (tag : Nat) e, s.ledger.find? (fun e => e.port == p.val && e.st == .issued && e.tag == some tag)
      = some e → exec (.ledgerWriteTimeout p tag) s = .next (((s.ledgerAnswer e 8).tagHold p tag).starchSettle)) ∧
    (∀ (p : Port) (tag : Nat) r, s.pReads.find? (fun r => r.port == p.val && r.tag == some tag) = some r → exec
      (.portReadTimeout p tag) s = .next (((s.portReadEnd r 8).tagHold p tag).starchSettle)) ∧
    (∀ e, s.mode ≠ .CONTAIN → s.heldReads.find? (fun e => !s.heldByWrites e.2) = some e → ∃ t, t =
      { s with heldReads := s.heldReads.erase e } ∧
      (e.2.kind = .read → t.lockHolds e.2 = false → t.lockBehind e.2 = false → exec .heldReadRelease s = .next (t.queueRead
        ((portOf e.2.dst).getD 0) e.2)) ∧
      (e.2.kind = .read → t.lockHolds e.2 = true → exec .heldReadRelease s = .next
        { t with lockWait := t.lockWait ++ [e.2] }) ∧
      (e.2.kind ≠ .read → exec .heldReadRelease s = .next (t.starch e.2))) ∧
    (∀ h : CplHeld, s.cplHeld.find? (fun h => !s.cplHeldBy h.port h.ord h.req.ro) = some h →
      ((∀ a b c d e f, h.pkt ≠ .response a b c true d e f) → exec .cplToPortRelease s = .next (State.respond
        { s with cplHeld := s.cplHeld.erase h } h.req h.pkt)) ∧
      (∀ a b c d e f, h.pkt = .response a b c true d e f → exec .cplToPortRelease s = .next ((State.respond
        { s with cplHeld := s.cplHeld.erase h } h.req h.pkt).retire h.req)))

/-- Reads of the host and of ports, host completions, tags, and Starch's locks (R148, R160, R161, R170 to R179, R226). -/
def Obligations.BasketComplete : Prop :=
  ∀ s : State,
    exec .basketReadIssue s = .next s.bskIssue.starchSettle ∧
    (∀ (p : Port) (tag : Nat) r emul k, s.mode = .LEAD → s.pReads.find? (fun r => r.port == p.val && r.tag.isNone &&
      !s.lockHolds r.req) = some r → s.fld .ULK_STS_STATE p ≠ 0 → s.rdPkt r tag = (emul, k) → s.tagFree p tag = true →
      s.canIssue p k = true → s.respUsed p + r.req.len + r.req.ext ≤ 65536 → exec (.portReadIssue p tag) s = .next
      (State.urSend { s with pReads := mapIf (fun x => x == r) (fun x => { x with tag := some tag, emul := emul }) s.pReads }
      p k)) ∧
    (∀ (tag status : Nat) (data : List Byte) (last : Bool) b, s.bTags.find? (fun b => b.tag == tag) = some b → b.st =
      .issued →
      exec (.hostCompletionRx tag status data false last) s = .next (State.hostData { s with ordNext := s.ordNext + 1 } b
        status data false).starchSettle ∧
      exec (.hostCompletionRx tag status data true last) s = .next ((State.aer { s with ordNext := s.ordNext + 1 } b.fn
        .poisonedTlp).hostData b status data true).starchSettle) ∧
    (∀ (tag : Nat) b, s.bTags.find? (fun b => b.tag == tag) = some b → b.st = .issued → exec (.basketTagTimeout
      tag) s = .next (s.tagTimeout tag b)) ∧
    (∀ (tag : Nat), exec (.basketQuarantineExpire tag) s = .next
      { s with bTags := s.bTags.filter fun b => !(b.tag == tag && b.quarantined) }) ∧
    (∀ (gran hfn : Nat) r, s.lockWait.filter (fun r => granKey r == (gran, hfn) && r.kind != .read && r.kind !=
      .write) = [r] → s.lockedFor r = false → s.lockBehind r = false → s.locks.length < 1024 → exec (.starchGrant gran hfn)
      s = .next (State.grant
      { s with lockWait := s.lockWait.erase r, starchRun := s.starchRun.filter fun (e : Nat × Nat × Nat) => !(e.1 == gran && e.2.1 == hfn) }
      r).starchSettle) ∧
    (∀ (p : Port) (gran hfn : Nat), s.locks.any (fun l => l.gran == gran && l.hfn == hfn && l.expl == some p.val) =
      true → exec (.starchHoldExpire p gran hfn) s = .next ((s.set .LDG_STARCH_STS_FORCED 0 1).dropExpl p (gran,
      hfn)).starchSettle)

/-! ### Lanes -/

/-- Lane training, lane lock and darning (R193 to R201, R205 to R208). -/
def Obligations.LaneTrainComplete : Prop :=
  ∀ s : State,
    (∀ (l : Link) (on : Bool), s.linkOn l = true → exec (.laneEnable l on) s = .next (s.enableWrite l on)) ∧
    (∀ (l : Link), s.linkOn l = true → exec (.laneRetrain l) s = .next (s.retrain l)) ∧
    (∀ (idx : Lane) (word : Nat) (b : TrainBlk) (rx : LaneRx), s.linkOn (linkOf idx) = true → s.lane idx ≠ lnOFF → laneCtl
      word = .train b → rxLocked rx = true → exec (.trainBlockRx idx word rx) s = .next ((State.trainStep
      { s with laneSkew := bSet s.laneSkew idx (decide (skewLimit (linkOf idx) < rx.skew)) } idx b rx).trainAgain idx (s.ltx
      idx))) ∧
    (∀ (idx : Lane) (word : Nat) (rx : LaneRx), s.linkOn (linkOf idx) = true → s.lane idx ≠ lnOFF → laneCtl word = .bad →
      exec (.trainBlockRx idx word rx) s = .next (s.count .LANE_ERR_CNT_MARKER_ERR idx)) ∧
    (∀ (idx : Lane), s.lane idx = lnEQUALISE → exec (.laneEqTimeout idx) s = .next ((s.setLane idx lnFAILED).set
      .LANE_STS_FAIL_CAUSE idx (if bGet s.laneSkew idx then 3 else 2))) ∧
    (∀ (l : Link), s.linkOn l = true → s.fld .LANE_LINK_STS_STATE l = 1 → (s.lk l).target = 0 → s.darnMin l ≤
      (s.lanesIn l lnREADY).length → exec (.linkTrainDecide l) s = .next (s.linkActive l)) ∧
    (∀ (l : Link), s.linkOn l = true → s.fld .LANE_LINK_STS_STATE l = 1 → s.lanesIn l lnDETECT ≠ [] → (∀ i ∈ lanesOf l,
      s.lane i = lnDETECT) → exec (.detectTimeout l) s = .next (s.laneTrain l)) ∧
    (∀ (l : Link), s.linkOn l = true → s.fld .LANE_LINK_STS_STATE l = 1 → s.lanesIn l lnDETECT ≠ [] → (∃ i ∈ lanesOf l,
      s.lane i ≠ lnDETECT) → exec (.detectTimeout l) s = .next ((s.setLk l
      { s.lk l with lag := (s.lk l).lag ||| ownMask l (s.lanesIn l lnDETECT) }).exchangeCheck l)) ∧
    (∀ (l : Link), s.linkOn l = true → (s.lk l).failed = true → exec (.trainRestartTimeout l) s = .next
      (s.laneTrain l)) ∧
    (∀ (l : Link), s.linkOn l = true → s.fld .LANE_LINK_STS_STATE l = 1 → (∀ i ∈ lanesOf l, s.flag .LANE_STS_SIG i =
      false) → exec (.trainBeaconTick l true) s = .next ((s.setLk l { s.lk l with sending := true }).trainTx (lanesOf l) 0 0
      0) ∧ exec (.trainBeaconTick l false) s = .next ((s.setLk l { s.lk l with sending := false }).send (.laneIdle l))) ∧
    (∀ (idx : Lane), s.linkOn (linkOf idx) = true → s.fld .LANE_LINK_STS_STATE (linkOf idx) ≠ 1 → exec
      (.laneSignalDetect idx) s = .next (s.set .LANE_STS_SIG idx 1)) ∧
    (∀ (idx : Lane) (w : LaneLoss), s.linkOn (linkOf idx) = true → s.lane idx = lnACTIVE →
      (100 ≤ w.dark → exec (.laneLockLoss idx w) s = .next ((((s.set .LANE_STS_SIG idx 0).set .LANE_STS_CDR_LOCK idx (bit
        (s.flag .LANE_STS_CDR_LOCK idx && !(decide (300 < w.ppm) && decide (100 ≤ w.ppmTime))))).set .LANE_STS_BLOCK_LOCK
        idx (bit (s.flag .LANE_STS_BLOCK_LOCK idx && decide (w.headerErrs < 16)))).darn idx)) ∧
      (16 ≤ w.headerErrs → exec (.laneLockLoss idx w) s = .next ((((s.set .LANE_STS_SIG idx (bit (s.flag .LANE_STS_SIG idx &&
        decide (w.dark < 100)))).set .LANE_STS_CDR_LOCK idx (bit (s.flag .LANE_STS_CDR_LOCK idx && !(decide (300 < w.ppm) &&
        decide (100 ≤ w.ppmTime))))).set .LANE_STS_BLOCK_LOCK idx 0).darn idx)) ∧
      (300 < w.ppm → 100 ≤ w.ppmTime → exec (.laneLockLoss idx w) s = .next ((((s.set .LANE_STS_SIG idx (bit (s.flag
        .LANE_STS_SIG idx && decide (w.dark < 100)))).set .LANE_STS_CDR_LOCK idx 0).set .LANE_STS_BLOCK_LOCK idx (bit (s.flag
        .LANE_STS_BLOCK_LOCK idx && decide (w.headerErrs < 16)))).darn idx))) ∧
    (∀ (idx : Lane) (errs : Nat), s.linkOn (linkOf idx) = true → s.lane idx = lnACTIVE → s.fld .LANE_CTL_ERR_THR
      idx ≠ 0 → s.fld .LANE_CTL_ERR_THR idx ≤ errs → exec (.laneSyncErrWindow idx errs) s = .next ((s.count
      .LANE_ERR_CNT_SYNC_ERR idx errs).darn idx)) ∧
    (∀ (idx : Lane) (v : Bool), s.linkOn (linkOf idx) = true → exec (.laneForceDarnWrite idx v) s = .next
      (s.forceWrite idx v)) ∧
    (∀ (idx : Lane), s.linkOn (linkOf idx) = true → exec (.trialNow idx) s = .next (s.trialNow idx)) ∧
    (∀ (idx : Lane) (w : TrialWin), s.linkOn (linkOf idx) = true → s.linkUp (linkOf idx) = true → (s.port (linkOf
      idx)).rxLp = 0 →
      (s.lane idx = lnDARNED → s.mayTry idx = true → exec (.trialWindowEnd idx w) s = .next (s.trialStart idx)) ∧
      (s.lane idx = lnTRIAL → ((s.lk (linkOf idx)).adding &&& s.farBit idx) = 0 → s.winClean idx w = true → s.fld
        .LANE_STS_CLEAN idx < 2 → ∃ t, t = ((s.set .LANE_STS_SIG idx 1).set .LANE_STS_CDR_LOCK idx 1).set
        .LANE_STS_BLOCK_LOCK idx 1 ∧ exec (.trialWindowEnd idx w) s = .next ((t.set .LANE_STS_CLEAN idx (s.fld
        .LANE_STS_CLEAN idx + 1)).trialStart idx)) ∧
      (s.lane idx = lnTRIAL → ((s.lk (linkOf idx)).adding &&& s.farBit idx) = 0 → s.winClean idx w = true → 2 ≤ s.fld
        .LANE_STS_CLEAN idx → ∃ t, t = ((s.set .LANE_STS_SIG idx 1).set .LANE_STS_CDR_LOCK idx 1).set
        .LANE_STS_BLOCK_LOCK idx 1 ∧ exec (.trialWindowEnd idx w) s = .next (((t.setLk (linkOf idx)
        { t.lk (linkOf idx) with adding := (t.lk (linkOf idx)).adding ||| t.farBit idx }).lpExit (linkOf idx)).sendMarker
        (linkOf idx) 3 (t.farBit idx))))

/-- Lane markers, remaps and low power of a link that is up (R193 to R196, R202 to R206, R210, R246). -/
def Obligations.LaneMarkerComplete : Prop :=
  ∀ (s : State) (l : Link), s.linkOn l = true → s.linkUp l = true →
    (∀ (idx : Lane) (word skew : Nat) (b : MarkBlk), linkOf idx = l.val → s.lane idx ≠ lnOFF →
      (laneCtl word = .marker b → skew ≤ skewLimit l → exec (.markerRx idx (some word) skew) s = .next
        { s with laneMarks := nSet s.laneMarks idx 0 }) ∧
      (laneCtl word = .marker b → skewLimit l < skew → exec (.markerRx idx (some word) skew) s = .next (s.markerLate idx)) ∧
      (laneCtl word = .bad → ∃ t, t = s.count .LANE_ERR_CNT_MARKER_ERR idx ∧ (t.linkUp l = true → exec (.markerRx idx (some
        word) skew) s = .next (t.markerLate idx))) ∧
      exec (.markerRx idx none skew) s = .next (s.markerLate idx)) ∧
    (∀ (arg add rxok tx : Nat), s.stripeWanted l arg add rxok = some tx → exec (.darnReqRx l arg add rxok) s = .next
      (s.answerStripe l tx)) ∧
    (∀ (arg rxok darn tx : Nat), s.stripeWanted l darn arg rxok = some tx → exec (.addReqRx l arg rxok darn) s = .next
      (s.answerStripe l tx)) ∧
    (∀ (arg : Nat), s.fld .LANE_LINK_STS_TX_ACTIVE l - (s.fld .LANE_LINK_STS_TX_ACTIVE l &&& arg) ≠ 0 → arg ≠ 0 →
      s.stripeWanted l arg 0 0 = some (s.fld .LANE_LINK_STS_TX_ACTIVE l - (s.fld .LANE_LINK_STS_TX_ACTIVE l &&& arg))) ∧
    (∀ (arg rxok : Nat), (arg &&& rxok) % 2 ^ linkWidth l ≠ 0 → s.stripeWanted l 0 arg rxok = some (s.fld
      .LANE_LINK_STS_TX_ACTIVE l ||| ((arg &&& rxok) % 2 ^ linkWidth l))) ∧
    (∀ (active skew : Nat), exec (.stripeRx l active skew) s = .next (s.stripeTake l active skew)) ∧
    (s.flag .LANE_LINK_CTL_DOZE_EN l = true → (s.port l).rxLp = 0 → exec (.dozeMarkerRx l) s = .next (s.rxSleep l
      1)) ∧
    (s.deepOk l = true → (s.port l).rxLp = 0 → exec (.deepMarkerRx l) s = .next (s.rxSleep l 2)) ∧
    ((s.lk l).darning ≠ 0 → exec (.darnReqRepeat l) s = .next (s.sendMarker l 2 (s.lk l).darning)) ∧
    ((s.lk l).darning ≠ 0 → exec (.darnGiveUp l) s = .next (s.linkDown l)) ∧
    ((s.port l).txLp = 0 → exec (.periodicMarkerTx l) s = .next ((s.setLk l
      { s.lk l with mcount := ((s.lk l).mcount + 1) % 256 }).sendMarker l 0 0)) ∧
    (∀ (far : Bool), s.mayIdle l = true → (s.port l).txLp = 0 → s.flag .LANE_LINK_CTL_DOZE_EN l = true → (l.val = 16 ∧ far =
      true) ∨ (l.val ≠ 16 ∧ s.flag .ULK_FAR_DOZE_OK l = true ∧ s.fld .ULK_PM_CFG_DOZE_IDLE l ≠ 0) → exec (.dozeEntry l
      far) s = .next (s.txSleep l 1)) ∧
    (∀ (far : Bool), s.mayIdle l = true → (s.port l).txLp ≠ 2 → s.deepOk l = true → (l.val = 16 ∧ far = true) ∨ (l.val ≠ 16 ∧
      s.flag .ULK_FAR_DEEP_OK l = true ∧ s.fld .ULK_PM_CFG_DEEP_IDLE l ≠ 0) → exec (.deepEntry l far) s = .next ((s.lpExit
      l).txSleep l 2)) ∧
    (s.portWork l = true → exec (.lowPowerExit l) s = .next (s.lpExit l)) ∧
    (∀ (failed : Nat), exec (.lowPowerExitDone l failed) s = .next (s.rxExit l failed))

/-! ### Urone links and designs -/

/-- Bundles, acknowledgement, replay, credit, HELLO, reset (R205, R213 to R220, R243, R244, R249). -/
def Obligations.UroneLinkComplete : Prop :=
  ∀ s : State,
    (∀ (l : Link) (data : List Nat) (ctl : Nat), s.streamOpen l = true →
      (bundleGood data ctl = false → exec (.bundleRx l data ctl) s = .next (s.nakDue l)) ∧
      (bundleGood data ctl = true → ∃ t, t = s.ackRx l (fieldAt ctl 31 20) (ctl % 256 == ctBUNDLE_NAK) ∧ (t.urRuns l = true →
        fieldAt ctl 19 8 = (t.port l).e → exec (.bundleRx l data ctl) s = .next (t.bundleTake l data)))) ∧
    (∀ (l : Link) (word : Nat), s.streamOpen l = true → ctlGood word [] = true → word % 256 = ctACK_ONLY ∨ word % 256 =
      ctNAK_ONLY → exec (.ackNakOnlyRx l word) s = .next (s.ackRx l (fieldAt word 31 20) (word % 256 == ctNAK_ONLY))) ∧
    (∀ (l : Link), s.urRuns l = true → exec (.replayTimeout l) s = .next (s.replay l)) ∧
    (∀ (l : Link), s.urRuns l = true → exec (.nakHoldoffExpire l) s = .next (s.setPort l
      { s.port l with nakSent := false })) ∧
    (∀ (l : Link) (vc hdr data : Nat) (t : State), s.urRuns l = true → s.rxGives l (.flow vc hdr data) = some t →
      (l.val = 16 → exec (.flowRx l vc hdr data) s = .next (t.flowRx l vc hdr data)) ∧
      (l.val ≠ 16 → exec (.flowRx l vc hdr data) s = .next ((t.flowRx l vc hdr data).heldServe l))) ∧
    (∀ (l : Link), s.urRuns l = true → exec (.flowTx l true) s = .next (s.flowTx l 2) ∧ (s.mode ≠ .CONTAIN ∨ l.val = 16 →
      exec (.flowTx l false) s = .next (s.flowTx l 0))) ∧
    (∀ (p : Port) (version : Nat) (atomic seqAware dual dozeOk deepOk : Bool) (sbMin design : Nat) (twin : Option Nat) (t :
      State), s.urRuns p = true → s.rxGives p (.hello version atomic seqAware dual dozeOk deepOk sbMin design) = some t →
      s.fld .ULK_STS_STATE p ≠ 2 → version / 16 % 16 = 1 → exec (.helloRx p version atomic seqAware dual dozeOk deepOk sbMin
      design twin) s = .next (((t.twinShows p twin).helloTake p version atomic seqAware dual dozeOk deepOk sbMin
      design).heldServe p)) ∧
    (∀ (p : Port), s.fld .ULK_STS_STATE p = 1 → exec (.helloTimeout p) s = .next ((if (s.port p).minCredit = true then s else
      s.protoErr p 8).portDown p 5)) ∧
    (∀ (p : Port), s.domOn (linkDom p) = true → exec (.ulkReset p) s = .next (s.ulkReset p)) ∧
    (∀ (p : Port) (on : Bool), s.domOn (linkDom p) = true → exec (.ulkEnWrite p on) s = .next (s.ulkEnWrite p on))

/-- Responses, side-band lines, request lines and late notices of a port (R166, R229 to R242); a packet with no packet held
before it. -/
def Obligations.UronePortComplete : Prop :=
  ∀ (s : State) (p : Port),
    (∀ (tag status off : Nat) (last : Bool) (data : List Byte) (mask : Option Nat) (t : State), s.urRuns p = true →
      s.rxGives p (.response tag status off last data mask (s.tagBase p tag)) = some t → exec (.urResponseRx p tag status
      off last data mask) s = .next (t.urResponse p tag status off last data (poisOf mask)).starchSettle) ∧
    (s.urUp p = true → s.flag .ULK_SB_CFG_POLL_EN p = true → (s.port p).txLp ≠ 2 → (s.port p).rxLp ≠ 2 → (s.port p).pollOut
      = false → exec (.sbPollTick p) s = .next (s.sbPollNow p)) ∧
    (s.urUp p = true → s.flag .ULK_SB_CFG_POLL_EN p = true → (s.port p).txLp ≠ 2 → (s.port p).rxLp ≠ 2 → (s.port p).pollOut
      = true → exec (.sbPollTick p) s = .next (s.count .ULK_SB_SKIP_SKIP p)) ∧
    (∀ (id lines : Nat) (unsol : Bool) (t : State), s.urRuns p = true → s.fld .ULK_STS_STATE p ≠ 1 → (s.port p).held = [] →
      s.rxGives p (.sbState id unsol lines) = some t → exec (.sbStateRx p id unsol lines) s = .next ((t.rxFree p (.sbState id
      unsol lines)).sbTake p (lines % 2 ^ 64) unsol).starchSettle) ∧
    (s.urUp p = true → (s.port p).sbDirty = true → exec (.sbOutSend p) s = .next (s.sbSend p)) ∧
    (∀ (v : Nat), s.domOn (linkDom p) = true → exec (.ulkSbLatchWrite p v) s = .next (s.sbLatchWrite p v)) ∧
    (∀ (line : Fin 16) (count : Nat) (t : State), s.urRuns p = true → s.fld .ULK_STS_STATE p ≠ 1 → (s.port p).held = [] →
      s.rxGives p (.req line count) = some t → exec (.reqRx p line count) s = .next ((t.rxFree p (.req line count)).reqTake p
      line count).starchSettle) ∧
    (∀ (init seq status : Nat) (t : State), s.urRuns p = true → s.fld .ULK_STS_STATE p ≠ 1 → (s.port p).held = [] →
      s.rxGives p (.lateError init seq status) = some t → exec (.lateErrorRx p init seq status) s = .next ((t.rxFree p
      (.lateError init seq status)).lateTake p init seq status).starchSettle) ∧
    (∀ (line : Fin 16), s.urUp p = true → min 65535 (nGet (s.port p).served line) ≠ 0 → exec (.reqDoneSend p line) s = .next
      ((s.setPort p { s.port p with served := nSet (s.port p).served line (nGet (s.port p).served line - min 65535 (nGet
      (s.port p).served line)) }).urSend p (.reqDone line (min 65535 (nGet (s.port p).served line)))))

/-- A request of a design on a port that is UP, under a tag that is free, with no packet held before it, while the module leads
(R144, R223 to R228, R243): its credit is freed, it takes its tag and enters the module. -/
def Obligations.DesignRequestComplete : Prop :=
  ∀ (s t : State) (p : Port) (tag : Fin 4096), s.urRuns p = true → s.fld .ULK_STS_STATE p ≠ 1 → s.mode = .LEAD →
    (s.port p).held = [] → (s.port p).dreq.contains tag.val = false →
    (∀ (len : Nat) (addr : Fin 1099511627776) (priv x : Bool) (err : MemErr), spanOk addr len = true → s.rxGives p (.read tag
      len addr priv x) = some t → exec (.urReadRx p tag len addr priv x err) s = .next ((t.rxFree p (.read tag len addr priv
      x)).portEnter p tag { portReq p .read addr len [] priv x with err := err }).starchSettle) ∧
    (∀ (init seq : Nat) (addr : Fin 1099511627776) (retry priv x : Bool) (data : List Byte) (mask : Option Nat) (err : MemErr),
      spanOk addr data.length = true → s.rxGives p (.write tag init seq addr retry priv x data mask) = some t → exec
      (.urWriteRx p tag init seq addr retry priv x data mask err) s = .next ((t.rxFree p (.write tag init seq addr retry priv
      x data mask)).portEnter p tag { portReq p .write addr data.length data priv x with
        err := err, pois := (poisOf mask).filter fun i => decide (i < (addr.val % 64 + data.length + 63) / 64) }).starchSettle) ∧
    (∀ (op : AtomOp) (asz : Fin 4) (addr : Fin 1099511627776) (priv x : Bool) (ops : List Byte) (err : MemErr) (aop : Fin 16),
      aop.val = op.code → urAtomOk aop asz addr ops.length = true → s.rxGives p (.atomic tag aop asz addr priv x ops) = some
      t → exec (.urAtomicRx p tag aop asz addr priv x ops err) s = .next ((t.rxFree p (.atomic tag aop asz addr priv x
      ops)).portEnter p tag { portReq p (.atomic op) addr (aszBytes asz) ops priv x with err := err }).starchSettle) ∧
    (∀ (addr : Fin 1099511627776) (priv x : Bool), s.rxGives p (.lock tag addr priv x) = some t → exec (.urLockRx p tag addr
      priv x) s = .next ((t.rxFree p (.lock tag addr priv x)).portEnter p tag (portReq p .lock addr 1 [] priv
      x)).starchSettle) ∧
    (∀ (addr : Fin 1099511627776) (priv x : Bool), s.rxGives p (.unlock tag addr priv x) = some t → exec (.urUnlockRx p tag
      addr priv x) s = .next ((t.rxFree p (.unlock tag addr priv x)).portEnter p tag (portReq p .unlock addr 1 [] priv
      x)).starchSettle)

/-! ### DMA -/

/-- Writes of the DMA registers and doorbells (R251, R253, R259, R260, R265, R275, R282, R316). -/
def Obligations.DmaRegisterComplete : Prop :=
  ∀ s : State,
    (∀ (core : Option Core) (c : Chan), s.regOn .DMA_CH_CTL c = true → exec (.dmaChStart core c) s = .next
      (s.dmaStart c)) ∧
    (∀ (core : Option Core) (c : Chan), s.regOn .DMA_CH_CTL c = true → exec (.dmaChAbort core c) s = .next
      (s.dmaAbort c)) ∧
    (∀ (core : Option Core) (c : Chan), s.regOn .DMA_CH_CTL c = true → exec (.dmaChResume core c) s = .next
      (s.dmaResume c)) ∧
    (∀ (core : Option Core) (c : Chan), s.regOn .DMA_CH_CTL c = true → exec (.dmaChClear core c) s = .next
      (s.dmaClear c)) ∧
    (∀ (core : Option Core) (c : Chan) (v : BitVec 64), s.regOn .DMA_CH_CFG c = true → exec (.dmaChCfgWrite core c
      v) s = .next (s.dmaCfg c v.toNat 0xFFFFFFFFFFFFFFFF)) ∧
    (∀ (core : Option Core) (pf : Fin 3) (j : Fin 64) (v : BitVec 32), s.regOn .DMA_GRANT (64 * pf.val + j.val) =
      true → exec (.dmaGrantWrite core pf j v) s = .next (s.dmaGrant (64 * pf.val + j.val) v.toNat 0xFFFFFFFF)) ∧
    (∀ (core : Option Core) (x : Ctx), s.regOn .DMA_RING_CTL x = true → exec (.dmaRingResumeWrite core x) s = .next
      (s.ringResume x)) ∧
    (∀ (core : Option Core) (x : Ctx), s.regOn .DMA_RING_CTL x = true → (s.ringOf x).running = [] → exec
      (.dmaRingResetWrite core x) s = .next (((s.withLevels [x.val] fun s => s.ringReset x).mirVal .DMA_SQ_STS
      x).mirVal .DMA_CQ_PTR x)) ∧
    (∀ (f : Fn) (k : Fin 1024) (v : BitVec 64), f.val ≠ 0 → f.val < 4 ∨ k.val < 8 → s.hctlOn = true → s.linkOpen =
      true → exec (.doorbellWrite f k v) s = .next (s.submit (hostReq { fn := f, bar := .bar0, off := 256 * k }
      .write 8 (toBytes 8 v.toNat)) none).starchSettle)

/-- The engine: what its accesses return, dispatch, one cycle of a half, request lines, stops (R257 to R282). -/
def Obligations.DmaEngineComplete : Prop :=
  ∀ s : State,
    (∀ (x : Ctx) e, (s.dropRecDone (256 + x.val)).dmaDone.find? (fun e => e.ch == 256 + x.val && true) = some e →
      exec (.descFetchDone x) s = .next (State.ringTake
      { s.dropRecDone (256 + x.val) with dmaDone := (s.dropRecDone (256 + x.val)).dmaDone.erase e } x e)) ∧
    (∀ (x : Ctx), s.ho = .none → exec (.ringDispatch x) s = .next (s.ringDispatch x)) ∧
    (∀ (half : Fin 2) (err : MemErr), exec (.dmaBeatIssue half err) s = .next (s.dmaCycle half err).starchSettle) ∧
    (∀ (line : Fin 256) e, s.domOn 15 = true → s.chans.filter (fun e => s.chState e.1 == chWAIT && dLine e.2.words
      == line.val) = [e] → exec (.dmaReqTake line) s = .next (s.takeUnit e.1 e.2)) ∧
    (∀ (c : Chan) e, (s.dropRecDone c).dmaDone.find? (fun e => e.ch == c.val && decide (tagKind e.tag < 2)) = some
      e → exec (.dmaBeatReadDone c) s = .next ((State.readResult
      { s.dropRecDone c with dmaDone := (s.dropRecDone c).dmaDone.erase e } c e).chSettle c)) ∧
    (∀ (c : Chan) e, (s.dropRecDone c).dmaDone.find? (fun e => e.ch == c.val && tagKind e.tag == 2) = some e → exec
      (.dmaBeatArrived c) s = .next ((State.writeResult
      { s.dropRecDone c with dmaDone := (s.dropRecDone c).dmaDone.erase e } c e).chSettle c)) ∧
    (∀ (c : Chan) r, s.chan c = some r → r.stop ≠ .hard → exec (.dmaSoftStopDone c) s = .next ((s.chStopEnd
      c).stopSettle)) ∧
    (∀ (c : Chan) r, s.chan c = some r → r.stop = .hard → exec (.dmaHardAbortDone c) s = .next ((s.chStopEnd
      c).stopSettle))

/-! ### Interrupts -/

/-- Sources, masks, routes, cores and delivery (R283 to R309). -/
def Obligations.InterruptComplete : Prop :=
  ∀ s : State,
    (∀ c v, s.regOn .IRQ_DOORBELL 0 = true → exec (.irqDoorbellWrite (.core c) v) s = .next (s.doorbell (.core c)
      v.toNat).2) ∧
    (∀ (idx : Src), s.domOn 1 = true → exec (.irqRaise idx) s = .next (s.raise idx)) ∧
    (∀ (idx : Src), s.domOn 1 = true → 0x2800 ≤ idx.val → exec (.irqLevelFall idx) s = .next (s.dbDeassert idx)) ∧
    (∀ (c : Core) (al : Fin 3) (off : Fin 65536) (data : List Byte), exec (.irqArrayWrite c al off data) s = .next
      (s.enterReq
      { who := .core c, kind := .write, addr := pendBase + al.val * 0x100000000 + off.val, len := data.length, data := data, priv := true })) ∧
    (∀ (core : Option Core) (n : Fin 512) (v : BitVec 32), s.regOn .IRQ_PEND_SET n = true → exec (.irqPendSet core
      n v) s = .next (s.aliasWrite (byWho core).master 1 (pendBase + 4 * n) (toBytes 4 v.toNat) [] [] .clean)) ∧
    (∀ (core : Option Core) (n : Fin 512) (v : BitVec 32), s.regOn .IRQ_PEND_CLR n = true → exec (.irqPendClr core
      n v) s = .next (s.aliasWrite (byWho core).master 2 (pendBase + 4 * n) (toBytes 4 v.toNat) [] [] .clean)) ∧
    (∀ (core : Option Core) (n : Fin 512) (v : BitVec 32), s.regOn .IRQ_EN_SET n = true → exec (.irqEnSet core n v)
      s = .next (s.aliasWrite (byWho core).master 1 (enBase + 4 * n) (toBytes 4 v.toNat) [] [] .clean)) ∧
    (∀ (core : Option Core) (n : Fin 512) (v : BitVec 32), s.regOn .IRQ_EN_CLR n = true → exec (.irqEnClr core n v)
      s = .next (s.aliasWrite (byWho core).master 2 (enBase + 4 * n) (toBytes 4 v.toNat) [] [] .clean)) ∧
    (∀ (core : Option Core) (n : Fin 512) (v : BitVec 32), s.regOn .IRQ_STORM n = true → exec (.irqStormWrite core
      n v) s = .next (s.stormClear n v.toNat)) ∧
    (∀ (core : Option Core) (idx : Src) (v : BitVec 64), s.regOn .IRQ_ROUTE idx = true → exec (.irqRouteWrite core
      idx v) s = .next (((s.regPlain .IRQ_ROUTE idx v.toNat 0xFFFFFFFFFFFFFFFF).mirVal .IRQ_ROUTE idx).irqEval)) ∧
    (∀ (c : Core), exec (.irqCoreClaim c) s = .next (s.enterReq
      { who := .core c, kind := .read, addr := regAddr .IRQ_CORE_CLAIM c, len := 4, priv := true })) ∧
    (∀ (core : Option Core) (c : Core) (idx : Src), s.regOn .IRQ_CORE_COMPLETE c = true → exec (.irqCoreComplete
      core c idx) s = .next (s.irqComplete c idx)) ∧
    (∀ (core : Option Core) (c : Core) (thr : Fin 16), s.regOn .IRQ_CORE_CTL c = true → exec (.irqCoreThrWrite core
      c thr) s = .next ((s.set .IRQ_CORE_CTL_THR c thr).irqEval)) ∧
    (∀ (f : Fn) (e : Fin 2048) i t, s.msixSrcs f e = i :: t → exec (.msixMessageSend f e) s = .next (s.msixSend f e
      i t)) ∧
    (∀ (idx : Src) t, s.presented idx = some t → t.kind = 4 → s.localFirst t = some idx.val → exec (.localIrqDelivery idx)
      s = .next (s.localSend idx t)) ∧
    (s.domOn 1 = true → exec .stormWindowEnd s = .next s.stormEnd)

/-! ### Sharing -/

/-- The governor's epochs, windows and steps, share updates, context bindings, spilled requests (R315 to R334). -/
def Obligations.GovernorComplete : Prop :=
  ∀ s : State,
    (s.domOn 1 = true → exec .govEpoch s = .next (State.govFlush (State.stage State.deliver)
      s.govEpoch).starchSettle) ∧
    (s.domOn 1 = true → exec .govWindowEnd s = .next s.govWindow) ∧
    (s.domOn 1 = true → exec .govStep s = .next s.govStep) ∧
    (∀ (core : Option Core) (acct : Fin 8192), s.regOn .SHR_UPD_CMD 0 = true → s.flag .SHR_UPD_STS_BUSY = false →
      exec (.shrUpdCmd core acct) s = .next ((s.set .SHR_UPD_CMD_ACCT 0 acct).shrUpdCmd acct (s.fld
      .SHR_UPD_DATA_SHARE, s.fld .SHR_UPD_RES_MASK))) ∧
    (s.domOn 1 = true → exec .shrUpdDone s = .next s.shrUpdDone) ∧
    (∀ (core : Option Core) (x : Ctx) (v : BitVec 32), s.regOn .SHR_CTX_BIND x = true → exec (.shrCtxBindWrite core
      x v) s = .next (s.ctxBind x (v.toNat % 2 == 1) (v.toNat / 2 % 2 == 1) (v.toNat / 4 % 256) (v.toNat / 1024 %
      4096) (v.toNat / 4194304 % 2 == 1))) ∧
    (∀ (f : Fn) r, s.spill.find? (fun r => r.fn == f.val) = some r → s.inboundUse f = 0 → exec (.spillReturn f) s =
      .next (s.unspill r))

/-! ### Guard and debug -/

/-- The guard's update unit and epochs, and debug access (R352, R353, R357, R358). -/
def Obligations.GuardDebugComplete : Prop :=
  ∀ s : State,
    (∀ (core : Option Core) (set region : Fin 32), s.regOn .GRD_UPD_CMD 0 = true → s.flag .GRD_UPD_STS_BUSY = false
      → exec (.grdUpdCmd core set region) s = .next (((s.set .GRD_UPD_CMD_REGION 0 region).set .GRD_UPD_CMD_SET 0
      set).grdCmd set region core.isSome)) ∧
    (s.domOn 14 = true → exec .grdUpdDone s = .next s.grdCommit) ∧
    (∀ (core : Option Core), s.regOn .GRD_EPOCH 0 = true → exec (.grdEpochAdvance core) s = .next s.grdAdvance) ∧
    (s.domOn 14 = true → exec .grdEpochAdvanceApply s = .next s.grdAdvanceApply) ∧
    (∀ (core : Option Core) (tag : Nat), exec (.grdEpochDrainRead core tag) s = .next (s.readBy core tag 0x400018
      4)) ∧
    (∀ (late : Bool), exec (.grdEpochDrainReturn late) s = .next (s.grdDrainReturn late)) ∧
    (∀ (addr : Fin 281474976710656) (len : Nat) (err : MemErr), s.domOn 0 = true → s.mode ≠ .OFF → s.fld
      .SEC_LIFECYCLE_STATE ≠ lcPRODUCTION → exec (.debugAccess addr [] len err) s = .next (s.enterReq
      { who := .core jtag, kind := .read, addr := addr, len := len, data := [], priv := true, err := err })) ∧
    (s.regOn .DBG_CTL 0 = true → exec .relock s = .next (s.set .DBG_STS_OPEN 0 0))

/-! ### Link security -/

/-- DOE discovery and SPDM with firmware running, in PRODUCTION or RETURNED and with algorithms agreed (R359 to R361), and the
requests inside an open session (R360 to R366): what is answered, and the stage, the sessions and the keys of the connection. -/
def Obligations.SpdmComplete : Prop :=
  ∀ s : State, s.fwReady = true →
    (s.spdmFull = true → s.sc.spdmStage = 3 →
      (∀ (index : Nat), index < 3 → exec (.doeDiscovery index) s = .next (s.doe none 0 [0x0001, index, (index + 1) %
        3])) ∧
      exec .getVersion s = .next (State.doe { s with sc.spdmStage := 1, sc.sessions := [] } none 0x04 [0x11, 0x12]) ∧
      exec .getCapabilities s = .next (State.doe { s with sc.spdmStage := 3 } none 0x61 [16, 0x62F6]) ∧
      (∀ (sig hash dhe aead : Bool), exec (.negotiateAlgorithms sig hash dhe aead) s = .next (State.doe
        { s with sc.spdmStage := 3 } none 0x63 [bit sig, bit hash, bit dhe, bit aead])) ∧
      exec .getDigests s = .next ((s.drawBytes 96).2.doe none 0x01 [3] (s.drawBytes 96).1) ∧
      (∀ (slot off len : Nat), slot < 2 → exec (.getCertificate slot off len) s = .next ((s.drawBytes (min len
        1024)).2.doe none 0x02 [slot, off, (s.drawBytes (min len 1024)).1.length] (s.drawBytes (min len 1024)).1)) ∧
      (∀ (slot : Nat), slot < 2 → exec (.challenge slot) s = .next ((s.drawBytes 96).2.doe none 0x03 [slot]
        (s.drawBytes 96).1)) ∧
      exec (.getMeasurements 0 false) s = .next (s.doe none 0x60 [0, 5]) ∧
      exec (.getMeasurements 4 false) s = .next (s.doe none 0x60 [1, 4] (toBytes 1 (s.fld .SEC_LIFECYCLE_STATE) ++
        toBytes 1 (s.fld .DBG_STS_OPEN))) ∧
      (∀ (slot : Nat), slot < 2 → s.sc.sessions.length < 4 → exec (.keyExchange slot) s = .next (State.doe
        { (s.drawBytes 96).2 with sc.sessions := (s.drawBytes 96).2.sc.sessions ++ [{ id := s.sc.nextSession }], sc.nextSession := s.sc.nextSession + 1 }
        none 0x64 [s.sc.nextSession, slot] (s.drawBytes 96).1))) ∧
    (∀ (id : Nat) (e : SpdmSession), s.session id = some e → e.open_ = true →
      exec (.finish id true) s = .next ((s.setSession { e with open_ := true }).doe (some id) 0x65 []) ∧
      exec (.spdmHeartbeat id) s = .next (s.doe (some id) 0x68 []) ∧
      (∀ (op : Nat), op = 1 ∨ op = 2 → exec (.keyUpdate id op) s = .next ((s.setSession
        { e with keyGen := e.keyGen + 1 }).doe (some id) 0x69 [op])) ∧
      (exec (.endSession id) s = .next (State.doe { s with sc.sessions := s.sc.sessions.filter fun e => e.id != id }
        (some id) 0x6C [])) ∧
      (exec (.ideKmQuery id) s = .next (s.doe (some id) 0x7E ((List.range 9).flatMap fun n => [bit (s.ideEn n),
        s.ideId n, s.fld .SEC_IDE_STS_STATE n]))) ∧
      (∀ (stream kset dir sub key : Nat), ideValid stream kset dir sub = true → nGet s.sc.ideGo (ideSub stream dir
        sub) ≠ kset + 1 → exec (.keyProg id stream kset dir sub key) s = .next (State.doe
        { s with sc.ideKeys := nSet s.sc.ideKeys (ideKey stream kset dir sub) (key + 1) } (some id) 0x7E [3, 0])) ∧
      (∀ (stream kset dir sub : Nat), ideValid stream kset dir sub = true → nGet s.sc.ideKeys (ideKey stream kset dir
        sub) ≠ 0 → exec (.kSetGo id stream kset dir sub) s = .next ((State.ideSettle (State.set
        { s with sc.ideGo := nSet s.sc.ideGo (ideSub stream dir sub) (kset + 1) } (if dir = 1 then
        .SEC_IDE_STS_TX_KSET else .SEC_IDE_STS_RX_KSET) stream kset) stream).doe (some id) 0x7E [6, 0])) ∧
      (∀ (stream kset dir sub : Nat), ideValid stream kset dir sub = true → nGet s.sc.ideGo (ideSub stream dir sub) =
        kset + 1 → exec (.kSetStop id stream kset dir sub) s = .next ((State.ideInsecure
        { s with sc.ideKeys := nSet s.sc.ideKeys (ideKey stream kset dir sub) 0 } stream).doe (some id) 0x7E [6, 0])))

/-- TDISP of the TDI of a function in an open session (R366 to R368). -/
def Obligations.TdispComplete : Prop :=
  ∀ (s : State) (id : Nat) (e : SpdmSession) (f : Fn), s.fwReady = true → s.session id = some e → e.open_ = true → f.val ≠ 0 → s.fnState f ≠ fnDISABLED →
    exec (.getTdispVersion id f) s = .next (s.tdisp id 0x01 [1, 0x10]) ∧
    exec (.getTdispCapabilities id f) s = .next (s.tdisp id 0x02 [0x7F, 0]) ∧
    (∀ (stream : Nat), s.fld .SEC_TDI_STATE f = tdiUNLOCKED → stream ≠ 0 → stream ≤ 8 → s.fld .SEC_IDE_STS_STATE
      stream = 2 → s.fnState f = fnACTIVE → exec (.lockInterface id f stream) s = .next (s.tdiLock id f stream)) ∧
    (s.tdiHeld f = true → exec (.getDeviceInterfaceReport id f) s = .next (s.tdisp id 0x04 (s.tdiReport f))) ∧
    exec (.getDeviceInterfaceState id f) s = .next (s.tdisp id 0x05 [s.fld .SEC_TDI_STATE f]) ∧
    (∀ (nonce : Nat), s.fld .SEC_TDI_STATE f = tdiLOCKED → (s.sc.tdiNonce.any fun e => e.1 == f.val && e.2 ==
      nonce) = true → exec (.startInterface id f nonce) s = .next (State.tdisp
      ({ s with sc.tdiNonce := smErase s.sc.tdiNonce f.val }.set .SEC_TDI_STATE f tdiRUN) id 0x06 [])) ∧
    (s.fld .SEC_TDI_STATE f ≠ tdiERROR → exec (.stopInterface id f) s = .next ((s.tdiUnlock f).irqEval.tdisp id
      0x07 []))

/-! ### The pair -/

/-- Seam packets of the twin while the Seam link layer is UP, each with its credit freed and Starch settled after it; the
side-band lines, heartbeats missed, and the handover as this module starts it (R390 to R402, R406). -/
def Obligations.PairComplete : Prop :=
  ∀ s : State,
    (∀ (version mver mode : Nat) (leading : Bool) (fw serial : Nat) (far : List (Nat × Nat)) (t : State), s.urUp 16 = true →
      s.rxGives 16 (.seam (.hello version mver mode leading fw serial)) = some t → exec (.seamHelloRx version mver mode
      leading fw serial far) s = .next (State.seamHello { t.rxFree 16 (.seam (.hello version mver mode leading fw
      serial)) with twinFar := far } mver mode leading fw serial).hoFlush.starchSettle) ∧
    (s.urUp 16 = true → exec .heartbeatTx s = .next (State.seamSend { s with hbCount := (s.hbCount + 1) % 256 } (.heartbeat
      s.hbCount s.leading (s.mode == .CONTAIN) (s.fld .SEM_STS_SYNC) (s.fld .SEM_MSEQ_TX)))) ∧
    (∀ (count : Nat) (leading contained : Bool) (sync mseq : Nat) (t : State), s.urUp 16 = true → s.rxGives 16 (.seam
      (.heartbeat count leading contained sync mseq)) = some t → exec (.heartbeatRx count leading contained sync mseq) s =
      .next ((t.rxFree 16 (.seam (.heartbeat count leading contained sync mseq))).hbTake leading contained
      sync).starchSettle) ∧
    (∀ (rtype mseq arg : Nat) (payload : List Nat) (t : State), s.urUp 16 = true → s.rxGives 16 (.seam (.mirror rtype mseq
      arg payload)) = some t → exec (.mirrorRx rtype mseq arg payload) s = .next ((t.rxFree 16 (.seam (.mirror rtype mseq arg
      payload))).mirrorRx rtype mseq arg payload).starchSettle) ∧
    (∀ (mseq : Nat) (t : State), s.urUp 16 = true → s.rxGives 16 (.seam (.mirrorAck mseq)) = some t → exec (.mirrorAckRx
      mseq) s = .next ((t.rxFree 16 (.seam (.mirrorAck mseq))).mirrorAckRx mseq).starchSettle) ∧
    (∀ (mseq : Nat) (t : State), s.urUp 16 = true → s.rxGives 16 (.seam (.handover 1 mseq)) = some t → exec (.handoverRx 1
      mseq) s = .next ((t.rxFree 16 (.seam (.handover 1 mseq))).hoOffer mseq).starchSettle) ∧
    (∀ (t : State), s.urUp 16 = true → s.rxGives 16 (.seam (.pairCtl 2)) = some t → exec (.pairCtlRx 2) s = .next ((t.rxFree
      16 (.seam (.pairCtl 2))).twinLost 3).hoFlush.starchSettle) ∧
    exec .heartbeatMiss s = .next s.hbMissed.hoFlush ∧
    (s.mode = .LEAD ∨ s.mode = .FOLLOW ∨ s.mode = .CONTAIN → exec .pairAliveToggle s = .next
      ({ s with mg.aliveOut := !s.mg.aliveOut }.send (.pairAlive (!s.mg.aliveOut)))) ∧
    (s.mode ≠ .OFF → exec .pairAliveEdge s = .next (s.set .SEM_STS_TWIN_ALIVE 0 1)) ∧
    (s.mode ≠ .OFF → exec .aliveWinExpire s = .next ((s.set .SEM_STS_TWIN_ALIVE 0 0).lossDecide).hoFlush) ∧
    (s.mode = .LEAD → s.flag .PWR_WAKE_EN_TWIN = false → exec (.twinPresentChange true) s = .next (s.set
      .SEM_STS_TWIN_PRESENT 0 1).seamPower) ∧
    (∀ (high : Bool), exec (.pairRoleChange high) s = .next (s.set .SEM_STS_TWIN_LEADS 0 (bit high))) ∧
    (∀ (core : Option Core), s.regOn .SEM_CTL 0 = true → exec (.semCtlHandover core) s = .next s.hoStart.2) ∧
    (∀ (core : Option Core), s.regOn .SEM_CTL 0 = true → exec (.semCtlLeave core) s = .next s.leavePair.hoFlush) ∧
    (∀ (core : Option Core), s.regOn .SEM_CTL 0 = true → exec (.semCtlSnap core) s = .next s.semSnap) ∧
    (s.ho = .drain → s.mode = .LEAD → s.hoDrained = true → exec .hoDrainDone s = .next (State.seamSend { s with ho := .offer }
      (.handover 1 (s.fld .SEM_MSEQ_TX)))) ∧
    (s.ho = .drain → exec .hoDrainTimeout s = .next ((s.seamSend (.handover 3 0)).hoFail).hoFlush)

/-! ### Mailboxes -/

/-- The mailbox control unit as an owner and firmware use it (R410 to R417). -/
def Obligations.MailboxUnitComplete : Prop :=
  ∀ s : State, s.domOn 1 = true →
    (∀ (m : Fin 2109), m.val ≠ 0 → s.mbxState m = 0 ∨ s.mbxState m = 3 → s.flag .MBX_CFG_EN = true → exec (.mbxPost
      m) s = .next (s.mbxPost m)) ∧
    (∀ (m : Fin 2109), m.val ≠ 0 → s.mbxState m = 3 → exec (.mbxRelease m) s = .next (s.mbxChange m fun s => s.set
      .MBX_MB_CONTROL m (mbxWord 0 false (s.mbxGen m) (s.mbxNotify m)))) ∧
    (∀ (m : Fin 2109), m.val ≠ 0 → s.mbxState m = 2 → exec (.mbxCancel m) s = .next (s.set .MBX_MB_CONTROL m
      (mbxWord 2 true (s.mbxGen m) (s.mbxNotify m)))) ∧
    (∀ (c : Core), exec (.mbxClaim c) s = .next (s.enterReq
      { who := .core c, kind := .read, addr := regAddr .MBX_CLAIM 0, len := 4, priv := true })) ∧
    (∀ (m : Fin 2109), s.mbxState m = 2 → cmdOpcodes.contains (s.mbxOp m) = true → exec (.mbxDone m) s = .next
      (s.mbxFinish m))

/-- A command that firmware begins (R414, R416, R419) and that holds good parameters ends OK with its effect and response: the
general commands, functions and slices (R420, R421). -/
def Obligations.GeneralCommandComplete : Prop :=
  ∀ (s : State) (m : Fin 2109) (c : Cmd) (tx : Nat), c = s.cmdAt m → tx = s.fld .SEM_MSEQ_TX →
    (s.begins m { op := 0x0001, who := whoAll, hi := 4032 } → exec (.nop m) s = .next (s.cmdDone
      { op := 0x0001, who := whoAll, hi := 4032 } m tx 0 0 c.pay)) ∧
    (s.begins m { op := 0x0002, who := whoAll, free := true } → exec (.getInfo m) s = .next (s.cmdDone
      { op := 0x0002, who := whoAll, free := true } m tx 0 0 (toBytes 2 0x0100 ++ toBytes 2 0x0D03 ++ toBytes 4
      s.fwVer ++ toBytes 1 s.mode.code ++ toBytes 1 (s.fld .SEM_STS_ROLE) ++ toBytes 2 c.m ++ toBytes 2 c.who))) ∧
    (s.begins m (CmdRule.len { op := 0x0101, who := whoFn, free := true } 2) → c.n 0 2 = 0xFFFF → c.who < 2052 →
      exec (.fnQuery m) s = .next (s.cmdDone (CmdRule.len { op := 0x0101, who := whoFn, free := true } 2) m tx 0 0
      (s.rspReg 4 .FN_ID c.who ++ s.rspReg 4 .FN_STS c.who ++ s.rspReg 4 .FN_RES c.who ++ toBytes 4 (s.funcState
      c.who)))) ∧
    (∀ f a n, s.begins m (CmdRule.len { op := 0x0102, mir := true } 6) → c.n 0 2 = f → c.n 2 2 = a → c.n 4 2 = n →
      f < 2052 → a + n ≤ 4096 → s.resOverlap f a n = false → n ≤ 8 → s.fld .FN_RES_CTX_COUNT f = 0 → exec (.fnSetRes
      m) s = .next ((s.cmdPut c .FN_RES f [(.FN_RES_FIRST_CTX, a), (.FN_RES_CTX_COUNT, n)]).cmdDone (CmdRule.len
      { op := 0x0102, mir := true } 6) m tx 0 0 [])) ∧
    (∀ k f pasid, s.begins m (CmdRule.len { op := 0x0103, mir := true } 8) → c.n 0 1 = k → c.n 2 2 = f → c.n 4 4 =
      pasid → f ≠ 0 → f < 2052 → pasid < 1048576 → s.listed .FN_SLICE_VALID = [] → s.flag .FN_SLICE_VALID k = false
      → s.tdiHeld f = false → exec (.sliceBind m) s = .next ((s.cmdPut c .FN_SLICE k [(.FN_SLICE_VALID, 1),
      (.FN_SLICE_PRIV_OK, c.n 1 1 % 2), (.FN_SLICE_EXEC_OK, c.n 1 1 / 2 % 2), (.FN_SLICE_FUNC, f), (.FN_SLICE_PASID,
      pasid)]).bdtRefresh.cmdDone (CmdRule.len { op := 0x0103, mir := true } 8) m tx 0 0 [])) ∧
    (∀ k, s.begins m (CmdRule.len { op := 0x0104, mir := true } 1) → c.n 0 1 = k → s.tdiHeld (s.fld .FN_SLICE_FUNC
      k) = false → exec (.sliceUnbind m) s = .next ((s.cmdPut c .FN_SLICE k [(.FN_SLICE_VALID,
      0)]).bdtRefresh.cmdDone (CmdRule.len { op := 0x0104, mir := true } 1) m tx 0 0 [])) ∧
    (∀ f, s.begins m (CmdRule.len { op := 0x0105, mir := true } 3) → c.n 0 2 = f → f < 2052 → c.n 2 1 = 1 → exec
      (.fnLock m) s = .next ((s.cmdPut c .FN_CTL f [(.FN_CTL_PROV_LOCK, 1)]).cmdDone (CmdRule.len
      { op := 0x0105, mir := true } 3) m tx 0 0 [])) ∧
    (s.begins m (CmdRule.len { op := 0x0106 } 6) → vfTotalsOk (c.n 0 2) (c.n 2 2) (c.n 4 2) = true → exec (.vfTotal
      m) s = .next (State.cmdDone ((s.setVfTotal (c.n 0 2, c.n 2 2, c.n 4 2)).evCommit (overlay s.evBuffer.1 0x14
      c.pay) (max s.evBuffer.2 0x1A)).2 (CmdRule.len { op := 0x0106 } 6) m tx 0 0 []))

/-- Contexts and rings (R422). -/
def Obligations.ContextCommandComplete : Prop :=
  ∀ (s : State) (m : Fin 2109) (c : Cmd) (tx : Nat) (x : Nat), c = s.cmdAt m → tx = s.fld .SEM_MSEQ_TX →
    (s.begins m (CmdRule.len { op := 0x0201, mir := true } 6) → c.n 0 2 = x → x < 4096 → c.n 2 2 < 2052 → s.bindBad
      x true ((c.n 5 1).testBit 0) (c.n 4 1) (c.n 2 2) ((c.n 5 1).testBit 1) = false → exec (.ctxBind m) s = .next
      ((s.cmdPut c .SHR_CTX_BIND x [(.SHR_CTX_BIND_VALID, 1), (.SHR_CTX_BIND_SLICE_EN, bit ((c.n 5 1).testBit 0)),
      (.SHR_CTX_BIND_SLICE, c.n 4 1), (.SHR_CTX_BIND_FUNC, c.n 2 2), (.SHR_CTX_BIND_CHARGE_IN, bit ((c.n 5
      1).testBit 1))]).bdtRefresh.cmdDone (CmdRule.len { op := 0x0201, mir := true } 6) m tx 0 0 [])) ∧
    (s.begins m (CmdRule.len { op := 0x0202, mir := true } 2) → c.n 0 2 = x → x < 4096 → s.bindBad x false (s.flag
      .SHR_CTX_BIND_SLICE_EN x) (s.fld .SHR_CTX_BIND_SLICE x) (s.fld .SHR_CTX_BIND_FUNC x) (s.flag
      .SHR_CTX_BIND_CHARGE_IN x) = false → exec (.ctxUnbind m) s = .next ((s.cmdPut c .SHR_CTX_BIND x
      [(.SHR_CTX_BIND_VALID, 0), (.SHR_CTX_BIND_SLICE_EN, bit (s.flag .SHR_CTX_BIND_SLICE_EN x)),
      (.SHR_CTX_BIND_SLICE, s.fld .SHR_CTX_BIND_SLICE x), (.SHR_CTX_BIND_FUNC, s.fld .SHR_CTX_BIND_FUNC x),
      (.SHR_CTX_BIND_CHARGE_IN, bit (s.flag .SHR_CTX_BIND_CHARGE_IN x))]).bdtRefresh.cmdDone (CmdRule.len
      { op := 0x0202, mir := true } 2) m tx 0 0 [])) ∧
    (s.begins m (CmdRule.len { op := 0x0203, who := whoFn, mir := true } 24) → s.cmdCtx c (c.n 0 2) = some x →
      s.flag .SHR_CTX_BIND_VALID x = true → c.cls < 2 ∨ s.fld .SHR_CTX_BIND_FUNC x = c.who → setupBad c = none →
      s.ctxRuns x = false → exec (.ctxSetup m) s = .next ((s.ctxSetup c x).2.cmdDone (CmdRule.len
      { op := 0x0203, who := whoFn, mir := true } 24) m tx 0 0 (s.ctxSetup c x).1)) ∧
    (s.begins m (CmdRule.len { op := 0x0204, who := whoFn, free := true } 2) → s.cmdCtx c (c.n 0 2) = some x → exec
      (.ctxQuery m) s = .next (s.cmdDone (CmdRule.len { op := 0x0204, who := whoFn, free := true } 2) m tx 0 0
      ((List.range 4).flatMap (fun w => toBytes 8 (s.ctxStatus x w)) ++ s.rspReg 4 .DMA_SQ_STS x ++ [0, 0, 0, 0] ++
      s.rspReg 8 .DMA_CQ_PTR x))) ∧
    (s.begins m (CmdRule.len { op := 0x0205, who := whoFn } 2) → s.cmdCtx c (c.n 0 2) = some x → s.fld
      .DMA_SQ_STS_STATE x = 3 → exec (.ringResume m) s = .next ((s.cmdPut c .DMA_RING_CTL x [(.DMA_RING_CTL_RESUME,
      1)]).cmdDone (CmdRule.len { op := 0x0205, who := whoFn } 2) m tx 0 0 [])) ∧
    (s.begins m (CmdRule.len { op := 0x0206, who := whoFn, mir := true } 2) → s.cmdCtx c (c.n 0 2) = some x →
      s.ctxRuns x = false → exec (.ringReset m) s = .next ((s.cmdPut c .DMA_RING_CTL x [(.DMA_RING_CTL_RESET,
      1)]).cmdDone (CmdRule.len { op := 0x0206, who := whoFn, mir := true } 2) m tx 0 0 []))

/-- Windows, epochs and guard regions (R423). A window or guard command runs its unit to the end when nothing holds the unit. -/
def Obligations.WindowCommandComplete : Prop :=
  ∀ (s : State) (m : Fin 2109) (c : Cmd) (tx : Nat), c = s.cmdAt m → tx = s.fld .SEM_MSEQ_TX →
    (∀ k t u, k = CmdRule.len { op := 0x0301, mir := true } 40 → s.begins m k → c.n 0 4 < 524288 → s.flag
      .XLT_UPD_STS_BUSY = false → s.winLoad c = t → t.flag .XLT_UPD_STS_BUSY = true → t.xltCommit.xltInvalDone = u →
      u.flag .XLT_UPD_STS_BUSY = false → exec (.winWrite m) s = .next (u.bdtRefresh.cmdDone k m tx 0 (0x8000 * bit
      (u.flag .XLT_UPD_STS_UNMIRRORED)) [])) ∧
    (∀ k, k = CmdRule.len { op := 0x0302 } 4 → s.begins m k → c.n 0 4 < 524288 → exec (.winRead m) s = .next
      (s.cmdDone k m tx 0 0 ((s.entry (c.n 0 4)).flatMap (toBytes 8)))) ∧
    (∀ k op t u, k = CmdRule.len { op := 0x0303 } 5 → s.begins m k → c.n 0 4 < 524288 → c.n 4 1 = op → 1 ≤ op → op
      ≤ 3 → s.flag .XLT_UPD_STS_BUSY = false → s.winCmd c (c.n 0 4) op = t → t.flag .XLT_UPD_STS_BUSY = true →
      t.xltCommit.xltInvalDone = u → u.flag .XLT_UPD_STS_BUSY = false → exec (.winInval m) s = .next (u.cmdDone k m
      tx 0 (0x8000 * bit (u.flag .XLT_UPD_STS_UNMIRRORED)) [])) ∧
    (∀ k t, k = CmdRule.len { op := 0x0304 } 1 → s.begins m k → c.n 0 1 = 0 → s.cmdPut c .XLT_EPOCH 0
      [(.XLT_EPOCH_ADVANCE, 1)] = t → drained t.xltLive (t.fld .XLT_EPOCH_CURRENT) (t.fld .XLT_EPOCH_CURRENT) = true
      → exec (.epochSync m false) s = .next (t.cmdDone k m tx 0 0 (toBytes 2 (t.fld .XLT_EPOCH_CURRENT) ++ toBytes 2
      (oldestLive t.xltLive (t.fld .XLT_EPOCH_CURRENT)) ++ [1]))) ∧
    (∀ k t u, k = CmdRule.len { op := 0x0401, mir := true } 16 → s.begins m k → c.n 0 1 < 32 → c.n 1 1 < 32 →
      s.flag .GRD_UPD_STS_BUSY = false → s.grdLoad c = t → t.flag .GRD_UPD_STS_BUSY = true → t.grdCommit = u →
      u.flag .GRD_UPD_STS_BUSY = false → exec (.grdWrite m) s = .next (u.cmdDone k m tx 0 (0x8000 * bit (u.flag
      .GRD_UPD_STS_UNMIRRORED)) [])) ∧
    (∀ k, k = CmdRule.len { op := 0x0402 } 2 → s.begins m k → c.n 0 1 ≤ 18 → c.n 1 1 < 32 → exec (.grdRead m) s =
      .next (s.cmdDone k m tx 0 0 (toBytes 8 (s.grdWord (c.n 0 1) (c.n 1 1)))))

/-- Interrupts, channels and shares (R424 to R426). -/
def Obligations.ItemCommandComplete : Prop :=
  ∀ (s : State) (m : Fin 2109) (c : Cmd) (tx : Nat), c = s.cmdAt m → tx = s.fld .SEM_MSEQ_TX →
    (∀ k idx, k = CmdRule.len { op := 0x0501, who := whoFn, mir := true } 16 → s.begins m k → c.n 0 2 = idx →
      s.srcMay c idx = true → c.n 2 1 = 0xFF → c.n 3 1 = 2 → routeMay c (c.n 8 8) = true → exec (.irqSet m) s =
      .next ((s.cmdReg c .IRQ_ROUTE idx (c.n 8 8)).cmdDone k m tx 0 0 [])) ∧
    (∀ k idx, k = CmdRule.len { op := 0x0502, who := whoFn } 2 → s.begins m k → c.n 0 2 = idx → s.srcMay c idx =
      true → exec (.irqGet m) s = .next (s.cmdDone k m tx 0 0 (s.rspReg 8 .IRQ_ROUTE idx ++ toBytes 1 (s.prio idx)
      ++ toBytes 1 (bit (s.isEn idx)) ++ [0, 0] ++ s.rspReg 4 .IRQ_SRC_STS idx))) ∧
    (∀ k, k = CmdRule.len { op := 0x0503, mir := true } 16 → s.begins m k → c.n 0 1 < 64 → exec (.irqLtSet m) s =
      .next ((s.cmdReg c .IRQ_LT (c.n 0 1) (c.n 8 8)).cmdDone k m tx 0 0 [])) ∧
    (∀ k pf j ch, k = CmdRule.len { op := 0x0601, mir := true } 5 → s.begins m k → c.n 0 1 = pf → 1 ≤ pf → pf ≤ 3 →
      c.n 1 1 = j → j < 64 → s.flag .DMA_GRANT_VALID (64 * (pf - 1) + j) = false → c.n 2 1 = ch → c.n 3 1 = 0 →
      s.chState ch = chIDLE → exec (.dmaGrant m) s = .next (((s.cmdPut c .DMA_CH_CFG ch [(.DMA_CH_CFG_MODE,
      0)]).cmdPut c .DMA_GRANT (64 * (pf - 1) + j) [(.DMA_GRANT_CHANNEL, ch), (.DMA_GRANT_VALID, 1),
      (.DMA_GRANT_SLICE_EN, 0), (.DMA_GRANT_SLICE, c.n 4 1)]).cmdDone k m tx 0 0 [])) ∧
    (∀ k pf j ch t, k = CmdRule.len { op := 0x0602, mir := true } 2 → s.begins m k → c.n 0 1 = pf → 1 ≤ pf → pf ≤ 3 →
      c.n 1 1 = j → j < 64 → s.flag .DMA_GRANT_VALID (64 * (pf - 1) + j) = true → s.fld .DMA_GRANT_CHANNEL (64 * (pf - 1) +
      j) = ch → s.chBusy ch = false → s.cmdPut c .DMA_CH_CTL ch [(.DMA_CH_CTL_CLEAR, 1)] = t → t.chState ch = chIDLE → exec
      (.dmaRevoke m) s = .next (((t.cmdPut c .DMA_GRANT (64 * (pf - 1) + j) [(.DMA_GRANT_VALID, 0)]).cmdPut c .DMA_CH_CFG ch
      [(.DMA_CH_CFG_MODE, 1)]).cmdDone k m tx 0 0 [])) ∧
    (∀ k ch, k = CmdRule.len { op := 0x0603, who := [0, 1, 2] } 1 → s.begins m k → c.cls < 2 → c.n 0 1 = ch →
      s.chBusy ch = false → exec (.dmaAbort m) s = .next (s.cmdDone k m tx 0 0 (toBytes 8 (s.fld .DMA_CH_STS_STATUS
      ch) ++ toBytes 8 (s.fld .DMA_CH_RESIDUE_RESIDUE ch)))) ∧
    (∀ k t u, k = CmdRule.len { op := 0x0701, mir := true } 24 → s.begins m k → c.n 0 2 < 8192 → s.flag
      .SHR_UPD_STS_BUSY = false → s.shareLoad c = t → t.flag .SHR_UPD_STS_BUSY = true → t.shrUpdDone = u → u.flag
      .SHR_UPD_STS_BUSY = false → exec (.shareSet m) s = .next (u.cmdDone k m tx 0 (0x8000 * bit (u.flag
      .SHR_UPD_STS_UNMIRRORED)) [])) ∧
    (∀ k a, k = CmdRule.len { op := 0x0702, who := whoFn } 2 → s.begins m k → c.cls < 2 → c.n 0 2 = a → a < 4096 →
      exec (.shareGet m) s = .next (s.cmdDone k m tx 0 0 (s.rspReg 8 .SHR_CTX_SHARE a ++ s.rspReg 8 .SHR_CTX_RES a))) ∧
    (∀ k r, k = CmdRule.len { op := 0x0703 } 1 → s.begins m k → c.n 0 1 = r → r < resCount → exec (.resQuery m) s =
      .next (s.cmdDone k m tx 0 0 (s.rspReg 8 .SHR_RES_STS r ++ s.rspReg 8 .SHR_RES_SUM r ++ s.rspReg 8
      .SHR_RES_MEAS r)))

/-- The pair, images and the configuration record (R427 to R429). -/
def Obligations.PairCommandComplete : Prop :=
  ∀ (s : State) (m : Fin 2109) (c : Cmd) (tx : Nat), c = s.cmdAt m → tx = s.fld .SEM_MSEQ_TX →
    (∀ k, k = { op := 0x0801 } → s.begins m k → exec (.pairStatus m) s = .next (s.cmdDone k m tx 0 0 (s.rspReg 8
      .SEM_STS 0 ++ s.rspReg 8 .SEM_TWIN 0 ++ s.rspReg 8 .SEM_PAIR_ID 0 ++ s.rspReg 8 .SEM_MSEQ 0 ++ s.rspReg 4
      .SEM_TWIN_FW 0))) ∧
    (∀ k t, k = { op := 0x0802 } → s.begins m k → s.mode = .LEAD → s.fld .SEM_STS_ROLE ≠ 2 → s.ho = .none →
      s.cmdPut c .SEM_CTL 0 [(.SEM_CTL_HANDOVER, 1)] = t → t.ho ≠ .none → exec (.pairHandover m) s = .next
      (State.hoFlush { t with mg.cmdRun := nSet t.mg.cmdRun m 1 })) ∧
    (∀ k, k = { op := 0x0803 } → s.begins m k → exec (.pairLeave m) s = .next ((s.cmdPut c .SEM_CTL 0
      [(.SEM_CTL_LEAVE, 1)]).cmdDone k m tx 0 0 []).hoFlush) ∧
    (∀ k, k = { op := 0x0804 } → s.begins m k → s.fld .SEM_STS_ROLE = 2 → s.fld .SEM_STS_SYNC = 3 → exec (.pairSnap
      m) s = .next ((s.cmdPut c .SEM_CTL 0 [(.SEM_CTL_SNAP, 1)]).cmdDone k m tx 0 0 [])) ∧
    (∀ k, k = { op := 0x0805 } → s.begins m k → s.mode = .FOLLOW → s.flag .SEM_STS_TWIN_ALIVE = false → s.fld
      .SEM_STS_SYNC = 2 → s.paired = true → exec (.pairTake m) s = .next (s.pairTake.cmdDone k m tx 0 0 []).hoFlush) ∧
    (∀ k, k = CmdRule.len { op := 0x0901 } 16 → s.begins m k → c.n 0 1 = 0 → 1 ≤ c.n 1 1 → c.n 1 1 ≤ 3 → c.n 4 4 ≤
      15 * 1048576 → s.mg.staging = none → s.hdr.attempt = 0 → exec (.fwStageBegin m) s = .next (State.cmdDone
      { s with mg.staging := some { source := 0, tries := c.n 1 1, size := c.n 4 4, base := c.n 8 8 }, mg.stagedVer := none }
      k m tx 0 0 [])) ∧
    (∀ k g, k = { op := 0x0902, lo := 16, hi := 4032 } → s.begins m k → s.mg.staging = some g → g.source = 0 → c.n
      0 4 = g.data.length → g.data.length + (c.pay.drop 8).length ≤ g.size → exec (.fwStageData m) s = .next
      (State.cmdDone { s with mg.staging := some { g with data := g.data ++ c.pay.drop 8 } } k m tx 0 0 [])) ∧
    (∀ k g (ver : BitVec 32), k = { op := 0x0903 } → s.begins m k → s.mg.staging = some g → g.data.length = g.size
      → exec (.fwStageCommit m true ver) s = .next ((s.stageCommit g ver).cmdDone k m tx 0 0 (toBytes 4 ver.toNat))) ∧
    (∀ k, k = { op := 0x0904 } → s.begins m k → exec (.fwStageAbort m) s = .next (State.cmdDone
      { s with mg.staging := none } k m tx 0 0 [])) ∧
    (∀ k, k = CmdRule.len { op := 0x0905 } 2 → s.begins m k → c.n 0 2 ≤ 1000 → exec (.moduleReset m) s = .next
      (State.cmdDone { s with bt.rstArmed := some 3 } k m tx 0 0 [])) ∧
    (∀ k, k = { op := 0x0906, lo := 8, hi := 4032 } → s.begins m k → c.n 0 2 + (c.pay.drop 8).length ≤ 4096 → (c.n
      2 1).testBit 0 = false → exec (.evosetWrite m) s = .next (State.cmdDone
      { s with mg.evBuf := some (s.evLaid c) } k m tx 0 0 []))

/-- Power, the fault log, time, lifecycle and debug (R430 to R432). -/
def Obligations.SystemCommandComplete : Prop :=
  ∀ (s : State) (m : Fin 2109) (c : Cmd) (tx : Nat), c = s.cmdAt m → tx = s.fld .SEM_MSEQ_TX →
    (∀ k, k = CmdRule.len { op := 0x0A01 } 1 → s.begins m k → s.mode = .LEAD ∨ s.mode = .FOLLOW → s.bt.standby =
      none → exec (.standby m) s = .next (State.cmdDone
      { s with bt.standby := some { retain := (c.n 0 1).testBit 0 }, pmeOff := true } k m tx 0 0 [])) ∧
    (∀ k d t, k = CmdRule.len { op := 0x0A02 } 3 → s.begins m k → c.n 0 1 = d → domByReq d = true → d ≠ 2 + s.fld
      .MBX_MB_CORE c.m → c.n 1 1 ≤ 1 → s.bt.domReq = none → s.cmdPut c .PWR_DOM_REQ 0 [(.PWR_DOM_REQ_DOMAIN, d),
      (.PWR_DOM_REQ_OP, c.n 1 1), (.PWR_DOM_REQ_FORCE, c.n 2 1 % 2), (.PWR_DOM_REQ_GO, 1)] = t → t.bt.domReq = none
      → t.fld .PWR_DOM_RESULT_RESULT = 0 → exec (.domainPower m) s = .next (t.cmdDone k m tx 0 0 []).starchSettle) ∧
    (∀ k, k = CmdRule.len { op := 0x0A03 } 3 → s.begins m k → c.n 2 1 ≤ 1 → exec (.portEnable m) s = .next
      (State.cmdDone (s.each ((List.range 16).filter (c.n 0 2).testBit) fun s p => (s.cmdPut c .ULK_CTL p
      [(.ULK_CTL_EN, c.n 2 1)]).cmdPut c .LANE_LINK_CTL p [(.LANE_LINK_CTL_ENABLE, c.n 2 1)]) k m tx 0 0
      []).starchSettle) ∧
    (∀ k, k = CmdRule.len { op := 0x0B01 } 6 → s.begins m k → exec (.logRead m) s = .next (s.cmdDone k m tx 0 0
      (s.logReadRsp c))) ∧
    (∀ k, k = CmdRule.len { op := 0x0B02 } 4 → s.begins m k → exec (.logClear m) s = .next ((s.logDrop (c.n 0
      4)).cmdDone k m tx 0 0 [])) ∧
    (∀ k, k = { op := 0x0B03 } → s.begins m k → exec (.wakeSrc m) s = .next (s.cmdDone k m tx 0 0 (s.rspReg 8
      .PWR_WAKE_LAST 0))) ∧
    (∀ k, k = { op := 0x0C01, who := whoAll } → s.begins m k → exec (.timeGet m) s = .next (s.cmdDone k m tx 0 0
      (toBytes 8 s.now ++ toBytes 8 (s.ld8 (mbxAddr c.m + 0x20)) ++ toBytes 1 (s.fld .TIM_STS_TIME_APPROX)))) ∧
    (∀ k d, k = CmdRule.len { op := 0x0C02 } 8 → s.begins m k → d = (c.n 0 8 + 18446744073709551616 - s.ld8
      (mbxAddr c.m + 0x20)) % 18446744073709551616 → exec (.timeSync m) s = .next (((s.cmdReg c .TIM_STEP 0
      d).cmdPut c .TIM_STS 0 [(.TIM_STS_TIME_APPROX, 1)]).cmdDone k m tx 0 0 (toBytes 8 d))) ∧
    (∀ k, k = { op := 0x0D01 } → s.begins m k → exec (.nonceGet m) s = .next (State.cmdDone
      { (s.drawBytes 32).2 with sc.nonce := some (ofBytes (s.drawBytes 32).1, (s.drawBytes 32).2.tick) } k m tx 0 0
      (s.drawBytes 32).1)) ∧
    (∀ k n t, k = CmdRule.len { op := 0x0D02 } 160 → s.begins m k → c.n 0 2 = 0x0D02 → c.n 2 1 = n → n ≤ 3 → s.fld
      .SEC_LIFECYCLE_STATE < n → s.authCheck c true = (none, t) → exec (.lifecycleAdvance m true) s = .next
      ((State.set { t with sc.lcNext := some n } .SEC_LIFECYCLE_ADVANCING 0 1).cmdDone k m tx 0 0 [])) ∧
    (∀ k t, k = CmdRule.len { op := 0x0D03 } 160 → s.begins m k → c.n 0 2 = 0x0D03 → c.n 2 1 = 0 → s.authCheck c
      true = (none, t) → t.fld .SEC_LIFECYCLE_STATE = lcPRODUCTION → exec (.debugUnlock m true) s = .next ((t.set
      .DBG_STS_OPEN 0 1).cmdDone k m tx 0 0 []))

/-! ### Management -/

/-- MCTP control and PLDM over SMBus with a good PEC (R433 to R435): the response of each, and what it sets. -/
def Obligations.ManagementComplete : Prop :=
  ∀ (s : State) (h : MctpHdr), s.mode ≠ .OFF → h.binding = 0 → h.pec = true → h.ic = false → s.flag .MGT_CFG_SMB_MCTP_EN = true → s.fwReady = true →
    (∀ (opcode abi : BitVec 16) (tag : BitVec 32) (payload : List Byte), payload.length ≤ 4032 → s.flag .MBX_CFG_EN
      = true → s.mg.mctpNow = none → s.mg.mctpHeld = [] → s.mbxState 0 = 0 → exec (.mctpMessageRx h opcode abi tag
      payload) s = .next (State.mctpPost
      { s with mg.mctpHeld := [{ binding := 0, opcode := opcode.toNat, abi := abi.toNat, tag := tag.toNat, payload := payload }] })) ∧
    (∀ (eid owner : BitVec 8), exec (.setEndpointId h eid owner) s = .next (((s.set .MGT_EID_EID 0 eid.toNat).set
      .MGT_EID_OWNER_EID 0 owner.toNat).mctpControl h 1 [eid.toNat] [])) ∧
    exec (.getEndpointId h) s = .next (s.mctpControl h 2 [s.fld .MGT_EID_EID] []) ∧
    exec (.getEndpointUuid h) s = .next (s.mctpControl h 3 [] (toBytes 16 Config.uuid.toNat)) ∧
    (∀ (typ : BitVec 8), exec (.getMctpVersionSupport h typ) s = .next (s.mctpControl h 4 [typ.toNat,
      (Config.mctpVersion typ.toNat).toNat] [])) ∧
    exec (.getMessageTypeSupport h) s = .next (s.mctpControl h 5 [0x00, 0x01, 0x7E] []) ∧
    exec (.getVendorDefinedMessageSupport h) s = .next (s.mctpControl h 6 [0x2D37, Config.vendorVersion.toNat] []) ∧
    (∀ (tid : BitVec 8), exec (.setTid h tid) s = .next (State.pldm { s with mg.tid := tid.toNat } h 0x01 0 [])) ∧
    exec (.getTid h) s = .next (s.pldm h 0x02 0 [s.mg.tid]) ∧
    exec (.getPldmVersion h 2) s = .next (s.pldm h 0x03 0 [(Config.pldmVersion 2).toNat]) ∧
    exec (.getPldmTypes h) s = .next (s.pldm h 0x04 0 [0, 2]) ∧
    exec (.getPldmCommands h 0) s = .next (s.pldm h 0x05 0 [1, 2, 3, 4, 5]) ∧
    (∀ (sensor : BitVec 16), sensor.toNat ≠ 0 → sensor.toNat ≤ 6 → exec (.getSensorReading h sensor) s = .next
      ((s.reading sensor.toNat).2.pldm h 0x211 0 [sensor.toNat, bit (bGet (s.reading sensor.toNat).2.mg.sensOff
      sensor.toNat), sensLevel sensor.toNat (nGet (s.reading sensor.toNat).2.mg.sensShown sensor.toNat) (s.reading
      sensor.toNat).1, (s.reading sensor.toNat).1])) ∧
    (∀ (sensor : BitVec 16), 7 ≤ sensor.toNat → sensor.toNat ≤ 9 → exec (.getStateSensorReadings h sensor) s =
      .next (s.pldm h 0x221 0 [sensor.toNat, s.stateSensor sensor.toNat])) ∧
    (∀ (sensor : BitVec 16) (on : Bool), sensor.toNat ≠ 0 → sensor.toNat ≤ 6 → exec (.setNumericSensorEnable h
      sensor on) s = .next (State.pldm { s with mg.sensOff := bSet s.mg.sensOff sensor.toNat (!on) } h 0x210 0 [])) ∧
    exec (.getPdrRepositoryInfo h) s = .next (s.pldm h 0x250 0 [9, Config.pdrSizes.toNat]) ∧
    exec (.getPdr h 1) s = .next (s.pldm h 0x251 0 [2, 1, 0, 200, 220, 240]) ∧
    (∀ (eid : BitVec 8), exec (.setEventReceiver h eid) s = .next (State.pldm
      { s with mg.pldmRecv := some (h.binding, eid.toNat) } h 0x204 0 [])) ∧
    (∀ (r1 r2 r3 r4 r5 r6 : BitVec 16), exec (.pldmSensorRefresh r1 r2 r3 r4 r5 r6) s = .next (s.refresh [(1,
      r1.toInt), (2, r2.toInt), (3, r3.toInt), (4, r4.toInt), (5, r5.toInt), (6, r6.toInt)]))

/-! ### Memories, power, clocks, time -/

/-- The zero engine, scrubbing and counters (R444, R448, R452). -/
def Obligations.MemoryComplete : Prop :=
  ∀ s : State,
    (s.domOn 17 = true → exec .drsZeroGo s = .next s.zeroGo) ∧
    (s.domOn 17 = true → exec .drsZeroAbort s = .next s.zeroAbort) ∧
    exec .zeroComplete s = .next s.zeroDone ∧
    (s.domOn 16 = true → exec .memCntSnap s = .next s.memSnap) ∧
    (∀ (gran : Fin 524288) (err : MemErr), s.flag .MEM_CFG_SCRUB_EN = true → s.domOn 16 = true → exec (.patrolScrub
      false gran false err) s = .next (s.memRead 63 (sramBase + 64 * gran.val) 64 err).2.2) ∧
    (∀ (gran : Fin 524288) (err : MemErr), s.flag .DRS_CFG_SCRUB_EN = true → s.domOn 17 = true → s.flag
      .DRS_STS_SELF_REFRESH = false → s.flag .DRS_STS_TRAINED = true → s.fld .DRS_SCRUB_POS_POS + 64 ≠ 0x2000000000
      → exec (.patrolScrub true gran false err) s = .next ((s.memRead 63 (s.fld .DRS_SCRUB_POS_POS) 64 err).2.2.set
      .DRS_SCRUB_POS_POS 0 (s.fld .DRS_SCRUB_POS_POS + 64))) ∧
    (s.fld .DRS_CFG_CE_THR ≠ 0 → s.fld .DRS_CFG_CE_THR ≤ s.ceWindow → exec .ceRateWindow s = .next ((State.drsEvt
      { s with ceWindow := 0 } .DRS_EVT_CE_STORM).correctedLog 13))

/-- Power domains, cores, watchdog, clocks and device time (R458 to R479). -/
def Obligations.PowerComplete : Prop :=
  ∀ s : State,
    (∀ (core : Option Core) (dom : Fin 32) (op : Fin 4) (force : Bool), s.regOn .PWR_DOM_REQ 0 = true → exec
      (.pwrDomReq core dom op force) s = .next ((((s.set .PWR_DOM_REQ_DOMAIN 0 dom).set .PWR_DOM_REQ_OP 0 op).set
      .PWR_DOM_REQ_FORCE 0 (bit force)).domRequest dom op force).starchSettle) ∧
    (∀ (d : Fin 20), s.dom d = .draining → s.domDrained d = true → exec (.domainDrained d) s = .next (s.domClamp
      d).starchSettle) ∧
    (∀ (d : Fin 20), s.dom d = .draining → s.domDrained d = false → ∃ t, t = ((s.setDom d .on).setGoal d
      0).domResume d ∧ exec (.domainDrainTimeout d) s = .next (if t.bt.domReq.any (fun e => e.1 == d.val) = true
      then t.domEnd d 1 else t)) ∧
    (∀ (d : Fin 20), s.dom d = .powering → exec (.domainPowered d) s = .next (s.domPowered d)) ∧
    (∀ (c : Core), exec (.coreWait c) s = .next (s.coreWait c)) ∧
    (∀ (c : Core), exec (.coreEntryWindowEnd c) s = .next (s.coreGate c)) ∧
    (∀ (c : Core), exec (.coreWake c true) s = .next (s.coreEdge c 4)) ∧
    (∀ (core : Option Core) (c : Core), s.regOn .PWR_CORE_CTL c = true → exec (.pwrCoreWakeWrite core c) s = .next
      (s.coreEdge c 2)) ∧
    (∀ (by_ c : Core) (pll : Bool), s.regOn .CLK_CORE_SEL c = true → exec (.clkCoreSelWrite by_ c pll) s = .next
      ((s.set .CLK_CORE_SEL_SEL c (bit pll)).set .CLK_CORE_SEL_ACTIVE c (bit pll))) ∧
    (s.mode ≠ .OFF → s.flag .PWR_WAKE_TIMER_ARMED = true → s.fld .PWR_WAKE_TIMER_AT ≤ s.aonCount → s.fld
      .PWR_WAKE_TIMER_TARGET < 4 → exec .wakeTimerFire s = .next ((s.set .PWR_WAKE_TIMER_ARMED 0 0).coreEdge (s.fld
      .PWR_WAKE_TIMER_TARGET) 3)) ∧
    (∀ (core : Option Core), s.regOn .PWR_WDOG_KICK 0 = true → exec (.wdogKick core 0xA5A5) s = .next
      { s with bt.wdogHalf := false }) ∧
    (s.wdogRuns = true → s.bt.wdogHalf = false → exec .wdogWarn s = .next (State.pwrEvt
      { s with bt.wdogHalf := true } .PWR_EVT_WDOG_WARN)) ∧
    (s.wdogRuns = true → s.bt.wdogHalf = true → exec .wdogExpire s = .next ((s.faultLog
      { cls := 6, unit := 18, code := 6 }).moduleReset 6)) ∧
    (∀ (which : Fin 4), s.mode ≠ .OFF → s.domOn 1 = true → which.val < 3 → exec (.pllLossOfLock which) s = .next
      ((s.faultLog { cls := 6, unit := 18, code := 8 }).moduleReset 8)) ∧
    (s.domOn 8 = true → s.flag .HST_LINK_STS_DL_UP = true → exec (.lanePllUnlock 8) s = .next (if ((s.set
      .CLK_STS_HOST_LOCK 0 0).clkEvt .CLK_EVT_HOST_UNLOCK).flag .HST_LINK_STS_DL_UP = true then ((s.set
      .CLK_STS_HOST_LOCK 0 0).clkEvt .CLK_EVT_HOST_UNLOCK).surprise else (s.set .CLK_STS_HOST_LOCK 0 0).clkEvt
      .CLK_EVT_HOST_UNLOCK)) ∧
    (∀ (core : Core) (delay : Fin 1024), s.regOn .RST_CTL 0 = true → exec (.rstCtlKey core delay) s = .next
      { s.set .RST_CTL_DELAY 0 delay with bt.rstArmed := some 3 }) ∧
    (∀ (core : Core) (delta : BitVec 64), s.regOn .TIM_STEP 0 = true → exec (.timStepWrite core delta) s = .next
      (s.timeStep delta.toInt)) ∧
    (∀ (ofs : BitVec 64), s.domOn 1 = true → s.linkOpen = true → (s.cfgD 0 0x2C0).testBit 0 = true → s.flag
      .TIM_PTM_CFG_PERIOD = true → exec (.ptmDialog true ofs) s = .next (s.ptmDone ofs.toInt)) ∧
    exec .slewComplete s = .next s.slewStop

/-! ### Containment and the fault log -/

/-- Containment, its release, the fault log, SMBus raw mode, register writes (R11, R484 to R497). -/
def Obligations.ContainComplete : Prop :=
  ∀ s : State,
    (∀ (sram : Bool), exec (.datapathError sram) s = .next (s.contain (if sram then 3 else 2))) ∧
    (∀ (core : Option Core), s.regOn .HST_CONT_REL 0 = true → exec (.hstContEnter core) s = .next ((s.contRelease
      0).contain 4)) ∧
    (∀ (core : Option Core) (key : BitVec 8) (ledgerFail dmaAbort : Bool), s.regOn .HST_CONT_REL 0 = true → exec
      (.containRelease core key ledgerFail dmaAbort) s = .next (((s.set .HST_CONT_REL_LEDGER_FAIL 0 (bit
      ledgerFail)).set .HST_CONT_REL_DMA_ABORT 0 (bit dmaAbort)).contRelease key.toNat).hoFlush) ∧
    (∀ (core : Option Core) (f : Fn), s.regOn .FN_CONT f = true → exec (.fnContRequest core f) s = .next
      (s.fnContain f 3 { fn := f, typ := 0x0C })) ∧
    (∀ (core : Option Core) (f : Fn), s.regOn .FN_CONT f = true → exec (.fnContRelease core f) s = .next
      (s.fnContRelease f)) ∧
    (s.fwReady = true → exec .faultLogCopy s = .next (State.set
      { s with logWork := lastN 131072 (s.logWork ++ lastN (s.fld .MGT_LOG_STS_AON_USED) s.ring) }
      .MGT_LOG_STS_AON_USED 0 0)) ∧
    (s.fwReady = true → exec .faultLogFlush s = .next s.logFlush) ∧
    (s.mode ≠ .OFF → exec (.rawStatus true) s = .next (s.send (.rawData s.rawStatusBytes))) ∧
    (s.mode ≠ .OFF → exec (.rawWakeLast true) s = .next (s.send (.rawData (toBytes 8 (s.fld
      .PWR_WAKE_LAST_RECORD))))) ∧
    (∀ (num : BitVec 32), s.mode ≠ .OFF → s.ring.any (fun e => e.num == num.toNat) = true → exec (.rawLogSeek true
      num) s = .next { s with mg.rawSeek := some num.toNat }) ∧
    (∀ e, s.mode ≠ .OFF → s.ring.find? (fun e => decide (s.mg.rawSeek.getD 0 ≤ e.num)) = some e → exec (.rawLogRead
      true) s = .next (State.send { s with mg.rawSeek := some (e.num + 1) } (.rawData e.bytes))) ∧
    (s.mode ≠ .OFF → s.flag .PWR_WAKE_EN_RAW = true → exec (.rawWake true [0xA5]) s = .next (s.moduleWake 0x11)) ∧
    (s.mode ≠ .OFF → exec (.rawReset true [0x5A, 0xA5]) s = .next (s.moduleReset 4)) ∧
    (s.mode = .LEAD ∨ s.mode = .FOLLOW → exec (.rawContain true [0xC3, 0x3C]) s = .next (s.contain 4)) ∧
    (∀ c (dw : Fin 5767168) v, exec (.registerWrite (some c) dw false v) s = .next (s.enterReq
      { who := .core c, kind := .write, addr := blockBase 0 + 4 * dw.val, len := 4, data := toBytes 4 v.toNat, priv := true }).hoFlush)

/-! ### The step, reset, and what every command leaves alone -/

/-- A step takes the command at the front of the queue and is `exec` of it on the state with the queue's rest. -/
def Obligations.StepRunsFront : Prop :=
  ∀ (c : Instr) (rest : List Instr) (s : State), s.pending = c :: rest → step s = exec c { s with pending := rest }

/-- With no command waiting, a step lets one nanosecond pass and the queue stays empty; in OFF nothing happens at all. That
the empty queue is the tick is the model's choice (log entry 9). -/
def Obligations.StepIdleTicks : Prop :=
  ∀ s : State, s.pending = [] → step s = .next s.idle ∧ s.idle.pending = [] ∧ (s.mode = .OFF → s.idle = s)

/-- After reset no command waits, nothing has been sent, every register field holds the Reset value of its table
(LANE_LINK_CTL.LINK_ID its link's number), and every map is in canonical form. That a byte of memory nothing has written
reads as 0 is the model's choice (log entry 3). -/
def Obligations.ResetState : Prop :=
  State.reset.pending = [] ∧ State.reset.out = [] ∧ State.reset.mode = .BOOT ∧
    (∀ (f : Fld) (i : Nat), f ≠ .LANE_LINK_CTL_LINK_ID → State.reset.fld f i = (fldInfo f).rst) ∧
    (∀ i : Nat, i < 1048576 → State.reset.fld .LANE_LINK_CTL_LINK_ID i = i) ∧
    (∀ a : Nat, State.reset.ld a = 0) ∧ State.reset.regsWf = true ∧ State.reset.bytesWf = true

/-- In every state whose register file and maps are in canonical form, every step leaves them so: equal contents stay equal
data, and every register field holds a value of its width. -/
def Obligations.EveryStepKeepsForms : Prop :=
  ∀ s t : State, s.regsWf = true → s.bytesWf = true → step s = .next t → t.regsWf = true ∧ t.bytesWf = true

/-- No command puts a command into the queue or takes one out: only the step does. -/
def Obligations.CommandsLeaveQueue : Prop :=
  ∀ (c : Instr) (s t : State), exec c s = .next t → t.pending = s.pending

/-- A command that stores nothing leaves every byte of the SRAM and the store, every poison mark, configuration space and
the MSI-X tables as they were. -/
def Obligations.StoresNothingFrame : Prop :=
  ∀ (c : Instr) (s t : State), c.storesNothing = true → exec c s = .next t →
    (∀ a, t.ld a = s.ld a) ∧ (∀ a, t.isPoison a = s.isPoison a) ∧ t.cfg = s.cfg ∧ t.msix = s.msix

/-- Every command that a sender can send has a next state, and one whose operands no sender can form is refused by name. -/
def Obligations.WellFormedRuns : Prop :=
  ∀ (c : Instr) (s : State), (c.wf = true → ∃ t, exec c s = .next t) ∧ (c.wf = false → exec c s = .refused .illFormed)

/-! ### Registers and bytes -/

/-- A whole write of a register (R11): RW and RWP fields take their part of the value, W1C fields lose the bits written 1,
the other fields store nothing; other registers and other numbers of the same register are as before. -/
def Obligations.RegisterWrite : Prop :=
  ∀ (s : State) (r : Reg) (i v : Nat), s.regsWf = true →
    (∀ f ∈ regFlds r, (s.regStore r i v (2 ^ 64 - 1)).fld f i = match (fldInfo f).ty with
      | .RW => fieldOf f v
      | .RWP => fieldOf f v
      | .W1C => s.fld f i - (s.fld f i &&& fieldOf f v)
      | _ => s.fld f i) ∧
    (∀ (g : Fld) (j : Nat), (g ∉ regFlds r ∨ j % 1048576 ≠ i % 1048576) →
      (s.regStore r i v (2 ^ 64 - 1)).fld g j = s.fld g j)

/-- The SRAM and the store are little-endian (R9): byte k of a stored 8-byte word is bits 8k+7 to 8k of it, the word reads
back, and every other byte, every register field and every poison mark is as before. -/
def Obligations.LittleEndian : Prop :=
  ∀ (s : State) (a v : Nat),
    (∀ k, k < 8 → (s.st8 a v).ld (a + k) = BitVec.ofNat 8 (v / 256 ^ k)) ∧ (s.st8 a v).ld8 a = v % 2 ^ 64 ∧
    (∀ c, (c < a ∨ a + 8 ≤ c) → (s.st8 a v).ld c = s.ld c) ∧ (s.st8 a v).regs = s.regs ∧ (s.st8 a v).poison = s.poison

/-- The bytes of a write with byte enables (R32, R442): each enabled byte is combined with what memory held, the others and
every byte outside stay. `f` is the written byte for a plain write, or-ing for the bit-set view, and-not for the bit-clear
view. -/
def Obligations.EnabledBytes : Prop :=
  ∀ (s : State) (f : Byte → Byte → Byte) (a : Nat) (data : List Byte) (be : List Bool),
    (∀ k b, data[k]? = some b → (s.stMasked f a data be).ld (a + k)
      = if be = [] ∨ be[k]? = some true then f (s.ld (a + k)) b else s.ld (a + k)) ∧
    (∀ c, (c < a ∨ a + data.length ≤ c) → (s.stMasked f a data be).ld c = s.ld c)

/-- The poison marks after a write (R170, R451): a granule written whole carries the write's poison, one written in part
is marked by poison and otherwise keeps its mark, and granules the write does not touch keep theirs. -/
def Obligations.PoisonMarks : Prop :=
  ∀ (s : State) (a : Nat) (data : List Byte) (be : List Bool) (pois : List Nat),
    (∀ i, i < granCount a data.length → (s.markWrite a data be pois).isPoison (granule a + 64 * i)
      = if fullGranule (granule a + 64 * i) a data be = true then pois.contains i
        else (pois.contains i || s.isPoison (granule a + 64 * i))) ∧
    (∀ c, (c < granule a ∨ granule a + 64 * granCount a data.length ≤ c) →
      (s.markWrite a data be pois).isPoison c = s.isPoison c)

/-- A range cut at multiples of `w` (R97, R136, R144, R176): the pieces follow one another from the start, are not empty, cross
no multiple of `w`, and make up the whole range. -/
def Obligations.PiecesOfRange : Prop :=
  ∀ (w a n off len : Nat), 0 < w → len ≤ w * (n - 1) →
    ((cutAt w a n off len).map (·.2)).sum = len ∧
    (∀ p ∈ cutAt w a n off len, 0 < p.2 ∧ off ≤ p.1 ∧ p.1 + p.2 ≤ off + len ∧ (a + p.1) / w = (a + p.1 + p.2 - 1) / w) ∧
    (cutAt w a n off len).Pairwise (fun p q => p.1 + p.2 ≤ q.1)

/-! ### Accesses and the guard -/

/-- An access to a register block whose power domain is off (R38). -/
def Obligations.OffDomainAccess : Prop :=
  ∀ (s : State) (r : Req) (b off : Nat) (blk : Block), blockAt b = some blk → s.domOn (blockDom blk off) = false →
    (r.view ≠ 2 ∨ s.viewMay r.fn b off = true) →
    (r.kind = .read → r.len = 4 ∨ r.len = 8 → off % r.len = 0 →
      s.regAccess r b off = (s.offAccess (blockDom blk off)).finish r 0 (List.replicate r.len 0xFF)) ∧
    (∀ o data, r.kind = .write → regRun r = some (o, data) →
      s.regAccess r b off = (s.offAccess (blockDom blk off)).finish r 0 []) ∧
    (s.offAccess (blockDom blk off)).fld .PWR_OFF_ACCESS_CNT_CNT = min (2 ^ 24 - 1) (s.fld .PWR_OFF_ACCESS_CNT_CNT + 1) ∧
    (∀ (f : Fld) (i : Nat), f ≠ .PWR_OFF_ACCESS_CNT_CNT → f ≠ .PWR_OFF_ACCESS_CNT_LAST_DOM →
      (s.offAccess (blockDom blk off)).fld f i = s.fld f i)

/-- The first failed check is captured, every one is counted (R351). -/
def Obligations.GuardCapture : Prop :=
  ∀ (s : State) (r : Req) (g : GFail),
    (s.grdCapture r g).fld .GRD_FAULT_CNT_FAULTS
      = min (2 ^ (fldInfo .GRD_FAULT_CNT_FAULTS).w - 1) (s.fld .GRD_FAULT_CNT_FAULTS + 1) ∧
    (s.fld .GRD_FAULT_INFO_VALID = 1 → ∀ f : Fld, f ≠ .GRD_FAULT_CNT_FAULTS → (s.grdCapture r g).fld f = s.fld f) ∧
    (s.fld .GRD_FAULT_INFO_VALID = 0 →
      (s.grdCapture r g).fld .GRD_FAULT_INFO_VALID = 1 ∧
      (s.grdCapture r g).fld .GRD_FAULT_ADDR_ADDR = (r.key.getD r.dst) % 2 ^ (fldInfo .GRD_FAULT_ADDR_ADDR).w ∧
      (s.grdCapture r g).fld .GRD_FAULT_INFO_CAUSE = g.cause % 2 ^ (fldInfo .GRD_FAULT_INFO_CAUSE).w ∧
      (s.grdCapture r g).fld .GRD_FAULT_INFO_CLASS = r.who.cls % 2 ^ (fldInfo .GRD_FAULT_INFO_CLASS).w ∧
      (s.grdCapture r g).fld .GRD_FAULT_INFO_REQ = r.who.index % 2 ^ (fldInfo .GRD_FAULT_INFO_REQ).w ∧
      (s.grdCapture r g).fld .GRD_FAULT_INFO_WRITE = bit (r.kind != .read) ∧
      (s.grdCapture r g).fld .GRD_FAULT_INFO_EXEC = bit r.exec ∧
      (s.grdCapture r g).fld .GRD_FAULT_INFO_PRIV = bit r.priv ∧
      (s.grdCapture r g).fld .GRD_FAULT_INFO_SET = guardSet r.who % 2 ^ (fldInfo .GRD_FAULT_INFO_SET).w ∧
      (s.grdCapture r g).fld .GRD_FAULT_INFO_REGION_HIT = bit g.region.isSome ∧
      (∀ n, g.region = some n → (s.grdCapture r g).fld .GRD_FAULT_INFO_REGION = n % 2 ^ (fldInfo .GRD_FAULT_INFO_REGION).w))

/-- DMA beats in HOST space are checked against the four HOST bits of set 17 (R348). -/
def Obligations.HostRouteCheck : Prop :=
  (∀ (s : State) (r : Req) (c : Nat), r.who = .dma c → r.fixed = 5 → r.exec = false →
    s.guardFail r =
      if (match r.kind, r.priv with
        | .read, true => s.flag .GRD_SET_CFG_HOST_PR 17
        | .read, false => s.flag .GRD_SET_CFG_HOST_UR 17
        | .write, true => s.flag .GRD_SET_CFG_HOST_PW 17
        | .write, false => s.flag .GRD_SET_CFG_HOST_UW 17
        | _, true => s.flag .GRD_SET_CFG_HOST_PR 17 && s.flag .GRD_SET_CFG_HOST_PW 17
        | _, false => s.flag .GRD_SET_CFG_HOST_UR 17 && s.flag .GRD_SET_CFG_HOST_UW 17)
      then none else some ⟨6, none⟩) ∧
  (∀ (s : State) (r : Req) (f : Fld) (n v : Nat),
    f ∈ [Fld.GRD_SET_CFG_HOST_PR, .GRD_SET_CFG_HOST_PW, .GRD_SET_CFG_HOST_UR, .GRD_SET_CFG_HOST_UW] →
    (r.fixed ≠ 5 ∨ n % 1048576 ≠ guardSet r.who % 1048576) → (s.set f n v).guardFail r = s.guardFail r)

/-- An access with a guard key, through no fixed window, that the table of R36 forbids to its requester's class fails with
cause CLASS (3), in every state and so whatever the regions of its set say (R345). -/
def Obligations.ClassBeforeRegions : Prop :=
  ∀ (s : State) (r : Req) (key : Nat), r.key = some key → r.fixed = 0 →
    classMay r (if r.toHost then Region.host else regionOf key) = false →
    s.guardFail r = some ⟨3, none⟩

/-- Of the sources presented to a core, the one taken has the highest priority, and of equal priority the lowest number
(R299, R300); none is taken exactly when none is presented to it. -/
def Obligations.BestSource : Prop :=
  ∀ (s : State) (c : Nat), s.bytesWf = true →
    (∀ i, s.bestFor c = some i → i ∈ s.pendSrcs ∧ (∃ t, s.presented i = some t ∧ t.kind = 3 ∧ t.index = c) ∧
      ∀ j ∈ s.pendSrcs, (∃ t, s.presented j = some t ∧ t.kind = 3 ∧ t.index = c) →
        s.prio j < s.prio i ∨ (s.prio j = s.prio i ∧ i ≤ j)) ∧
    (s.bestFor c = none → ∀ j ∈ s.pendSrcs, ¬ ∃ t, s.presented j = some t ∧ t.kind = 3 ∧ t.index = c)

/-! ### Modes, power and containment -/

/-- Where power events and a module reset leave the mode (R376, R377, R501, R515). -/
def Obligations.ModeTransitions : Prop :=
  ∀ s : State,
    (s.mode = .OFF → s.bt.trip = none → ∃ t, exec .powerUp s = .next t ∧ t.mode = .BOOT) ∧
    (∀ i, s.mode = .OFF → s.bt.trip = some i → exec .powerUp s = .next s) ∧
    (∃ t, exec .powerDown s = .next t ∧ t.mode = .OFF) ∧
    (∃ t, exec .overvoltage s = .next t ∧ t.mode = .OFF ∧ t.bt.overV = true) ∧
    (∀ i : Fin 3, ∃ t, exec (.thermalTrip i) s = .next t ∧ t.mode = .OFF ∧ t.bt.trip = some (i.val + 1)) ∧
    (∀ c : Fin 9, 2 ≤ c.val → s.mode ≠ .OFF → ∃ t, exec (.moduleResetEvent c) s = .next t ∧ t.mode = .BOOT) ∧
    (∀ c : Fin 9, s.mode = .OFF → exec (.moduleResetEvent c) s = .next s)

/-- Power-down keeps the boot flash, the fuses and the log store and loses the rest (R376): memories, poison marks,
configuration space, ledger, engines, links, power domains and every register that is no fuse. What a byte lost with its
memory reads as is the model's choice (log entry 3), and so is which fields are fuses and live lines (log entry 21). -/
def Obligations.PowerDownLoses : Prop :=
  ∀ s : State, s.mode ≠ .OFF → ∃ t, exec .powerDown s = .next t ∧ t.mode = .OFF ∧
    (∀ a, t.ld a = memDefault a) ∧ t.poison = [] ∧ t.cfg = [] ∧ t.msix = [] ∧ t.ledger = [] ∧ t.chans = [] ∧ t.rings = [] ∧
    t.ll = [] ∧ t.doms = [] ∧ t.fwReady = false ∧ t.pending = s.pending ∧
    t.bt.hdr0 = s.bt.hdr0 ∧ t.bt.hdr1 = s.bt.hdr1 ∧ t.bt.ev0 = s.bt.ev0 ∧ t.bt.ev1 = s.bt.ev1 ∧ t.logFlash = s.logFlash ∧
    (∀ (f : Fld) (i : Nat), fuseFld f = true → t.fld f i = s.fld f i) ∧
    (∀ (f : Fld) (i : Nat), fuseFld f = false → t.fld f i = regDefault (fkey f i))

/-- A further cause of containment sets MORE, is logged, and leaves the first cause; errors outside LEAD, FOLLOW and CONTAIN
contain nothing (R389, R486). -/
def Obligations.ContainAgain : Prop :=
  ∀ (s : State) (b : Bool),
    (s.mode = .CONTAIN → ∃ t, exec (.datapathError b) s = .next t ∧ t.mode = .CONTAIN ∧ t.fld .HST_CONT_STS_MORE = 1 ∧
      t.fld .HST_CONT_STS_CAUSE = s.fld .HST_CONT_STS_CAUSE ∧ t.fld .HST_CONT_STS_CONTAINED = s.fld .HST_CONT_STS_CONTAINED ∧
      t = (s.set .HST_CONT_STS_MORE 0 1).faultLog { cls := 5, unit := 1, code := if b then 3 else 2 }) ∧
    (s.mode = .OFF ∨ s.mode = .STANDBY ∨ s.mode = .BOOT → exec (.datapathError b) s = .next s)

/-- A power request that a dependency forbids ends with DEPENDENCY (3) and changes no domain (R459). -/
def Obligations.DomainDependency : Prop :=
  ∀ (s : State) (d : Nat) (force : Bool), s.bt.domReq = none → d < 20 → domByReq d = true →
    (s.dom d ≠ .on → (∃ e ∈ domNeeds d, s.dom e ≠ .on) → s.domRequest d 1 force = s.domEnd d 3) ∧
    (s.domNeeded d = true → s.domRequest d 0 force = s.domEnd d 3) ∧
    (s.domNeeded d = true → domRetains d = true → s.domRequest d 2 force = s.domEnd d 3) ∧
    (s.domEnd d 3).doms = s.doms ∧ (s.domEnd d 3).fld .PWR_DOM_RESULT_RESULT = 3 ∧ (s.domEnd d 3).bt.domReq = none

/-! ### Mailboxes -/

/-- The states of a mailbox (R410, R412, R414): POST, RELEASE and CANCEL where they apply and where they are counted as
errors, and a core's claim. -/
def Obligations.MailboxStates : Prop :=
  ∀ (s : State) (m : Nat),
    (s.mbxState m = 0 ∨ s.mbxState m = 3 → s.flag .MBX_CFG_EN = true →
      (s.mbxPost m).mbxState m = 1 ∧ (s.mbxPost m).mbxGen m = (s.mbxGen m + 1) % 256 ∧
      (s.mbxPost m).mbxCancelReq m = false ∧ (s.mbxPost m).mbxQueue = s.mbxQueue ++ [m]) ∧
    (s.flag .MBX_CFG_EN = false ∨ s.mbxState m = 1 ∨ s.mbxState m = 2 → s.mbxPost m = s.mbxErr m) ∧
    (s.mbxState m = 3 → (s.mbxRelease m).mbxState m = 0 ∧ (s.mbxRelease m).mbxGen m = s.mbxGen m) ∧
    (s.mbxState m ≠ 3 → s.mbxRelease m = s.mbxErr m) ∧
    (s.mbxState m = 2 → (s.mbxCancel m).mbxState m = 2 ∧ (s.mbxCancel m).mbxCancelReq m = true ∧
      (s.mbxCancel m).mbxGen m = s.mbxGen m) ∧
    (s.mbxState m = 0 ∨ s.mbxState m = 3 → s.mbxCancel m = s.mbxErr m) ∧
    (∀ act, act ≠ 0 → s.mbxAct m act false = s.mbxErr m) ∧ (∀ own, s.mbxAct m 0 own = s) ∧
    (∀ c rest, s.mbxQueue = m :: rest → (s.mbxClaim c).1 = m ∧ (s.mbxClaim c).2.mbxState m = 2 ∧
      (s.mbxClaim c).2.mbxQueue = rest ∧ (s.mbxClaim c).2.mbxGen m = s.mbxGen m) ∧
    (∀ c, s.mbxQueue = [] → s.mbxClaim c = (0x80000000, s))

/-- The order in which a command's checks decide its STATUS and DETAIL (R419): ABI, class, REQ_LEN, mode and role. -/
def Obligations.CommandChecks : Prop :=
  ∀ (s : State) (k : CmdRule) (c : Cmd),
    (s.mbxAbi c.m ≠ 0 → s.mbxAbi c.m ≠ 0x0100 → s.cmdCheck k c = some (2, 0x0100)) ∧
    (s.mbxAbi c.m = 0 ∨ s.mbxAbi c.m = 0x0100 →
      (c.cls ∉ k.who → s.cmdCheck k c = some (3, c.cls)) ∧
      (c.cls ∈ k.who →
        (s.mbxLen c.m < k.lo → s.cmdCheck k c = some (4, k.lo)) ∧
        (k.lo ≤ s.mbxLen c.m → k.hi < s.mbxLen c.m → s.cmdCheck k c = some (4, k.hi)) ∧
        (k.lo ≤ s.mbxLen c.m → s.mbxLen c.m ≤ k.hi →
          (s.mode = .FOLLOW → k.mir = true ∨ 2 ≤ c.cls → s.cmdCheck k c = some (5, s.modeRole)) ∧
          (1 ≤ c.cls → c.cls ≤ 3 → s.fnState c.who = fnCONTAINED → k.free = false →
            s.cmdCheck k c = some (5, s.modeRole)) ∧
          (s.mode ≠ .FOLLOW → (c.cls = 0 ∨ 3 < c.cls ∨ s.fnState c.who ≠ fnCONTAINED ∨ k.free = true) →
            s.cmdCheck k c = none))))

/-! ### Atomics, equalisation and the ledger -/

/-- The value an atomic leaves, on operands of `n` bytes (R226): the sum modulo 2^(8n), the new value, or for CAS the swap
value where memory held the compare value. -/
def Obligations.AtomicValues : Prop :=
  ∀ (n : Nat) (old opd : List Byte), old.length = n →
    (n ≤ opd.length → ofBytes (atomResult .fetchAdd n old opd) = (ofBytes old + ofBytes (opd.take n)) % 2 ^ (8 * n) ∧
      (atomResult .fetchAdd n old opd).length = n) ∧
    (opd.length = n → atomResult .swap n old opd = opd) ∧
    (∀ cmp new : List Byte, cmp.length = n → new.length = n →
      (old = cmp → atomResult .cas n old (cmp ++ new) = new) ∧ (old ≠ cmp → atomResult .cas n old (cmp ++ new) = old))

/-- A coefficient request of a TRAIN block (R198): a tap stays within its steps, one step up or down where there is one, the
preset for 3, and no change for 0. -/
def Obligations.EqualiserTap : Prop :=
  ∀ (req cur init n : Nat), cur < n → init < n →
    (tapStep req cur init n).1 < n ∧ (tapStep 0 cur init n).1 = cur ∧ (tapStep 3 cur init n).1 = init ∧
    (cur + 1 < n → (tapStep 1 cur init n).1 = cur + 1) ∧ (cur + 1 = n → (tapStep 1 cur init n).1 = cur) ∧
    (0 < cur → (tapStep 2 cur init n).1 = cur - 1) ∧ (cur = 0 → (tapStep 2 cur init n).1 = 0)

/-- A ledger entry that opens takes NEXT of its pair as SEQ, NEXT advances by one modulo 65,536 (R154), and every other
pair's counter and every entry already open stay. A mirroring leader opens it only with room on the Seam (R397). -/
def Obligations.LedgerSequence : Prop :=
  ∀ (s : State) (w : LWait) (p init : Nat), p < 32768 → init < 32 → s.mirrors = false →
    (∃ e, (s.entryOpen w p init).ledger = s.ledger ++ [e] ∧ e.seq = s.seqNext p init ∧ e.port = p ∧ e.init = init ∧
      e.st = .opened ∧ e.req = w.req) ∧
    (s.entryOpen w p init).ldgWait = s.ldgWait.erase w ∧
    (s.entryOpen w p init).seqNext p init = (s.seqNext p init + 1) % 65536 ∧
    (∀ q i, q < 32768 → i < 32 → (q ≠ p ∨ i ≠ init) → (s.entryOpen w p init).seqNext q i = s.seqNext q i)

/-! ### The wire -/

/-- What a lane sends reads back: TRAIN and MARKER blocks with their CRC-8 (R193), payloads through the scrambler and the
descrambler from one state (R192), the levels of a 66-bit block at either kind of rate (R188), and a stripe that comes in on
its lanes in each lane's order, whatever the order among the lanes (R195). -/
def Obligations.LaneBlockRoundTrip : Prop :=
  (∀ b : TrainBlk, b.fits → laneCtl (trainWord b) = .train b) ∧
  (∀ b : MarkBlk, b.fits → laneCtl (markWord b) = .marker b) ∧
  (∀ h x, x < 2 ^ 64 → descramble h (scramble h x).1 = (x, (scramble h x).2)) ∧
  (∀ rate v, v < 2 ^ 66 → lineBlock rate (lineLevels rate v) = v) ∧
  (∀ (act : List Nat) (bs : List Nat) (n : Nat) (got : List (Nat × Nat)), act ≠ [] →
    (∀ i, got.filter (·.1 = i) = (stripe act n bs).filter (·.1 = i)) → unstripe act bs.length n got = bs)

/-- A run of packets laid in blocks reads back as the packets, in order and with no block left: every packet of the Urone
link (R218 to R244; `base` is where the request of a tag lies, by which a RESPONSE's data are laid out, R230) and of the
Seam link (R394). A Urone packet takes the blocks that its credit counts (R219). A control block reads back its TYPE, BSEQ
and ACKSEQ, with a good CRC-32 (R213, R214). -/
def Obligations.PacketRoundTrip : Prop :=
  (∀ (base : Nat → Nat) (ks : List UrPkt), (∀ k ∈ ks, k.fits base) →
    readPkts false base ks.length (ks.flatMap urWords) = (ks, [])) ∧
  (∀ (base : Nat → Nat) (k : UrPkt), k.fits base → (urWords k).length = k.blocks) ∧
  (∀ (base : Nat → Nat) (ks : List SeamPkt), (∀ k ∈ ks, k.fits) →
    readPkts true base ks.length (ks.flatMap seamWords) = (ks.map .seam, [])) ∧
  (∀ (typ bseq ackseq : Nat) (data : List Nat), typ < 256 → bseq < 4096 → ackseq < 4096 →
    ctlGood (ctlWord typ bseq ackseq data) data = true ∧
    fieldAt (ctlWord typ bseq ackseq data) 7 0 = typ ∧ fieldAt (ctlWord typ bseq ackseq data) 19 8 = bseq ∧
    fieldAt (ctlWord typ bseq ackseq data) 31 20 = ackseq)
end

