-- ==== Sys2Proof/Laws/SMap.lean ====
section
/-!
SUPPORT. Laws of the sparse maps: a read after a write, and the canonical form that every operation keeps.
-/
namespace Sys2Proof.Machine

variable {α : Type}

/-- Every key of the list is above `n`. -/
def smAbove (n : Nat) (m : List (Nat × α)) : Prop := ∀ p ∈ m, n < p.1

@[simp] theorem smGet_nil (d : Nat → α) (k : Nat) : smGet d [] k = d k := rfl

theorem smGet_smErase_self (d : Nat → α) (m : List (Nat × α)) (k : Nat) : smGet d (smErase m k) k = d k := by
  induction m with
  | nil => rfl
  | cons p t ih =>
    obtain ⟨a, v⟩ := p
    by_cases h : a = k <;> simp [smErase, smGet, h, ih]

theorem smGet_smErase_ne (d : Nat → α) (m : List (Nat × α)) {j k : Nat} (h : j ≠ k) :
    smGet d (smErase m k) j = smGet d m j := by
  induction m with
  | nil => rfl
  | cons p t ih =>
    obtain ⟨a, v⟩ := p
    by_cases ha : a = k
    · subst ha; simp [smErase, smGet, ih, Ne.symm h]
    · by_cases hj : a = j
      · subst hj; simp [smErase, smGet, ha]
      · simp [smErase, smGet, ha, hj, ih]

theorem smGet_smIns_self (d : Nat → α) (m : List (Nat × α)) (k : Nat) (v : α) (h : ∀ p ∈ m, p.1 ≠ k) :
    smGet d (smIns m k v) k = v := by
  induction m with
  | nil => simp [smIns, smGet]
  | cons p t ih =>
    obtain ⟨a, w⟩ := p
    have ha : a ≠ k := h (a, w) (by simp)
    have ht : ∀ p ∈ t, p.1 ≠ k := fun p hp => h p (by simp [hp])
    by_cases hk : a < k <;> simp [smIns, smGet, hk, ha, ih ht]

theorem smGet_smIns_ne (d : Nat → α) (m : List (Nat × α)) {j k : Nat} (v : α) (h : j ≠ k) :
    smGet d (smIns m k v) j = smGet d m j := by
  induction m with
  | nil => simp [smIns, smGet, Ne.symm h]
  | cons p t ih =>
    obtain ⟨a, w⟩ := p
    by_cases hk : a < k
    · by_cases hj : a = j
      · subst hj; simp [smIns, smGet, hk]
      · simp [smIns, smGet, hk, hj, ih]
    · simp [smIns, smGet, hk, Ne.symm h]

theorem smErase_keys (m : List (Nat × α)) (k : Nat) : ∀ p ∈ smErase m k, p ∈ m ∧ p.1 ≠ k := by
  induction m with
  | nil => simp [smErase]
  | cons q t ih =>
    obtain ⟨a, v⟩ := q
    intro p hp
    by_cases ha : a = k
    · simp only [smErase, ha, if_true] at hp
      exact ⟨List.mem_cons_of_mem _ (ih p hp).1, (ih p hp).2⟩
    · simp only [smErase, ha, if_false, List.mem_cons] at hp
      rcases hp with rfl | hp
      · exact ⟨by simp, ha⟩
      · exact ⟨List.mem_cons_of_mem _ (ih p hp).1, (ih p hp).2⟩

theorem smErase_sublist (m : List (Nat × α)) (k : Nat) : (smErase m k).Sublist m := by
  induction m with
  | nil => simp [smErase]
  | cons p t ih =>
    obtain ⟨a, v⟩ := p
    by_cases h : a = k
    · simp only [smErase, h, if_true]; exact ih.cons _
    · simp only [smErase, h, if_false]; exact ih.cons_cons _

theorem smKeep_sublist (p : Nat → Bool) (m : List (Nat × α)) : (smKeep p m).Sublist m := by
  induction m with
  | nil => simp [smKeep]
  | cons q t ih =>
    obtain ⟨a, v⟩ := q
    by_cases h : p a
    · simp only [smKeep, h, if_true]; exact ih.cons_cons _
    · simp only [smKeep, h]; exact ih.cons _

theorem mem_smIns (m : List (Nat × α)) (k : Nat) (v : α) : ∀ p ∈ smIns m k v, p = (k, v) ∨ p ∈ m := by
  induction m with
  | nil => simp [smIns]
  | cons q t ih =>
    obtain ⟨a, w⟩ := q
    intro p hp
    by_cases h : a < k
    · simp only [smIns, h, if_true, List.mem_cons] at hp
      rcases hp with rfl | hp
      · simp
      · rcases ih p hp with h1 | h1
        · exact Or.inl h1
        · exact Or.inr (List.mem_cons_of_mem _ h1)
    · simp only [smIns, h, if_false, List.mem_cons] at hp
      rcases hp with rfl | hp
      · exact Or.inl rfl
      · exact Or.inr (by simpa using hp)

theorem pairwise_smIns (m : List (Nat × α)) (k : Nat) (v : α) (h : m.Pairwise fun p q => p.1 < q.1)
    (hk : ∀ p ∈ m, p.1 ≠ k) : (smIns m k v).Pairwise fun p q => p.1 < q.1 := by
  induction m with
  | nil => simp [smIns]
  | cons q t ih =>
    obtain ⟨a, w⟩ := q
    have ht := List.pairwise_cons.1 h
    have hne : a ≠ k := hk (a, w) (by simp)
    by_cases ha : a < k
    · simp only [smIns, ha, if_true, List.pairwise_cons]
      refine ⟨fun p hp => ?_, ih ht.2 fun p hp => hk p (by simp [hp])⟩
      rcases mem_smIns t k v p hp with rfl | hp
      · exact ha
      · exact ht.1 p hp
    · have hlt : k < a := by omega
      simp only [smIns, ha, if_false, List.pairwise_cons]
      refine ⟨fun p hp => ?_, ht.1, ht.2⟩
      rcases List.mem_cons.1 hp with rfl | hp
      · exact hlt
      · exact Nat.lt_trans hlt (ht.1 p hp)

/-- A kept key reads as before, a dropped one as unlisted. -/
theorem smGet_smKeep (d : Nat → α) (p : Nat → Bool) (m : List (Nat × α)) (k : Nat) :
    smGet d (smKeep p m) k = if p k then smGet d m k else d k := by
  induction m with
  | nil => simp [smKeep]
  | cons q t ih =>
    obtain ⟨a, v⟩ := q
    by_cases ha : a = k
    · subst ha
      by_cases hp : p a
      · simp [smKeep, smGet, hp]
      · simp [smKeep, hp, ih]
    · by_cases hp : p a <;> simp [smKeep, smGet, hp, ha, ih]

variable [DecidableEq α]

/-- A read of the key just written gives what was written. -/
@[simp] theorem smGet_smSet_self (d : Nat → α) (m : List (Nat × α)) (k : Nat) (v : α) :
    smGet d (smSet d m k v) k = v := by
  unfold smSet
  split
  · next h => rw [smGet_smErase_self, h]
  · exact smGet_smIns_self d _ k v fun p hp => (smErase_keys m k p hp).2

/-- A write leaves every other key alone. -/
theorem smGet_smSet_ne (d : Nat → α) (m : List (Nat × α)) {j k : Nat} (v : α) (h : j ≠ k) :
    smGet d (smSet d m k v) j = smGet d m j := by
  unfold smSet
  split
  · exact smGet_smErase_ne d m h
  · rw [smGet_smIns_ne d _ v h, smGet_smErase_ne d m h]

/-- The canonical form as a statement about each entry and each pair of neighbours. -/
theorem smWf_iff (d : Nat → α) (m : List (Nat × α)) :
    smWf d m = true ↔ (m.Pairwise fun p q => p.1 < q.1) ∧ ∀ p ∈ m, p.2 ≠ d p.1 := by
  induction m with
  | nil => simp [smWf]
  | cons p t ih =>
    obtain ⟨a, v⟩ := p
    cases t with
    | nil => simp [smWf]
    | cons q t =>
      obtain ⟨b, w⟩ := q
      simp only [smWf, Bool.and_eq_true, decide_eq_true_eq, ih, List.pairwise_cons, List.mem_cons]
      constructor
      · rintro ⟨⟨hv, hab⟩, ⟨h1, h2⟩, h3⟩
        refine ⟨⟨?_, h1, h2⟩, ?_⟩
        · rintro x (rfl | hx)
          · exact hab
          · exact Nat.lt_trans hab (h1 x hx)
        · rintro x (rfl | hx)
          · exact hv
          · exact h3 x hx
      · rintro ⟨⟨h1, h2, h3⟩, h4⟩
        exact ⟨⟨h4 _ (Or.inl rfl), h1 _ (Or.inl rfl)⟩, ⟨h2, h3⟩, fun x hx => h4 x (Or.inr hx)⟩

/-- A part of a canonical list is canonical. -/
theorem smWf_sublist {d : Nat → α} {m n : List (Nat × α)} (hs : n.Sublist m) (h : smWf d m = true) : smWf d n = true := by
  rw [smWf_iff] at h ⊢
  exact ⟨h.1.sublist hs, fun p hp => h.2 p (hs.subset hp)⟩

/-- A write keeps the canonical form. -/
theorem smWf_smSet {d : Nat → α} {m : List (Nat × α)} (k : Nat) (v : α) (h : smWf d m = true) :
    smWf d (smSet d m k v) = true := by
  unfold smSet
  split
  · exact smWf_sublist (smErase_sublist m k) h
  · next hv =>
    have he := smWf_sublist (smErase_sublist m k) h
    rw [smWf_iff] at he ⊢
    refine ⟨pairwise_smIns _ k v he.1 fun p hp => (smErase_keys m k p hp).2, fun p hp => ?_⟩
    rcases mem_smIns _ k v p hp with rfl | hp
    · exact hv
    · exact he.2 p hp

/-- Dropping keys keeps the canonical form. -/
theorem smWf_smKeep {d : Nat → α} {m : List (Nat × α)} (p : Nat → Bool) (h : smWf d m = true) :
    smWf d (smKeep p m) = true := smWf_sublist (smKeep_sublist p m) h

end Sys2Proof.Machine
end

