-- ==== Sys2Proof/Laws/State.lean ====
section
/-!
SUPPORT. What each update of the state leaves alone, field by field: one lemma per field and update, true by `rfl`.
-/
namespace Sys2Proof.Machine

/-! ### `State.set` changes `regs` alone -/

@[simp] theorem State.set_pending (s : State) (f : Fld) (i v : Nat) : (s.set f i v).pending = s.pending := rfl
@[simp] theorem State.set_out (s : State) (f : Fld) (i v : Nat) : (s.set f i v).out = s.out := rfl
@[simp] theorem State.set_free (s : State) (f : Fld) (i v : Nat) : (s.set f i v).free = s.free := rfl
@[simp] theorem State.set_mem (s : State) (f : Fld) (i v : Nat) : (s.set f i v).mem = s.mem := rfl
@[simp] theorem State.set_poison (s : State) (f : Fld) (i v : Nat) : (s.set f i v).poison = s.poison := rfl
@[simp] theorem State.set_cfg (s : State) (f : Fld) (i v : Nat) : (s.set f i v).cfg = s.cfg := rfl
@[simp] theorem State.set_mode (s : State) (f : Fld) (i v : Nat) : (s.set f i v).mode = s.mode := rfl
@[simp] theorem State.set_tick (s : State) (f : Fld) (i v : Nat) : (s.set f i v).tick = s.tick := rfl
@[simp] theorem State.set_cache (s : State) (f : Fld) (i v : Nat) : (s.set f i v).cache = s.cache := rfl
@[simp] theorem State.set_walks (s : State) (f : Fld) (i v : Nat) : (s.set f i v).walks = s.walks := rfl
@[simp] theorem State.set_nextWalk (s : State) (f : Fld) (i v : Nat) : (s.set f i v).nextWalk = s.nextWalk := rfl
@[simp] theorem State.set_bitmap (s : State) (f : Fld) (i v : Nat) : (s.set f i v).bitmap = s.bitmap := rfl
@[simp] theorem State.set_prefetch (s : State) (f : Fld) (i v : Nat) : (s.set f i v).prefetch = s.prefetch := rfl
@[simp] theorem State.set_xltUnit (s : State) (f : Fld) (i v : Nat) : (s.set f i v).xltUnit = s.xltUnit := rfl
@[simp] theorem State.set_grdUnit (s : State) (f : Fld) (i v : Nat) : (s.set f i v).grdUnit = s.grdUnit := rfl
@[simp] theorem State.set_xltDrain (s : State) (f : Fld) (i v : Nat) : (s.set f i v).xltDrain = s.xltDrain := rfl
@[simp] theorem State.set_grdDrain (s : State) (f : Fld) (i v : Nat) : (s.set f i v).grdDrain = s.grdDrain := rfl
@[simp] theorem State.set_grdVer (s : State) (f : Fld) (i v : Nat) : (s.set f i v).grdVer = s.grdVer := rfl
@[simp] theorem State.set_grdOld (s : State) (f : Fld) (i v : Nat) : (s.set f i v).grdOld = s.grdOld := rfl
@[simp] theorem State.set_xltDefer (s : State) (f : Fld) (i v : Nat) : (s.set f i v).xltDefer = s.xltDefer := rfl
@[simp] theorem State.set_grdDefer (s : State) (f : Fld) (i v : Nat) : (s.set f i v).grdDefer = s.grdDefer := rfl
@[simp] theorem State.set_xltLive (s : State) (f : Fld) (i v : Nat) : (s.set f i v).xltLive = s.xltLive := rfl
@[simp] theorem State.set_grdLive (s : State) (f : Fld) (i v : Nat) : (s.set f i v).grdLive = s.grdLive := rfl
@[simp] theorem State.set_ledger (s : State) (f : Fld) (i v : Nat) : (s.set f i v).ledger = s.ledger := rfl
@[simp] theorem State.set_ldgWait (s : State) (f : Fld) (i v : Nat) : (s.set f i v).ldgWait = s.ldgWait := rfl
@[simp] theorem State.set_hist (s : State) (f : Fld) (i v : Nat) : (s.set f i v).hist = s.hist := rfl
@[simp] theorem State.set_late (s : State) (f : Fld) (i v : Nat) : (s.set f i v).late = s.late := rfl
@[simp] theorem State.set_groups (s : State) (f : Fld) (i v : Nat) : (s.set f i v).groups = s.groups := rfl
@[simp] theorem State.set_nextGrp (s : State) (f : Fld) (i v : Nat) : (s.set f i v).nextGrp = s.nextGrp := rfl
@[simp] theorem State.set_ordNext (s : State) (f : Fld) (i v : Nat) : (s.set f i v).ordNext = s.ordNext := rfl
@[simp] theorem State.set_heldReads (s : State) (f : Fld) (i v : Nat) : (s.set f i v).heldReads = s.heldReads := rfl
@[simp] theorem State.set_pReads (s : State) (f : Fld) (i v : Nat) : (s.set f i v).pReads = s.pReads := rfl
@[simp] theorem State.set_locks (s : State) (f : Fld) (i v : Nat) : (s.set f i v).locks = s.locks := rfl
@[simp] theorem State.set_lockWait (s : State) (f : Fld) (i v : Nat) : (s.set f i v).lockWait = s.lockWait := rfl
@[simp] theorem State.set_starchRun (s : State) (f : Fld) (i v : Nat) : (s.set f i v).starchRun = s.starchRun := rfl
@[simp] theorem State.set_bskWait (s : State) (f : Fld) (i v : Nat) : (s.set f i v).bskWait = s.bskWait := rfl
@[simp] theorem State.set_bTags (s : State) (f : Fld) (i v : Nat) : (s.set f i v).bTags = s.bTags := rfl
@[simp] theorem State.set_hReads (s : State) (f : Fld) (i v : Nat) : (s.set f i v).hReads = s.hReads := rfl
@[simp] theorem State.set_nextRid (s : State) (f : Fld) (i v : Nat) : (s.set f i v).nextRid = s.nextRid := rfl
@[simp] theorem State.set_cplHeld (s : State) (f : Fld) (i v : Nat) : (s.set f i v).cplHeld = s.cplHeld := rfl
@[simp] theorem State.set_jq (s : State) (f : Fld) (i v : Nat) : (s.set f i v).jq = s.jq := rfl
@[simp] theorem State.set_jCredit (s : State) (f : Fld) (i v : Nat) : (s.set f i v).jCredit = s.jCredit := rfl
@[simp] theorem State.set_jNext (s : State) (f : Fld) (i v : Nat) : (s.set f i v).jNext = s.jNext := rfl
@[simp] theorem State.set_dmaDone (s : State) (f : Fld) (i v : Nat) : (s.set f i v).dmaDone = s.dmaDone := rfl
@[simp] theorem State.set_ll (s : State) (f : Fld) (i v : Nat) : (s.set f i v).ll = s.ll := rfl
@[simp] theorem State.set_doms (s : State) (f : Fld) (i v : Nat) : (s.set f i v).doms = s.doms := rfl
@[simp] theorem State.set_rinseLeft (s : State) (f : Fld) (i v : Nat) : (s.set f i v).rinseLeft = s.rinseLeft := rfl
@[simp] theorem State.set_held (s : State) (f : Fld) (i v : Nat) : (s.set f i v).held = s.held := rfl
@[simp] theorem State.set_evqWrap (s : State) (f : Fld) (i v : Nat) : (s.set f i v).evqWrap = s.evqWrap := rfl
@[simp] theorem State.set_rid0 (s : State) (f : Fld) (i v : Nat) : (s.set f i v).rid0 = s.rid0 := rfl
@[simp] theorem State.set_vfForce (s : State) (f : Fld) (i v : Nat) : (s.set f i v).vfForce = s.vfForce := rfl
@[simp] theorem State.set_msix (s : State) (f : Fld) (i v : Nat) : (s.set f i v).msix = s.msix := rfl
@[simp] theorem State.set_irqIn (s : State) (f : Fld) (i v : Nat) : (s.set f i v).irqIn = s.irqIn := rfl
@[simp] theorem State.set_irqStack (s : State) (f : Fld) (i v : Nat) : (s.set f i v).irqStack = s.irqStack := rfl
@[simp] theorem State.set_intx (s : State) (f : Fld) (i v : Nat) : (s.set f i v).intx = s.intx := rfl
@[simp] theorem State.set_irqRaises (s : State) (f : Fld) (i v : Nat) : (s.set f i v).irqRaises = s.irqRaises := rfl
@[simp] theorem State.set_irqShown (s : State) (f : Fld) (i v : Nat) : (s.set f i v).irqShown = s.irqShown := rfl
@[simp] theorem State.set_irqStorm (s : State) (f : Fld) (i v : Nat) : (s.set f i v).irqStorm = s.irqStorm := rfl
@[simp] theorem State.set_irqStranded (s : State) (f : Fld) (i v : Nat) : (s.set f i v).irqStranded = s.irqStranded := rfl
@[simp] theorem State.set_ring (s : State) (f : Fld) (i v : Nat) : (s.set f i v).ring = s.ring := rfl
@[simp] theorem State.set_logWork (s : State) (f : Fld) (i v : Nat) : (s.set f i v).logWork = s.logWork := rfl
@[simp] theorem State.set_logFlash (s : State) (f : Fld) (i v : Nat) : (s.set f i v).logFlash = s.logFlash := rfl
@[simp] theorem State.set_cqIrq (s : State) (f : Fld) (i v : Nat) : (s.set f i v).cqIrq = s.cqIrq := rfl
@[simp] theorem State.set_chans (s : State) (f : Fld) (i v : Nat) : (s.set f i v).chans = s.chans := rfl
@[simp] theorem State.set_rings (s : State) (f : Fld) (i v : Nat) : (s.set f i v).rings = s.rings := rfl
@[simp] theorem State.set_rrPos (s : State) (f : Fld) (i v : Nat) : (s.set f i v).rrPos = s.rrPos := rfl
@[simp] theorem State.set_bursts (s : State) (f : Fld) (i v : Nat) : (s.set f i v).bursts = s.bursts := rfl
@[simp] theorem State.set_dmaDrain (s : State) (f : Fld) (i v : Nat) : (s.set f i v).dmaDrain = s.dmaDrain := rfl
@[simp] theorem State.set_mirSent (s : State) (f : Fld) (i v : Nat) : (s.set f i v).mirSent = s.mirSent := rfl
@[simp] theorem State.set_mirWait (s : State) (f : Fld) (i v : Nat) : (s.set f i v).mirWait = s.mirWait := rfl
@[simp] theorem State.set_mirDisp (s : State) (f : Fld) (i v : Nat) : (s.set f i v).mirDisp = s.mirDisp := rfl
@[simp] theorem State.set_ctxDirty (s : State) (f : Fld) (i v : Nat) : (s.set f i v).ctxDirty = s.ctxDirty := rfl
@[simp] theorem State.set_offered (s : State) (f : Fld) (i v : Nat) : (s.set f i v).offered = s.offered := rfl
@[simp] theorem State.set_seamStop (s : State) (f : Fld) (i v : Nat) : (s.set f i v).seamStop = s.seamStop := rfl
@[simp] theorem State.set_twinSync (s : State) (f : Fld) (i v : Nat) : (s.set f i v).twinSync = s.twinSync := rfl
@[simp] theorem State.set_hbCount (s : State) (f : Fld) (i v : Nat) : (s.set f i v).hbCount = s.hbCount := rfl
@[simp] theorem State.set_hbMiss (s : State) (f : Fld) (i v : Nat) : (s.set f i v).hbMiss = s.hbMiss := rfl
@[simp] theorem State.set_hbLast (s : State) (f : Fld) (i v : Nat) : (s.set f i v).hbLast = s.hbLast := rfl
@[simp] theorem State.set_ho (s : State) (f : Fld) (i v : Nat) : (s.set f i v).ho = s.ho := rfl
@[simp] theorem State.set_hoHeld (s : State) (f : Fld) (i v : Nat) : (s.set f i v).hoHeld = s.hoHeld := rfl
@[simp] theorem State.set_fwVer (s : State) (f : Fld) (i v : Nat) : (s.set f i v).fwVer = s.fwVer := rfl
@[simp] theorem State.set_perst (s : State) (f : Fld) (i v : Nat) : (s.set f i v).perst = s.perst := rfl
@[simp] theorem State.set_pmeOff (s : State) (f : Fld) (i v : Nat) : (s.set f i v).pmeOff = s.pmeOff := rfl
@[simp] theorem State.set_tlpQ (s : State) (f : Fld) (i v : Nat) : (s.set f i v).tlpQ = s.tlpQ := rfl
@[simp] theorem State.set_fwReady (s : State) (f : Fld) (i v : Nat) : (s.set f i v).fwReady = s.fwReady := rfl
@[simp] theorem State.set_ledErr (s : State) (f : Fld) (i v : Nat) : (s.set f i v).ledErr = s.ledErr := rfl
@[simp] theorem State.set_contLead (s : State) (f : Fld) (i v : Nat) : (s.set f i v).contLead = s.contLead := rfl
@[simp] theorem State.set_memAcc (s : State) (f : Fld) (i v : Nat) : (s.set f i v).memAcc = s.memAcc := rfl
@[simp] theorem State.set_memBusy (s : State) (f : Fld) (i v : Nat) : (s.set f i v).memBusy = s.memBusy := rfl
@[simp] theorem State.set_memAlias (s : State) (f : Fld) (i v : Nat) : (s.set f i v).memAlias = s.memAlias := rfl
@[simp] theorem State.set_mbxQueue (s : State) (f : Fld) (i v : Nat) : (s.set f i v).mbxQueue = s.mbxQueue := rfl
@[simp] theorem State.set_ceWindow (s : State) (f : Fld) (i v : Nat) : (s.set f i v).ceWindow = s.ceWindow := rfl
@[simp] theorem State.set_govCredit (s : State) (f : Fld) (i v : Nat) : (s.set f i v).govCredit = s.govCredit := rfl
@[simp] theorem State.set_govq (s : State) (f : Fld) (i v : Nat) : (s.set f i v).govq = s.govq := rfl
@[simp] theorem State.set_spill (s : State) (f : Fld) (i v : Nat) : (s.set f i v).spill = s.spill := rfl
@[simp] theorem State.set_govWin (s : State) (f : Fld) (i v : Nat) : (s.set f i v).govWin = s.govWin := rfl
@[simp] theorem State.set_resWin (s : State) (f : Fld) (i v : Nat) : (s.set f i v).resWin = s.resWin := rfl
@[simp] theorem State.set_c0Wait (s : State) (f : Fld) (i v : Nat) : (s.set f i v).c0Wait = s.c0Wait := rfl
@[simp] theorem State.set_govMiss (s : State) (f : Fld) (i v : Nat) : (s.set f i v).govMiss = s.govMiss := rfl
@[simp] theorem State.set_cleanRun (s : State) (f : Fld) (i v : Nat) : (s.set f i v).cleanRun = s.cleanRun := rfl
@[simp] theorem State.set_degraded (s : State) (f : Fld) (i v : Nat) : (s.set f i v).degraded = s.degraded := rfl
@[simp] theorem State.set_shareOld (s : State) (f : Fld) (i v : Nat) : (s.set f i v).shareOld = s.shareOld := rfl
@[simp] theorem State.set_shrUpd (s : State) (f : Fld) (i v : Nat) : (s.set f i v).shrUpd = s.shrUpd := rfl
@[simp] theorem State.set_winCount (s : State) (f : Fld) (i v : Nat) : (s.set f i v).winCount = s.winCount := rfl
@[simp] theorem State.set_lanes (s : State) (f : Fld) (i v : Nat) : (s.set f i v).lanes = s.lanes := rfl
@[simp] theorem State.set_laneMarks (s : State) (f : Fld) (i v : Nat) : (s.set f i v).laneMarks = s.laneMarks := rfl
@[simp] theorem State.set_laneSkew (s : State) (f : Fld) (i v : Nat) : (s.set f i v).laneSkew = s.laneSkew := rfl
@[simp] theorem State.set_laneTx (s : State) (f : Fld) (i v : Nat) : (s.set f i v).laneTx = s.laneTx := rfl
@[simp] theorem State.set_twinFar (s : State) (f : Fld) (i v : Nat) : (s.set f i v).twinFar = s.twinFar := rfl
@[simp] theorem State.set_bt (s : State) (f : Fld) (i v : Nat) : (s.set f i v).bt = s.bt := rfl
@[simp] theorem State.set_sc (s : State) (f : Fld) (i v : Nat) : (s.set f i v).sc = s.sc := rfl
@[simp] theorem State.set_mg (s : State) (f : Fld) (i v : Nat) : (s.set f i v).mg = s.mg := rfl
@[simp] theorem State.set_hp (s : State) (f : Fld) (i v : Nat) : (s.set f i v).hp = s.hp := rfl

/-! ### `State.st` changes `mem` alone -/

@[simp] theorem State.st_pending (s : State) (a : Nat) (b : Byte) : (s.st a b).pending = s.pending := rfl
@[simp] theorem State.st_out (s : State) (a : Nat) (b : Byte) : (s.st a b).out = s.out := rfl
@[simp] theorem State.st_free (s : State) (a : Nat) (b : Byte) : (s.st a b).free = s.free := rfl
@[simp] theorem State.st_regs (s : State) (a : Nat) (b : Byte) : (s.st a b).regs = s.regs := rfl
@[simp] theorem State.st_poison (s : State) (a : Nat) (b : Byte) : (s.st a b).poison = s.poison := rfl
@[simp] theorem State.st_cfg (s : State) (a : Nat) (b : Byte) : (s.st a b).cfg = s.cfg := rfl
@[simp] theorem State.st_mode (s : State) (a : Nat) (b : Byte) : (s.st a b).mode = s.mode := rfl
@[simp] theorem State.st_tick (s : State) (a : Nat) (b : Byte) : (s.st a b).tick = s.tick := rfl
@[simp] theorem State.st_cache (s : State) (a : Nat) (b : Byte) : (s.st a b).cache = s.cache := rfl
@[simp] theorem State.st_walks (s : State) (a : Nat) (b : Byte) : (s.st a b).walks = s.walks := rfl
@[simp] theorem State.st_nextWalk (s : State) (a : Nat) (b : Byte) : (s.st a b).nextWalk = s.nextWalk := rfl
@[simp] theorem State.st_bitmap (s : State) (a : Nat) (b : Byte) : (s.st a b).bitmap = s.bitmap := rfl
@[simp] theorem State.st_prefetch (s : State) (a : Nat) (b : Byte) : (s.st a b).prefetch = s.prefetch := rfl
@[simp] theorem State.st_xltUnit (s : State) (a : Nat) (b : Byte) : (s.st a b).xltUnit = s.xltUnit := rfl
@[simp] theorem State.st_grdUnit (s : State) (a : Nat) (b : Byte) : (s.st a b).grdUnit = s.grdUnit := rfl
@[simp] theorem State.st_xltDrain (s : State) (a : Nat) (b : Byte) : (s.st a b).xltDrain = s.xltDrain := rfl
@[simp] theorem State.st_grdDrain (s : State) (a : Nat) (b : Byte) : (s.st a b).grdDrain = s.grdDrain := rfl
@[simp] theorem State.st_grdVer (s : State) (a : Nat) (b : Byte) : (s.st a b).grdVer = s.grdVer := rfl
@[simp] theorem State.st_grdOld (s : State) (a : Nat) (b : Byte) : (s.st a b).grdOld = s.grdOld := rfl
@[simp] theorem State.st_xltDefer (s : State) (a : Nat) (b : Byte) : (s.st a b).xltDefer = s.xltDefer := rfl
@[simp] theorem State.st_grdDefer (s : State) (a : Nat) (b : Byte) : (s.st a b).grdDefer = s.grdDefer := rfl
@[simp] theorem State.st_xltLive (s : State) (a : Nat) (b : Byte) : (s.st a b).xltLive = s.xltLive := rfl
@[simp] theorem State.st_grdLive (s : State) (a : Nat) (b : Byte) : (s.st a b).grdLive = s.grdLive := rfl
@[simp] theorem State.st_ledger (s : State) (a : Nat) (b : Byte) : (s.st a b).ledger = s.ledger := rfl
@[simp] theorem State.st_ldgWait (s : State) (a : Nat) (b : Byte) : (s.st a b).ldgWait = s.ldgWait := rfl
@[simp] theorem State.st_hist (s : State) (a : Nat) (b : Byte) : (s.st a b).hist = s.hist := rfl
@[simp] theorem State.st_late (s : State) (a : Nat) (b : Byte) : (s.st a b).late = s.late := rfl
@[simp] theorem State.st_groups (s : State) (a : Nat) (b : Byte) : (s.st a b).groups = s.groups := rfl
@[simp] theorem State.st_nextGrp (s : State) (a : Nat) (b : Byte) : (s.st a b).nextGrp = s.nextGrp := rfl
@[simp] theorem State.st_ordNext (s : State) (a : Nat) (b : Byte) : (s.st a b).ordNext = s.ordNext := rfl
@[simp] theorem State.st_heldReads (s : State) (a : Nat) (b : Byte) : (s.st a b).heldReads = s.heldReads := rfl
@[simp] theorem State.st_pReads (s : State) (a : Nat) (b : Byte) : (s.st a b).pReads = s.pReads := rfl
@[simp] theorem State.st_locks (s : State) (a : Nat) (b : Byte) : (s.st a b).locks = s.locks := rfl
@[simp] theorem State.st_lockWait (s : State) (a : Nat) (b : Byte) : (s.st a b).lockWait = s.lockWait := rfl
@[simp] theorem State.st_starchRun (s : State) (a : Nat) (b : Byte) : (s.st a b).starchRun = s.starchRun := rfl
@[simp] theorem State.st_bskWait (s : State) (a : Nat) (b : Byte) : (s.st a b).bskWait = s.bskWait := rfl
@[simp] theorem State.st_bTags (s : State) (a : Nat) (b : Byte) : (s.st a b).bTags = s.bTags := rfl
@[simp] theorem State.st_hReads (s : State) (a : Nat) (b : Byte) : (s.st a b).hReads = s.hReads := rfl
@[simp] theorem State.st_nextRid (s : State) (a : Nat) (b : Byte) : (s.st a b).nextRid = s.nextRid := rfl
@[simp] theorem State.st_cplHeld (s : State) (a : Nat) (b : Byte) : (s.st a b).cplHeld = s.cplHeld := rfl
@[simp] theorem State.st_jq (s : State) (a : Nat) (b : Byte) : (s.st a b).jq = s.jq := rfl
@[simp] theorem State.st_jCredit (s : State) (a : Nat) (b : Byte) : (s.st a b).jCredit = s.jCredit := rfl
@[simp] theorem State.st_jNext (s : State) (a : Nat) (b : Byte) : (s.st a b).jNext = s.jNext := rfl
@[simp] theorem State.st_dmaDone (s : State) (a : Nat) (b : Byte) : (s.st a b).dmaDone = s.dmaDone := rfl
@[simp] theorem State.st_ll (s : State) (a : Nat) (b : Byte) : (s.st a b).ll = s.ll := rfl
@[simp] theorem State.st_doms (s : State) (a : Nat) (b : Byte) : (s.st a b).doms = s.doms := rfl
@[simp] theorem State.st_rinseLeft (s : State) (a : Nat) (b : Byte) : (s.st a b).rinseLeft = s.rinseLeft := rfl
@[simp] theorem State.st_held (s : State) (a : Nat) (b : Byte) : (s.st a b).held = s.held := rfl
@[simp] theorem State.st_evqWrap (s : State) (a : Nat) (b : Byte) : (s.st a b).evqWrap = s.evqWrap := rfl
@[simp] theorem State.st_rid0 (s : State) (a : Nat) (b : Byte) : (s.st a b).rid0 = s.rid0 := rfl
@[simp] theorem State.st_vfForce (s : State) (a : Nat) (b : Byte) : (s.st a b).vfForce = s.vfForce := rfl
@[simp] theorem State.st_msix (s : State) (a : Nat) (b : Byte) : (s.st a b).msix = s.msix := rfl
@[simp] theorem State.st_irqIn (s : State) (a : Nat) (b : Byte) : (s.st a b).irqIn = s.irqIn := rfl
@[simp] theorem State.st_irqStack (s : State) (a : Nat) (b : Byte) : (s.st a b).irqStack = s.irqStack := rfl
@[simp] theorem State.st_intx (s : State) (a : Nat) (b : Byte) : (s.st a b).intx = s.intx := rfl
@[simp] theorem State.st_irqRaises (s : State) (a : Nat) (b : Byte) : (s.st a b).irqRaises = s.irqRaises := rfl
@[simp] theorem State.st_irqShown (s : State) (a : Nat) (b : Byte) : (s.st a b).irqShown = s.irqShown := rfl
@[simp] theorem State.st_irqStorm (s : State) (a : Nat) (b : Byte) : (s.st a b).irqStorm = s.irqStorm := rfl
@[simp] theorem State.st_irqStranded (s : State) (a : Nat) (b : Byte) : (s.st a b).irqStranded = s.irqStranded := rfl
@[simp] theorem State.st_ring (s : State) (a : Nat) (b : Byte) : (s.st a b).ring = s.ring := rfl
@[simp] theorem State.st_logWork (s : State) (a : Nat) (b : Byte) : (s.st a b).logWork = s.logWork := rfl
@[simp] theorem State.st_logFlash (s : State) (a : Nat) (b : Byte) : (s.st a b).logFlash = s.logFlash := rfl
@[simp] theorem State.st_cqIrq (s : State) (a : Nat) (b : Byte) : (s.st a b).cqIrq = s.cqIrq := rfl
@[simp] theorem State.st_chans (s : State) (a : Nat) (b : Byte) : (s.st a b).chans = s.chans := rfl
@[simp] theorem State.st_rings (s : State) (a : Nat) (b : Byte) : (s.st a b).rings = s.rings := rfl
@[simp] theorem State.st_rrPos (s : State) (a : Nat) (b : Byte) : (s.st a b).rrPos = s.rrPos := rfl
@[simp] theorem State.st_bursts (s : State) (a : Nat) (b : Byte) : (s.st a b).bursts = s.bursts := rfl
@[simp] theorem State.st_dmaDrain (s : State) (a : Nat) (b : Byte) : (s.st a b).dmaDrain = s.dmaDrain := rfl
@[simp] theorem State.st_mirSent (s : State) (a : Nat) (b : Byte) : (s.st a b).mirSent = s.mirSent := rfl
@[simp] theorem State.st_mirWait (s : State) (a : Nat) (b : Byte) : (s.st a b).mirWait = s.mirWait := rfl
@[simp] theorem State.st_mirDisp (s : State) (a : Nat) (b : Byte) : (s.st a b).mirDisp = s.mirDisp := rfl
@[simp] theorem State.st_ctxDirty (s : State) (a : Nat) (b : Byte) : (s.st a b).ctxDirty = s.ctxDirty := rfl
@[simp] theorem State.st_offered (s : State) (a : Nat) (b : Byte) : (s.st a b).offered = s.offered := rfl
@[simp] theorem State.st_seamStop (s : State) (a : Nat) (b : Byte) : (s.st a b).seamStop = s.seamStop := rfl
@[simp] theorem State.st_twinSync (s : State) (a : Nat) (b : Byte) : (s.st a b).twinSync = s.twinSync := rfl
@[simp] theorem State.st_hbCount (s : State) (a : Nat) (b : Byte) : (s.st a b).hbCount = s.hbCount := rfl
@[simp] theorem State.st_hbMiss (s : State) (a : Nat) (b : Byte) : (s.st a b).hbMiss = s.hbMiss := rfl
@[simp] theorem State.st_hbLast (s : State) (a : Nat) (b : Byte) : (s.st a b).hbLast = s.hbLast := rfl
@[simp] theorem State.st_ho (s : State) (a : Nat) (b : Byte) : (s.st a b).ho = s.ho := rfl
@[simp] theorem State.st_hoHeld (s : State) (a : Nat) (b : Byte) : (s.st a b).hoHeld = s.hoHeld := rfl
@[simp] theorem State.st_fwVer (s : State) (a : Nat) (b : Byte) : (s.st a b).fwVer = s.fwVer := rfl
@[simp] theorem State.st_perst (s : State) (a : Nat) (b : Byte) : (s.st a b).perst = s.perst := rfl
@[simp] theorem State.st_pmeOff (s : State) (a : Nat) (b : Byte) : (s.st a b).pmeOff = s.pmeOff := rfl
@[simp] theorem State.st_tlpQ (s : State) (a : Nat) (b : Byte) : (s.st a b).tlpQ = s.tlpQ := rfl
@[simp] theorem State.st_fwReady (s : State) (a : Nat) (b : Byte) : (s.st a b).fwReady = s.fwReady := rfl
@[simp] theorem State.st_ledErr (s : State) (a : Nat) (b : Byte) : (s.st a b).ledErr = s.ledErr := rfl
@[simp] theorem State.st_contLead (s : State) (a : Nat) (b : Byte) : (s.st a b).contLead = s.contLead := rfl
@[simp] theorem State.st_memAcc (s : State) (a : Nat) (b : Byte) : (s.st a b).memAcc = s.memAcc := rfl
@[simp] theorem State.st_memBusy (s : State) (a : Nat) (b : Byte) : (s.st a b).memBusy = s.memBusy := rfl
@[simp] theorem State.st_memAlias (s : State) (a : Nat) (b : Byte) : (s.st a b).memAlias = s.memAlias := rfl
@[simp] theorem State.st_mbxQueue (s : State) (a : Nat) (b : Byte) : (s.st a b).mbxQueue = s.mbxQueue := rfl
@[simp] theorem State.st_ceWindow (s : State) (a : Nat) (b : Byte) : (s.st a b).ceWindow = s.ceWindow := rfl
@[simp] theorem State.st_govCredit (s : State) (a : Nat) (b : Byte) : (s.st a b).govCredit = s.govCredit := rfl
@[simp] theorem State.st_govq (s : State) (a : Nat) (b : Byte) : (s.st a b).govq = s.govq := rfl
@[simp] theorem State.st_spill (s : State) (a : Nat) (b : Byte) : (s.st a b).spill = s.spill := rfl
@[simp] theorem State.st_govWin (s : State) (a : Nat) (b : Byte) : (s.st a b).govWin = s.govWin := rfl
@[simp] theorem State.st_resWin (s : State) (a : Nat) (b : Byte) : (s.st a b).resWin = s.resWin := rfl
@[simp] theorem State.st_c0Wait (s : State) (a : Nat) (b : Byte) : (s.st a b).c0Wait = s.c0Wait := rfl
@[simp] theorem State.st_govMiss (s : State) (a : Nat) (b : Byte) : (s.st a b).govMiss = s.govMiss := rfl
@[simp] theorem State.st_cleanRun (s : State) (a : Nat) (b : Byte) : (s.st a b).cleanRun = s.cleanRun := rfl
@[simp] theorem State.st_degraded (s : State) (a : Nat) (b : Byte) : (s.st a b).degraded = s.degraded := rfl
@[simp] theorem State.st_shareOld (s : State) (a : Nat) (b : Byte) : (s.st a b).shareOld = s.shareOld := rfl
@[simp] theorem State.st_shrUpd (s : State) (a : Nat) (b : Byte) : (s.st a b).shrUpd = s.shrUpd := rfl
@[simp] theorem State.st_winCount (s : State) (a : Nat) (b : Byte) : (s.st a b).winCount = s.winCount := rfl
@[simp] theorem State.st_lanes (s : State) (a : Nat) (b : Byte) : (s.st a b).lanes = s.lanes := rfl
@[simp] theorem State.st_laneMarks (s : State) (a : Nat) (b : Byte) : (s.st a b).laneMarks = s.laneMarks := rfl
@[simp] theorem State.st_laneSkew (s : State) (a : Nat) (b : Byte) : (s.st a b).laneSkew = s.laneSkew := rfl
@[simp] theorem State.st_laneTx (s : State) (a : Nat) (b : Byte) : (s.st a b).laneTx = s.laneTx := rfl
@[simp] theorem State.st_twinFar (s : State) (a : Nat) (b : Byte) : (s.st a b).twinFar = s.twinFar := rfl
@[simp] theorem State.st_bt (s : State) (a : Nat) (b : Byte) : (s.st a b).bt = s.bt := rfl
@[simp] theorem State.st_sc (s : State) (a : Nat) (b : Byte) : (s.st a b).sc = s.sc := rfl
@[simp] theorem State.st_mg (s : State) (a : Nat) (b : Byte) : (s.st a b).mg = s.mg := rfl
@[simp] theorem State.st_hp (s : State) (a : Nat) (b : Byte) : (s.st a b).hp = s.hp := rfl

/-! ### `State.setPoison` changes `poison` alone -/

@[simp] theorem State.setPoison_pending (s : State) (a : Nat) (b : Bool) : (s.setPoison a b).pending = s.pending := rfl
@[simp] theorem State.setPoison_out (s : State) (a : Nat) (b : Bool) : (s.setPoison a b).out = s.out := rfl
@[simp] theorem State.setPoison_free (s : State) (a : Nat) (b : Bool) : (s.setPoison a b).free = s.free := rfl
@[simp] theorem State.setPoison_regs (s : State) (a : Nat) (b : Bool) : (s.setPoison a b).regs = s.regs := rfl
@[simp] theorem State.setPoison_mem (s : State) (a : Nat) (b : Bool) : (s.setPoison a b).mem = s.mem := rfl
@[simp] theorem State.setPoison_cfg (s : State) (a : Nat) (b : Bool) : (s.setPoison a b).cfg = s.cfg := rfl
@[simp] theorem State.setPoison_mode (s : State) (a : Nat) (b : Bool) : (s.setPoison a b).mode = s.mode := rfl
@[simp] theorem State.setPoison_tick (s : State) (a : Nat) (b : Bool) : (s.setPoison a b).tick = s.tick := rfl
@[simp] theorem State.setPoison_cache (s : State) (a : Nat) (b : Bool) : (s.setPoison a b).cache = s.cache := rfl
@[simp] theorem State.setPoison_walks (s : State) (a : Nat) (b : Bool) : (s.setPoison a b).walks = s.walks := rfl
@[simp] theorem State.setPoison_nextWalk (s : State) (a : Nat) (b : Bool) : (s.setPoison a b).nextWalk = s.nextWalk := rfl
@[simp] theorem State.setPoison_bitmap (s : State) (a : Nat) (b : Bool) : (s.setPoison a b).bitmap = s.bitmap := rfl
@[simp] theorem State.setPoison_prefetch (s : State) (a : Nat) (b : Bool) : (s.setPoison a b).prefetch = s.prefetch := rfl
@[simp] theorem State.setPoison_xltUnit (s : State) (a : Nat) (b : Bool) : (s.setPoison a b).xltUnit = s.xltUnit := rfl
@[simp] theorem State.setPoison_grdUnit (s : State) (a : Nat) (b : Bool) : (s.setPoison a b).grdUnit = s.grdUnit := rfl
@[simp] theorem State.setPoison_xltDrain (s : State) (a : Nat) (b : Bool) : (s.setPoison a b).xltDrain = s.xltDrain := rfl
@[simp] theorem State.setPoison_grdDrain (s : State) (a : Nat) (b : Bool) : (s.setPoison a b).grdDrain = s.grdDrain := rfl
@[simp] theorem State.setPoison_grdVer (s : State) (a : Nat) (b : Bool) : (s.setPoison a b).grdVer = s.grdVer := rfl
@[simp] theorem State.setPoison_grdOld (s : State) (a : Nat) (b : Bool) : (s.setPoison a b).grdOld = s.grdOld := rfl
@[simp] theorem State.setPoison_xltDefer (s : State) (a : Nat) (b : Bool) : (s.setPoison a b).xltDefer = s.xltDefer := rfl
@[simp] theorem State.setPoison_grdDefer (s : State) (a : Nat) (b : Bool) : (s.setPoison a b).grdDefer = s.grdDefer := rfl
@[simp] theorem State.setPoison_xltLive (s : State) (a : Nat) (b : Bool) : (s.setPoison a b).xltLive = s.xltLive := rfl
@[simp] theorem State.setPoison_grdLive (s : State) (a : Nat) (b : Bool) : (s.setPoison a b).grdLive = s.grdLive := rfl
@[simp] theorem State.setPoison_ledger (s : State) (a : Nat) (b : Bool) : (s.setPoison a b).ledger = s.ledger := rfl
@[simp] theorem State.setPoison_ldgWait (s : State) (a : Nat) (b : Bool) : (s.setPoison a b).ldgWait = s.ldgWait := rfl
@[simp] theorem State.setPoison_hist (s : State) (a : Nat) (b : Bool) : (s.setPoison a b).hist = s.hist := rfl
@[simp] theorem State.setPoison_late (s : State) (a : Nat) (b : Bool) : (s.setPoison a b).late = s.late := rfl
@[simp] theorem State.setPoison_groups (s : State) (a : Nat) (b : Bool) : (s.setPoison a b).groups = s.groups := rfl
@[simp] theorem State.setPoison_nextGrp (s : State) (a : Nat) (b : Bool) : (s.setPoison a b).nextGrp = s.nextGrp := rfl
@[simp] theorem State.setPoison_ordNext (s : State) (a : Nat) (b : Bool) : (s.setPoison a b).ordNext = s.ordNext := rfl
@[simp] theorem State.setPoison_heldReads (s : State) (a : Nat) (b : Bool) : (s.setPoison a b).heldReads = s.heldReads := rfl
@[simp] theorem State.setPoison_pReads (s : State) (a : Nat) (b : Bool) : (s.setPoison a b).pReads = s.pReads := rfl
@[simp] theorem State.setPoison_locks (s : State) (a : Nat) (b : Bool) : (s.setPoison a b).locks = s.locks := rfl
@[simp] theorem State.setPoison_lockWait (s : State) (a : Nat) (b : Bool) : (s.setPoison a b).lockWait = s.lockWait := rfl
@[simp] theorem State.setPoison_starchRun (s : State) (a : Nat) (b : Bool) : (s.setPoison a b).starchRun = s.starchRun := rfl
@[simp] theorem State.setPoison_bskWait (s : State) (a : Nat) (b : Bool) : (s.setPoison a b).bskWait = s.bskWait := rfl
@[simp] theorem State.setPoison_bTags (s : State) (a : Nat) (b : Bool) : (s.setPoison a b).bTags = s.bTags := rfl
@[simp] theorem State.setPoison_hReads (s : State) (a : Nat) (b : Bool) : (s.setPoison a b).hReads = s.hReads := rfl
@[simp] theorem State.setPoison_nextRid (s : State) (a : Nat) (b : Bool) : (s.setPoison a b).nextRid = s.nextRid := rfl
@[simp] theorem State.setPoison_cplHeld (s : State) (a : Nat) (b : Bool) : (s.setPoison a b).cplHeld = s.cplHeld := rfl
@[simp] theorem State.setPoison_jq (s : State) (a : Nat) (b : Bool) : (s.setPoison a b).jq = s.jq := rfl
@[simp] theorem State.setPoison_jCredit (s : State) (a : Nat) (b : Bool) : (s.setPoison a b).jCredit = s.jCredit := rfl
@[simp] theorem State.setPoison_jNext (s : State) (a : Nat) (b : Bool) : (s.setPoison a b).jNext = s.jNext := rfl
@[simp] theorem State.setPoison_dmaDone (s : State) (a : Nat) (b : Bool) : (s.setPoison a b).dmaDone = s.dmaDone := rfl
@[simp] theorem State.setPoison_ll (s : State) (a : Nat) (b : Bool) : (s.setPoison a b).ll = s.ll := rfl
@[simp] theorem State.setPoison_doms (s : State) (a : Nat) (b : Bool) : (s.setPoison a b).doms = s.doms := rfl
@[simp] theorem State.setPoison_rinseLeft (s : State) (a : Nat) (b : Bool) : (s.setPoison a b).rinseLeft = s.rinseLeft := rfl
@[simp] theorem State.setPoison_held (s : State) (a : Nat) (b : Bool) : (s.setPoison a b).held = s.held := rfl
@[simp] theorem State.setPoison_evqWrap (s : State) (a : Nat) (b : Bool) : (s.setPoison a b).evqWrap = s.evqWrap := rfl
@[simp] theorem State.setPoison_rid0 (s : State) (a : Nat) (b : Bool) : (s.setPoison a b).rid0 = s.rid0 := rfl
@[simp] theorem State.setPoison_vfForce (s : State) (a : Nat) (b : Bool) : (s.setPoison a b).vfForce = s.vfForce := rfl
@[simp] theorem State.setPoison_msix (s : State) (a : Nat) (b : Bool) : (s.setPoison a b).msix = s.msix := rfl
@[simp] theorem State.setPoison_irqIn (s : State) (a : Nat) (b : Bool) : (s.setPoison a b).irqIn = s.irqIn := rfl
@[simp] theorem State.setPoison_irqStack (s : State) (a : Nat) (b : Bool) : (s.setPoison a b).irqStack = s.irqStack := rfl
@[simp] theorem State.setPoison_intx (s : State) (a : Nat) (b : Bool) : (s.setPoison a b).intx = s.intx := rfl
@[simp] theorem State.setPoison_irqRaises (s : State) (a : Nat) (b : Bool) : (s.setPoison a b).irqRaises = s.irqRaises := rfl
@[simp] theorem State.setPoison_irqShown (s : State) (a : Nat) (b : Bool) : (s.setPoison a b).irqShown = s.irqShown := rfl
@[simp] theorem State.setPoison_irqStorm (s : State) (a : Nat) (b : Bool) : (s.setPoison a b).irqStorm = s.irqStorm := rfl
@[simp] theorem State.setPoison_irqStranded (s : State) (a : Nat) (b : Bool) : (s.setPoison a b).irqStranded = s.irqStranded := rfl
@[simp] theorem State.setPoison_ring (s : State) (a : Nat) (b : Bool) : (s.setPoison a b).ring = s.ring := rfl
@[simp] theorem State.setPoison_logWork (s : State) (a : Nat) (b : Bool) : (s.setPoison a b).logWork = s.logWork := rfl
@[simp] theorem State.setPoison_logFlash (s : State) (a : Nat) (b : Bool) : (s.setPoison a b).logFlash = s.logFlash := rfl
@[simp] theorem State.setPoison_cqIrq (s : State) (a : Nat) (b : Bool) : (s.setPoison a b).cqIrq = s.cqIrq := rfl
@[simp] theorem State.setPoison_chans (s : State) (a : Nat) (b : Bool) : (s.setPoison a b).chans = s.chans := rfl
@[simp] theorem State.setPoison_rings (s : State) (a : Nat) (b : Bool) : (s.setPoison a b).rings = s.rings := rfl
@[simp] theorem State.setPoison_rrPos (s : State) (a : Nat) (b : Bool) : (s.setPoison a b).rrPos = s.rrPos := rfl
@[simp] theorem State.setPoison_bursts (s : State) (a : Nat) (b : Bool) : (s.setPoison a b).bursts = s.bursts := rfl
@[simp] theorem State.setPoison_dmaDrain (s : State) (a : Nat) (b : Bool) : (s.setPoison a b).dmaDrain = s.dmaDrain := rfl
@[simp] theorem State.setPoison_mirSent (s : State) (a : Nat) (b : Bool) : (s.setPoison a b).mirSent = s.mirSent := rfl
@[simp] theorem State.setPoison_mirWait (s : State) (a : Nat) (b : Bool) : (s.setPoison a b).mirWait = s.mirWait := rfl
@[simp] theorem State.setPoison_mirDisp (s : State) (a : Nat) (b : Bool) : (s.setPoison a b).mirDisp = s.mirDisp := rfl
@[simp] theorem State.setPoison_ctxDirty (s : State) (a : Nat) (b : Bool) : (s.setPoison a b).ctxDirty = s.ctxDirty := rfl
@[simp] theorem State.setPoison_offered (s : State) (a : Nat) (b : Bool) : (s.setPoison a b).offered = s.offered := rfl
@[simp] theorem State.setPoison_seamStop (s : State) (a : Nat) (b : Bool) : (s.setPoison a b).seamStop = s.seamStop := rfl
@[simp] theorem State.setPoison_twinSync (s : State) (a : Nat) (b : Bool) : (s.setPoison a b).twinSync = s.twinSync := rfl
@[simp] theorem State.setPoison_hbCount (s : State) (a : Nat) (b : Bool) : (s.setPoison a b).hbCount = s.hbCount := rfl
@[simp] theorem State.setPoison_hbMiss (s : State) (a : Nat) (b : Bool) : (s.setPoison a b).hbMiss = s.hbMiss := rfl
@[simp] theorem State.setPoison_hbLast (s : State) (a : Nat) (b : Bool) : (s.setPoison a b).hbLast = s.hbLast := rfl
@[simp] theorem State.setPoison_ho (s : State) (a : Nat) (b : Bool) : (s.setPoison a b).ho = s.ho := rfl
@[simp] theorem State.setPoison_hoHeld (s : State) (a : Nat) (b : Bool) : (s.setPoison a b).hoHeld = s.hoHeld := rfl
@[simp] theorem State.setPoison_fwVer (s : State) (a : Nat) (b : Bool) : (s.setPoison a b).fwVer = s.fwVer := rfl
@[simp] theorem State.setPoison_perst (s : State) (a : Nat) (b : Bool) : (s.setPoison a b).perst = s.perst := rfl
@[simp] theorem State.setPoison_pmeOff (s : State) (a : Nat) (b : Bool) : (s.setPoison a b).pmeOff = s.pmeOff := rfl
@[simp] theorem State.setPoison_tlpQ (s : State) (a : Nat) (b : Bool) : (s.setPoison a b).tlpQ = s.tlpQ := rfl
@[simp] theorem State.setPoison_fwReady (s : State) (a : Nat) (b : Bool) : (s.setPoison a b).fwReady = s.fwReady := rfl
@[simp] theorem State.setPoison_ledErr (s : State) (a : Nat) (b : Bool) : (s.setPoison a b).ledErr = s.ledErr := rfl
@[simp] theorem State.setPoison_contLead (s : State) (a : Nat) (b : Bool) : (s.setPoison a b).contLead = s.contLead := rfl
@[simp] theorem State.setPoison_memAcc (s : State) (a : Nat) (b : Bool) : (s.setPoison a b).memAcc = s.memAcc := rfl
@[simp] theorem State.setPoison_memBusy (s : State) (a : Nat) (b : Bool) : (s.setPoison a b).memBusy = s.memBusy := rfl
@[simp] theorem State.setPoison_memAlias (s : State) (a : Nat) (b : Bool) : (s.setPoison a b).memAlias = s.memAlias := rfl
@[simp] theorem State.setPoison_mbxQueue (s : State) (a : Nat) (b : Bool) : (s.setPoison a b).mbxQueue = s.mbxQueue := rfl
@[simp] theorem State.setPoison_ceWindow (s : State) (a : Nat) (b : Bool) : (s.setPoison a b).ceWindow = s.ceWindow := rfl
@[simp] theorem State.setPoison_govCredit (s : State) (a : Nat) (b : Bool) : (s.setPoison a b).govCredit = s.govCredit := rfl
@[simp] theorem State.setPoison_govq (s : State) (a : Nat) (b : Bool) : (s.setPoison a b).govq = s.govq := rfl
@[simp] theorem State.setPoison_spill (s : State) (a : Nat) (b : Bool) : (s.setPoison a b).spill = s.spill := rfl
@[simp] theorem State.setPoison_govWin (s : State) (a : Nat) (b : Bool) : (s.setPoison a b).govWin = s.govWin := rfl
@[simp] theorem State.setPoison_resWin (s : State) (a : Nat) (b : Bool) : (s.setPoison a b).resWin = s.resWin := rfl
@[simp] theorem State.setPoison_c0Wait (s : State) (a : Nat) (b : Bool) : (s.setPoison a b).c0Wait = s.c0Wait := rfl
@[simp] theorem State.setPoison_govMiss (s : State) (a : Nat) (b : Bool) : (s.setPoison a b).govMiss = s.govMiss := rfl
@[simp] theorem State.setPoison_cleanRun (s : State) (a : Nat) (b : Bool) : (s.setPoison a b).cleanRun = s.cleanRun := rfl
@[simp] theorem State.setPoison_degraded (s : State) (a : Nat) (b : Bool) : (s.setPoison a b).degraded = s.degraded := rfl
@[simp] theorem State.setPoison_shareOld (s : State) (a : Nat) (b : Bool) : (s.setPoison a b).shareOld = s.shareOld := rfl
@[simp] theorem State.setPoison_shrUpd (s : State) (a : Nat) (b : Bool) : (s.setPoison a b).shrUpd = s.shrUpd := rfl
@[simp] theorem State.setPoison_winCount (s : State) (a : Nat) (b : Bool) : (s.setPoison a b).winCount = s.winCount := rfl
@[simp] theorem State.setPoison_lanes (s : State) (a : Nat) (b : Bool) : (s.setPoison a b).lanes = s.lanes := rfl
@[simp] theorem State.setPoison_laneMarks (s : State) (a : Nat) (b : Bool) : (s.setPoison a b).laneMarks = s.laneMarks := rfl
@[simp] theorem State.setPoison_laneSkew (s : State) (a : Nat) (b : Bool) : (s.setPoison a b).laneSkew = s.laneSkew := rfl
@[simp] theorem State.setPoison_laneTx (s : State) (a : Nat) (b : Bool) : (s.setPoison a b).laneTx = s.laneTx := rfl
@[simp] theorem State.setPoison_twinFar (s : State) (a : Nat) (b : Bool) : (s.setPoison a b).twinFar = s.twinFar := rfl
@[simp] theorem State.setPoison_bt (s : State) (a : Nat) (b : Bool) : (s.setPoison a b).bt = s.bt := rfl
@[simp] theorem State.setPoison_sc (s : State) (a : Nat) (b : Bool) : (s.setPoison a b).sc = s.sc := rfl
@[simp] theorem State.setPoison_mg (s : State) (a : Nat) (b : Bool) : (s.setPoison a b).mg = s.mg := rfl
@[simp] theorem State.setPoison_hp (s : State) (a : Nat) (b : Bool) : (s.setPoison a b).hp = s.hp := rfl

/-! ### `State.send` changes `out` alone -/

@[simp] theorem State.send_pending (s : State) (o : Out) : (s.send o).pending = s.pending := rfl
@[simp] theorem State.send_free (s : State) (o : Out) : (s.send o).free = s.free := rfl
@[simp] theorem State.send_regs (s : State) (o : Out) : (s.send o).regs = s.regs := rfl
@[simp] theorem State.send_mem (s : State) (o : Out) : (s.send o).mem = s.mem := rfl
@[simp] theorem State.send_poison (s : State) (o : Out) : (s.send o).poison = s.poison := rfl
@[simp] theorem State.send_cfg (s : State) (o : Out) : (s.send o).cfg = s.cfg := rfl
@[simp] theorem State.send_mode (s : State) (o : Out) : (s.send o).mode = s.mode := rfl
@[simp] theorem State.send_tick (s : State) (o : Out) : (s.send o).tick = s.tick := rfl
@[simp] theorem State.send_cache (s : State) (o : Out) : (s.send o).cache = s.cache := rfl
@[simp] theorem State.send_walks (s : State) (o : Out) : (s.send o).walks = s.walks := rfl
@[simp] theorem State.send_nextWalk (s : State) (o : Out) : (s.send o).nextWalk = s.nextWalk := rfl
@[simp] theorem State.send_bitmap (s : State) (o : Out) : (s.send o).bitmap = s.bitmap := rfl
@[simp] theorem State.send_prefetch (s : State) (o : Out) : (s.send o).prefetch = s.prefetch := rfl
@[simp] theorem State.send_xltUnit (s : State) (o : Out) : (s.send o).xltUnit = s.xltUnit := rfl
@[simp] theorem State.send_grdUnit (s : State) (o : Out) : (s.send o).grdUnit = s.grdUnit := rfl
@[simp] theorem State.send_xltDrain (s : State) (o : Out) : (s.send o).xltDrain = s.xltDrain := rfl
@[simp] theorem State.send_grdDrain (s : State) (o : Out) : (s.send o).grdDrain = s.grdDrain := rfl
@[simp] theorem State.send_grdVer (s : State) (o : Out) : (s.send o).grdVer = s.grdVer := rfl
@[simp] theorem State.send_grdOld (s : State) (o : Out) : (s.send o).grdOld = s.grdOld := rfl
@[simp] theorem State.send_xltDefer (s : State) (o : Out) : (s.send o).xltDefer = s.xltDefer := rfl
@[simp] theorem State.send_grdDefer (s : State) (o : Out) : (s.send o).grdDefer = s.grdDefer := rfl
@[simp] theorem State.send_xltLive (s : State) (o : Out) : (s.send o).xltLive = s.xltLive := rfl
@[simp] theorem State.send_grdLive (s : State) (o : Out) : (s.send o).grdLive = s.grdLive := rfl
@[simp] theorem State.send_ledger (s : State) (o : Out) : (s.send o).ledger = s.ledger := rfl
@[simp] theorem State.send_ldgWait (s : State) (o : Out) : (s.send o).ldgWait = s.ldgWait := rfl
@[simp] theorem State.send_hist (s : State) (o : Out) : (s.send o).hist = s.hist := rfl
@[simp] theorem State.send_late (s : State) (o : Out) : (s.send o).late = s.late := rfl
@[simp] theorem State.send_groups (s : State) (o : Out) : (s.send o).groups = s.groups := rfl
@[simp] theorem State.send_nextGrp (s : State) (o : Out) : (s.send o).nextGrp = s.nextGrp := rfl
@[simp] theorem State.send_ordNext (s : State) (o : Out) : (s.send o).ordNext = s.ordNext := rfl
@[simp] theorem State.send_heldReads (s : State) (o : Out) : (s.send o).heldReads = s.heldReads := rfl
@[simp] theorem State.send_pReads (s : State) (o : Out) : (s.send o).pReads = s.pReads := rfl
@[simp] theorem State.send_locks (s : State) (o : Out) : (s.send o).locks = s.locks := rfl
@[simp] theorem State.send_lockWait (s : State) (o : Out) : (s.send o).lockWait = s.lockWait := rfl
@[simp] theorem State.send_starchRun (s : State) (o : Out) : (s.send o).starchRun = s.starchRun := rfl
@[simp] theorem State.send_bskWait (s : State) (o : Out) : (s.send o).bskWait = s.bskWait := rfl
@[simp] theorem State.send_bTags (s : State) (o : Out) : (s.send o).bTags = s.bTags := rfl
@[simp] theorem State.send_hReads (s : State) (o : Out) : (s.send o).hReads = s.hReads := rfl
@[simp] theorem State.send_nextRid (s : State) (o : Out) : (s.send o).nextRid = s.nextRid := rfl
@[simp] theorem State.send_cplHeld (s : State) (o : Out) : (s.send o).cplHeld = s.cplHeld := rfl
@[simp] theorem State.send_jq (s : State) (o : Out) : (s.send o).jq = s.jq := rfl
@[simp] theorem State.send_jCredit (s : State) (o : Out) : (s.send o).jCredit = s.jCredit := rfl
@[simp] theorem State.send_jNext (s : State) (o : Out) : (s.send o).jNext = s.jNext := rfl
@[simp] theorem State.send_dmaDone (s : State) (o : Out) : (s.send o).dmaDone = s.dmaDone := rfl
@[simp] theorem State.send_ll (s : State) (o : Out) : (s.send o).ll = s.ll := rfl
@[simp] theorem State.send_doms (s : State) (o : Out) : (s.send o).doms = s.doms := rfl
@[simp] theorem State.send_rinseLeft (s : State) (o : Out) : (s.send o).rinseLeft = s.rinseLeft := rfl
@[simp] theorem State.send_held (s : State) (o : Out) : (s.send o).held = s.held := rfl
@[simp] theorem State.send_evqWrap (s : State) (o : Out) : (s.send o).evqWrap = s.evqWrap := rfl
@[simp] theorem State.send_rid0 (s : State) (o : Out) : (s.send o).rid0 = s.rid0 := rfl
@[simp] theorem State.send_vfForce (s : State) (o : Out) : (s.send o).vfForce = s.vfForce := rfl
@[simp] theorem State.send_msix (s : State) (o : Out) : (s.send o).msix = s.msix := rfl
@[simp] theorem State.send_irqIn (s : State) (o : Out) : (s.send o).irqIn = s.irqIn := rfl
@[simp] theorem State.send_irqStack (s : State) (o : Out) : (s.send o).irqStack = s.irqStack := rfl
@[simp] theorem State.send_intx (s : State) (o : Out) : (s.send o).intx = s.intx := rfl
@[simp] theorem State.send_irqRaises (s : State) (o : Out) : (s.send o).irqRaises = s.irqRaises := rfl
@[simp] theorem State.send_irqShown (s : State) (o : Out) : (s.send o).irqShown = s.irqShown := rfl
@[simp] theorem State.send_irqStorm (s : State) (o : Out) : (s.send o).irqStorm = s.irqStorm := rfl
@[simp] theorem State.send_irqStranded (s : State) (o : Out) : (s.send o).irqStranded = s.irqStranded := rfl
@[simp] theorem State.send_ring (s : State) (o : Out) : (s.send o).ring = s.ring := rfl
@[simp] theorem State.send_logWork (s : State) (o : Out) : (s.send o).logWork = s.logWork := rfl
@[simp] theorem State.send_logFlash (s : State) (o : Out) : (s.send o).logFlash = s.logFlash := rfl
@[simp] theorem State.send_cqIrq (s : State) (o : Out) : (s.send o).cqIrq = s.cqIrq := rfl
@[simp] theorem State.send_chans (s : State) (o : Out) : (s.send o).chans = s.chans := rfl
@[simp] theorem State.send_rings (s : State) (o : Out) : (s.send o).rings = s.rings := rfl
@[simp] theorem State.send_rrPos (s : State) (o : Out) : (s.send o).rrPos = s.rrPos := rfl
@[simp] theorem State.send_bursts (s : State) (o : Out) : (s.send o).bursts = s.bursts := rfl
@[simp] theorem State.send_dmaDrain (s : State) (o : Out) : (s.send o).dmaDrain = s.dmaDrain := rfl
@[simp] theorem State.send_mirSent (s : State) (o : Out) : (s.send o).mirSent = s.mirSent := rfl
@[simp] theorem State.send_mirWait (s : State) (o : Out) : (s.send o).mirWait = s.mirWait := rfl
@[simp] theorem State.send_mirDisp (s : State) (o : Out) : (s.send o).mirDisp = s.mirDisp := rfl
@[simp] theorem State.send_ctxDirty (s : State) (o : Out) : (s.send o).ctxDirty = s.ctxDirty := rfl
@[simp] theorem State.send_offered (s : State) (o : Out) : (s.send o).offered = s.offered := rfl
@[simp] theorem State.send_seamStop (s : State) (o : Out) : (s.send o).seamStop = s.seamStop := rfl
@[simp] theorem State.send_twinSync (s : State) (o : Out) : (s.send o).twinSync = s.twinSync := rfl
@[simp] theorem State.send_hbCount (s : State) (o : Out) : (s.send o).hbCount = s.hbCount := rfl
@[simp] theorem State.send_hbMiss (s : State) (o : Out) : (s.send o).hbMiss = s.hbMiss := rfl
@[simp] theorem State.send_hbLast (s : State) (o : Out) : (s.send o).hbLast = s.hbLast := rfl
@[simp] theorem State.send_ho (s : State) (o : Out) : (s.send o).ho = s.ho := rfl
@[simp] theorem State.send_hoHeld (s : State) (o : Out) : (s.send o).hoHeld = s.hoHeld := rfl
@[simp] theorem State.send_fwVer (s : State) (o : Out) : (s.send o).fwVer = s.fwVer := rfl
@[simp] theorem State.send_perst (s : State) (o : Out) : (s.send o).perst = s.perst := rfl
@[simp] theorem State.send_pmeOff (s : State) (o : Out) : (s.send o).pmeOff = s.pmeOff := rfl
@[simp] theorem State.send_tlpQ (s : State) (o : Out) : (s.send o).tlpQ = s.tlpQ := rfl
@[simp] theorem State.send_fwReady (s : State) (o : Out) : (s.send o).fwReady = s.fwReady := rfl
@[simp] theorem State.send_ledErr (s : State) (o : Out) : (s.send o).ledErr = s.ledErr := rfl
@[simp] theorem State.send_contLead (s : State) (o : Out) : (s.send o).contLead = s.contLead := rfl
@[simp] theorem State.send_memAcc (s : State) (o : Out) : (s.send o).memAcc = s.memAcc := rfl
@[simp] theorem State.send_memBusy (s : State) (o : Out) : (s.send o).memBusy = s.memBusy := rfl
@[simp] theorem State.send_memAlias (s : State) (o : Out) : (s.send o).memAlias = s.memAlias := rfl
@[simp] theorem State.send_mbxQueue (s : State) (o : Out) : (s.send o).mbxQueue = s.mbxQueue := rfl
@[simp] theorem State.send_ceWindow (s : State) (o : Out) : (s.send o).ceWindow = s.ceWindow := rfl
@[simp] theorem State.send_govCredit (s : State) (o : Out) : (s.send o).govCredit = s.govCredit := rfl
@[simp] theorem State.send_govq (s : State) (o : Out) : (s.send o).govq = s.govq := rfl
@[simp] theorem State.send_spill (s : State) (o : Out) : (s.send o).spill = s.spill := rfl
@[simp] theorem State.send_govWin (s : State) (o : Out) : (s.send o).govWin = s.govWin := rfl
@[simp] theorem State.send_resWin (s : State) (o : Out) : (s.send o).resWin = s.resWin := rfl
@[simp] theorem State.send_c0Wait (s : State) (o : Out) : (s.send o).c0Wait = s.c0Wait := rfl
@[simp] theorem State.send_govMiss (s : State) (o : Out) : (s.send o).govMiss = s.govMiss := rfl
@[simp] theorem State.send_cleanRun (s : State) (o : Out) : (s.send o).cleanRun = s.cleanRun := rfl
@[simp] theorem State.send_degraded (s : State) (o : Out) : (s.send o).degraded = s.degraded := rfl
@[simp] theorem State.send_shareOld (s : State) (o : Out) : (s.send o).shareOld = s.shareOld := rfl
@[simp] theorem State.send_shrUpd (s : State) (o : Out) : (s.send o).shrUpd = s.shrUpd := rfl
@[simp] theorem State.send_winCount (s : State) (o : Out) : (s.send o).winCount = s.winCount := rfl
@[simp] theorem State.send_lanes (s : State) (o : Out) : (s.send o).lanes = s.lanes := rfl
@[simp] theorem State.send_laneMarks (s : State) (o : Out) : (s.send o).laneMarks = s.laneMarks := rfl
@[simp] theorem State.send_laneSkew (s : State) (o : Out) : (s.send o).laneSkew = s.laneSkew := rfl
@[simp] theorem State.send_laneTx (s : State) (o : Out) : (s.send o).laneTx = s.laneTx := rfl
@[simp] theorem State.send_twinFar (s : State) (o : Out) : (s.send o).twinFar = s.twinFar := rfl
@[simp] theorem State.send_bt (s : State) (o : Out) : (s.send o).bt = s.bt := rfl
@[simp] theorem State.send_sc (s : State) (o : Out) : (s.send o).sc = s.sc := rfl
@[simp] theorem State.send_mg (s : State) (o : Out) : (s.send o).mg = s.mg := rfl
@[simp] theorem State.send_hp (s : State) (o : Out) : (s.send o).hp = s.hp := rfl

/-! ### `State.setPort` changes `ll` alone -/

@[simp] theorem State.setPort_pending (s : State) (p : Nat) (l : PortLL) : (s.setPort p l).pending = s.pending := rfl
@[simp] theorem State.setPort_out (s : State) (p : Nat) (l : PortLL) : (s.setPort p l).out = s.out := rfl
@[simp] theorem State.setPort_free (s : State) (p : Nat) (l : PortLL) : (s.setPort p l).free = s.free := rfl
@[simp] theorem State.setPort_regs (s : State) (p : Nat) (l : PortLL) : (s.setPort p l).regs = s.regs := rfl
@[simp] theorem State.setPort_mem (s : State) (p : Nat) (l : PortLL) : (s.setPort p l).mem = s.mem := rfl
@[simp] theorem State.setPort_poison (s : State) (p : Nat) (l : PortLL) : (s.setPort p l).poison = s.poison := rfl
@[simp] theorem State.setPort_cfg (s : State) (p : Nat) (l : PortLL) : (s.setPort p l).cfg = s.cfg := rfl
@[simp] theorem State.setPort_mode (s : State) (p : Nat) (l : PortLL) : (s.setPort p l).mode = s.mode := rfl
@[simp] theorem State.setPort_tick (s : State) (p : Nat) (l : PortLL) : (s.setPort p l).tick = s.tick := rfl
@[simp] theorem State.setPort_cache (s : State) (p : Nat) (l : PortLL) : (s.setPort p l).cache = s.cache := rfl
@[simp] theorem State.setPort_walks (s : State) (p : Nat) (l : PortLL) : (s.setPort p l).walks = s.walks := rfl
@[simp] theorem State.setPort_nextWalk (s : State) (p : Nat) (l : PortLL) : (s.setPort p l).nextWalk = s.nextWalk := rfl
@[simp] theorem State.setPort_bitmap (s : State) (p : Nat) (l : PortLL) : (s.setPort p l).bitmap = s.bitmap := rfl
@[simp] theorem State.setPort_prefetch (s : State) (p : Nat) (l : PortLL) : (s.setPort p l).prefetch = s.prefetch := rfl
@[simp] theorem State.setPort_xltUnit (s : State) (p : Nat) (l : PortLL) : (s.setPort p l).xltUnit = s.xltUnit := rfl
@[simp] theorem State.setPort_grdUnit (s : State) (p : Nat) (l : PortLL) : (s.setPort p l).grdUnit = s.grdUnit := rfl
@[simp] theorem State.setPort_xltDrain (s : State) (p : Nat) (l : PortLL) : (s.setPort p l).xltDrain = s.xltDrain := rfl
@[simp] theorem State.setPort_grdDrain (s : State) (p : Nat) (l : PortLL) : (s.setPort p l).grdDrain = s.grdDrain := rfl
@[simp] theorem State.setPort_grdVer (s : State) (p : Nat) (l : PortLL) : (s.setPort p l).grdVer = s.grdVer := rfl
@[simp] theorem State.setPort_grdOld (s : State) (p : Nat) (l : PortLL) : (s.setPort p l).grdOld = s.grdOld := rfl
@[simp] theorem State.setPort_xltDefer (s : State) (p : Nat) (l : PortLL) : (s.setPort p l).xltDefer = s.xltDefer := rfl
@[simp] theorem State.setPort_grdDefer (s : State) (p : Nat) (l : PortLL) : (s.setPort p l).grdDefer = s.grdDefer := rfl
@[simp] theorem State.setPort_xltLive (s : State) (p : Nat) (l : PortLL) : (s.setPort p l).xltLive = s.xltLive := rfl
@[simp] theorem State.setPort_grdLive (s : State) (p : Nat) (l : PortLL) : (s.setPort p l).grdLive = s.grdLive := rfl
@[simp] theorem State.setPort_ledger (s : State) (p : Nat) (l : PortLL) : (s.setPort p l).ledger = s.ledger := rfl
@[simp] theorem State.setPort_ldgWait (s : State) (p : Nat) (l : PortLL) : (s.setPort p l).ldgWait = s.ldgWait := rfl
@[simp] theorem State.setPort_hist (s : State) (p : Nat) (l : PortLL) : (s.setPort p l).hist = s.hist := rfl
@[simp] theorem State.setPort_late (s : State) (p : Nat) (l : PortLL) : (s.setPort p l).late = s.late := rfl
@[simp] theorem State.setPort_groups (s : State) (p : Nat) (l : PortLL) : (s.setPort p l).groups = s.groups := rfl
@[simp] theorem State.setPort_nextGrp (s : State) (p : Nat) (l : PortLL) : (s.setPort p l).nextGrp = s.nextGrp := rfl
@[simp] theorem State.setPort_ordNext (s : State) (p : Nat) (l : PortLL) : (s.setPort p l).ordNext = s.ordNext := rfl
@[simp] theorem State.setPort_heldReads (s : State) (p : Nat) (l : PortLL) : (s.setPort p l).heldReads = s.heldReads := rfl
@[simp] theorem State.setPort_pReads (s : State) (p : Nat) (l : PortLL) : (s.setPort p l).pReads = s.pReads := rfl
@[simp] theorem State.setPort_locks (s : State) (p : Nat) (l : PortLL) : (s.setPort p l).locks = s.locks := rfl
@[simp] theorem State.setPort_lockWait (s : State) (p : Nat) (l : PortLL) : (s.setPort p l).lockWait = s.lockWait := rfl
@[simp] theorem State.setPort_starchRun (s : State) (p : Nat) (l : PortLL) : (s.setPort p l).starchRun = s.starchRun := rfl
@[simp] theorem State.setPort_bskWait (s : State) (p : Nat) (l : PortLL) : (s.setPort p l).bskWait = s.bskWait := rfl
@[simp] theorem State.setPort_bTags (s : State) (p : Nat) (l : PortLL) : (s.setPort p l).bTags = s.bTags := rfl
@[simp] theorem State.setPort_hReads (s : State) (p : Nat) (l : PortLL) : (s.setPort p l).hReads = s.hReads := rfl
@[simp] theorem State.setPort_nextRid (s : State) (p : Nat) (l : PortLL) : (s.setPort p l).nextRid = s.nextRid := rfl
@[simp] theorem State.setPort_cplHeld (s : State) (p : Nat) (l : PortLL) : (s.setPort p l).cplHeld = s.cplHeld := rfl
@[simp] theorem State.setPort_jq (s : State) (p : Nat) (l : PortLL) : (s.setPort p l).jq = s.jq := rfl
@[simp] theorem State.setPort_jCredit (s : State) (p : Nat) (l : PortLL) : (s.setPort p l).jCredit = s.jCredit := rfl
@[simp] theorem State.setPort_jNext (s : State) (p : Nat) (l : PortLL) : (s.setPort p l).jNext = s.jNext := rfl
@[simp] theorem State.setPort_dmaDone (s : State) (p : Nat) (l : PortLL) : (s.setPort p l).dmaDone = s.dmaDone := rfl
@[simp] theorem State.setPort_doms (s : State) (p : Nat) (l : PortLL) : (s.setPort p l).doms = s.doms := rfl
@[simp] theorem State.setPort_rinseLeft (s : State) (p : Nat) (l : PortLL) : (s.setPort p l).rinseLeft = s.rinseLeft := rfl
@[simp] theorem State.setPort_held (s : State) (p : Nat) (l : PortLL) : (s.setPort p l).held = s.held := rfl
@[simp] theorem State.setPort_evqWrap (s : State) (p : Nat) (l : PortLL) : (s.setPort p l).evqWrap = s.evqWrap := rfl
@[simp] theorem State.setPort_rid0 (s : State) (p : Nat) (l : PortLL) : (s.setPort p l).rid0 = s.rid0 := rfl
@[simp] theorem State.setPort_vfForce (s : State) (p : Nat) (l : PortLL) : (s.setPort p l).vfForce = s.vfForce := rfl
@[simp] theorem State.setPort_msix (s : State) (p : Nat) (l : PortLL) : (s.setPort p l).msix = s.msix := rfl
@[simp] theorem State.setPort_irqIn (s : State) (p : Nat) (l : PortLL) : (s.setPort p l).irqIn = s.irqIn := rfl
@[simp] theorem State.setPort_irqStack (s : State) (p : Nat) (l : PortLL) : (s.setPort p l).irqStack = s.irqStack := rfl
@[simp] theorem State.setPort_intx (s : State) (p : Nat) (l : PortLL) : (s.setPort p l).intx = s.intx := rfl
@[simp] theorem State.setPort_irqRaises (s : State) (p : Nat) (l : PortLL) : (s.setPort p l).irqRaises = s.irqRaises := rfl
@[simp] theorem State.setPort_irqShown (s : State) (p : Nat) (l : PortLL) : (s.setPort p l).irqShown = s.irqShown := rfl
@[simp] theorem State.setPort_irqStorm (s : State) (p : Nat) (l : PortLL) : (s.setPort p l).irqStorm = s.irqStorm := rfl
@[simp] theorem State.setPort_irqStranded (s : State) (p : Nat) (l : PortLL) : (s.setPort p l).irqStranded = s.irqStranded := rfl
@[simp] theorem State.setPort_ring (s : State) (p : Nat) (l : PortLL) : (s.setPort p l).ring = s.ring := rfl
@[simp] theorem State.setPort_logWork (s : State) (p : Nat) (l : PortLL) : (s.setPort p l).logWork = s.logWork := rfl
@[simp] theorem State.setPort_logFlash (s : State) (p : Nat) (l : PortLL) : (s.setPort p l).logFlash = s.logFlash := rfl
@[simp] theorem State.setPort_cqIrq (s : State) (p : Nat) (l : PortLL) : (s.setPort p l).cqIrq = s.cqIrq := rfl
@[simp] theorem State.setPort_chans (s : State) (p : Nat) (l : PortLL) : (s.setPort p l).chans = s.chans := rfl
@[simp] theorem State.setPort_rings (s : State) (p : Nat) (l : PortLL) : (s.setPort p l).rings = s.rings := rfl
@[simp] theorem State.setPort_rrPos (s : State) (p : Nat) (l : PortLL) : (s.setPort p l).rrPos = s.rrPos := rfl
@[simp] theorem State.setPort_bursts (s : State) (p : Nat) (l : PortLL) : (s.setPort p l).bursts = s.bursts := rfl
@[simp] theorem State.setPort_dmaDrain (s : State) (p : Nat) (l : PortLL) : (s.setPort p l).dmaDrain = s.dmaDrain := rfl
@[simp] theorem State.setPort_mirSent (s : State) (p : Nat) (l : PortLL) : (s.setPort p l).mirSent = s.mirSent := rfl
@[simp] theorem State.setPort_mirWait (s : State) (p : Nat) (l : PortLL) : (s.setPort p l).mirWait = s.mirWait := rfl
@[simp] theorem State.setPort_mirDisp (s : State) (p : Nat) (l : PortLL) : (s.setPort p l).mirDisp = s.mirDisp := rfl
@[simp] theorem State.setPort_ctxDirty (s : State) (p : Nat) (l : PortLL) : (s.setPort p l).ctxDirty = s.ctxDirty := rfl
@[simp] theorem State.setPort_offered (s : State) (p : Nat) (l : PortLL) : (s.setPort p l).offered = s.offered := rfl
@[simp] theorem State.setPort_seamStop (s : State) (p : Nat) (l : PortLL) : (s.setPort p l).seamStop = s.seamStop := rfl
@[simp] theorem State.setPort_twinSync (s : State) (p : Nat) (l : PortLL) : (s.setPort p l).twinSync = s.twinSync := rfl
@[simp] theorem State.setPort_hbCount (s : State) (p : Nat) (l : PortLL) : (s.setPort p l).hbCount = s.hbCount := rfl
@[simp] theorem State.setPort_hbMiss (s : State) (p : Nat) (l : PortLL) : (s.setPort p l).hbMiss = s.hbMiss := rfl
@[simp] theorem State.setPort_hbLast (s : State) (p : Nat) (l : PortLL) : (s.setPort p l).hbLast = s.hbLast := rfl
@[simp] theorem State.setPort_ho (s : State) (p : Nat) (l : PortLL) : (s.setPort p l).ho = s.ho := rfl
@[simp] theorem State.setPort_hoHeld (s : State) (p : Nat) (l : PortLL) : (s.setPort p l).hoHeld = s.hoHeld := rfl
@[simp] theorem State.setPort_fwVer (s : State) (p : Nat) (l : PortLL) : (s.setPort p l).fwVer = s.fwVer := rfl
@[simp] theorem State.setPort_perst (s : State) (p : Nat) (l : PortLL) : (s.setPort p l).perst = s.perst := rfl
@[simp] theorem State.setPort_pmeOff (s : State) (p : Nat) (l : PortLL) : (s.setPort p l).pmeOff = s.pmeOff := rfl
@[simp] theorem State.setPort_tlpQ (s : State) (p : Nat) (l : PortLL) : (s.setPort p l).tlpQ = s.tlpQ := rfl
@[simp] theorem State.setPort_fwReady (s : State) (p : Nat) (l : PortLL) : (s.setPort p l).fwReady = s.fwReady := rfl
@[simp] theorem State.setPort_ledErr (s : State) (p : Nat) (l : PortLL) : (s.setPort p l).ledErr = s.ledErr := rfl
@[simp] theorem State.setPort_contLead (s : State) (p : Nat) (l : PortLL) : (s.setPort p l).contLead = s.contLead := rfl
@[simp] theorem State.setPort_memAcc (s : State) (p : Nat) (l : PortLL) : (s.setPort p l).memAcc = s.memAcc := rfl
@[simp] theorem State.setPort_memBusy (s : State) (p : Nat) (l : PortLL) : (s.setPort p l).memBusy = s.memBusy := rfl
@[simp] theorem State.setPort_memAlias (s : State) (p : Nat) (l : PortLL) : (s.setPort p l).memAlias = s.memAlias := rfl
@[simp] theorem State.setPort_mbxQueue (s : State) (p : Nat) (l : PortLL) : (s.setPort p l).mbxQueue = s.mbxQueue := rfl
@[simp] theorem State.setPort_ceWindow (s : State) (p : Nat) (l : PortLL) : (s.setPort p l).ceWindow = s.ceWindow := rfl
@[simp] theorem State.setPort_govCredit (s : State) (p : Nat) (l : PortLL) : (s.setPort p l).govCredit = s.govCredit := rfl
@[simp] theorem State.setPort_govq (s : State) (p : Nat) (l : PortLL) : (s.setPort p l).govq = s.govq := rfl
@[simp] theorem State.setPort_spill (s : State) (p : Nat) (l : PortLL) : (s.setPort p l).spill = s.spill := rfl
@[simp] theorem State.setPort_govWin (s : State) (p : Nat) (l : PortLL) : (s.setPort p l).govWin = s.govWin := rfl
@[simp] theorem State.setPort_resWin (s : State) (p : Nat) (l : PortLL) : (s.setPort p l).resWin = s.resWin := rfl
@[simp] theorem State.setPort_c0Wait (s : State) (p : Nat) (l : PortLL) : (s.setPort p l).c0Wait = s.c0Wait := rfl
@[simp] theorem State.setPort_govMiss (s : State) (p : Nat) (l : PortLL) : (s.setPort p l).govMiss = s.govMiss := rfl
@[simp] theorem State.setPort_cleanRun (s : State) (p : Nat) (l : PortLL) : (s.setPort p l).cleanRun = s.cleanRun := rfl
@[simp] theorem State.setPort_degraded (s : State) (p : Nat) (l : PortLL) : (s.setPort p l).degraded = s.degraded := rfl
@[simp] theorem State.setPort_shareOld (s : State) (p : Nat) (l : PortLL) : (s.setPort p l).shareOld = s.shareOld := rfl
@[simp] theorem State.setPort_shrUpd (s : State) (p : Nat) (l : PortLL) : (s.setPort p l).shrUpd = s.shrUpd := rfl
@[simp] theorem State.setPort_winCount (s : State) (p : Nat) (l : PortLL) : (s.setPort p l).winCount = s.winCount := rfl
@[simp] theorem State.setPort_lanes (s : State) (p : Nat) (l : PortLL) : (s.setPort p l).lanes = s.lanes := rfl
@[simp] theorem State.setPort_laneMarks (s : State) (p : Nat) (l : PortLL) : (s.setPort p l).laneMarks = s.laneMarks := rfl
@[simp] theorem State.setPort_laneSkew (s : State) (p : Nat) (l : PortLL) : (s.setPort p l).laneSkew = s.laneSkew := rfl
@[simp] theorem State.setPort_laneTx (s : State) (p : Nat) (l : PortLL) : (s.setPort p l).laneTx = s.laneTx := rfl
@[simp] theorem State.setPort_twinFar (s : State) (p : Nat) (l : PortLL) : (s.setPort p l).twinFar = s.twinFar := rfl
@[simp] theorem State.setPort_bt (s : State) (p : Nat) (l : PortLL) : (s.setPort p l).bt = s.bt := rfl
@[simp] theorem State.setPort_sc (s : State) (p : Nat) (l : PortLL) : (s.setPort p l).sc = s.sc := rfl
@[simp] theorem State.setPort_mg (s : State) (p : Nat) (l : PortLL) : (s.setPort p l).mg = s.mg := rfl
@[simp] theorem State.setPort_hp (s : State) (p : Nat) (l : PortLL) : (s.setPort p l).hp = s.hp := rfl

/-! ### `State.setDom` changes `doms` alone -/

@[simp] theorem State.setDom_pending (s : State) (d : Nat) (v : DomSt) : (s.setDom d v).pending = s.pending := rfl
@[simp] theorem State.setDom_out (s : State) (d : Nat) (v : DomSt) : (s.setDom d v).out = s.out := rfl
@[simp] theorem State.setDom_free (s : State) (d : Nat) (v : DomSt) : (s.setDom d v).free = s.free := rfl
@[simp] theorem State.setDom_regs (s : State) (d : Nat) (v : DomSt) : (s.setDom d v).regs = s.regs := rfl
@[simp] theorem State.setDom_mem (s : State) (d : Nat) (v : DomSt) : (s.setDom d v).mem = s.mem := rfl
@[simp] theorem State.setDom_poison (s : State) (d : Nat) (v : DomSt) : (s.setDom d v).poison = s.poison := rfl
@[simp] theorem State.setDom_cfg (s : State) (d : Nat) (v : DomSt) : (s.setDom d v).cfg = s.cfg := rfl
@[simp] theorem State.setDom_mode (s : State) (d : Nat) (v : DomSt) : (s.setDom d v).mode = s.mode := rfl
@[simp] theorem State.setDom_tick (s : State) (d : Nat) (v : DomSt) : (s.setDom d v).tick = s.tick := rfl
@[simp] theorem State.setDom_cache (s : State) (d : Nat) (v : DomSt) : (s.setDom d v).cache = s.cache := rfl
@[simp] theorem State.setDom_walks (s : State) (d : Nat) (v : DomSt) : (s.setDom d v).walks = s.walks := rfl
@[simp] theorem State.setDom_nextWalk (s : State) (d : Nat) (v : DomSt) : (s.setDom d v).nextWalk = s.nextWalk := rfl
@[simp] theorem State.setDom_bitmap (s : State) (d : Nat) (v : DomSt) : (s.setDom d v).bitmap = s.bitmap := rfl
@[simp] theorem State.setDom_prefetch (s : State) (d : Nat) (v : DomSt) : (s.setDom d v).prefetch = s.prefetch := rfl
@[simp] theorem State.setDom_xltUnit (s : State) (d : Nat) (v : DomSt) : (s.setDom d v).xltUnit = s.xltUnit := rfl
@[simp] theorem State.setDom_grdUnit (s : State) (d : Nat) (v : DomSt) : (s.setDom d v).grdUnit = s.grdUnit := rfl
@[simp] theorem State.setDom_xltDrain (s : State) (d : Nat) (v : DomSt) : (s.setDom d v).xltDrain = s.xltDrain := rfl
@[simp] theorem State.setDom_grdDrain (s : State) (d : Nat) (v : DomSt) : (s.setDom d v).grdDrain = s.grdDrain := rfl
@[simp] theorem State.setDom_grdVer (s : State) (d : Nat) (v : DomSt) : (s.setDom d v).grdVer = s.grdVer := rfl
@[simp] theorem State.setDom_grdOld (s : State) (d : Nat) (v : DomSt) : (s.setDom d v).grdOld = s.grdOld := rfl
@[simp] theorem State.setDom_xltDefer (s : State) (d : Nat) (v : DomSt) : (s.setDom d v).xltDefer = s.xltDefer := rfl
@[simp] theorem State.setDom_grdDefer (s : State) (d : Nat) (v : DomSt) : (s.setDom d v).grdDefer = s.grdDefer := rfl
@[simp] theorem State.setDom_xltLive (s : State) (d : Nat) (v : DomSt) : (s.setDom d v).xltLive = s.xltLive := rfl
@[simp] theorem State.setDom_grdLive (s : State) (d : Nat) (v : DomSt) : (s.setDom d v).grdLive = s.grdLive := rfl
@[simp] theorem State.setDom_ledger (s : State) (d : Nat) (v : DomSt) : (s.setDom d v).ledger = s.ledger := rfl
@[simp] theorem State.setDom_ldgWait (s : State) (d : Nat) (v : DomSt) : (s.setDom d v).ldgWait = s.ldgWait := rfl
@[simp] theorem State.setDom_hist (s : State) (d : Nat) (v : DomSt) : (s.setDom d v).hist = s.hist := rfl
@[simp] theorem State.setDom_late (s : State) (d : Nat) (v : DomSt) : (s.setDom d v).late = s.late := rfl
@[simp] theorem State.setDom_groups (s : State) (d : Nat) (v : DomSt) : (s.setDom d v).groups = s.groups := rfl
@[simp] theorem State.setDom_nextGrp (s : State) (d : Nat) (v : DomSt) : (s.setDom d v).nextGrp = s.nextGrp := rfl
@[simp] theorem State.setDom_ordNext (s : State) (d : Nat) (v : DomSt) : (s.setDom d v).ordNext = s.ordNext := rfl
@[simp] theorem State.setDom_heldReads (s : State) (d : Nat) (v : DomSt) : (s.setDom d v).heldReads = s.heldReads := rfl
@[simp] theorem State.setDom_pReads (s : State) (d : Nat) (v : DomSt) : (s.setDom d v).pReads = s.pReads := rfl
@[simp] theorem State.setDom_locks (s : State) (d : Nat) (v : DomSt) : (s.setDom d v).locks = s.locks := rfl
@[simp] theorem State.setDom_lockWait (s : State) (d : Nat) (v : DomSt) : (s.setDom d v).lockWait = s.lockWait := rfl
@[simp] theorem State.setDom_starchRun (s : State) (d : Nat) (v : DomSt) : (s.setDom d v).starchRun = s.starchRun := rfl
@[simp] theorem State.setDom_bskWait (s : State) (d : Nat) (v : DomSt) : (s.setDom d v).bskWait = s.bskWait := rfl
@[simp] theorem State.setDom_bTags (s : State) (d : Nat) (v : DomSt) : (s.setDom d v).bTags = s.bTags := rfl
@[simp] theorem State.setDom_hReads (s : State) (d : Nat) (v : DomSt) : (s.setDom d v).hReads = s.hReads := rfl
@[simp] theorem State.setDom_nextRid (s : State) (d : Nat) (v : DomSt) : (s.setDom d v).nextRid = s.nextRid := rfl
@[simp] theorem State.setDom_cplHeld (s : State) (d : Nat) (v : DomSt) : (s.setDom d v).cplHeld = s.cplHeld := rfl
@[simp] theorem State.setDom_jq (s : State) (d : Nat) (v : DomSt) : (s.setDom d v).jq = s.jq := rfl
@[simp] theorem State.setDom_jCredit (s : State) (d : Nat) (v : DomSt) : (s.setDom d v).jCredit = s.jCredit := rfl
@[simp] theorem State.setDom_jNext (s : State) (d : Nat) (v : DomSt) : (s.setDom d v).jNext = s.jNext := rfl
@[simp] theorem State.setDom_dmaDone (s : State) (d : Nat) (v : DomSt) : (s.setDom d v).dmaDone = s.dmaDone := rfl
@[simp] theorem State.setDom_ll (s : State) (d : Nat) (v : DomSt) : (s.setDom d v).ll = s.ll := rfl
@[simp] theorem State.setDom_rinseLeft (s : State) (d : Nat) (v : DomSt) : (s.setDom d v).rinseLeft = s.rinseLeft := rfl
@[simp] theorem State.setDom_held (s : State) (d : Nat) (v : DomSt) : (s.setDom d v).held = s.held := rfl
@[simp] theorem State.setDom_evqWrap (s : State) (d : Nat) (v : DomSt) : (s.setDom d v).evqWrap = s.evqWrap := rfl
@[simp] theorem State.setDom_rid0 (s : State) (d : Nat) (v : DomSt) : (s.setDom d v).rid0 = s.rid0 := rfl
@[simp] theorem State.setDom_vfForce (s : State) (d : Nat) (v : DomSt) : (s.setDom d v).vfForce = s.vfForce := rfl
@[simp] theorem State.setDom_msix (s : State) (d : Nat) (v : DomSt) : (s.setDom d v).msix = s.msix := rfl
@[simp] theorem State.setDom_irqIn (s : State) (d : Nat) (v : DomSt) : (s.setDom d v).irqIn = s.irqIn := rfl
@[simp] theorem State.setDom_irqStack (s : State) (d : Nat) (v : DomSt) : (s.setDom d v).irqStack = s.irqStack := rfl
@[simp] theorem State.setDom_intx (s : State) (d : Nat) (v : DomSt) : (s.setDom d v).intx = s.intx := rfl
@[simp] theorem State.setDom_irqRaises (s : State) (d : Nat) (v : DomSt) : (s.setDom d v).irqRaises = s.irqRaises := rfl
@[simp] theorem State.setDom_irqShown (s : State) (d : Nat) (v : DomSt) : (s.setDom d v).irqShown = s.irqShown := rfl
@[simp] theorem State.setDom_irqStorm (s : State) (d : Nat) (v : DomSt) : (s.setDom d v).irqStorm = s.irqStorm := rfl
@[simp] theorem State.setDom_irqStranded (s : State) (d : Nat) (v : DomSt) : (s.setDom d v).irqStranded = s.irqStranded := rfl
@[simp] theorem State.setDom_ring (s : State) (d : Nat) (v : DomSt) : (s.setDom d v).ring = s.ring := rfl
@[simp] theorem State.setDom_logWork (s : State) (d : Nat) (v : DomSt) : (s.setDom d v).logWork = s.logWork := rfl
@[simp] theorem State.setDom_logFlash (s : State) (d : Nat) (v : DomSt) : (s.setDom d v).logFlash = s.logFlash := rfl
@[simp] theorem State.setDom_cqIrq (s : State) (d : Nat) (v : DomSt) : (s.setDom d v).cqIrq = s.cqIrq := rfl
@[simp] theorem State.setDom_chans (s : State) (d : Nat) (v : DomSt) : (s.setDom d v).chans = s.chans := rfl
@[simp] theorem State.setDom_rings (s : State) (d : Nat) (v : DomSt) : (s.setDom d v).rings = s.rings := rfl
@[simp] theorem State.setDom_rrPos (s : State) (d : Nat) (v : DomSt) : (s.setDom d v).rrPos = s.rrPos := rfl
@[simp] theorem State.setDom_bursts (s : State) (d : Nat) (v : DomSt) : (s.setDom d v).bursts = s.bursts := rfl
@[simp] theorem State.setDom_dmaDrain (s : State) (d : Nat) (v : DomSt) : (s.setDom d v).dmaDrain = s.dmaDrain := rfl
@[simp] theorem State.setDom_mirSent (s : State) (d : Nat) (v : DomSt) : (s.setDom d v).mirSent = s.mirSent := rfl
@[simp] theorem State.setDom_mirWait (s : State) (d : Nat) (v : DomSt) : (s.setDom d v).mirWait = s.mirWait := rfl
@[simp] theorem State.setDom_mirDisp (s : State) (d : Nat) (v : DomSt) : (s.setDom d v).mirDisp = s.mirDisp := rfl
@[simp] theorem State.setDom_ctxDirty (s : State) (d : Nat) (v : DomSt) : (s.setDom d v).ctxDirty = s.ctxDirty := rfl
@[simp] theorem State.setDom_offered (s : State) (d : Nat) (v : DomSt) : (s.setDom d v).offered = s.offered := rfl
@[simp] theorem State.setDom_seamStop (s : State) (d : Nat) (v : DomSt) : (s.setDom d v).seamStop = s.seamStop := rfl
@[simp] theorem State.setDom_twinSync (s : State) (d : Nat) (v : DomSt) : (s.setDom d v).twinSync = s.twinSync := rfl
@[simp] theorem State.setDom_hbCount (s : State) (d : Nat) (v : DomSt) : (s.setDom d v).hbCount = s.hbCount := rfl
@[simp] theorem State.setDom_hbMiss (s : State) (d : Nat) (v : DomSt) : (s.setDom d v).hbMiss = s.hbMiss := rfl
@[simp] theorem State.setDom_hbLast (s : State) (d : Nat) (v : DomSt) : (s.setDom d v).hbLast = s.hbLast := rfl
@[simp] theorem State.setDom_ho (s : State) (d : Nat) (v : DomSt) : (s.setDom d v).ho = s.ho := rfl
@[simp] theorem State.setDom_hoHeld (s : State) (d : Nat) (v : DomSt) : (s.setDom d v).hoHeld = s.hoHeld := rfl
@[simp] theorem State.setDom_fwVer (s : State) (d : Nat) (v : DomSt) : (s.setDom d v).fwVer = s.fwVer := rfl
@[simp] theorem State.setDom_perst (s : State) (d : Nat) (v : DomSt) : (s.setDom d v).perst = s.perst := rfl
@[simp] theorem State.setDom_pmeOff (s : State) (d : Nat) (v : DomSt) : (s.setDom d v).pmeOff = s.pmeOff := rfl
@[simp] theorem State.setDom_tlpQ (s : State) (d : Nat) (v : DomSt) : (s.setDom d v).tlpQ = s.tlpQ := rfl
@[simp] theorem State.setDom_fwReady (s : State) (d : Nat) (v : DomSt) : (s.setDom d v).fwReady = s.fwReady := rfl
@[simp] theorem State.setDom_ledErr (s : State) (d : Nat) (v : DomSt) : (s.setDom d v).ledErr = s.ledErr := rfl
@[simp] theorem State.setDom_contLead (s : State) (d : Nat) (v : DomSt) : (s.setDom d v).contLead = s.contLead := rfl
@[simp] theorem State.setDom_memAcc (s : State) (d : Nat) (v : DomSt) : (s.setDom d v).memAcc = s.memAcc := rfl
@[simp] theorem State.setDom_memBusy (s : State) (d : Nat) (v : DomSt) : (s.setDom d v).memBusy = s.memBusy := rfl
@[simp] theorem State.setDom_memAlias (s : State) (d : Nat) (v : DomSt) : (s.setDom d v).memAlias = s.memAlias := rfl
@[simp] theorem State.setDom_mbxQueue (s : State) (d : Nat) (v : DomSt) : (s.setDom d v).mbxQueue = s.mbxQueue := rfl
@[simp] theorem State.setDom_ceWindow (s : State) (d : Nat) (v : DomSt) : (s.setDom d v).ceWindow = s.ceWindow := rfl
@[simp] theorem State.setDom_govCredit (s : State) (d : Nat) (v : DomSt) : (s.setDom d v).govCredit = s.govCredit := rfl
@[simp] theorem State.setDom_govq (s : State) (d : Nat) (v : DomSt) : (s.setDom d v).govq = s.govq := rfl
@[simp] theorem State.setDom_spill (s : State) (d : Nat) (v : DomSt) : (s.setDom d v).spill = s.spill := rfl
@[simp] theorem State.setDom_govWin (s : State) (d : Nat) (v : DomSt) : (s.setDom d v).govWin = s.govWin := rfl
@[simp] theorem State.setDom_resWin (s : State) (d : Nat) (v : DomSt) : (s.setDom d v).resWin = s.resWin := rfl
@[simp] theorem State.setDom_c0Wait (s : State) (d : Nat) (v : DomSt) : (s.setDom d v).c0Wait = s.c0Wait := rfl
@[simp] theorem State.setDom_govMiss (s : State) (d : Nat) (v : DomSt) : (s.setDom d v).govMiss = s.govMiss := rfl
@[simp] theorem State.setDom_cleanRun (s : State) (d : Nat) (v : DomSt) : (s.setDom d v).cleanRun = s.cleanRun := rfl
@[simp] theorem State.setDom_degraded (s : State) (d : Nat) (v : DomSt) : (s.setDom d v).degraded = s.degraded := rfl
@[simp] theorem State.setDom_shareOld (s : State) (d : Nat) (v : DomSt) : (s.setDom d v).shareOld = s.shareOld := rfl
@[simp] theorem State.setDom_shrUpd (s : State) (d : Nat) (v : DomSt) : (s.setDom d v).shrUpd = s.shrUpd := rfl
@[simp] theorem State.setDom_winCount (s : State) (d : Nat) (v : DomSt) : (s.setDom d v).winCount = s.winCount := rfl
@[simp] theorem State.setDom_lanes (s : State) (d : Nat) (v : DomSt) : (s.setDom d v).lanes = s.lanes := rfl
@[simp] theorem State.setDom_laneMarks (s : State) (d : Nat) (v : DomSt) : (s.setDom d v).laneMarks = s.laneMarks := rfl
@[simp] theorem State.setDom_laneSkew (s : State) (d : Nat) (v : DomSt) : (s.setDom d v).laneSkew = s.laneSkew := rfl
@[simp] theorem State.setDom_laneTx (s : State) (d : Nat) (v : DomSt) : (s.setDom d v).laneTx = s.laneTx := rfl
@[simp] theorem State.setDom_twinFar (s : State) (d : Nat) (v : DomSt) : (s.setDom d v).twinFar = s.twinFar := rfl
@[simp] theorem State.setDom_bt (s : State) (d : Nat) (v : DomSt) : (s.setDom d v).bt = s.bt := rfl
@[simp] theorem State.setDom_sc (s : State) (d : Nat) (v : DomSt) : (s.setDom d v).sc = s.sc := rfl
@[simp] theorem State.setDom_mg (s : State) (d : Nat) (v : DomSt) : (s.setDom d v).mg = s.mg := rfl
@[simp] theorem State.setDom_hp (s : State) (d : Nat) (v : DomSt) : (s.setDom d v).hp = s.hp := rfl

end Sys2Proof.Machine
end

