-- ==== Sys2Proof/Laws/Regs.lean ====
section
/-!
SUPPORT. Laws of the register file, of memory bytes, of poison marks and of the shared small operations.
-/
namespace Sys2Proof.Machine

/-! ### Register fields -/

theorem Fld.ctorIdx_inj {f g : Fld} (h : f.ctorIdx = g.ctorIdx) : f = g := by
  rw [← Fld.ofNat_ctorIdx f, ← Fld.ofNat_ctorIdx g, h]

theorem fkey_inj {f g : Fld} {i j : Nat} (h : fkey f i = fkey g j) : f = g ∧ i % 1048576 = j % 1048576 := by
  unfold fkey at h
  have hi := Nat.mod_lt i (show 0 < 1048576 by decide)
  have hj := Nat.mod_lt j (show 0 < 1048576 by decide)
  have hf : f.ctorIdx = g.ctorIdx := by omega
  exact ⟨Fld.ctorIdx_inj hf, by omega⟩

/-- The field just set holds the value, cut to its width. -/
@[simp] theorem State.fld_set_self (s : State) (f : Fld) (i v : Nat) :
    (s.set f i v).fld f i = v % 2 ^ (fldInfo f).w := by
  simp [State.fld, State.set]

/-- Setting a field leaves every other field of every instance alone. -/
theorem State.fld_set_ne (s : State) {f g : Fld} {i j : Nat} (v : Nat)
    (h : f ≠ g ∨ i % 1048576 ≠ j % 1048576) : (s.set f i v).fld g j = s.fld g j := by
  unfold State.fld State.set
  refine smGet_smSet_ne _ _ _ fun hk => ?_
  obtain ⟨h1, h2⟩ := fkey_inj hk
  rcases h with h | h
  · exact h h1.symm
  · exact h h2.symm

/-- The same of a one-bit field. -/
theorem State.flag_set_ne (s : State) {f g : Fld} {i j : Nat} (v : Nat) (h : f ≠ g ∨ i % 1048576 ≠ j % 1048576) :
    (s.set f i v).flag g j = s.flag g j := by
  simp [State.flag, State.fld_set_ne s v h]

/-- Both at once. -/
theorem State.fld_set (s : State) (f g : Fld) (i j v : Nat) :
    (s.set f i v).fld g j
      = if f = g ∧ i % 1048576 = j % 1048576 then v % 2 ^ (fldInfo f).w else s.fld g j := by
  split
  · next h =>
    obtain ⟨rfl, hij⟩ := h
    have hk : fkey f j = fkey f i := by simp [fkey, hij]
    simp [State.fld, State.set, hk]
  · next h =>
    refine State.fld_set_ne s v ?_
    by_cases hf : f = g
    · exact Or.inr fun hij => h ⟨hf, hij⟩
    · exact Or.inl hf

/-- A field depends on the register file alone. -/
theorem State.fld_congr {s t : State} (h : t.regs = s.regs) (f : Fld) (i : Nat) : t.fld f i = s.fld f i := by
  simp [State.fld, h]

theorem State.flag_congr {s t : State} (h : t.regs = s.regs) (f : Fld) (i : Nat) : t.flag f i = s.flag f i := by
  simp [State.flag, State.fld, h]

/-- Every update but `set` leaves the register fields alone. -/
@[simp] theorem State.fld_st (s : State) (a : Nat) (b : Byte) (f : Fld) (i : Nat) : (s.st a b).fld f i = s.fld f i := rfl
@[simp] theorem State.fld_setPoison (s : State) (a : Nat) (b : Bool) (f : Fld) (i : Nat) :
    (s.setPoison a b).fld f i = s.fld f i := rfl
@[simp] theorem State.fld_send (s : State) (o : Out) (f : Fld) (i : Nat) : (s.send o).fld f i = s.fld f i := rfl
@[simp] theorem State.fld_setPort (s : State) (p : Nat) (l : PortLL) (f : Fld) (i : Nat) :
    (s.setPort p l).fld f i = s.fld f i := rfl
@[simp] theorem State.fld_setDom (s : State) (d : Nat) (v : DomSt) (f : Fld) (i : Nat) :
    (s.setDom d v).fld f i = s.fld f i := rfl

/-! ### Memory -/

@[simp] theorem State.ld_st_self (s : State) (a : Nat) (b : Byte) : (s.st a b).ld a = b := by
  simp [State.ld, State.st]

theorem State.ld_st_ne (s : State) {a c : Nat} (b : Byte) (h : c ≠ a) : (s.st a b).ld c = s.ld c := by
  simp [State.ld, State.st, smGet_smSet_ne _ _ _ h]

@[simp] theorem State.ld_set (s : State) (f : Fld) (i v a : Nat) : (s.set f i v).ld a = s.ld a := rfl
@[simp] theorem State.ld_send (s : State) (o : Out) (a : Nat) : (s.send o).ld a = s.ld a := rfl
@[simp] theorem State.ld_setPoison (s : State) (c : Nat) (b : Bool) (a : Nat) : (s.setPoison c b).ld a = s.ld a := rfl

/-- A run of bytes stored changes those bytes alone. -/
theorem State.ld_stBytes_out (d : List Byte) : ∀ (s : State) (a c : Nat), (c < a ∨ a + d.length ≤ c) →
    (s.stBytes a d).ld c = s.ld c := by
  induction d with
  | nil => intro s a c _; rfl
  | cons b t ih =>
    intro s a c h
    simp only [List.length_cons] at h
    rw [State.stBytes, ih (s.st a b) (a + 1) c (by omega), State.ld_st_ne _ _ (by omega)]

/-- The bytes stored read back. -/
theorem State.ldBytes_stBytes (d : List Byte) : ∀ (s : State) (a : Nat),
    (s.stBytes a d).ldBytes a d.length = d := by
  induction d with
  | nil => intro s a; rfl
  | cons b t ih =>
    intro s a
    simp only [List.length_cons, State.ldBytes, State.stBytes, ih]
    rw [State.ld_stBytes_out _ _ _ _ (by omega), State.ld_st_self]

/-- A store of bytes changes memory and nothing else. -/
theorem State.stBytes_eq (d : List Byte) : ∀ (s : State) (a : Nat), s.stBytes a d = { s with mem := (s.stBytes a d).mem } := by
  induction d with
  | nil => intro s a; rfl
  | cons b t ih => intro s a; exact ih (s.st a b) (a + 1)

/-- Two states that agree on a range of bytes read the same bytes there. -/
theorem State.ldBytes_congr {s t : State} : ∀ {n a : Nat}, (∀ c, a ≤ c → c < a + n → s.ld c = t.ld c) → s.ldBytes a n = t.ldBytes a n
  | 0, _, _ => rfl
  | n + 1, a, h => by
    simp only [State.ldBytes]
    rw [h a (Nat.le_refl a) (by omega), State.ldBytes_congr fun c h1 h2 => h c (by omega) (by omega)]

/-- Numbers and their little-endian bytes (R9). -/
@[simp] theorem toBytes_length (n : Nat) : ∀ v, (toBytes n v).length = n := by
  induction n with
  | zero => intro v; rfl
  | succ n ih => intro v; simp [toBytes, ih]

theorem ofBytes_toBytes (n : Nat) : ∀ v, ofBytes (toBytes n v) = v % 256 ^ n := by
  induction n with
  | zero => intro v; simp [toBytes, ofBytes, Nat.mod_one]
  | succ n ih =>
    intro v
    simp only [toBytes, ofBytes, ih, BitVec.toNat_ofNat]
    have h : v % 256 ^ (n + 1) = v % 256 + 256 * (v / 256 % 256 ^ n) := by
      rw [Nat.pow_succ, Nat.mul_comm (256 ^ n) 256, Nat.mod_mul]
    rw [h]

theorem State.ld8_st8 (s : State) (a v : Nat) : (s.st8 a v).ld8 a = v % 2 ^ 64 := by
  have h := State.ldBytes_stBytes (toBytes 8 v) s a
  rw [toBytes_length] at h
  have e : (256 : Nat) ^ 8 = 2 ^ 64 := by decide
  show ofBytes ((s.stBytes a (toBytes 8 v)).ldBytes a 8) = _
  rw [h, ofBytes_toBytes, e]

/-! ### Canonical forms -/

theorem State.memWf_st {s : State} (a : Nat) (b : Byte) (h : s.memWf = true) : (s.st a b).memWf = true :=
  smWf_smSet a b h

theorem State.memWf_stBytes (d : List Byte) : ∀ {s : State} (a : Nat), s.memWf = true → (s.stBytes a d).memWf = true := by
  induction d with
  | nil => intro s a h; exact h
  | cons b t ih => intro s a h; exact ih (a + 1) (State.memWf_st a b h)

/-! ### Folds and conditions -/

/-- What every step of a fold keeps, the fold keeps. -/
theorem State.each_keeps {α : Type} {P : State → Prop} (l : List α) (f : State → α → State) :
    ∀ {s : State}, P s → (∀ s a, P s → P (f s a)) → P (s.each l f) := by
  induction l with
  | nil => intro s h _; exact h
  | cons a t ih => intro s h hf; exact ih (hf s a h) hf

/-- A projection that every step of a fold leaves alone, the fold leaves alone. -/
theorem State.each_frame {α β : Type} (P : State → β) (l : List α) (f : State → α → State)
    (hf : ∀ s a, P (f s a) = P s) : ∀ s : State, P (s.each l f) = P s := by
  induction l with
  | nil => intro s; rfl
  | cons a t ih => intro s; rw [State.each, List.foldl_cons]; exact (ih (f s a)).trans (hf s a)

@[simp] theorem State.when_true (s : State) (f : State → State) : s.when true f = f s := rfl
@[simp] theorem State.when_false (s : State) (f : State → State) : s.when false f = s := rfl

end Sys2Proof.Machine
end

