-- ==== Sys2Proof/Laws/Irq.lean ====
section
/-!
SUPPORT. Everything that raising an interrupt source can do, said once: which state it may change, which register fields
and which bytes of memory stay. The fault log's entry rests on it.
-/
namespace Sys2Proof.Machine

/-- The state with everything taken out that the interrupt controller changes when a source is raised. -/
def irqErase (s : State) : State :=
  { s with regs := [], mem := [], memAcc := [], memBusy := [], memAlias := [], out := [], tlpQ := [], intx := []
           irqShown := [], irqRaises := [], irqStorm := [], irqStranded := [], mg := { s.mg with irqFall := [] } }

/-- The register fields that raising a source may set. -/
def irqFlds : List Fld := [.IRQ_STORM_FLAG, .IRQ_STS_STORM_NEW, .IRQ_STS_LAST_SRC, .IRQ_STS_STRANDED_SEEN]

/-- `t` differs from `s` at most by what raising sources changes: the controller's own state, its fields, the PENDING
array, messages to the host. -/
structure IrqFrame (s t : State) : Prop where
  same : irqErase t = irqErase s
  fld : ∀ f i, f ∉ irqFlds → t.fld f i = s.fld f i
  ld : ∀ a, (a < pendBase ∨ enBase ≤ a) → t.ld a = s.ld a

theorem IrqFrame.refl (s : State) : IrqFrame s s := ⟨rfl, fun _ _ _ => rfl, fun _ _ => rfl⟩

theorem IrqFrame.trans {s t u : State} (h : IrqFrame s t) (g : IrqFrame t u) : IrqFrame s u :=
  ⟨g.same.trans h.same, fun f i hf => (g.fld f i hf).trans (h.fld f i hf), fun a ha => (g.ld a ha).trans (h.ld a ha)⟩

/-- An update of the controller's own plain state. -/
theorem IrqFrame.plain {s t : State} (h : irqErase t = irqErase s) (hr : t.regs = s.regs) (hm : t.mem = s.mem) :
    IrqFrame s t :=
  ⟨h, fun f i _ => State.fld_congr hr f i, fun a _ => by simp [State.ld, hm]⟩

theorem IrqFrame.set (s : State) {f : Fld} (hf : f ∈ irqFlds) (i v : Nat) : IrqFrame s (s.set f i v) :=
  ⟨rfl, fun _ _ hg => State.fld_set_ne s v (Or.inl fun h => hg (h ▸ hf)), fun _ _ => rfl⟩

theorem IrqFrame.each {α : Type} (l : List α) (f : State → α → State) (hf : ∀ s, ∀ a ∈ l, IrqFrame s (f s a)) (s : State) :
    IrqFrame s (s.each l f) := by
  induction l generalizing s with
  | nil => exact IrqFrame.refl s
  | cons a t ih =>
    exact (hf s a (by simp)).trans (ih (fun s b hb => hf s b (by simp [hb])) (f s a))

theorem IrqFrame.hostTx (s : State) (o : Out) : IrqFrame s (s.hostTx o) := by
  unfold State.hostTx
  split
  · exact IrqFrame.plain rfl rfl rfl
  · split
    · exact IrqFrame.plain rfl rfl rfl
    · exact IrqFrame.refl s

theorem IrqFrame.setPend (s : State) {i : Nat} (hi : i < 0x4000) (v : Bool) : IrqFrame s (s.setPend i v) := by
  refine ⟨rfl, fun _ _ _ => rfl, fun a ha => ?_⟩
  show (s.setBit (pendBase + i / 8) (i % 8) v).ld a = s.ld a
  refine State.ld_st_ne _ _ ?_
  unfold pendBase enBase at *
  omega

theorem IrqFrame.stormCount (s : State) (i : Nat) : IrqFrame s (s.stormCount i) := by
  unfold State.stormCount
  split
  · exact IrqFrame.refl s
  · extract_lets n s1 w s2 s3 was s4
    have h1 : IrqFrame s s1 := IrqFrame.plain rfl rfl rfl
    split
    · have h2 : IrqFrame s1 s2 := IrqFrame.plain rfl rfl rfl
      have h3 : IrqFrame s2 s3 := IrqFrame.set _ (by simp [irqFlds]) _ _
      have h4 : IrqFrame s3 s4 := (IrqFrame.set _ (by simp [irqFlds]) _ _).trans (IrqFrame.set _ (by simp [irqFlds]) _ _)
      have h := ((h1.trans h2).trans h3).trans h4
      split
      · exact h
      · exact h.trans (IrqFrame.setPend _ (by decide) _)
    · exact h1

theorem IrqFrame.intxSync (s : State) : IrqFrame s s.intxSync := by
  unfold State.intxSync
  refine IrqFrame.each _ _ (fun s pf _ => ?_) s
  extract_lets w srcs s1
  have h1 : IrqFrame s s1 := IrqFrame.plain rfl rfl rfl
  split
  · exact IrqFrame.refl s
  · split
    · exact (h1.trans (IrqFrame.hostTx _ _)).trans (IrqFrame.each _ _ (fun s i _ => IrqFrame.stormCount s i) _)
    · exact h1.trans (IrqFrame.hostTx _ _)

theorem IrqFrame.strandCheck (s : State) (i : Nat) : IrqFrame s (s.strandCheck i) := by
  unfold State.strandCheck
  split
  · extract_lets was s1 s2
    have h1 : IrqFrame s s1 := IrqFrame.plain rfl rfl rfl
    have h2 : IrqFrame s1 s2 := (IrqFrame.set _ (by simp [irqFlds]) _ _).trans (IrqFrame.set _ (by simp [irqFlds]) _ _)
    split
    · exact h1.trans h2
    · exact (h1.trans h2).trans (IrqFrame.setPend _ (by decide) _)
  · split
    · exact IrqFrame.plain rfl rfl rfl
    · exact IrqFrame.refl s

/-- Re-evaluating the pending sources. -/
theorem IrqFrame.irqEval (s : State) : IrqFrame s s.irqEval :=
  (IrqFrame.each _ _ (fun s i _ => IrqFrame.strandCheck s i) s).trans (IrqFrame.intxSync _)

/-- Raising a source. -/
theorem IrqFrame.raise (s : State) (i : Nat) : IrqFrame s (s.raise i) := by
  unfold State.raise
  split
  · exact IrqFrame.refl s
  · next h =>
    have hi : i < 0x4000 := by
      simp only [srcReserved, Bool.or_eq_true, decide_eq_true_eq, not_or] at h
      omega
    have hf : IrqFrame s (s.irqFresh i) := by
      unfold State.irqFresh
      split
      · exact IrqFrame.refl s
      · exact IrqFrame.plain rfl rfl rfl
    have hr : IrqFrame ((s.irqFresh i).setPend i true)
        { (s.irqFresh i).setPend i true with irqRaises := nSet s.irqRaises i (nGet s.irqRaises i + 1) } :=
      IrqFrame.plain rfl rfl rfl
    exact (((hf.trans (IrqFrame.setPend _ hi _)).trans hr).trans (IrqFrame.strandCheck _ _)).trans (IrqFrame.intxSync _)

/-- A level input that falls. -/
theorem IrqFrame.levelFall (s : State) {i : Nat} (hi : i < 0x4000) : IrqFrame s (s.levelFall i) := by
  unfold State.levelFall
  split
  · exact (IrqFrame.setPend _ hi _).trans (IrqFrame.irqEval _)
  · exact IrqFrame.refl s

theorem IrqFrame.relevel (s : State) {i : Nat} (hi : i < 0x4000) (was : Bool) : IrqFrame s (s.relevel i was) := by
  unfold State.relevel
  split
  · exact IrqFrame.raise _ _
  · split
    · exact IrqFrame.levelFall _ hi
    · exact IrqFrame.refl s

/-- Setting an event flag sets that flag and raises its source, nothing else. -/
theorem IrqFrame.evt (s : State) {src : Nat} (hs : src < 0x4000) (f : Fld) (i : Nat) :
    IrqFrame (s.set f i 1) (s.evt src f i) := by
  unfold State.evt State.withLevels
  exact IrqFrame.relevel _ hs _

/-! ### What a frame gives -/

theorem IrqFrame.field {α : Type} {s t : State} (h : IrqFrame s t) (p : State → α) (hp : ∀ u, p (irqErase u) = p u) :
    p t = p s := by rw [← hp t, ← hp s, h.same]

theorem IrqFrame.mode {s t : State} (h : IrqFrame s t) : t.mode = s.mode := h.field State.mode fun _ => rfl
theorem IrqFrame.bt {s t : State} (h : IrqFrame s t) : t.bt = s.bt := h.field State.bt fun _ => rfl
theorem IrqFrame.sc {s t : State} (h : IrqFrame s t) : t.sc = s.sc := h.field State.sc fun _ => rfl
theorem IrqFrame.doms {s t : State} (h : IrqFrame s t) : t.doms = s.doms := h.field State.doms fun _ => rfl
theorem IrqFrame.ledger {s t : State} (h : IrqFrame s t) : t.ledger = s.ledger := h.field State.ledger fun _ => rfl
theorem IrqFrame.pending {s t : State} (h : IrqFrame s t) : t.pending = s.pending := h.field State.pending fun _ => rfl
theorem IrqFrame.ring {s t : State} (h : IrqFrame s t) : t.ring = s.ring := h.field State.ring fun _ => rfl
theorem IrqFrame.ll {s t : State} (h : IrqFrame s t) : t.ll = s.ll := h.field State.ll fun _ => rfl
theorem IrqFrame.poison {s t : State} (h : IrqFrame s t) : t.poison = s.poison := h.field State.poison fun _ => rfl
theorem IrqFrame.cfg {s t : State} (h : IrqFrame s t) : t.cfg = s.cfg := h.field State.cfg fun _ => rfl

/-! ### The fault log -/

/-- The register fields of the fault log that an entry may set. -/
def logFlds : List Fld :=
  [.MGT_LOG_NEXT_NEXT, .MGT_LOG_STS_HEAD, .MGT_LOG_STS_AON_USED, .MGT_LOG_STS_OVERRUN, .MGT_LOG_STS_NEW]

/-- The state without the ring, the note of a serious entry, and what raising sources changes. -/
def logErase (s : State) : State := irqErase { s with ring := [], ledErr := false }

/-- Everything a fault log entry can do: the ring, its registers, and raising source 0x20F1. -/
structure LogFrame (s t : State) : Prop where
  same : logErase t = logErase s
  fld : ∀ f i, f ∉ irqFlds → f ∉ logFlds → t.fld f i = s.fld f i
  ld : ∀ a, (a < pendBase ∨ enBase ≤ a) → t.ld a = s.ld a

theorem LogFrame.refl (s : State) : LogFrame s s := ⟨rfl, fun _ _ _ _ => rfl, fun _ _ => rfl⟩

theorem LogFrame.trans {s t u : State} (h : LogFrame s t) (g : LogFrame t u) : LogFrame s u :=
  ⟨g.same.trans h.same, fun f i hf hl => (g.fld f i hf hl).trans (h.fld f i hf hl),
    fun a ha => (g.ld a ha).trans (h.ld a ha)⟩

theorem IrqFrame.log {s t : State} (h : IrqFrame s t) : LogFrame s t := by
  refine ⟨?_, fun f i hf _ => h.fld f i hf, h.ld⟩
  have e (u : State) : logErase u = { irqErase u with ring := [], ledErr := false } := rfl
  rw [e, e, h.same]

theorem LogFrame.set (s : State) {f : Fld} (hf : f ∈ logFlds) (i v : Nat) : LogFrame s (s.set f i v) :=
  ⟨rfl, fun _ _ _ hl => State.fld_set_ne s v (Or.inl fun h => hl (h ▸ hf)), fun _ _ => rfl⟩

theorem LogFrame.faultLog (s : State) (e : LogEnt) : LogFrame s (s.faultLog e) := by
  unfold State.faultLog
  extract_lets n flags ent used s1 s2 s3 s4
  have h1 : LogFrame s s1 := ⟨rfl, fun _ _ _ _ => rfl, fun _ _ => rfl⟩
  have h2 : LogFrame s1 s2 := LogFrame.set _ (by simp [logFlds]) _ _
  have h3 : LogFrame s2 s3 := LogFrame.set _ (by simp [logFlds]) _ _
  have h4 : LogFrame s3 s4 := by
    unfold s4
    split
    · exact LogFrame.set _ (by simp [logFlds]) _ _
    · exact LogFrame.set _ (by simp [logFlds]) _ _
  have h5 : LogFrame s4 (s4.set .MGT_LOG_STS_NEW 0 1) := LogFrame.set _ (by simp [logFlds]) _ _
  exact ((((h1.trans h2).trans h3).trans h4).trans h5).trans (IrqFrame.evt _ (by decide) _ _).log

theorem LogFrame.logRecord (s : State) (u c : Nat) : LogFrame s (s.logRecord u c) := LogFrame.faultLog _ _

theorem LogFrame.field {α : Type} {s t : State} (h : LogFrame s t) (p : State → α) (hp : ∀ u, p (logErase u) = p u) :
    p t = p s := by rw [← hp t, ← hp s, h.same]

@[simp] theorem State.mode_faultLog (s : State) (e : LogEnt) : (s.faultLog e).mode = s.mode :=
  (LogFrame.faultLog s e).field State.mode fun _ => rfl
@[simp] theorem State.bt_faultLog (s : State) (e : LogEnt) : (s.faultLog e).bt = s.bt :=
  (LogFrame.faultLog s e).field State.bt fun _ => rfl
@[simp] theorem State.sc_faultLog (s : State) (e : LogEnt) : (s.faultLog e).sc = s.sc :=
  (LogFrame.faultLog s e).field State.sc fun _ => rfl
@[simp] theorem State.doms_faultLog (s : State) (e : LogEnt) : (s.faultLog e).doms = s.doms :=
  (LogFrame.faultLog s e).field State.doms fun _ => rfl
@[simp] theorem State.fwVer_faultLog (s : State) (e : LogEnt) : (s.faultLog e).fwVer = s.fwVer :=
  (LogFrame.faultLog s e).field State.fwVer fun _ => rfl
@[simp] theorem State.pending_faultLog (s : State) (e : LogEnt) : (s.faultLog e).pending = s.pending :=
  (LogFrame.faultLog s e).field State.pending fun _ => rfl

end Sys2Proof.Machine
end

