-- ==== Sys2Proof/Laws/Boot.lean ====
section
/-!
SUPPORT. What the operations of the module's life leave alone: the module's mode through the log, the loader, the alert
line and the domains.
-/
namespace Sys2Proof.Machine

@[simp] theorem State.mode_when (s : State) (c : Bool) (f : State → State) (h : (f s).mode = s.mode) :
    (s.when c f).mode = s.mode := by cases c <;> simp [State.when, h]

theorem State.mode_each {α : Type} (l : List α) (f : State → α → State) (h : ∀ s a, (f s a).mode = s.mode) (s : State) :
    (s.each l f).mode = s.mode := State.each_frame State.mode l f h s

@[simp] theorem State.mode_count (s : State) (f : Fld) (i n : Nat) : (s.count f i n).mode = s.mode := rfl
@[simp] theorem State.mode_setVfTotal (s : State) (v : Nat × Nat × Nat) : (s.setVfTotal v).mode = s.mode := rfl
@[simp] theorem State.mode_logRecord (s : State) (u c : Nat) : (s.logRecord u c).mode = s.mode := State.mode_faultLog _ _
@[simp] theorem State.mode_irqEval (s : State) : s.irqEval.mode = s.mode := (IrqFrame.irqEval s).mode
@[simp] theorem State.mode_raise (s : State) (i : Nat) : (s.raise i).mode = s.mode := (IrqFrame.raise s i).mode
@[simp] theorem State.mode_evt (s : State) (src : Nat) (f : Fld) (i : Nat) : (s.evt src f i).mode = s.mode := by
  unfold State.evt State.withLevels
  show (State.relevel _ src _).mode = _
  unfold State.relevel
  split
  · rw [State.mode_raise]; rfl
  · split
    · unfold State.levelFall
      split
      · rw [State.mode_irqEval]; rfl
      · rfl
    · rfl

@[simp] theorem State.mode_alertSync (s : State) : s.alertSync.mode = s.mode := by
  unfold State.alertSync; split <;> rfl

@[simp] theorem State.mode_aliveLow (s : State) : s.aliveLow.mode = s.mode := by
  unfold State.aliveLow; split <;> rfl

@[simp] theorem State.mode_roleLine (s : State) (was : Bool) : (s.roleLine was).mode = s.mode := by
  unfold State.roleLine; split <;> simp

@[simp] theorem State.mode_lifecycleMove (s : State) : s.lifecycleMove.mode = s.mode := by
  unfold State.lifecycleMove
  split
  · rfl
  · split
    · exact (State.mode_logRecord _ _ _).trans rfl
    · exact (State.mode_logRecord _ _ _).trans rfl

@[simp] theorem State.mode_evLoad (s : State) : s.evLoad.mode = s.mode := by
  unfold State.evLoad
  split
  · simp only [State.mode_setVfTotal, State.set_mode]
  · simp only [State.mode_setVfTotal, State.set_mode, State.mode_logRecord]

@[simp] theorem State.mode_bootDomains (s : State) : s.bootDomains.mode = s.mode := rfl

@[simp] theorem State.mode_selfRefresh (s : State) : s.selfRefresh.mode = s.mode := by
  unfold State.selfRefresh
  simp only [State.set_mode]
  exact State.mode_each _ _ (fun s k => State.set_mode s .DRS_PKG_STS_SR k 1) s

/-- A module reset that takes place leaves the module in BOOT (R377). -/
theorem State.mode_moduleReset (s : State) (c : Nat) (h : s.mode ≠ .OFF) : (s.moduleReset c).mode = .BOOT := by
  unfold State.moduleReset
  rw [if_neg h]
  simp only [State.mode_roleLine, State.mode_bootDomains, State.mode_evLoad, State.mode_lifecycleMove, State.set_mode]
  split
  · simp only [State.mode_selfRefresh]; rfl
  · rfl

/-- The rails that go off leave the module in OFF. -/
theorem State.mode_powerOff (s : State) : s.powerOff.mode = .OFF := by
  unfold State.powerOff
  split
  · assumption
  · simp only [State.mode_roleLine]; rfl

end Sys2Proof.Machine
end

