-- ==== Sys2Proof/Laws/Keeps.lean ====
section
/-!
SUPPORT. Properties of states that the primitive updates keep, which every operation then keeps: the notion, and the
invariants that are such properties. Each lemma about an operation is a search through the lemmas of what it calls.
-/
namespace Sys2Proof.Machine

/-- A property of states that looks at nothing but the queue, the registers, the memory, the poison marks, configuration
space and the MSI-X tables, and that setting a register field keeps. -/
structure KeepsRegs (P : State → Prop) : Prop where
  congr : ∀ {s t : State}, t.pending = s.pending → t.regs = s.regs → t.mem = s.mem → t.poison = s.poison → t.cfg = s.cfg →
    t.msix = s.msix → P s → P t
  set : ∀ {s : State} (f : Fld) (i v : Nat), P s → P (s.set f i v)

/-- Such a property that every primitive update of those keeps. -/
structure Keeps (P : State → Prop) : Prop where
  regs : KeepsRegs P
  st : ∀ {s : State} (a : Nat) (b : Byte), P s → P (s.st a b)
  setPoison : ∀ {s : State} (a : Nat) (b : Bool), P s → P (s.setPoison a b)
  cfgSet : ∀ {s : State} (k : Nat) (b : Byte), P s → P { s with cfg := smSet cfgDefault s.cfg k b }
  msixSet : ∀ {s : State} (k : Nat) (b : Byte), P s → P { s with msix := smSet msixDefault s.msix k b }
  keep : ∀ {s t : State} (p q u v w : Nat → Bool), t.pending = s.pending → t.regs = smKeep p s.regs →
    t.mem = smKeep q s.mem → t.poison = smKeep u s.poison → t.cfg = smKeep v s.cfg → t.msix = smKeep w s.msix → P s → P t

theorem smKeep_true {α : Type} (m : List (Nat × α)) : smKeep (fun _ => true) m = m := by
  induction m with
  | nil => rfl
  | cons e t ih => simp [smKeep, ih]

theorem smKeep_false {α : Type} (m : List (Nat × α)) : smKeep (fun _ => false) m = [] := by
  induction m with
  | nil => rfl
  | cons e t ih => simp [smKeep, ih]

/-- A property of the next state where the outcome is one. -/
def Res.all (P : State → Prop) : Res → Prop
  | .next t => P t
  | _ => True

theorem Res.all_next {P : State → Prop} {t : State} (h : P t) : Res.all P (.next t) := h
theorem Res.all_refused (P : State → Prop) (r : Refusal) : Res.all P (.refused r) := trivial
theorem Res.all_ite {P : State → Prop} {c : Prop} [Decidable c] {a b : Res} (ha : Res.all P a) (hb : Res.all P b) :
    Res.all P (if c then a else b) := by
  split <;> assumption

theorem KeepsRegs.upd {P : State → Prop} (hP : KeepsRegs P) (s : State)
    (x_out : List Out) (x_free : Nat) (x_mode : Mode) (x_tick : Nat) (x_cache : List CacheEnt) (x_walks : List Walk)
      (x_nextWalk : Nat) (x_bitmap : List (Nat × Bool)) (x_prefetch : List PrefLine) (x_xltUnit : UpdUnit) (x_grdUnit :
      UpdUnit) (x_xltDrain : List (Nat × Req)) (x_grdDrain : List (Nat × Req)) (x_grdVer : Nat) (x_grdOld : List (Nat ×
      Nat × Nat)) (x_xltDefer : Nat) (x_grdDefer : Nat) (x_xltLive : List (Nat × Nat)) (x_grdLive : List (Nat × Nat))
      (x_ledger : List LEnt) (x_ldgWait : List LWait) (x_hist : List Hist) (x_late : List Late) (x_groups : List Group)
      (x_nextGrp : Nat) (x_ordNext : Nat) (x_heldReads : List (Nat × Req)) (x_pReads : List PRead) (x_locks : List Lock)
      (x_lockWait : List Req) (x_starchRun : List (Nat × Nat × Nat)) (x_bskWait : List Req) (x_bTags : List BTag)
      (x_hReads : List HRead) (x_nextRid : Nat) (x_cplHeld : List CplHeld) (x_jq : List JWrite) (x_jCredit : Nat)
      (x_jNext : Nat) (x_dmaDone : List BeatDone) (x_ll : List (Nat × PortLL)) (x_doms : List (Nat × DomSt))
      (x_rinseLeft : List (Nat × Nat)) (x_held : List Held) (x_evqWrap : List (Nat × Bool)) (x_rid0 : Nat) (x_vfForce :
      Nat × Nat × Nat) (x_irqIn : List (Nat × Bool)) (x_irqStack : List (Nat × List (Nat × Nat))) (x_intx : List (Nat ×
      Bool)) (x_irqRaises : List (Nat × Nat)) (x_irqShown : List (Nat × Nat)) (x_irqStorm : List (Nat × Bool))
      (x_irqStranded : List (Nat × Bool)) (x_ring : List LogEnt) (x_logWork : List LogEnt) (x_logFlash : List LogEnt)
      (x_cqIrq : List (Nat × Nat)) (x_chans : List (Nat × ChRun)) (x_rings : List (Nat × Ring)) (x_rrPos : Nat × Nat)
      (x_bursts : List Req) (x_dmaDrain : Bool) (x_mirSent : List (Nat × Nat)) (x_mirWait : List (Nat × MirWait))
      (x_mirDisp : List (Nat × Nat × Nat)) (x_ctxDirty : List Nat) (x_offered : Option Nat) (x_seamStop : Bool)
      (x_twinSync : Nat) (x_hbCount : Nat) (x_hbMiss : Nat) (x_hbLast : Nat) (x_ho : HoPhase) (x_hoHeld : List Req)
      (x_fwVer : Nat) (x_perst : Bool) (x_pmeOff : Bool) (x_tlpQ : List Out) (x_fwReady : Bool) (x_ledErr : Bool)
      (x_contLead : Bool) (x_memAcc : List (Nat × Nat)) (x_memBusy : List (Nat × Nat)) (x_memAlias : List (Nat × Nat))
      (x_mbxQueue : List Nat) (x_ceWindow : Nat) (x_govCredit : List (Nat × Int)) (x_govq : List (Nat × Req)) (x_spill :
      List Req) (x_govWin : List (Nat × GovWin)) (x_resWin : List (Nat × Nat)) (x_c0Wait : List (Nat × Nat)) (x_govMiss
      : List (Nat × Bool)) (x_cleanRun : List (Nat × Nat)) (x_degraded : List (Nat × Bool)) (x_shareOld : List (Nat ×
      (Nat × Nat))) (x_shrUpd : Option (Nat × Nat × Nat × Nat)) (x_winCount : Nat) (x_lanes : List (Nat × LaneLink))
      (x_laneMarks : List (Nat × Nat)) (x_laneSkew : List (Nat × Bool)) (x_laneTx : List (Nat × LaneTx)) (x_twinFar :
      List (Nat × Nat)) (x_bt : BootSt) (x_sc : SecSt) (x_mg : MgtSt) (x_hp : HostPhy) :
    P (State.mk s.pending x_out x_free s.regs s.mem s.poison s.cfg x_mode x_tick x_cache x_walks x_nextWalk x_bitmap
      x_prefetch x_xltUnit x_grdUnit x_xltDrain x_grdDrain x_grdVer x_grdOld x_xltDefer x_grdDefer x_xltLive x_grdLive
      x_ledger x_ldgWait x_hist x_late x_groups x_nextGrp x_ordNext x_heldReads x_pReads x_locks x_lockWait x_starchRun
      x_bskWait x_bTags x_hReads x_nextRid x_cplHeld x_jq x_jCredit x_jNext x_dmaDone x_ll x_doms x_rinseLeft x_held
      x_evqWrap x_rid0 x_vfForce s.msix x_irqIn x_irqStack x_intx x_irqRaises x_irqShown x_irqStorm x_irqStranded x_ring
      x_logWork x_logFlash x_cqIrq x_chans x_rings x_rrPos x_bursts x_dmaDrain x_mirSent x_mirWait x_mirDisp x_ctxDirty
      x_offered x_seamStop x_twinSync x_hbCount x_hbMiss x_hbLast x_ho x_hoHeld x_fwVer x_perst x_pmeOff x_tlpQ
      x_fwReady x_ledErr x_contLead x_memAcc x_memBusy x_memAlias x_mbxQueue x_ceWindow x_govCredit x_govq x_spill
      x_govWin x_resWin x_c0Wait x_govMiss x_cleanRun x_degraded x_shareOld x_shrUpd x_winCount x_lanes x_laneMarks
      x_laneSkew x_laneTx x_twinFar x_bt x_sc x_mg x_hp) = P s :=
  propext ⟨hP.congr rfl rfl rfl rfl rfl rfl, hP.congr rfl rfl rfl rfl rfl rfl⟩

theorem Keeps.congr {P : State → Prop} (hP : Keeps P) {s t : State} (h1 : t.pending = s.pending) (h2 : t.regs = s.regs)
    (h3 : t.mem = s.mem) (h4 : t.poison = s.poison) (h5 : t.cfg = s.cfg) (h6 : t.msix = s.msix) (h : P s) : P t :=
  hP.regs.congr h1 h2 h3 h4 h5 h6 h

theorem Keeps.set {P : State → Prop} (hP : Keeps P) {s : State} (f : Fld) (i v : Nat) (h : P s) : P (s.set f i v) :=
  hP.regs.set f i v h

theorem KeepsRegs.ite {P : State → Prop} (_ : KeepsRegs P) {c : Prop} [Decidable c] {a b : State} (ha : P a) (hb : P b) :
    P (if c then a else b) := by
  split <;> assumption

theorem Keeps.upd {P : State → Prop} (hP : Keeps P) (s : State)
    (x_out : List Out) (x_free : Nat) (x_mode : Mode) (x_tick : Nat) (x_cache : List CacheEnt) (x_walks : List Walk)
      (x_nextWalk : Nat) (x_bitmap : List (Nat × Bool)) (x_prefetch : List PrefLine) (x_xltUnit : UpdUnit) (x_grdUnit :
      UpdUnit) (x_xltDrain : List (Nat × Req)) (x_grdDrain : List (Nat × Req)) (x_grdVer : Nat) (x_grdOld : List (Nat ×
      Nat × Nat)) (x_xltDefer : Nat) (x_grdDefer : Nat) (x_xltLive : List (Nat × Nat)) (x_grdLive : List (Nat × Nat))
      (x_ledger : List LEnt) (x_ldgWait : List LWait) (x_hist : List Hist) (x_late : List Late) (x_groups : List Group)
      (x_nextGrp : Nat) (x_ordNext : Nat) (x_heldReads : List (Nat × Req)) (x_pReads : List PRead) (x_locks : List Lock)
      (x_lockWait : List Req) (x_starchRun : List (Nat × Nat × Nat)) (x_bskWait : List Req) (x_bTags : List BTag)
      (x_hReads : List HRead) (x_nextRid : Nat) (x_cplHeld : List CplHeld) (x_jq : List JWrite) (x_jCredit : Nat)
      (x_jNext : Nat) (x_dmaDone : List BeatDone) (x_ll : List (Nat × PortLL)) (x_doms : List (Nat × DomSt))
      (x_rinseLeft : List (Nat × Nat)) (x_held : List Held) (x_evqWrap : List (Nat × Bool)) (x_rid0 : Nat) (x_vfForce :
      Nat × Nat × Nat) (x_irqIn : List (Nat × Bool)) (x_irqStack : List (Nat × List (Nat × Nat))) (x_intx : List (Nat ×
      Bool)) (x_irqRaises : List (Nat × Nat)) (x_irqShown : List (Nat × Nat)) (x_irqStorm : List (Nat × Bool))
      (x_irqStranded : List (Nat × Bool)) (x_ring : List LogEnt) (x_logWork : List LogEnt) (x_logFlash : List LogEnt)
      (x_cqIrq : List (Nat × Nat)) (x_chans : List (Nat × ChRun)) (x_rings : List (Nat × Ring)) (x_rrPos : Nat × Nat)
      (x_bursts : List Req) (x_dmaDrain : Bool) (x_mirSent : List (Nat × Nat)) (x_mirWait : List (Nat × MirWait))
      (x_mirDisp : List (Nat × Nat × Nat)) (x_ctxDirty : List Nat) (x_offered : Option Nat) (x_seamStop : Bool)
      (x_twinSync : Nat) (x_hbCount : Nat) (x_hbMiss : Nat) (x_hbLast : Nat) (x_ho : HoPhase) (x_hoHeld : List Req)
      (x_fwVer : Nat) (x_perst : Bool) (x_pmeOff : Bool) (x_tlpQ : List Out) (x_fwReady : Bool) (x_ledErr : Bool)
      (x_contLead : Bool) (x_memAcc : List (Nat × Nat)) (x_memBusy : List (Nat × Nat)) (x_memAlias : List (Nat × Nat))
      (x_mbxQueue : List Nat) (x_ceWindow : Nat) (x_govCredit : List (Nat × Int)) (x_govq : List (Nat × Req)) (x_spill :
      List Req) (x_govWin : List (Nat × GovWin)) (x_resWin : List (Nat × Nat)) (x_c0Wait : List (Nat × Nat)) (x_govMiss
      : List (Nat × Bool)) (x_cleanRun : List (Nat × Nat)) (x_degraded : List (Nat × Bool)) (x_shareOld : List (Nat ×
      (Nat × Nat))) (x_shrUpd : Option (Nat × Nat × Nat × Nat)) (x_winCount : Nat) (x_lanes : List (Nat × LaneLink))
      (x_laneMarks : List (Nat × Nat)) (x_laneSkew : List (Nat × Bool)) (x_laneTx : List (Nat × LaneTx)) (x_twinFar :
      List (Nat × Nat)) (x_bt : BootSt) (x_sc : SecSt) (x_mg : MgtSt) (x_hp : HostPhy) :
    P (State.mk s.pending x_out x_free s.regs s.mem s.poison s.cfg x_mode x_tick x_cache x_walks x_nextWalk x_bitmap
      x_prefetch x_xltUnit x_grdUnit x_xltDrain x_grdDrain x_grdVer x_grdOld x_xltDefer x_grdDefer x_xltLive x_grdLive
      x_ledger x_ldgWait x_hist x_late x_groups x_nextGrp x_ordNext x_heldReads x_pReads x_locks x_lockWait x_starchRun
      x_bskWait x_bTags x_hReads x_nextRid x_cplHeld x_jq x_jCredit x_jNext x_dmaDone x_ll x_doms x_rinseLeft x_held
      x_evqWrap x_rid0 x_vfForce s.msix x_irqIn x_irqStack x_intx x_irqRaises x_irqShown x_irqStorm x_irqStranded x_ring
      x_logWork x_logFlash x_cqIrq x_chans x_rings x_rrPos x_bursts x_dmaDrain x_mirSent x_mirWait x_mirDisp x_ctxDirty
      x_offered x_seamStop x_twinSync x_hbCount x_hbMiss x_hbLast x_ho x_hoHeld x_fwVer x_perst x_pmeOff x_tlpQ
      x_fwReady x_ledErr x_contLead x_memAcc x_memBusy x_memAlias x_mbxQueue x_ceWindow x_govCredit x_govq x_spill
      x_govWin x_resWin x_c0Wait x_govMiss x_cleanRun x_degraded x_shareOld x_shrUpd x_winCount x_lanes x_laneMarks
      x_laneSkew x_laneTx x_twinFar x_bt x_sc x_mg x_hp) = P s :=
  hP.regs.upd ..

theorem Keeps.ite {P : State → Prop} (_ : Keeps P) {c : Prop} [Decidable c] {a b : State} (ha : P a) (hb : P b) :
    P (if c then a else b) := by
  split <;> assumption

theorem keeps_each {P : State → Prop} {α : Type} {s : State} {l : List α} {f : State → α → State}
    (h : P s) (hf : ∀ s a, P s → P (f s a)) : P (s.each l f) := by
  induction l generalizing s with
  | nil => exact h
  | cons a t ih => exact ih (hf s a h)

theorem keeps_when {P : State → Prop} {s : State} {c : Bool} {f : State → State}
    (h : P s) (hf : ∀ s, P s → P (f s)) : P (s.when c f) := by
  unfold State.when; split
  · exact hf s h
  · exact h

/-! ### The invariants -/

/-- No command looks at the queue. -/
theorem Keeps.pending (q : List Instr) : Keeps fun s => s.pending = q where
  regs := { congr := fun h _ _ _ _ _ hs => h.trans hs, set := fun _ _ _ h => h }
  st _ _ h := h
  setPoison _ _ h := h
  cfgSet _ _ h := h
  msixSet _ _ h := h
  keep _ _ _ _ _ h _ _ _ _ _ hs := h.trans hs

/-- What a written map lists: what it listed, and what was written. -/
theorem mem_smSet {α : Type} [DecidableEq α] (d : Nat → α) (m : List (Nat × α)) (k : Nat) (v : α) :
    ∀ e ∈ smSet d m k v, e ∈ m ∨ e = (k, v) := by
  intro e he
  unfold smSet at he
  split at he
  · exact Or.inl (smErase_keys m k e he).1
  · rcases mem_smIns _ _ _ e he with h | h
    · exact Or.inr h
    · exact Or.inl (smErase_keys m k e h).1

theorem State.regsWf_iff (s : State) : s.regsWf = true ↔
    smWf regDefault s.regs = true ∧ ∀ e ∈ s.regs, e.2 < 2 ^ (fldInfo (Fld.ofNat (e.1 / 1048576))).w := by
  simp [State.regsWf, List.all_eq_true]

/-- The register file keeps its canonical form and its widths. -/
theorem Keeps.regsWf : Keeps fun s => s.regsWf = true where
  regs.congr _ h _ _ _ _ hs := by simpa [State.regsWf, h] using hs
  regs.set {s} f i v h := by
    rw [State.regsWf_iff] at h ⊢
    refine ⟨smWf_smSet _ _ h.1, fun e he => ?_⟩
    rcases mem_smSet _ _ _ _ e he with he | rfl
    · exact h.2 e he
    · have hk : fkey f i / 1048576 = f.ctorIdx := by unfold fkey; omega
      simp only [hk, Fld.ofNat_ctorIdx]
      exact Nat.mod_lt _ (Nat.two_pow_pos _)
  st _ _ h := h
  setPoison _ _ h := h
  cfgSet _ _ h := h
  msixSet _ _ h := h
  keep p _ _ _ _ _ h _ _ _ _ hs := by
    rw [State.regsWf_iff] at hs ⊢
    rw [h]
    exact ⟨smWf_smKeep p hs.1, fun e he => hs.2 e ((smKeep_sublist p _).subset he)⟩

theorem State.bytesWf_iff (s : State) : s.bytesWf = true ↔ smWf memDefault s.mem = true ∧
    smWf (fun _ => false) s.poison = true ∧ smWf cfgDefault s.cfg = true ∧ smWf msixDefault s.msix = true := by
  simp [State.bytesWf, State.memWf, and_assoc]

/-- The memories, the poison marks, configuration space and the MSI-X tables keep their canonical form. -/
theorem Keeps.bytesWf : Keeps fun s => s.bytesWf = true where
  regs.congr _ _ hm hp hc hx hs := by rw [State.bytesWf_iff] at hs ⊢; rwa [hm, hp, hc, hx]
  regs.set _ _ _ h := h
  st a b h := by
    rw [State.bytesWf_iff] at h ⊢
    exact ⟨smWf_smSet a b h.1, h.2⟩
  setPoison a b h := by
    rw [State.bytesWf_iff] at h ⊢
    exact ⟨h.1, smWf_smSet _ b h.2.1, h.2.2⟩
  cfgSet k b h := by
    rw [State.bytesWf_iff] at h ⊢
    exact ⟨h.1, h.2.1, smWf_smSet k b h.2.2.1, h.2.2.2⟩
  msixSet k b h := by
    rw [State.bytesWf_iff] at h ⊢
    exact ⟨h.1, h.2.1, h.2.2.1, smWf_smSet k b h.2.2.2⟩
  keep _ q u v w _ _ hm hp hc hx hs := by
    rw [State.bytesWf_iff] at hs ⊢
    rw [hm, hp, hc, hx]
    exact ⟨smWf_smKeep q hs.1, smWf_smKeep u hs.2.1, smWf_smKeep v hs.2.2.1, smWf_smKeep w hs.2.2.2⟩

/-- The memories, the poison marks, configuration space and the MSI-X tables are as they were. -/
theorem KeepsRegs.stores (s : State) :
    KeepsRegs fun t => t.mem = s.mem ∧ t.poison = s.poison ∧ t.cfg = s.cfg ∧ t.msix = s.msix where
  congr _ _ hm hp hc hx h := ⟨hm.trans h.1, hp.trans h.2.1, hc.trans h.2.2.1, hx.trans h.2.2.2⟩
  set _ _ _ h := h

end Sys2Proof.Machine
end

