-- ==== Sys2Proof/Laws/KeepsFields.lean ====
section
/-!
SUPPORT. Operations that change registers and queues alone: what setting a register field keeps, they keep.
-/
namespace Sys2Proof.Machine

variable {P : State → Prop} (hP : KeepsRegs P) {s : State}
include hP

theorem keeps_count (f : Fld) (i : Nat) (n : Nat) (h0 : P s) : P (State.count s f i n) := by
  unfold State.count
  repeat' with_reducible first | assumption | apply hP.set

theorem keeps_send (o : Out) (h0 : P s) : P (State.send s o) := by
  unfold State.send
  repeat' first
    | with_reducible assumption
    | simp only [hP.upd]

theorem keeps_hostTx (o : Out) (h0 : P s) : P (State.hostTx s o) := by
  unfold State.hostTx
  repeat' first
    | with_reducible first | assumption | apply keeps_send hP | apply hP.ite
    | simp only [hP.upd]

theorem keeps_draw (w : Nat) (h0 : P s) : P (State.draw s w).2 := by
  unfold State.draw
  repeat' first
    | with_reducible assumption
    | simp only [hP.upd]

theorem keeps_setPort (p : Nat) (l : PortLL) (h0 : P s) : P (State.setPort s p l) := by
  unfold State.setPort
  repeat' first
    | with_reducible assumption
    | simp only [hP.upd]

theorem keeps_setDom (d : Nat) (v : DomSt) (h0 : P s) : P (State.setDom s d v) := by
  unfold State.setDom
  repeat' first
    | with_reducible assumption
    | simp only [hP.upd]

theorem keeps_countBank (m off len : Nat) (viaAlias : Bool) (h0 : P s) : P (State.countBank s m off len viaAlias) := by
  unfold State.countBank
  repeat' first
    | with_reducible assumption
    | simp only [hP.upd]

theorem keeps_irqFresh (i : Nat) (h0 : P s) : P (State.irqFresh s i) := by
  unfold State.irqFresh
  repeat' first
    | with_reducible first | assumption | apply hP.ite
    | simp only [hP.upd]

theorem keeps_setLk (l : Nat) (v : LaneLink) (h0 : P s) : P (State.setLk s l v) := by
  unfold State.setLk
  repeat' first
    | with_reducible assumption
    | simp only [hP.upd]

theorem keeps_setLtx (i : Nat) (v : LaneTx) (h0 : P s) : P (State.setLtx s i v) := by
  unfold State.setLtx
  repeat' first
    | with_reducible first | assumption | intro _
    | simp only [hP.upd]
    | simp only [id_eq]
    | (extract_lets +onlyGivenNames x; refine (fun (hx : P x) => ?_) ?_; clear_value x; rotate_left; subst x; rotate_right)
    | (extract_lets +onlyGivenNames x; clear_value x)
    | (split; all_goals (rename_i heq; have e2 := congrArg Prod.snd heq; simp only at e2; subst e2))
    | split

theorem keeps_laneSend (i : Nat) (ctl : Bool) (payload : Nat) (h0 : P s) : P (State.laneSend s i ctl payload) := by
  unfold State.laneSend
  repeat' first
    | with_reducible first | assumption | intro _ | apply keeps_send hP | apply keeps_setLtx hP
    | simp only [hP.upd]
    | simp only [id_eq]
    | (extract_lets +onlyGivenNames x; refine (fun (hx : P x) => ?_) ?_; clear_value x; rotate_left; subst x; rotate_right)
    | (extract_lets +onlyGivenNames x; clear_value x)
    | (split; all_goals (rename_i heq; have e2 := congrArg Prod.snd heq; simp only at e2; subst e2))
    | split

theorem keeps_streamSend (l : Nat) (bs : List (Bool × Nat)) (h0 : P s) : P (State.streamSend s l bs) := by
  unfold State.streamSend
  repeat' first
    | with_reducible first | assumption | intro _ | apply keeps_laneSend hP | apply keeps_setLk hP | apply keeps_each
    | simp only [hP.upd]
    | simp only [id_eq]
    | (extract_lets +onlyGivenNames x; refine (fun (hx : P x) => ?_) ?_; clear_value x; rotate_left; subst x; rotate_right)
    | (extract_lets +onlyGivenNames x; clear_value x)
    | (split; all_goals (rename_i heq; have e2 := congrArg Prod.snd heq; simp only at e2; subst e2))
    | split

theorem keeps_trainLane (target phase n i : Nat) (h0 : P s) : P (State.trainLane s target phase n i) := by
  unfold State.trainLane
  repeat' first
    | with_reducible first | assumption | intro _ | apply keeps_send hP | apply keeps_setLtx hP
    | simp only [hP.upd]
    | simp only [id_eq]
    | (extract_lets +onlyGivenNames x; refine (fun (hx : P x) => ?_) ?_; clear_value x; rotate_left; subst x; rotate_right)
    | (extract_lets +onlyGivenNames x; clear_value x)
    | (split; all_goals (rename_i heq; have e2 := congrArg Prod.snd heq; simp only at e2; subst e2))
    | split

theorem keeps_trainTx (is : List Nat) (target phase n : Nat) (h0 : P s) : P (State.trainTx s is target phase n) := by
  unfold State.trainTx
  repeat' first
    | with_reducible first | assumption | intro _ | apply keeps_trainLane hP | apply keeps_each
    | simp only [hP.upd]
    | simp only [id_eq]
    | (extract_lets +onlyGivenNames x; refine (fun (hx : P x) => ?_) ?_; clear_value x; rotate_left; subst x; rotate_right)
    | (extract_lets +onlyGivenNames x; clear_value x)
    | (split; all_goals (rename_i heq; have e2 := congrArg Prod.snd heq; simp only at e2; subst e2))
    | split

theorem keeps_bundleSend (l : Nat) (b : Bundle) (h0 : P s) : P (State.bundleSend s l b) := by
  unfold State.bundleSend
  repeat' first
    | with_reducible first | assumption | intro _ | apply keeps_send hP | apply keeps_streamSend hP
    | simp only [hP.upd]
    | simp only [id_eq]
    | (extract_lets +onlyGivenNames x; refine (fun (hx : P x) => ?_) ?_; clear_value x; rotate_left; subst x; rotate_right)
    | (extract_lets +onlyGivenNames x; clear_value x)
    | (split; all_goals (rename_i heq; have e2 := congrArg Prod.snd heq; simp only at e2; subst e2))
    | split

theorem keeps_urFill (l : Nat) (ws : List Nat) (h0 : P s) : P (State.urFill s l ws) := by
  unfold State.urFill
  repeat' first
    | with_reducible first
        | assumption | intro _ | apply keeps_bundleSend hP | apply keeps_setPort hP | apply keeps_each
    | simp only [hP.upd]
    | simp only [id_eq]
    | (extract_lets +onlyGivenNames x; refine (fun (hx : P x) => ?_) ?_; clear_value x; rotate_left; subst x; rotate_right)
    | (extract_lets +onlyGivenNames x; clear_value x)
    | (split; all_goals (rename_i heq; have e2 := congrArg Prod.snd heq; simp only at e2; subst e2))
    | split

theorem keeps_urClose (l : Nat) (h0 : P s) : P (State.urClose s l) := by
  unfold State.urClose
  repeat' first
    | with_reducible first | assumption | intro _ | apply keeps_urFill hP
    | simp only [hP.upd]
    | simp only [id_eq]
    | (extract_lets +onlyGivenNames x; refine (fun (hx : P x) => ?_) ?_; clear_value x; rotate_left; subst x; rotate_right)
    | (extract_lets +onlyGivenNames x; clear_value x)
    | (split; all_goals (rename_i heq; have e2 := congrArg Prod.snd heq; simp only at e2; subst e2))
    | split

theorem keeps_urBatch (l : Nat) (f : State → State) (h_f : ∀ s, P s → P (f s)) (h0 : P s) : P (State.urBatch s l f) := by
  unfold State.urBatch
  repeat' first
    | with_reducible first
        | assumption | intro _ | apply h_f | apply keeps_setPort hP | apply keeps_urClose hP | apply hP.ite
    | simp only [hP.upd]
    | simp only [id_eq]
    | (extract_lets +onlyGivenNames x; refine (fun (hx : P x) => ?_) ?_; clear_value x; rotate_left; subst x; rotate_right)
    | (extract_lets +onlyGivenNames x; clear_value x)
    | (split; all_goals (rename_i heq; have e2 := congrArg Prod.snd heq; simp only at e2; subst e2))
    | split

theorem keeps_urSend (p : Nat) (k : UrPkt) (h0 : P s) : P (State.urSend s p k) := by
  unfold State.urSend
  repeat' first
    | with_reducible first
        | assumption | intro _ | apply keeps_send hP | apply keeps_setPort hP | apply keeps_urClose hP
        | apply keeps_urFill hP | apply hP.ite
    | simp only [hP.upd]
    | simp only [id_eq]
    | (extract_lets +onlyGivenNames x; refine (fun (hx : P x) => ?_) ?_; clear_value x; rotate_left; subst x; rotate_right)
    | (extract_lets +onlyGivenNames x; clear_value x)
    | (split; all_goals (rename_i heq; have e2 := congrArg Prod.snd heq; simp only at e2; subst e2))
    | split

theorem keeps_urFlush (p : Nat) (h0 : P s) : P (State.urFlush s p) := by
  unfold State.urFlush
  repeat' first
    | with_reducible first
        | assumption | intro _ | apply keeps_setPort hP | apply keeps_urBatch hP | apply keeps_urSend hP
        | apply keeps_each
    | simp only [hP.upd]
    | simp only [id_eq]
    | (extract_lets +onlyGivenNames x; refine (fun (hx : P x) => ?_) ?_; clear_value x; rotate_left; subst x; rotate_right)
    | (extract_lets +onlyGivenNames x; clear_value x)
    | (split; all_goals (rename_i heq; have e2 := congrArg Prod.snd heq; simp only at e2; subst e2))
    | split

theorem keeps_urAck (l : Nat) (nak : Bool) (h0 : P s) : P (State.urAck s l nak) := by
  unfold State.urAck
  repeat' first
    | with_reducible first | assumption | intro _ | apply keeps_send hP | apply keeps_streamSend hP | apply hP.ite
    | simp only [hP.upd]
    | simp only [id_eq]
    | (extract_lets +onlyGivenNames x; refine (fun (hx : P x) => ?_) ?_; clear_value x; rotate_left; subst x; rotate_right)
    | (extract_lets +onlyGivenNames x; clear_value x)
    | (split; all_goals (rename_i heq; have e2 := congrArg Prod.snd heq; simp only at e2; subst e2))
    | split

theorem keeps_retire (r : Req) (h0 : P s) : P (State.retire s r) := by
  unfold State.retire
  repeat' first
    | with_reducible first | assumption | apply hP.ite
    | simp only [hP.upd]

theorem keeps_mirror (rtype arg : Nat) (payload : List Nat) (h0 : P s) : P (State.mirror s rtype arg payload) := by
  unfold State.mirror
  repeat' first
    | with_reducible first | assumption | apply hP.set | apply keeps_urSend hP | apply hP.ite
    | simp only [hP.upd]

theorem keeps_mirReg (addr width value : Nat) (h0 : P s) : P (State.mirReg s addr width value) := by
  unfold State.mirReg
  repeat' first
    | with_reducible first | assumption | intro _ | apply keeps_mirror hP
    | simp only [hP.upd]
    | simp only [id_eq]
    | (extract_lets +onlyGivenNames x; refine (fun (hx : P x) => ?_) ?_; clear_value x; rotate_left; subst x; rotate_right)
    | (extract_lets +onlyGivenNames x; clear_value x)
    | (split; all_goals (rename_i heq; have e2 := congrArg Prod.snd heq; simp only at e2; subst e2))
    | split

theorem keeps_setChan (c : Nat) (r : ChRun) (h0 : P s) : P (State.setChan s c r) := by
  unfold State.setChan
  repeat' first
    | with_reducible assumption
    | simp only [hP.upd]

theorem keeps_dropChan (c : Nat) (h0 : P s) : P (State.dropChan s c) := by
  unfold State.dropChan
  repeat' first
    | with_reducible assumption
    | simp only [hP.upd]

theorem keeps_setRing (x : Nat) (r : Ring) (h0 : P s) : P (State.setRing s x r) := by
  unfold State.setRing
  repeat' first
    | with_reducible assumption
    | simp only [hP.upd]

theorem keeps_chReset (c : Nat) (h0 : P s) : P (State.chReset s c) := by
  unfold State.chReset
  repeat' first
    | with_reducible first
        | assumption | intro _ | apply hP.set | apply keeps_dropChan hP | apply keeps_each | apply hP.ite
    | simp only [hP.upd]
    | simp only [id_eq]
    | (extract_lets +onlyGivenNames x; refine (fun (hx : P x) => ?_) ?_; clear_value x; rotate_left; subst x; rotate_right)
    | (extract_lets +onlyGivenNames x; clear_value x)
    | (split; all_goals (rename_i heq; have e2 := congrArg Prod.snd heq; simp only at e2; subst e2))
    | split

theorem keeps_groupDrop (n g : Nat) (h0 : P s) : P (State.groupDrop s n g) := by
  unfold State.groupDrop
  repeat' first
    | with_reducible first | assumption | intro _ | apply keeps_retire hP | apply hP.ite
    | simp only [hP.upd]
    | simp only [id_eq]
    | (extract_lets +onlyGivenNames x; refine (fun (hx : P x) => ?_) ?_; clear_value x; rotate_left; subst x; rotate_right)
    | (extract_lets +onlyGivenNames x; clear_value x)
    | (split; all_goals (rename_i heq; have e2 := congrArg Prod.snd heq; simp only at e2; subst e2))
    | split

theorem keeps_softAbort (c : Nat) (h0 : P s) : P (State.softAbort s c) := by
  unfold State.softAbort
  repeat' first
    | with_reducible first | assumption | intro _ | apply hP.set | apply keeps_setChan hP | apply hP.ite
    | simp only [hP.upd]
    | simp only [id_eq]
    | (extract_lets +onlyGivenNames x; refine (fun (hx : P x) => ?_) ?_; clear_value x; rotate_left; subst x; rotate_right)
    | (extract_lets +onlyGivenNames x; clear_value x)
    | (split; all_goals (rename_i heq; have e2 := congrArg Prod.snd heq; simp only at e2; subst e2))
    | split

theorem keeps_masterOffChan (c : Nat) (h0 : P s) : P (State.masterOffChan s c) := by
  unfold State.masterOffChan
  repeat' first
    | with_reducible first | assumption | apply hP.set | apply keeps_setChan hP
    | split

theorem keeps_drainChan (c : Nat) (h0 : P s) : P (State.drainChan s c) := by
  unfold State.drainChan
  repeat' first
    | with_reducible first | assumption | apply hP.set | apply keeps_setChan hP
    | split

theorem keeps_undrainChan (c : Nat) (h0 : P s) : P (State.undrainChan s c) := by
  unfold State.undrainChan
  repeat' first
    | with_reducible first | assumption | apply hP.set
    | split

theorem keeps_haltRings (f : Nat) (h0 : P s) : P (State.haltRings s f) := by
  unfold State.haltRings
  repeat' with_reducible first | assumption | intro _ | apply hP.set | apply keeps_each | apply hP.ite

theorem keeps_seamSend (k : SeamPkt) (h0 : P s) : P (State.seamSend s k) := by
  unfold State.seamSend
  repeat' with_reducible first | assumption | apply keeps_urSend hP

theorem keeps_clkreq (on : Bool) (h0 : P s) : P (State.clkreq s on) := by
  unfold State.clkreq
  repeat' first
    | with_reducible first | assumption | intro _ | apply keeps_send hP | apply hP.ite
    | simp only [hP.upd]
    | simp only [id_eq]
    | (extract_lets +onlyGivenNames x; refine (fun (hx : P x) => ?_) ?_; clear_value x; rotate_left; subst x; rotate_right)
    | (extract_lets +onlyGivenNames x; clear_value x)
    | (split; all_goals (rename_i heq; have e2 := congrArg Prod.snd heq; simp only at e2; subst e2))
    | split

theorem keeps_l1Enter (pm : Bool) (h0 : P s) : P (State.l1Enter s pm) := by
  unfold State.l1Enter
  repeat' first
    | with_reducible first | assumption | intro _ | apply hP.set
    | simp only [hP.upd]
    | simp only [id_eq]
    | (extract_lets +onlyGivenNames x; refine (fun (hx : P x) => ?_) ?_; clear_value x; rotate_left; subst x; rotate_right)
    | (extract_lets +onlyGivenNames x; clear_value x)
    | (split; all_goals (rename_i heq; have e2 := congrArg Prod.snd heq; simp only at e2; subst e2))
    | split

theorem keeps_pmL1 (h0 : P s) : P (State.pmL1 s) := by
  unfold State.pmL1
  repeat' first
    | with_reducible first | assumption | intro _ | apply keeps_l1Enter hP | apply keeps_send hP | apply hP.ite
    | simp only [hP.upd]
    | simp only [id_eq]
    | (extract_lets +onlyGivenNames x; refine (fun (hx : P x) => ?_) ?_; clear_value x; rotate_left; subst x; rotate_right)
    | (extract_lets +onlyGivenNames x; clear_value x)
    | (split; all_goals (rename_i heq; have e2 := congrArg Prod.snd heq; simp only at e2; subst e2))
    | split

theorem keeps_l1Leave (h0 : P s) : P (State.l1Leave s) := by
  unfold State.l1Leave
  repeat' first
    | with_reducible first | assumption | intro _ | apply keeps_clkreq hP | apply keeps_send hP | apply hP.ite
    | simp only [hP.upd]
    | simp only [id_eq]
    | (extract_lets +onlyGivenNames x; refine (fun (hx : P x) => ?_) ?_; clear_value x; rotate_left; subst x; rotate_right)
    | (extract_lets +onlyGivenNames x; clear_value x)
    | (split; all_goals (rename_i heq; have e2 := congrArg Prod.snd heq; simp only at e2; subst e2))
    | split

theorem keeps_eqTake (e : EqRun) (h0 : P s) : P (State.eqTake s e) := by
  unfold State.eqTake
  repeat' first
    | with_reducible first | assumption | intro _ | apply hP.ite
    | simp only [hP.upd]
    | simp only [id_eq]
    | (extract_lets +onlyGivenNames x; refine (fun (hx : P x) => ?_) ?_; clear_value x; rotate_left; subst x; rotate_right)
    | (extract_lets +onlyGivenNames x; clear_value x)
    | (split; all_goals (rename_i heq; have e2 := congrArg Prod.snd heq; simp only at e2; subst e2))
    | split

theorem keeps_eqDrop (h0 : P s) : P (State.eqDrop s) := by
  unfold State.eqDrop
  repeat' first
    | with_reducible first | assumption | intro _
    | simp only [hP.upd]
    | simp only [id_eq]
    | (extract_lets +onlyGivenNames x; refine (fun (hx : P x) => ?_) ?_; clear_value x; rotate_left; subst x; rotate_right)
    | (extract_lets +onlyGivenNames x; clear_value x)
    | (split; all_goals (rename_i heq; have e2 := congrArg Prod.snd heq; simp only at e2; subst e2))
    | split

theorem keeps_widthTrained (w : Nat) (h0 : P s) : P (State.widthTrained s w) := by
  unfold State.widthTrained
  repeat' first
    | with_reducible first | assumption | intro _ | apply keeps_eqDrop hP | apply hP.ite
    | simp only [hP.upd]
    | simp only [id_eq]
    | (extract_lets +onlyGivenNames x; refine (fun (hx : P x) => ?_) ?_; clear_value x; rotate_left; subst x; rotate_right)
    | (extract_lets +onlyGivenNames x; clear_value x)
    | (split; all_goals (rename_i heq; have e2 := congrArg Prod.snd heq; simp only at e2; subst e2))
    | split

theorem keeps_setMarg (n : Nat) (m : Margin) (h0 : P s) : P (State.setMarg s n m) := by
  unfold State.setMarg
  repeat' first
    | with_reducible first | assumption | intro _
    | simp only [hP.upd]
    | simp only [id_eq]
    | (extract_lets +onlyGivenNames x; refine (fun (hx : P x) => ?_) ?_; clear_value x; rotate_left; subst x; rotate_right)
    | (extract_lets +onlyGivenNames x; clear_value x)
    | (split; all_goals (rename_i heq; have e2 := congrArg Prod.snd heq; simp only at e2; subst e2))
    | split

theorem keeps_margWrite (n v : Nat) (h0 : P s) : P (State.margWrite s n v) := by
  unfold State.margWrite
  repeat' first
    | with_reducible first | assumption | intro _ | apply keeps_draw hP | apply keeps_setMarg hP | apply hP.ite
    | dsimp only
    | simp only [id_eq]
    | (extract_lets +onlyGivenNames x; refine (fun (hx : P x) => ?_) ?_; clear_value x; rotate_left; subst x; rotate_right)
    | (extract_lets +onlyGivenNames x; clear_value x)
    | (split; all_goals (rename_i heq; have e2 := congrArg Prod.snd heq; simp only at e2; subst e2))
    | split

theorem keeps_margErrs (n e : Nat) (h0 : P s) : P (State.margErrs s n e) := by
  unfold State.margErrs
  repeat' first
    | with_reducible first | assumption | intro _ | apply keeps_setMarg hP | apply hP.ite
    | simp only [hP.upd]
    | simp only [id_eq]
    | (extract_lets +onlyGivenNames x; refine (fun (hx : P x) => ?_) ?_; clear_value x; rotate_left; subst x; rotate_right)
    | (extract_lets +onlyGivenNames x; clear_value x)
    | (split; all_goals (rename_i heq; have e2 := congrArg Prod.snd heq; simp only at e2; subst e2))
    | split

theorem keeps_ideSettle (stream : Nat) (h0 : P s) : P (State.ideSettle s stream) := by
  unfold State.ideSettle
  repeat' with_reducible first | assumption | apply hP.set | apply hP.ite

theorem keeps_memCapture (a : Nat) (lasting : Bool) (mst : Nat) (h0 : P s) : P (State.memCapture s a lasting mst).2 := by
  unfold State.memCapture
  repeat' first
    | with_reducible first | assumption | apply hP.set
    | split

theorem keeps_arrayMirror (a len : Nat) (h0 : P s) : P (State.arrayMirror s a len) := by
  unfold State.arrayMirror
  repeat' with_reducible first | assumption | intro _ | apply keeps_mirReg hP | apply keeps_each

theorem keeps_touchCache (c : CacheEnt) (h0 : P s) : P (State.touchCache s c) := by
  unfold State.touchCache
  repeat' first
    | with_reducible assumption
    | simp only [hP.upd]

theorem keeps_install (idx : Nat) (w : List Nat) (h0 : P s) : P (State.install s idx w) := by
  unfold State.install
  repeat' first
    | with_reducible assumption
    | simp only [hP.upd]

theorem keeps_uncache (p : Nat → Bool) (h0 : P s) : P (State.uncache s p) := by
  unfold State.uncache
  repeat' first
    | with_reducible assumption
    | simp only [hP.upd]

theorem keeps_dropLines (p : PrefLine → Bool) (h0 : P s) : P (State.dropLines s p) := by
  unfold State.dropLines
  repeat' first
    | with_reducible assumption
    | simp only [hP.upd]

theorem keeps_stamp (r : Req) (h0 : P s) : P (State.stamp s r).2 := by
  unfold State.stamp
  repeat' first
    | with_reducible first | assumption | intro _ | apply hP.ite
    | simp only [hP.upd]
    | simp only [id_eq]
    | (extract_lets +onlyGivenNames x; refine (fun (hx : P x) => ?_) ?_; clear_value x; rotate_left; subst x; rotate_right)
    | (extract_lets +onlyGivenNames x; clear_value x)
    | (split; all_goals (rename_i heq; have e2 := congrArg Prod.snd heq; simp only at e2; subst e2))
    | split

theorem keeps_xltCapture (r : Req) (cause : Nat) (h0 : P s) : P (State.xltCapture s r cause) := by
  unfold State.xltCapture
  repeat' with_reducible first | assumption | apply hP.set | apply hP.ite

theorem keeps_dbgRefuse (a : Nat) (write : Bool) (len : Nat) (h0 : P s) : P (State.dbgRefuse s a write len) := by
  unfold State.dbgRefuse
  repeat' with_reducible first | assumption | apply hP.set | apply keeps_count hP | apply keeps_send hP | apply hP.ite

theorem keeps_mbxErr (m : Nat) (h0 : P s) : P (State.mbxErr s m) := by
  unfold State.mbxErr
  repeat' with_reducible first | assumption | apply hP.set | apply keeps_count hP

theorem keeps_respond (r : Req) (k : UrPkt) (h0 : P s) : P (State.respond s r k) := by
  unfold State.respond
  repeat' first
    | with_reducible first | assumption | intro _ | apply keeps_setPort hP | apply keeps_urSend hP | apply hP.ite
    | dsimp only
    | simp only [id_eq]
    | (extract_lets +onlyGivenNames x; refine (fun (hx : P x) => ?_) ?_; clear_value x; rotate_left; subst x; rotate_right)
    | (extract_lets +onlyGivenNames x; clear_value x)
    | (split; all_goals (rename_i heq; have e2 := congrArg Prod.snd heq; simp only at e2; subst e2))
    | split

theorem keeps_takeLock (k : Nat × Nat) (expl : Option Nat) (h0 : P s) : P (State.takeLock s k expl) := by
  unfold State.takeLock
  repeat' first
    | with_reducible assumption
    | simp only [hP.upd]

theorem keeps_dropLock (k : Nat × Nat) (h0 : P s) : P (State.dropLock s k) := by
  unfold State.dropLock
  repeat' first
    | with_reducible assumption
    | simp only [hP.upd]

theorem keeps_histAdd (e : LEnt) (h0 : P s) : P (State.histAdd s e) := by
  unfold State.histAdd
  repeat' first
    | with_reducible first | assumption | intro _ | apply hP.ite
    | simp only [hP.upd]
    | simp only [id_eq]
    | (extract_lets +onlyGivenNames x; refine (fun (hx : P x) => ?_) ?_; clear_value x; rotate_left; subst x; rotate_right)
    | (extract_lets +onlyGivenNames x; clear_value x)
    | (split; all_goals (rename_i heq; have e2 := congrArg Prod.snd heq; simp only at e2; subst e2))
    | split

theorem keeps_setPRead (r : PRead) (h0 : P s) : P (State.setPRead s r) := by
  unfold State.setPRead
  repeat' first
    | with_reducible assumption
    | simp only [hP.upd]

theorem keeps_dropPRead (r : PRead) (h0 : P s) : P (State.dropPRead s r) := by
  unfold State.dropPRead
  repeat' first
    | with_reducible assumption
    | simp only [hP.upd]

theorem keeps_fillLines (r : PRead) (whole : Bool) (h0 : P s) : P (State.fillLines s r whole) := by
  unfold State.fillLines
  repeat' first
    | with_reducible first | assumption | intro _
    | simp only [hP.upd]
    | simp only [id_eq]
    | (extract_lets +onlyGivenNames x; refine (fun (hx : P x) => ?_) ?_; clear_value x; rotate_left; subst x; rotate_right)
    | (extract_lets +onlyGivenNames x; clear_value x)
    | (split; all_goals (rename_i heq; have e2 := congrArg Prod.snd heq; simp only at e2; subst e2))
    | split

theorem keeps_emulWrite (r : Req) (old : List Byte) (pois : List Nat) (h0 : P s) : P (State.emulWrite s r old pois) := by
  unfold State.emulWrite
  repeat' first
    | with_reducible first | assumption | intro _
    | simp only [hP.upd]
    | simp only [id_eq]
    | (extract_lets +onlyGivenNames x; refine (fun (hx : P x) => ?_) ?_; clear_value x; rotate_left; subst x; rotate_right)
    | (extract_lets +onlyGivenNames x; clear_value x)
    | (split; all_goals (rename_i heq; have e2 := congrArg Prod.snd heq; simp only at e2; subst e2))
    | split

theorem keeps_freeLock (r : Req) (h0 : P s) : P (State.freeLock s r) := by
  unfold State.freeLock
  repeat' first
    | with_reducible first | assumption | intro _ | apply keeps_dropLock hP
    | simp only [hP.upd]
    | simp only [id_eq]
    | (extract_lets +onlyGivenNames x; refine (fun (hx : P x) => ?_) ?_; clear_value x; rotate_left; subst x; rotate_right)
    | (extract_lets +onlyGivenNames x; clear_value x)
    | (split; all_goals (rename_i heq; have e2 := congrArg Prod.snd heq; simp only at e2; subst e2))
    | split

theorem keeps_bskQueue (r : Req) (h0 : P s) : P (State.bskQueue s r) := by
  unfold State.bskQueue
  repeat' first
    | with_reducible first | assumption | intro _ | apply keeps_count hP | apply hP.ite
    | simp only [hP.upd]
    | simp only [id_eq]
    | (extract_lets +onlyGivenNames x; refine (fun (hx : P x) => ?_) ?_; clear_value x; rotate_left; subst x; rotate_right)
    | (extract_lets +onlyGivenNames x; clear_value x)
    | (split; all_goals (rename_i heq; have e2 := congrArg Prod.snd heq; simp only at e2; subst e2))
    | split

theorem keeps_sendHostReq (r : Req) (tag off len : Nat) (h0 : P s) : P (State.sendHostReq s r tag off len) := by
  unfold State.sendHostReq
  repeat' first
    | with_reducible first | assumption | apply keeps_hostTx hP
    | split

theorem keeps_setHRead (h : HRead) (h0 : P s) : P (State.setHRead s h) := by
  unfold State.setHRead
  repeat' first
    | with_reducible assumption
    | simp only [hP.upd]

theorem keeps_issuePieces (h : HRead) (l : List (Nat × Nat)) : ∀ {s : State}, P s → P (s.issuePieces h l) := by
  induction l with
  | nil => intro s hs; exact keeps_setHRead hP _ hs
  | cons c t ih =>
    intro s hs
    simp only [State.issuePieces]
    split
    · exact keeps_setHRead hP _ hs
    · exact ih (keeps_sendHostReq hP _ _ _ _ (by simp only [hP.upd]; exact hs))

theorem keeps_bskTake (r : Req) (h0 : P s) : P (State.bskTake s r) := by
  unfold State.bskTake
  repeat' first
    | with_reducible first | assumption | intro _ | apply keeps_issuePieces hP
    | simp only [hP.upd]
    | simp only [id_eq]
    | (extract_lets +onlyGivenNames x; refine (fun (hx : P x) => ?_) ?_; clear_value x; rotate_left; subst x; rotate_right)
    | (extract_lets +onlyGivenNames x; clear_value x)
    | (split; all_goals (rename_i heq; have e2 := congrArg Prod.snd heq; simp only at e2; subst e2))
    | split

theorem keeps_hostResp (r : Req) (k : UrPkt) (units : Nat) (h0 : P s) : P (State.hostResp s r k units) := by
  unfold State.hostResp
  repeat' first
    | with_reducible first | assumption | intro _ | apply keeps_respond hP | apply keeps_retire hP | apply hP.ite
    | simp only [hP.upd]
    | simp only [id_eq]
    | (extract_lets +onlyGivenNames x; refine (fun (hx : P x) => ?_) ?_; clear_value x; rotate_left; subst x; rotate_right)
    | (extract_lets +onlyGivenNames x; clear_value x)
    | (split; all_goals (rename_i heq; have e2 := congrArg Prod.snd heq; simp only at e2; subst e2))
    | split

theorem keeps_offAccess (d : Nat) (h0 : P s) : P (State.offAccess s d) := by
  unfold State.offAccess
  repeat' with_reducible first | assumption | apply hP.set | apply keeps_count hP

theorem keeps_touchLines (r : Req) (h0 : P s) : P (State.touchLines s r) := by
  unfold State.touchLines
  repeat' first
    | with_reducible first | assumption | intro _
    | simp only [hP.upd]
    | simp only [id_eq]
    | (extract_lets +onlyGivenNames x; refine (fun (hx : P x) => ?_) ?_; clear_value x; rotate_left; subst x; rotate_right)
    | (extract_lets +onlyGivenNames x; clear_value x)
    | (split; all_goals (rename_i heq; have e2 := congrArg Prod.snd heq; simp only at e2; subst e2))
    | split

theorem keeps_openGroup (r : Req) (n : Nat) (h0 : P s) : P (State.openGroup s r n).2 := by
  unfold State.openGroup
  repeat' first
    | with_reducible assumption
    | simp only [hP.upd]

theorem keeps_queueRead (p : Nat) (r : Req) (h0 : P s) : P (State.queueRead s p r) := by
  unfold State.queueRead
  repeat' first
    | with_reducible first
        | assumption | intro _ | apply keeps_count hP | apply keeps_openGroup hP | apply keeps_each | apply hP.ite
    | simp only [hP.upd]

theorem keeps_dropOver (r : Req) (h0 : P s) : P (State.dropOver s r) := by
  unfold State.dropOver
  repeat' first
    | with_reducible first | assumption | intro _ | apply keeps_dropLines hP
    | simp only [hP.upd]
    | simp only [id_eq]
    | (extract_lets +onlyGivenNames x; refine (fun (hx : P x) => ?_) ?_; clear_value x; rotate_left; subst x; rotate_right)
    | (extract_lets +onlyGivenNames x; clear_value x)
    | (split; all_goals (rename_i heq; have e2 := congrArg Prod.snd heq; simp only at e2; subst e2))
    | split

theorem keeps_dropExpl (p : Nat) (k : Nat × Nat) (h0 : P s) : P (State.dropExpl s p k) := by
  unfold State.dropExpl
  repeat' first
    | with_reducible first | assumption | intro _
    | simp only [hP.upd]
    | simp only [id_eq]
    | (extract_lets +onlyGivenNames x; refine (fun (hx : P x) => ?_) ?_; clear_value x; rotate_left; subst x; rotate_right)
    | (extract_lets +onlyGivenNames x; clear_value x)
    | (split; all_goals (rename_i heq; have e2 := congrArg Prod.snd heq; simp only at e2; subst e2))
    | split

theorem keeps_missOn (tbl : Nat) (r : Req) (h0 : P s) : P (State.missOn s tbl r) := by
  unfold State.missOn
  repeat' first
    | with_reducible first | assumption | intro _ | apply keeps_count hP | apply hP.ite
    | simp only [hP.upd]
    | simp only [id_eq]
    | (extract_lets +onlyGivenNames x; refine (fun (hx : P x) => ?_) ?_; clear_value x; rotate_left; subst x; rotate_right)
    | (extract_lets +onlyGivenNames x; clear_value x)
    | (split; all_goals (rename_i heq; have e2 := congrArg Prod.snd heq; simp only at e2; subst e2))
    | split

theorem keeps_noteWait (a wait : Nat) (res : List Nat) (h0 : P s) : P (State.noteWait s a wait res) := by
  unfold State.noteWait
  repeat' first
    | with_reducible first | assumption | intro _ | apply keeps_each | apply hP.ite
    | simp only [hP.upd]

theorem keeps_govCharge (r q : Req) (since : Nat) (h0 : P s) : P (State.govCharge s r q since) := by
  unfold State.govCharge
  repeat' first
    | with_reducible first | assumption | intro _ | apply keeps_noteWait hP | apply keeps_each
    | simp only [hP.upd]
    | split

theorem keeps_govTake (r : Req) (since : Nat) (h0 : P s) : P (State.govTake s r since) := by
  unfold State.govTake
  repeat' first
    | with_reducible first | assumption | intro _ | apply keeps_govCharge hP | apply hP.ite
    | simp only [hP.upd]
    | simp only [id_eq]
    | (extract_lets +onlyGivenNames x; refine (fun (hx : P x) => ?_) ?_; clear_value x; rotate_left; subst x; rotate_right)
    | (extract_lets +onlyGivenNames x; clear_value x)
    | (split; all_goals (rename_i heq; have e2 := congrArg Prod.snd heq; simp only at e2; subst e2))
    | split

theorem keeps_govEnter (del : State → Req → State) (r : Req) (h_del : ∀ s r, P s → P (del s r)) (h0 : P s) :
    P (State.govEnter del s r) := by
  unfold State.govEnter
  repeat' first
    | with_reducible first
        | assumption | intro _ | apply h_del | apply hP.set | apply keeps_govTake hP | apply hP.ite
    | simp only [hP.upd]
    | simp only [id_eq]
    | (extract_lets +onlyGivenNames x; refine (fun (hx : P x) => ?_) ?_; clear_value x; rotate_left; subst x; rotate_right)
    | (extract_lets +onlyGivenNames x; clear_value x)
    | (split; all_goals (rename_i heq; have e2 := congrArg Prod.snd heq; simp only at e2; subst e2))
    | split

theorem keeps_govFlushGo (del : State → Req → State)
    (h_del : ∀ s r, P s → P (del s r)) (l : List (Nat × Req)) : ∀ (k : List (Nat × Req)) {s : State}, P s →
    P (State.govFlush.go del l k s) := by
  induction l with
  | nil => intro k s h; simp only [State.govFlush.go, hP.upd]; exact h
  | cons e t ih =>
    intro k s h
    simp only [State.govFlush.go]
    split
    · exact ih _ h
    · exact ih _ (h_del _ _ (keeps_govTake hP _ _ h))

theorem keeps_govFlush (del : State → Req → State) {s : State}
    (h_del : ∀ s r, P s → P (del s r)) (h : P s) : P (State.govFlush del s) :=
  keeps_govFlushGo hP _ h_del _ _ (by simp only [hP.upd]; exact h)

theorem keeps_sqSettle (x : Nat) (h0 : P s) : P (State.sqSettle s x) := by
  unfold State.sqSettle
  repeat' with_reducible first | assumption | apply hP.set | apply hP.ite

theorem keeps_notePreempt (half c : Nat) (h : P s) :
    P (State.notePreempt s half c) := by
  unfold State.notePreempt
  simp only [hP.upd]
  generalize (if half = 0 then s.rrPos.1 else s.rrPos.2) = last
  cases last with
  | zero => exact h
  | succ l =>
    cases hr : s.chan l with
    | none => simpa only [hr] using h
    | some r =>
      simp only [hr]
      exact hP.ite (keeps_count hP _ _ _ h) h

theorem keeps_takeUnit (c : Nat) (r : ChRun) (h0 : P s) : P (State.takeUnit s c r) := by
  unfold State.takeUnit
  repeat' first
    | with_reducible first | assumption | intro _ | apply hP.set | apply keeps_setChan hP | apply hP.ite
    | simp only [hP.upd]
    | simp only [id_eq]
    | (extract_lets +onlyGivenNames x; refine (fun (hx : P x) => ?_) ?_; clear_value x; rotate_left; subst x; rotate_right)
    | (extract_lets +onlyGivenNames x; clear_value x)
    | (split; all_goals (rename_i heq; have e2 := congrArg Prod.snd heq; simp only at e2; subst e2))
    | split

theorem keeps_ringReset (x : Nat) (h0 : P s) : P (State.ringReset s x) := by
  unfold State.ringReset
  repeat' first
    | with_reducible first | assumption | intro _ | apply hP.set | apply keeps_setRing hP | apply keeps_sqSettle hP
    | simp only [hP.upd]
    | simp only [id_eq]
    | (extract_lets +onlyGivenNames x; refine (fun (hx : P x) => ?_) ?_; clear_value x; rotate_left; subst x; rotate_right)
    | (extract_lets +onlyGivenNames x; clear_value x)
    | (split; all_goals (rename_i heq; have e2 := congrArg Prod.snd heq; simp only at e2; subst e2))
    | split

theorem keeps_setShare (a : Nat) (sh : Nat × Nat) (h0 : P s) : P (State.setShare s a sh) := by
  unfold State.setShare
  repeat' with_reducible first | assumption | apply hP.set | apply hP.ite

omit hP in
theorem keeps_grantFold {α : Type} (f : State × Nat → α → State × Nat)
    (hf : ∀ a k, P a.1 → P (f a k).1) (l : List α) : ∀ a : State × Nat, P a.1 → P (l.foldl f a).1 := by
  induction l with
  | nil => intro a h; exact h
  | cons k t ih => intro a h; exact ih _ (hf _ _ h)

theorem keeps_grantRes (all dem : List Nat) (r : Nat) (h : P s) :
    P (State.grantRes s all dem r) := by
  unfold State.grantRes
  have key := keeps_grantFold (P := P) (α := Nat)
  repeat' first
    | intro _
    | with_reducible assumption
    | with_reducible apply keeps_each
    | with_reducible apply hP.set
    | with_reducible apply hP.ite
    | (refine key _ ?_ _ _ ?_)
    | simp only [hP.upd]
    | (extract_lets +onlyGivenNames x; first
        | (refine (fun (hx : P x) => ?_) ?_; clear_value x; rotate_left; subst x; rotate_right)
        | clear_value x)
    | split

theorem keeps_govEpoch (h0 : P s) : P (State.govEpoch s) := by
  unfold State.govEpoch
  repeat' first
    | with_reducible first
        | assumption | intro _ | apply hP.set | apply keeps_grantRes hP | apply keeps_mirror hP | apply keeps_each
    | simp only [hP.upd]

theorem keeps_govWindow (h0 : P s) : P (State.govWindow s) := by
  unfold State.govWindow
  repeat' first
    | with_reducible first | assumption | intro _ | apply hP.set | apply keeps_each | apply hP.ite
    | simp only [hP.upd]
    | simp only [id_eq]
    | (extract_lets +onlyGivenNames x; refine (fun (hx : P x) => ?_) ?_; clear_value x; rotate_left; subst x; rotate_right)
    | (extract_lets +onlyGivenNames x; clear_value x)
    | (split; all_goals (rename_i heq; have e2 := congrArg Prod.snd heq; simp only at e2; subst e2))
    | split

theorem keeps_shrResult (a res r : Nat) (h0 : P s) : P (State.shrResult s a res r) := by
  unfold State.shrResult
  repeat' with_reducible first | assumption | apply hP.set

theorem keeps_shrCommit (a : Nat) (new : Nat × Nat) (h0 : P s) : P (State.shrCommit s a new) := by
  unfold State.shrCommit
  repeat' first
    | with_reducible first | assumption | apply keeps_setShare hP
    | simp only [hP.upd]

theorem keeps_shrUpdDone (h0 : P s) : P (State.shrUpdDone s) := by
  unfold State.shrUpdDone
  repeat' first
    | with_reducible first | assumption | apply hP.set | apply keeps_shrCommit hP
    | simp only [hP.upd]
    | split

theorem keeps_ctxBind (x : Nat) (valid : Bool) (sliceEn : Bool) (slice f : Nat) (chargeIn : Bool) (h0 : P s) :
    P (State.ctxBind s x valid sliceEn slice f chargeIn) := by
  unfold State.ctxBind
  repeat' with_reducible first | assumption | apply hP.set | apply keeps_mirReg hP | apply hP.ite

theorem keeps_xltWrite (i : Nat) (h0 : P s) : P (State.xltWrite s i) := by
  unfold State.xltWrite
  repeat' first
    | with_reducible first | assumption | intro _ | apply hP.set | apply hP.ite
    | simp only [hP.upd]
    | simp only [id_eq]
    | (extract_lets +onlyGivenNames x; refine (fun (hx : P x) => ?_) ?_; clear_value x; rotate_left; subst x; rotate_right)
    | (extract_lets +onlyGivenNames x; clear_value x)
    | (split; all_goals (rename_i heq; have e2 := congrArg Prod.snd heq; simp only at e2; subst e2))
    | split

theorem keeps_xltIdle (h0 : P s) : P (State.xltIdle s) := by
  unfold State.xltIdle
  repeat' first
    | with_reducible first | assumption | apply hP.set
    | simp only [hP.upd]

theorem keeps_loadPin (i : Nat) (h0 : P s) : P (State.loadPin s i) := by
  unfold State.loadPin
  repeat' with_reducible first | assumption | apply keeps_install hP | apply hP.ite

theorem keeps_xltInval (op i : Nat) (h0 : P s) : P (State.xltInval s op i) := by
  unfold State.xltInval
  repeat' first
    | with_reducible first
        | assumption | apply hP.set | apply keeps_dropLines hP | apply keeps_uncache hP | apply hP.ite
    | simp only [hP.upd]

theorem keeps_xltInvalDone (h0 : P s) : P (State.xltInvalDone s) := by
  unfold State.xltInvalDone
  repeat' first
    | with_reducible first
        | assumption | intro _ | apply keeps_loadPin hP | apply keeps_xltIdle hP | apply keeps_each
    | split

theorem keeps_xltCmd (op i : Nat) (h0 : P s) : P (State.xltCmd s op i) := by
  unfold State.xltCmd
  repeat' with_reducible first | assumption | apply keeps_xltInval hP | apply keeps_xltWrite hP | apply hP.ite

theorem keeps_unitsUnmirrored (h0 : P s) : P (State.unitsUnmirrored s) := by
  unfold State.unitsUnmirrored
  repeat' first
    | with_reducible first | assumption | apply hP.set | apply keeps_xltIdle hP
    | simp only [hP.upd]
    | split

theorem keeps_tblBaseWrite (v : Nat) (h0 : P s) : P (State.tblBaseWrite s v) := by
  unfold State.tblBaseWrite
  repeat' first
    | with_reducible first | assumption | apply hP.set | apply hP.ite
    | simp only [hP.upd]

theorem keeps_xltAdvance (h0 : P s) : P (State.xltAdvance s) := by
  unfold State.xltAdvance
  repeat' first
    | with_reducible first | assumption | apply hP.set | apply hP.ite
    | simp only [hP.upd]

theorem keeps_xltAdvanceApply (h0 : P s) : P (State.xltAdvanceApply s) := by
  unfold State.xltAdvanceApply
  repeat' first
    | with_reducible first | assumption | apply hP.set | apply hP.ite
    | simp only [hP.upd]

theorem keeps_grdAdvance (h0 : P s) : P (State.grdAdvance s) := by
  unfold State.grdAdvance
  repeat' first
    | with_reducible first | assumption | apply hP.set | apply hP.ite
    | simp only [hP.upd]

theorem keeps_grdAdvanceApply (h0 : P s) : P (State.grdAdvanceApply s) := by
  unfold State.grdAdvanceApply
  repeat' first
    | with_reducible first | assumption | apply hP.set | apply hP.ite
    | simp only [hP.upd]

theorem keeps_xltDrainRead (r : Req) (h0 : P s) : P (State.xltDrainRead s r) := by
  unfold State.xltDrainRead
  repeat' first
    | with_reducible assumption
    | simp only [hP.upd]

theorem keeps_grdDrainRead (r : Req) (h0 : P s) : P (State.grdDrainRead s r) := by
  unfold State.grdDrainRead
  repeat' first
    | with_reducible assumption
    | simp only [hP.upd]

theorem keeps_grdCmd (n i : Nat) (core : Bool) (h0 : P s) : P (State.grdCmd s n i core) := by
  unfold State.grdCmd
  repeat' first
    | with_reducible first | assumption | apply hP.set
    | simp only [hP.upd]
    | split

theorem keeps_grdKeep (k : Nat) (h0 : P s) : P (State.grdKeep s k) := by
  unfold State.grdKeep
  repeat' first
    | with_reducible first | assumption | intro _ | apply hP.ite
    | simp only [hP.upd]
    | simp only [id_eq]
    | (extract_lets +onlyGivenNames x; refine (fun (hx : P x) => ?_) ?_; clear_value x; rotate_left; subst x; rotate_right)
    | (extract_lets +onlyGivenNames x; clear_value x)
    | (split; all_goals (rename_i heq; have e2 := congrArg Prod.snd heq; simp only at e2; subst e2))
    | split

theorem keeps_setLane (i v : Nat) (h0 : P s) : P (State.setLane s i v) := by
  unfold State.setLane
  repeat' with_reducible first | assumption | apply hP.set

theorem keeps_sendMarker (l cmd arg : Nat) (h0 : P s) : P (State.sendMarker s l cmd arg) := by
  unfold State.sendMarker
  repeat' first
    | with_reducible first
        | assumption | intro _ | apply keeps_laneSend hP | apply keeps_send hP | apply keeps_setLk hP | apply keeps_each
        | apply hP.ite
    | simp only [hP.upd]
    | simp only [id_eq]
    | (extract_lets +onlyGivenNames x; refine (fun (hx : P x) => ?_) ?_; clear_value x; rotate_left; subst x; rotate_right)
    | (extract_lets +onlyGivenNames x; clear_value x)
    | (split; all_goals (rename_i heq; have e2 := congrArg Prod.snd heq; simp only at e2; subst e2))
    | split

theorem keeps_setTxLp (l lp : Nat) (h0 : P s) : P (State.setTxLp s l lp) := by
  unfold State.setTxLp
  repeat' first
    | with_reducible first | assumption | intro _ | apply keeps_send hP | apply keeps_setPort hP | apply hP.ite
    | simp only [hP.upd]
    | simp only [id_eq]
    | (extract_lets +onlyGivenNames x; refine (fun (hx : P x) => ?_) ?_; clear_value x; rotate_left; subst x; rotate_right)
    | (extract_lets +onlyGivenNames x; clear_value x)
    | (split; all_goals (rename_i heq; have e2 := congrArg Prod.snd heq; simp only at e2; subst e2))
    | split

theorem keeps_seamUp (h0 : P s) : P (State.seamUp s) := by
  unfold State.seamUp
  repeat' first
    | with_reducible first
        | assumption | intro _ | apply hP.set | apply keeps_seamSend hP | apply keeps_setPort hP | apply keeps_urBatch hP
        | apply keeps_urSend hP
    | simp only [hP.upd]
    | simp only [id_eq]
    | (extract_lets +onlyGivenNames x; refine (fun (hx : P x) => ?_) ?_; clear_value x; rotate_left; subst x; rotate_right)
    | (extract_lets +onlyGivenNames x; clear_value x)
    | (split; all_goals (rename_i heq; have e2 := congrArg Prod.snd heq; simp only at e2; subst e2))
    | split

theorem keeps_sbSend (p : Nat) (h0 : P s) : P (State.sbSend s p) := by
  unfold State.sbSend
  repeat' first
    | with_reducible first | assumption | intro _ | apply keeps_setPort hP | apply keeps_urSend hP | apply hP.ite
    | simp only [hP.upd]
    | simp only [id_eq]
    | (extract_lets +onlyGivenNames x; refine (fun (hx : P x) => ?_) ?_; clear_value x; rotate_left; subst x; rotate_right)
    | (extract_lets +onlyGivenNames x; clear_value x)
    | (split; all_goals (rename_i heq; have e2 := congrArg Prod.snd heq; simp only at e2; subst e2))
    | split

theorem keeps_portFlush (p : Nat) (h0 : P s) : P (State.portFlush s p) := by
  unfold State.portFlush
  repeat' first
    | with_reducible first
        | assumption | intro _ | apply keeps_sbSend hP | apply keeps_urBatch hP | apply keeps_urFlush hP | apply hP.ite
    | simp only [hP.upd]
    | simp only [id_eq]
    | (extract_lets +onlyGivenNames x; refine (fun (hx : P x) => ?_) ?_; clear_value x; rotate_left; subst x; rotate_right)
    | (extract_lets +onlyGivenNames x; clear_value x)
    | (split; all_goals (rename_i heq; have e2 := congrArg Prod.snd heq; simp only at e2; subst e2))
    | split

theorem keeps_roleLines (h0 : P s) : P (State.roleLines s) := by
  unfold State.roleLines
  repeat' with_reducible first | assumption | intro _ | apply keeps_setPort hP | apply keeps_each | apply hP.ite

theorem keeps_streamSyncs (p : Nat) (h0 : P s) : P (State.streamSyncs s p) := by
  unfold State.streamSyncs
  repeat' with_reducible first | assumption | intro _ | apply keeps_urSend hP | apply keeps_each

theorem keeps_sbPollNow (p : Nat) (h0 : P s) : P (State.sbPollNow s p) := by
  unfold State.sbPollNow
  repeat' first
    | with_reducible first | assumption | intro _ | apply keeps_setPort hP | apply keeps_urSend hP
    | simp only [hP.upd]
    | simp only [id_eq]
    | (extract_lets +onlyGivenNames x; refine (fun (hx : P x) => ?_) ?_; clear_value x; rotate_left; subst x; rotate_right)
    | (extract_lets +onlyGivenNames x; clear_value x)
    | (split; all_goals (rename_i heq; have e2 := congrArg Prod.snd heq; simp only at e2; subst e2))
    | split

theorem keeps_portHello (p : Nat) (h0 : P s) : P (State.portHello s p) := by
  unfold State.portHello
  repeat' first
    | with_reducible first
        | assumption | intro _ | apply hP.set | apply keeps_setPort hP | apply keeps_urBatch hP | apply keeps_urSend hP
    | simp only [hP.upd]
    | simp only [id_eq]
    | (extract_lets +onlyGivenNames x; refine (fun (hx : P x) => ?_) ?_; clear_value x; rotate_left; subst x; rotate_right)
    | (extract_lets +onlyGivenNames x; clear_value x)
    | (split; all_goals (rename_i heq; have e2 := congrArg Prod.snd heq; simp only at e2; subst e2))
    | split

theorem keeps_dropUnaccepted (p : Nat) (h0 : P s) : P (State.dropUnaccepted s p) := by
  unfold State.dropUnaccepted
  repeat' first
    | with_reducible first | assumption | intro _
    | simp only [hP.upd]
    | simp only [id_eq]
    | (extract_lets +onlyGivenNames x; refine (fun (hx : P x) => ?_) ?_; clear_value x; rotate_left; subst x; rotate_right)
    | (extract_lets +onlyGivenNames x; clear_value x)
    | (split; all_goals (rename_i heq; have e2 := congrArg Prod.snd heq; simp only at e2; subst e2))
    | split

theorem keeps_upperUp (l : Nat) (h0 : P s) : P (State.upperUp s l) := by
  unfold State.upperUp
  repeat' first
    | with_reducible first | assumption | intro _ | apply keeps_portHello hP | apply keeps_seamUp hP | apply hP.ite
    | simp only [hP.upd]
    | simp only [id_eq]
    | (extract_lets +onlyGivenNames x; refine (fun (hx : P x) => ?_) ?_; clear_value x; rotate_left; subst x; rotate_right)
    | (extract_lets +onlyGivenNames x; clear_value x)
    | (split; all_goals (rename_i heq; have e2 := congrArg Prod.snd heq; simp only at e2; subst e2))
    | split

theorem keeps_exchangeCheck (l : Nat) (h0 : P s) : P (State.exchangeCheck s l) := by
  unfold State.exchangeCheck
  repeat' first
    | with_reducible first
        | assumption | intro _ | apply hP.set | apply keeps_setLane hP | apply keeps_setLk hP | apply keeps_trainTx hP
        | apply keeps_each | apply hP.ite
    | simp only [hP.upd]
    | simp only [id_eq]
    | (extract_lets +onlyGivenNames x; refine (fun (hx : P x) => ?_) ?_; clear_value x; rotate_left; subst x; rotate_right)
    | (extract_lets +onlyGivenNames x; clear_value x)
    | (split; all_goals (rename_i heq; have e2 := congrArg Prod.snd heq; simp only at e2; subst e2))
    | split

theorem keeps_trialStart (i : Nat) (h0 : P s) : P (State.trialStart s i) := by
  unfold State.trialStart
  repeat' first
    | with_reducible first | assumption | intro _ | apply keeps_setLane hP | apply keeps_setLtx hP
    | simp only [hP.upd]
    | simp only [id_eq]
    | (extract_lets +onlyGivenNames x; refine (fun (hx : P x) => ?_) ?_; clear_value x; rotate_left; subst x; rotate_right)
    | (extract_lets +onlyGivenNames x; clear_value x)
    | (split; all_goals (rename_i heq; have e2 := congrArg Prod.snd heq; simp only at e2; subst e2))
    | split

theorem keeps_trialDrop (i : Nat) (h0 : P s) : P (State.trialDrop s i) := by
  unfold State.trialDrop
  repeat' first
    | with_reducible first | assumption | intro _ | apply hP.set | apply keeps_setLane hP | apply keeps_setLk hP
    | simp only [hP.upd]
    | simp only [id_eq]
    | (extract_lets +onlyGivenNames x; refine (fun (hx : P x) => ?_) ?_; clear_value x; rotate_left; subst x; rotate_right)
    | (extract_lets +onlyGivenNames x; clear_value x)
    | (split; all_goals (rename_i heq; have e2 := congrArg Prod.snd heq; simp only at e2; subst e2))
    | split

theorem keeps_trialNow (i : Nat) (h0 : P s) : P (State.trialNow s i) := by
  unfold State.trialNow
  repeat' first
    | with_reducible first | assumption | intro _ | apply keeps_trialStart hP | apply hP.ite
    | simp only [hP.upd]
    | simp only [id_eq]
    | (extract_lets +onlyGivenNames x; refine (fun (hx : P x) => ?_) ?_; clear_value x; rotate_left; subst x; rotate_right)
    | (extract_lets +onlyGivenNames x; clear_value x)
    | (split; all_goals (rename_i heq; have e2 := congrArg Prod.snd heq; simp only at e2; subst e2))
    | split

theorem keeps_sbLatchWrite (p v : Nat) (h0 : P s) : P (State.sbLatchWrite s p v) := by
  unfold State.sbLatchWrite
  repeat' first
    | with_reducible first
        | assumption | intro _ | apply hP.set | apply keeps_mirReg hP | apply keeps_setPort hP | apply keeps_urSend hP
        | apply hP.ite
    | simp only [hP.upd]
    | simp only [id_eq]
    | (extract_lets +onlyGivenNames x; refine (fun (hx : P x) => ?_) ?_; clear_value x; rotate_left; subst x; rotate_right)
    | (extract_lets +onlyGivenNames x; clear_value x)
    | (split; all_goals (rename_i heq; have e2 := congrArg Prod.snd heq; simp only at e2; subst e2))
    | split

theorem keeps_sbOutWrite (p v : Nat) (h0 : P s) : P (State.sbOutWrite s p v) := by
  unfold State.sbOutWrite
  repeat' with_reducible first
        | assumption | apply hP.set | apply keeps_mirReg hP | apply keeps_setPort hP | apply hP.ite

theorem keeps_sbEffective (p : Nat) (h0 : P s) : P (State.sbEffective s p) := by
  unfold State.sbEffective
  repeat' with_reducible first | assumption | apply hP.set

theorem keeps_setVfTotal (v : Nat × Nat × Nat) (h0 : P s) : P (State.setVfTotal s v) := by
  unfold State.setVfTotal
  repeat' with_reducible first | assumption | apply hP.set

theorem keeps_putHdr (h : FlashHdr) (h0 : P s) : P (State.putHdr s h) := by
  unfold State.putHdr
  repeat' first
    | with_reducible first | assumption | apply hP.ite
    | simp only [hP.upd]

theorem keeps_timeSave (h0 : P s) : P (State.timeSave s) := by
  unfold State.timeSave
  repeat' first
    | with_reducible first | assumption | apply hP.set
    | simp only [hP.upd]

theorem keeps_timeLoad (h0 : P s) : P (State.timeLoad s) := by
  unfold State.timeLoad
  repeat' with_reducible first | assumption | apply hP.set

theorem keeps_roleLine (was : Bool) (h0 : P s) : P (State.roleLine s was) := by
  unfold State.roleLine
  repeat' with_reducible first | assumption | apply keeps_send hP | apply hP.ite

theorem keeps_aliveLow (h0 : P s) : P (State.aliveLow s) := by
  unfold State.aliveLow
  repeat' first
    | with_reducible first | assumption | apply keeps_send hP | apply hP.ite
    | simp only [hP.upd]

theorem keeps_bootDomains (h0 : P s) : P (State.bootDomains s) := by
  unfold State.bootDomains
  repeat' with_reducible first | assumption | apply keeps_setDom hP

theorem keeps_selfRefresh (h0 : P s) : P (State.selfRefresh s) := by
  unfold State.selfRefresh
  repeat' with_reducible first | assumption | intro _ | apply hP.set | apply keeps_each

theorem keeps_alertSync (h0 : P s) : P (State.alertSync s) := by
  unfold State.alertSync
  repeat' first
    | with_reducible first | assumption | apply keeps_send hP | apply hP.ite
    | simp only [hP.upd]

theorem keeps_clkChoose (h0 : P s) : P (State.clkChoose s) := by
  unfold State.clkChoose
  repeat' first
    | with_reducible first | assumption | intro _ | apply hP.set | apply keeps_clkreq hP | apply hP.ite
    | simp only [hP.upd]
    | simp only [id_eq]
    | (extract_lets +onlyGivenNames x; refine (fun (hx : P x) => ?_) ?_; clear_value x; rotate_left; subst x; rotate_right)
    | (extract_lets +onlyGivenNames x; clear_value x)
    | (split; all_goals (rename_i heq; have e2 := congrArg Prod.snd heq; simp only at e2; subst e2))
    | split

theorem keeps_bootNext (h0 : P s) : P (State.bootNext s) := by
  unfold State.bootNext
  repeat' with_reducible first | assumption | intro _ | apply keeps_setDom hP | apply keeps_each | apply hP.ite

theorem keeps_setCore (c : Nat) (r : CoreRest) (h0 : P s) : P (State.setCore s c r) := by
  unfold State.setCore
  repeat' first
    | with_reducible first | assumption | intro _ | apply hP.set
    | simp only [hP.upd]
    | simp only [id_eq]
    | (extract_lets +onlyGivenNames x; refine (fun (hx : P x) => ?_) ?_; clear_value x; rotate_left; subst x; rotate_right)
    | (extract_lets +onlyGivenNames x; clear_value x)
    | (split; all_goals (rename_i heq; have e2 := congrArg Prod.snd heq; simp only at e2; subst e2))
    | split

theorem keeps_setGoal (d op : Nat) (h0 : P s) : P (State.setGoal s d op) := by
  unfold State.setGoal
  repeat' first
    | with_reducible first | assumption | intro _
    | simp only [hP.upd]
    | simp only [id_eq]
    | (extract_lets +onlyGivenNames x; refine (fun (hx : P x) => ?_) ?_; clear_value x; rotate_left; subst x; rotate_right)
    | (extract_lets +onlyGivenNames x; clear_value x)
    | (split; all_goals (rename_i heq; have e2 := congrArg Prod.snd heq; simp only at e2; subst e2))
    | split

theorem keeps_wakeRecord (src target : Nat) (replayed lost : Bool) (h0 : P s) :
    P (State.wakeRecord s src target replayed lost) := by
  unfold State.wakeRecord
  repeat' with_reducible first | assumption | apply hP.set

theorem keeps_coreStart (c src : Nat) (replayed : Bool) (h0 : P s) : P (State.coreStart s c src replayed) := by
  unfold State.coreStart
  repeat' first
    | with_reducible first | assumption | intro _ | apply keeps_setCore hP | apply keeps_wakeRecord hP
    | simp only [hP.upd]
    | simp only [id_eq]
    | (extract_lets +onlyGivenNames x; refine (fun (hx : P x) => ?_) ?_; clear_value x; rotate_left; subst x; rotate_right)
    | (extract_lets +onlyGivenNames x; clear_value x)
    | (split; all_goals (rename_i heq; have e2 := congrArg Prod.snd heq; simp only at e2; subst e2))
    | split

theorem keeps_coreWake (c src : Nat) (replayed : Bool) (h0 : P s) : P (State.coreWake s c src replayed) := by
  unfold State.coreWake
  repeat' first
    | with_reducible first
        | assumption | intro _ | apply keeps_coreStart hP | apply keeps_setCore hP | apply keeps_setDom hP
        | apply keeps_setGoal hP | apply hP.ite
    | simp only [hP.upd]
    | simp only [id_eq]
    | (extract_lets +onlyGivenNames x; refine (fun (hx : P x) => ?_) ?_; clear_value x; rotate_left; subst x; rotate_right)
    | (extract_lets +onlyGivenNames x; clear_value x)
    | (split; all_goals (rename_i heq; have e2 := congrArg Prod.snd heq; simp only at e2; subst e2))
    | split

theorem keeps_coreRetry (d : Nat) (h0 : P s) : P (State.coreRetry s d) := by
  unfold State.coreRetry
  repeat' first
    | with_reducible first | assumption | intro _ | apply keeps_coreWake hP | apply hP.ite
    | simp only [hP.upd]
    | simp only [id_eq]
    | (extract_lets +onlyGivenNames x; refine (fun (hx : P x) => ?_) ?_; clear_value x; rotate_left; subst x; rotate_right)
    | (extract_lets +onlyGivenNames x; clear_value x)
    | (split; all_goals (rename_i heq; have e2 := congrArg Prod.snd heq; simp only at e2; subst e2))
    | split

theorem keeps_domResume (d : Nat) (h0 : P s) : P (State.domResume s d) := by
  unfold State.domResume
  repeat' first
    | with_reducible first
        | assumption | intro _ | apply keeps_coreRetry hP | apply keeps_undrainChan hP | apply keeps_each | apply hP.ite
    | simp only [hP.upd]
    | simp only [id_eq]
    | (extract_lets +onlyGivenNames x; refine (fun (hx : P x) => ?_) ?_; clear_value x; rotate_left; subst x; rotate_right)
    | (extract_lets +onlyGivenNames x; clear_value x)
    | (split; all_goals (rename_i heq; have e2 := congrArg Prod.snd heq; simp only at e2; subst e2))
    | split

theorem keeps_domDrain (d : Nat) (h0 : P s) : P (State.domDrain s d) := by
  unfold State.domDrain
  repeat' first
    | with_reducible first
        | assumption | intro _ | apply keeps_drainChan hP | apply keeps_setDom hP | apply keeps_each | apply hP.ite
    | simp only [hP.upd]

theorem keeps_slewStop (h0 : P s) : P (State.slewStop s) := by
  unfold State.slewStop
  repeat' first
    | with_reducible first | assumption | apply hP.set | apply hP.ite
    | simp only [hP.upd]

theorem keeps_timeStep (d : Int) (h0 : P s) : P (State.timeStep s d) := by
  unfold State.timeStep
  repeat' with_reducible first | assumption | apply hP.set | apply keeps_slewStop hP | apply hP.ite

theorem keeps_timeTick (h0 : P s) : P (State.timeTick s) := by
  unfold State.timeTick
  repeat' first
    | with_reducible first | assumption | apply hP.set
    | simp only [hP.upd]

theorem keeps_ptmDone (ofs : Int) (h0 : P s) : P (State.ptmDone s ofs) := by
  unfold State.ptmDone
  repeat' first
    | with_reducible first | assumption | apply hP.set | apply keeps_timeStep hP | apply hP.ite
    | simp only [hP.upd]

theorem keeps_mirVal (r : Reg) (i : Nat) (h0 : P s) : P (State.mirVal s r i) := by
  unfold State.mirVal
  repeat' with_reducible first | assumption | apply keeps_mirReg hP

theorem keeps_rinseEvq (f : Nat) (h0 : P s) : P (State.rinseEvq s f) := by
  unfold State.rinseEvq
  repeat' first
    | with_reducible first | assumption | apply hP.set
    | simp only [hP.upd]

theorem keeps_heldDrop (f : Nat) (h0 : P s) : P (State.heldDrop s f) := by
  unfold State.heldDrop
  repeat' first
    | with_reducible first | assumption | intro _ | apply keeps_retire hP | apply keeps_each
    | simp only [hP.upd]
    | simp only [id_eq]
    | (extract_lets +onlyGivenNames x; refine (fun (hx : P x) => ?_) ?_; clear_value x; rotate_left; subst x; rotate_right)
    | (extract_lets +onlyGivenNames x; clear_value x)
    | (split; all_goals (rename_i heq; have e2 := congrArg Prod.snd heq; simp only at e2; subst e2))
    | split

theorem keeps_tdiUnlock (f : Nat) (h0 : P s) : P (State.tdiUnlock s f) := by
  unfold State.tdiUnlock
  repeat' with_reducible first | assumption | apply hP.set | apply keeps_mirVal hP | apply hP.ite

theorem keeps_regPut (r : Reg) (i v : Nat) (h0 : P s) : P (State.regPut s r i v) := by
  unfold State.regPut
  repeat' with_reducible first | assumption | intro _ | apply hP.set | apply keeps_each

theorem keeps_toMode (m : Mode) (h0 : P s) : P (State.toMode s m) := by
  unfold State.toMode
  repeat' first
    | with_reducible first | assumption | apply keeps_roleLine hP
    | simp only [hP.upd]

theorem keeps_snapshot (h0 : P s) : P (State.snapshot s) := by
  unfold State.snapshot
  repeat' first
    | with_reducible first
        | assumption | intro _ | apply keeps_mirReg hP | apply keeps_mirVal hP | apply keeps_mirror hP | apply keeps_each
        | apply hP.ite
    | simp only [hP.upd]
    | simp only [id_eq]
    | (extract_lets +onlyGivenNames x; refine (fun (hx : P x) => ?_) ?_; clear_value x; rotate_left; subst x; rotate_right)
    | (extract_lets +onlyGivenNames x; clear_value x)
    | (split; all_goals (rename_i heq; have e2 := congrArg Prod.snd heq; simp only at e2; subst e2))
    | split

theorem keeps_settled (h0 : P s) : P (State.settled s) := by
  unfold State.settled
  repeat' first
    | with_reducible first | assumption | apply keeps_bootNext hP
    | simp only [hP.upd]

theorem keeps_ackXlt (upTo : Nat → Bool) (h0 : P s) : P (State.ackXlt s upTo) := by
  unfold State.ackXlt
  repeat' first
    | with_reducible first | assumption | intro _ | apply keeps_mirror hP | apply keeps_xltIdle hP | apply hP.ite
    | simp only [hP.upd]
    | simp only [id_eq]
    | (extract_lets +onlyGivenNames x; refine (fun (hx : P x) => ?_) ?_; clear_value x; rotate_left; subst x; rotate_right)
    | (extract_lets +onlyGivenNames x; clear_value x)
    | (split; all_goals (rename_i heq; have e2 := congrArg Prod.snd heq; simp only at e2; subst e2))
    | split

theorem keeps_ackGrd (upTo : Nat → Bool) (h0 : P s) : P (State.ackGrd s upTo) := by
  unfold State.ackGrd
  repeat' first
    | with_reducible first
        | assumption | intro _ | apply hP.set | apply keeps_idle hP | apply keeps_mirror hP | apply hP.ite
    | simp only [hP.upd]
    | simp only [id_eq]
    | (extract_lets +onlyGivenNames x; refine (fun (hx : P x) => ?_) ?_; clear_value x; rotate_left; subst x; rotate_right)
    | (extract_lets +onlyGivenNames x; clear_value x)
    | (split; all_goals (rename_i heq; have e2 := congrArg Prod.snd heq; simp only at e2; subst e2))
    | split

theorem keeps_ackShr (upTo : Nat → Bool) (h0 : P s) : P (State.ackShr s upTo) := by
  unfold State.ackShr
  repeat' first
    | with_reducible first | assumption | intro _ | apply hP.ite
    | simp only [hP.upd]
    | simp only [id_eq]
    | (extract_lets +onlyGivenNames x; refine (fun (hx : P x) => ?_) ?_; clear_value x; rotate_left; subst x; rotate_right)
    | (extract_lets +onlyGivenNames x; clear_value x)
    | (split; all_goals (rename_i heq; have e2 := congrArg Prod.snd heq; simp only at e2; subst e2))
    | split

theorem keeps_drawBytes (n : Nat) : ∀ {s : State}, P s → P (s.drawBytes n).2 := by
  induction n with
  | zero => intro s h; exact h
  | succ n ih => intro s h; exact ih (keeps_draw hP 8 h)

theorem keeps_doe (sess : Option Nat) (code : Nat) (fields : List Nat) (data : List Byte) (h0 : P s) :
    P (State.doe s sess code fields data) := by
  unfold State.doe
  repeat' with_reducible first | assumption | apply keeps_send hP

theorem keeps_spdmError (sess : Option Nat) (e : Nat) (h0 : P s) : P (State.spdmError s sess e) := by
  unfold State.spdmError
  repeat' with_reducible first | assumption | apply keeps_doe hP

omit hP in
theorem keeps_doeServes (g : State → State) (h_g : ∀ s, P s → P (g s)) (h0 : P s) : P (State.doeServes s g) := by
  unfold State.doeServes
  repeat' with_reducible first | assumption | apply keeps_when

theorem keeps_inSession (id : Nat) (g : State → State) (h_g : ∀ s, P s → P (g s)) (h0 : P s) :
    P (State.inSession s id g) := by
  unfold State.inSession
  repeat' first
    | with_reducible first | assumption | intro _ | apply h_g | apply keeps_doeServes | apply keeps_spdmError hP
    | split

theorem keeps_execDoeDiscovery (index : Nat) (h0 : P s) : Res.all P (execDoeDiscovery index s) := by
  unfold execDoeDiscovery
  repeat' with_reducible first
        | assumption | intro _ | apply Res.all_next | apply keeps_doe hP | apply keeps_doeServes | apply hP.ite

theorem keeps_execGetVersion (h0 : P s) : Res.all P (execGetVersion s) := by
  unfold execGetVersion
  repeat' first
    | with_reducible first
        | assumption | intro _ | apply Res.all_next | apply keeps_doe hP | apply keeps_doeServes
    | simp only [hP.upd]

theorem keeps_measure (index : Nat) (h0 : P s) : P (State.measure s index).2 := by
  unfold State.measure
  repeat' first
    | with_reducible first | assumption | apply keeps_drawBytes hP
    | split

theorem keeps_setSession (e : SpdmSession) (h0 : P s) : P (State.setSession s e) := by
  unfold State.setSession
  repeat' first
    | with_reducible assumption
    | simp only [hP.upd]

theorem keeps_execFinish (id : Nat) (ok : Bool) (h0 : P s) : Res.all P (execFinish id ok s) := by
  unfold execFinish
  repeat' first
    | with_reducible first
        | assumption | intro _ | apply Res.all_next | apply keeps_doe hP | apply keeps_doeServes
        | apply keeps_setSession hP | apply keeps_spdmError hP
    | simp only [hP.upd]
    | split

theorem keeps_execSpdmHeartbeat (id : Nat) (h0 : P s) : Res.all P (execSpdmHeartbeat id s) := by
  unfold execSpdmHeartbeat
  repeat' with_reducible first
        | assumption | intro _ | apply Res.all_next | apply keeps_doe hP | apply keeps_inSession hP

theorem keeps_execKeyUpdate (id op : Nat) (h0 : P s) : Res.all P (execKeyUpdate id op s) := by
  unfold execKeyUpdate
  repeat' first
    | with_reducible first
        | assumption | intro _ | apply Res.all_next | apply keeps_doe hP | apply keeps_inSession hP
        | apply keeps_setSession hP | apply keeps_spdmError hP
    | split

theorem keeps_execEndSession (id : Nat) (h0 : P s) : Res.all P (execEndSession id s) := by
  unfold execEndSession
  repeat' first
    | with_reducible first
        | assumption | intro _ | apply Res.all_next | apply keeps_doe hP | apply keeps_inSession hP
    | simp only [hP.upd]

theorem keeps_execIdeKmQuery (id : Nat) (h0 : P s) : Res.all P (execIdeKmQuery id s) := by
  unfold execIdeKmQuery
  repeat' with_reducible first
        | assumption | intro _ | apply Res.all_next | apply keeps_doe hP | apply keeps_inSession hP

theorem keeps_execKeyProg (id stream kset dir sub key : Nat) (h0 : P s) :
    Res.all P (execKeyProg id stream kset dir sub key s) := by
  unfold execKeyProg
  repeat' first
    | with_reducible first
        | assumption | intro _ | apply Res.all_next | apply keeps_doe hP | apply keeps_inSession hP | apply hP.ite
    | simp only [hP.upd]

theorem keeps_execKSetGo (id stream kset dir sub : Nat) (h0 : P s) : Res.all P (execKSetGo id stream kset dir sub s) := by
  unfold execKSetGo
  repeat' first
    | with_reducible first
        | assumption | intro _ | apply Res.all_next | apply hP.set | apply keeps_doe hP | apply keeps_ideSettle hP
        | apply keeps_inSession hP | apply hP.ite
    | simp only [hP.upd]

theorem keeps_tdisp (id code : Nat) (fields : List Nat) (h0 : P s) : P (State.tdisp s id code fields) := by
  unfold State.tdisp
  repeat' with_reducible first | assumption | apply keeps_doe hP

theorem keeps_tdispError (id e : Nat) (h0 : P s) : P (State.tdispError s id e) := by
  unfold State.tdispError
  repeat' with_reducible first | assumption | apply keeps_tdisp hP

theorem keeps_onTdi (id f : Nat) (g : State → State) (h_g : ∀ s, P s → P (g s)) (h0 : P s) :
    P (State.onTdi s id f g) := by
  unfold State.onTdi
  repeat' with_reducible first
        | assumption | intro _ | apply h_g | apply keeps_inSession hP | apply keeps_tdispError hP | apply hP.ite

theorem keeps_execGetTdispVersion (id : Nat) (f : Fn) (h0 : P s) : Res.all P (execGetTdispVersion id f s) := by
  unfold execGetTdispVersion
  repeat' with_reducible first | assumption | intro _ | apply Res.all_next | apply keeps_onTdi hP | apply keeps_tdisp hP

theorem keeps_execGetTdispCapabilities (id : Nat) (f : Fn) (h0 : P s) : Res.all P (execGetTdispCapabilities id f s) := by
  unfold execGetTdispCapabilities
  repeat' with_reducible first | assumption | intro _ | apply Res.all_next | apply keeps_onTdi hP | apply keeps_tdisp hP

theorem keeps_tdiLock (id f stream : Nat) (h0 : P s) : P (State.tdiLock s id f stream) := by
  unfold State.tdiLock
  repeat' first
    | with_reducible first
        | assumption | apply hP.set | apply keeps_draw hP | apply keeps_mirVal hP | apply keeps_tdisp hP
    | simp only [hP.upd]

theorem keeps_execLockInterface (id : Nat) (f : Fn) (stream : Nat) (h0 : P s) :
    Res.all P (execLockInterface id f stream s) := by
  unfold execLockInterface
  repeat' first
    | with_reducible first
        | assumption | intro _ | apply Res.all_next | apply Res.all_ite | apply keeps_onTdi hP | apply keeps_tdiLock hP
        | apply keeps_tdispError hP | apply hP.ite
    | simp only [hP.upd]
    | simp only [id_eq]
    | (extract_lets +onlyGivenNames x; refine (fun (hx : P x) => ?_) ?_; clear_value x; rotate_left; subst x; rotate_right)
    | (extract_lets +onlyGivenNames x; clear_value x)
    | (split; all_goals (rename_i heq; have e2 := congrArg Prod.snd heq; simp only at e2; subst e2))
    | split

theorem keeps_execGetDeviceInterfaceReport (id : Nat) (f : Fn) (h0 : P s) :
    Res.all P (execGetDeviceInterfaceReport id f s) := by
  unfold execGetDeviceInterfaceReport
  repeat' with_reducible first
        | assumption | intro _ | apply Res.all_next | apply keeps_onTdi hP | apply keeps_tdisp hP
        | apply keeps_tdispError hP | apply hP.ite

theorem keeps_execGetDeviceInterfaceState (id : Nat) (f : Fn) (h0 : P s) :
    Res.all P (execGetDeviceInterfaceState id f s) := by
  unfold execGetDeviceInterfaceState
  repeat' with_reducible first | assumption | intro _ | apply Res.all_next | apply keeps_onTdi hP | apply keeps_tdisp hP

theorem keeps_execStartInterface (id : Nat) (f : Fn) (nonce : Nat) (h0 : P s) :
    Res.all P (execStartInterface id f nonce s) := by
  unfold execStartInterface
  repeat' first
    | with_reducible first
        | assumption | intro _ | apply Res.all_next | apply hP.set | apply keeps_onTdi hP | apply keeps_tdisp hP
        | apply keeps_tdispError hP | apply hP.ite
    | simp only [hP.upd]

theorem keeps_memSnap (h0 : P s) : P (State.memSnap s) := by
  unfold State.memSnap
  repeat' first
    | with_reducible first | assumption | intro _ | apply hP.set | apply keeps_draw hP | apply keeps_each
    | simp only [hP.upd]

theorem keeps_execMemCntSnap (h0 : P s) : Res.all P (execMemCntSnap s) := by
  unfold execMemCntSnap
  repeat' with_reducible first | assumption | intro _ | apply Res.all_next | apply keeps_memSnap hP | apply keeps_when

theorem keeps_limTake (h0 : P s) : P (State.limTake s) := by
  unfold State.limTake
  repeat' first
    | with_reducible first | assumption | intro _
    | simp only [hP.upd]
    | simp only [id_eq]
    | (extract_lets +onlyGivenNames x; refine (fun (hx : P x) => ?_) ?_; clear_value x; rotate_left; subst x; rotate_right)
    | (extract_lets +onlyGivenNames x; clear_value x)
    | (split; all_goals (rename_i heq; have e2 := congrArg Prod.snd heq; simp only at e2; subst e2))
    | split

theorem keeps_wakeAssert (src : Nat) (h0 : P s) : P (State.wakeAssert s src) := by
  unfold State.wakeAssert
  repeat' first
    | with_reducible first | assumption | intro _ | apply keeps_send hP | apply hP.ite
    | simp only [hP.upd]
    | simp only [id_eq]
    | (extract_lets +onlyGivenNames x; refine (fun (hx : P x) => ?_) ?_; clear_value x; rotate_left; subst x; rotate_right)
    | (extract_lets +onlyGivenNames x; clear_value x)
    | (split; all_goals (rename_i heq; have e2 := congrArg Prod.snd heq; simp only at e2; subst e2))
    | split

theorem keeps_standbyStart (retain : Bool) (h0 : P s) : P (State.standbyStart s retain) := by
  unfold State.standbyStart
  repeat' first
    | with_reducible first | assumption | apply hP.ite
    | simp only [hP.upd]

theorem keeps_wakeRelease (h0 : P s) : P (State.wakeRelease s) := by
  unfold State.wakeRelease
  repeat' first
    | with_reducible first | assumption | apply keeps_send hP | apply hP.ite
    | simp only [hP.upd]

theorem keeps_execRefclkReturn (h0 : P s) : Res.all P (execRefclkReturn s) := by
  unfold execRefclkReturn
  repeat' first
    | with_reducible first | assumption | intro _ | apply Res.all_next | apply Res.all_ite | apply hP.set
    | simp only [hP.upd]
    | simp only [id_eq]
    | (extract_lets +onlyGivenNames x; refine (fun (hx : P x) => ?_) ?_; clear_value x; rotate_left; subst x; rotate_right)
    | (extract_lets +onlyGivenNames x; clear_value x)
    | (split; all_goals (rename_i heq; have e2 := congrArg Prod.snd heq; simp only at e2; subst e2))
    | split

theorem keeps_execL0pDemandCheck (window epoch : Nat) (h0 : P s) : Res.all P (execL0pDemandCheck window epoch s) := by
  unfold execL0pDemandCheck
  repeat' first
    | with_reducible first
        | assumption | intro _ | apply Res.all_next | apply Res.all_ite | apply keeps_send hP | apply keeps_when
        | apply hP.ite
    | simp only [hP.upd]
    | simp only [id_eq]
    | (extract_lets +onlyGivenNames x; refine (fun (hx : P x) => ?_) ?_; clear_value x; rotate_left; subst x; rotate_right)
    | (extract_lets +onlyGivenNames x; clear_value x)
    | (split; all_goals (rename_i heq; have e2 := congrArg Prod.snd heq; simp only at e2; subst e2))
    | split

theorem keeps_execAspmL1Entry (accepted unacked : Bool) (h0 : P s) : Res.all P (execAspmL1Entry accepted unacked s) := by
  unfold execAspmL1Entry
  repeat' first
    | with_reducible first
        | assumption | intro _ | apply Res.all_next | apply Res.all_ite | apply keeps_l1Enter hP | apply keeps_send hP
        | apply keeps_when | apply hP.ite
    | simp only [hP.upd]
    | simp only [id_eq]
    | (extract_lets +onlyGivenNames x; refine (fun (hx : P x) => ?_) ?_; clear_value x; rotate_left; subst x; rotate_right)
    | (extract_lets +onlyGivenNames x; clear_value x)
    | (split; all_goals (rename_i heq; have e2 := congrArg Prod.snd heq; simp only at e2; subst e2))
    | split

theorem keeps_execL1SubstateEntry (ltrMet : Bool) (h0 : P s) : Res.all P (execL1SubstateEntry ltrMet s) := by
  unfold execL1SubstateEntry
  repeat' first
    | with_reducible first
        | assumption | intro _ | apply Res.all_next | apply Res.all_ite | apply hP.set | apply keeps_clkreq hP
        | apply keeps_send hP | apply keeps_when | apply hP.ite
    | simp only [hP.upd]
    | simp only [id_eq]
    | (extract_lets +onlyGivenNames x; refine (fun (hx : P x) => ?_) ?_; clear_value x; rotate_left; subst x; rotate_right)
    | (extract_lets +onlyGivenNames x; clear_value x)
    | (split; all_goals (rename_i heq; have e2 := congrArg Prod.snd heq; simp only at e2; subst e2))
    | split

theorem keeps_execPmeTurnOffRx (h0 : P s) : Res.all P (execPmeTurnOffRx s) := by
  unfold execPmeTurnOffRx
  repeat' first
    | with_reducible first | assumption | intro _ | apply Res.all_next | apply keeps_when
    | simp only [hP.upd]

theorem keeps_readClear (r : Reg) (i o n : Nat) (h0 : P s) : P (State.readClear s r i o n) := by
  unfold State.readClear
  repeat' with_reducible first | assumption | intro _ | apply hP.set | apply keeps_each | apply hP.ite

theorem keeps_fldPut (f : Fld) (i v m : Nat) (h0 : P s) : P (State.fldPut s f i v m) := by
  unfold State.fldPut
  repeat' first
    | with_reducible first | assumption | apply hP.set
    | split

theorem keeps_regStore (r : Reg) (i v m : Nat) (h0 : P s) : P (State.regStore s r i v m) := by
  unfold State.regStore
  repeat' with_reducible first | assumption | intro _ | apply keeps_fldPut hP | apply keeps_each

theorem keeps_dmaClear (c : Nat) (h0 : P s) : P (State.dmaClear s c) := by
  unfold State.dmaClear
  repeat' first
    | with_reducible first | assumption | intro _ | apply hP.set | apply keeps_dropChan hP | apply hP.ite
    | simp only [hP.upd]
    | simp only [id_eq]
    | (extract_lets +onlyGivenNames x; refine (fun (hx : P x) => ?_) ?_; clear_value x; rotate_left; subst x; rotate_right)
    | (extract_lets +onlyGivenNames x; clear_value x)
    | (split; all_goals (rename_i heq; have e2 := congrArg Prod.snd heq; simp only at e2; subst e2))
    | split

theorem keeps_semSnap (h0 : P s) : P (State.semSnap s) := by
  unfold State.semSnap
  repeat' with_reducible first | assumption | apply keeps_seamSend hP | apply hP.ite

theorem keeps_viewDeny (f off : Nat) (h0 : P s) : P (State.viewDeny s f off) := by
  unfold State.viewDeny
  repeat' with_reducible first | assumption | apply hP.set | apply keeps_count hP

theorem keeps_hostRefuse (r : Req) (status : Nat) (drop : State → State) (h_drop : ∀ s, P s → P (drop s)) (h0 : P s) :
    P (State.hostRefuse s r status drop) := by
  unfold State.hostRefuse
  repeat' with_reducible first | assumption | apply h_drop | apply keeps_hostTx hP | apply hP.ite

theorem keeps_followRefuse (r : Req) (h0 : P s) : P (State.followRefuse s r) := by
  unfold State.followRefuse
  repeat' with_reducible first | assumption | intro _ | apply keeps_count hP | apply keeps_hostRefuse hP

theorem keeps_bdtBuild (h0 : P s) : P (State.bdtBuild s) := by
  unfold State.bdtBuild
  repeat' first
    | with_reducible assumption
    | simp only [hP.upd]

theorem keeps_bdtRefresh (h0 : P s) : P (State.bdtRefresh s) := by
  unfold State.bdtRefresh
  repeat' with_reducible first | assumption | apply keeps_bdtBuild hP | apply hP.ite

theorem keeps_ridCapture (rid : Nat) (h0 : P s) : P (State.ridCapture s rid) := by
  unfold State.ridCapture
  repeat' first
    | with_reducible first | assumption | apply hP.ite
    | simp only [hP.upd]

theorem keeps_execBdtRebuild (h0 : P s) : Res.all P (execBdtRebuild s) := by
  unfold execBdtRebuild
  repeat' with_reducible first | assumption | apply Res.all_next | apply keeps_bdtRefresh hP

theorem keeps_execWalkSlotStart (h0 : P s) : Res.all P (execWalkSlotStart s) := by
  unfold execWalkSlotStart
  repeat' first
    | with_reducible first | assumption | apply Res.all_next
    | simp only [hP.upd]
    | split

theorem keeps_execXltInvalDone (h0 : P s) : Res.all P (execXltInvalDone s) := by
  unfold execXltInvalDone
  repeat' with_reducible first
        | assumption | intro _ | apply Res.all_next | apply keeps_xltInvalDone hP | apply keeps_when

theorem keeps_execXltEpochAdvanceApply (h0 : P s) : Res.all P (execXltEpochAdvanceApply s) := by
  unfold execXltEpochAdvanceApply
  repeat' with_reducible first
        | assumption | intro _ | apply Res.all_next | apply keeps_xltAdvanceApply hP | apply keeps_when

theorem keeps_rxPut (l : Nat) (k : UrPkt) (h0 : P s) : P (State.rxPut s l k) := by
  unfold State.rxPut
  repeat' with_reducible first | assumption | apply keeps_setPort hP

theorem keeps_rxFree (l : Nat) (k : UrPkt) (h0 : P s) : P (State.rxFree s l k) := by
  unfold State.rxFree
  repeat' first
    | with_reducible first | assumption | intro _ | apply keeps_setPort hP | apply hP.ite
    | simp only [hP.upd]
    | simp only [id_eq]
    | (extract_lets +onlyGivenNames x; refine (fun (hx : P x) => ?_) ?_; clear_value x; rotate_left; subst x; rotate_right)
    | (extract_lets +onlyGivenNames x; clear_value x)
    | (split; all_goals (rename_i heq; have e2 := congrArg Prod.snd heq; simp only at e2; subst e2))
    | split

theorem keeps_rxDrop (l : Nat) (k : UrPkt) (h0 : P s) : P (State.rxDrop s l k) := by
  unfold State.rxDrop
  repeat' first
    | with_reducible first | assumption | intro _ | apply keeps_setPort hP
    | simp only [hP.upd]
    | simp only [id_eq]
    | (extract_lets +onlyGivenNames x; refine (fun (hx : P x) => ?_) ?_; clear_value x; rotate_left; subst x; rotate_right)
    | (extract_lets +onlyGivenNames x; clear_value x)
    | (split; all_goals (rename_i heq; have e2 := congrArg Prod.snd heq; simp only at e2; subst e2))
    | split

theorem keeps_rxHold (l : Nat) (k : UrPkt) (err : MemErr) (h0 : P s) : P (State.rxHold s l k err) := by
  unfold State.rxHold
  repeat' first
    | with_reducible first | assumption | intro _ | apply keeps_setPort hP
    | simp only [hP.upd]
    | simp only [id_eq]
    | (extract_lets +onlyGivenNames x; refine (fun (hx : P x) => ?_) ?_; clear_value x; rotate_left; subst x; rotate_right)
    | (extract_lets +onlyGivenNames x; clear_value x)
    | (split; all_goals (rename_i heq; have e2 := congrArg Prod.snd heq; simp only at e2; subst e2))
    | split

theorem keeps_flowTx (l vc : Nat) (h0 : P s) : P (State.flowTx s l vc) := by
  unfold State.flowTx
  repeat' with_reducible first | assumption | apply keeps_setPort hP | apply keeps_urSend hP | apply hP.ite

theorem keeps_tagDead (p tag : Nat) (last : Bool) (h0 : P s) : P (State.tagDead s p tag last) := by
  unfold State.tagDead
  repeat' with_reducible first | assumption | apply keeps_setPort hP | apply hP.ite

theorem keeps_execHeartbeatTx (h0 : P s) : Res.all P (execHeartbeatTx s) := by
  unfold execHeartbeatTx
  repeat' first
    | with_reducible first | assumption | intro _ | apply Res.all_next | apply keeps_seamSend hP | apply keeps_when
    | simp only [hP.upd]

theorem keeps_hbTake (leading contained : Bool) (sync : Nat) (h0 : P s) : P (State.hbTake s leading contained sync) := by
  unfold State.hbTake
  repeat' first
    | with_reducible first | assumption | intro _ | apply hP.set | apply hP.ite
    | simp only [hP.upd]
    | simp only [id_eq]
    | (extract_lets +onlyGivenNames x; refine (fun (hx : P x) => ?_) ?_; clear_value x; rotate_left; subst x; rotate_right)
    | (extract_lets +onlyGivenNames x; clear_value x)
    | (split; all_goals (rename_i heq; have e2 := congrArg Prod.snd heq; simp only at e2; subst e2))
    | split

theorem keeps_execPairAliveToggle (h0 : P s) : Res.all P (execPairAliveToggle s) := by
  unfold execPairAliveToggle
  repeat' first
    | with_reducible first | assumption | intro _ | apply Res.all_next | apply keeps_send hP | apply keeps_when
    | simp only [hP.upd]

theorem keeps_execPairAliveEdge (h0 : P s) : Res.all P (execPairAliveEdge s) := by
  unfold execPairAliveEdge
  repeat' with_reducible first | assumption | intro _ | apply Res.all_next | apply hP.set | apply keeps_when

theorem keeps_seamPower (h0 : P s) : P (State.seamPower s) := by
  unfold State.seamPower
  repeat' with_reducible first | assumption | apply keeps_setDom hP | apply hP.ite

theorem keeps_execPairRoleChange (high : Bool) (h0 : P s) : Res.all P (execPairRoleChange high s) := by
  unfold execPairRoleChange
  repeat' with_reducible first | assumption | apply Res.all_next | apply hP.set

theorem keeps_execHoDrainDone (h0 : P s) : Res.all P (execHoDrainDone s) := by
  unfold execHoDrainDone
  repeat' first
    | with_reducible first
        | assumption | intro _ | apply Res.all_next | apply Res.all_ite | apply keeps_seamSend hP | apply keeps_when
    | simp only [hP.upd]
    | simp only [id_eq]
    | (extract_lets +onlyGivenNames x; refine (fun (hx : P x) => ?_) ?_; clear_value x; rotate_left; subst x; rotate_right)
    | (extract_lets +onlyGivenNames x; clear_value x)
    | (split; all_goals (rename_i heq; have e2 := congrArg Prod.snd heq; simp only at e2; subst e2))
    | split

theorem keeps_execGovWindowEnd (h0 : P s) : Res.all P (execGovWindowEnd s) := by
  unfold execGovWindowEnd
  repeat' with_reducible first | assumption | intro _ | apply Res.all_next | apply keeps_govWindow hP | apply keeps_when

theorem keeps_execShrUpdDone (h0 : P s) : Res.all P (execShrUpdDone s) := by
  unfold execShrUpdDone
  repeat' with_reducible first | assumption | intro _ | apply Res.all_next | apply keeps_shrUpdDone hP | apply keeps_when

theorem keeps_evCommit (buf : List Byte) (len : Nat) (h0 : P s) : P (State.evCommit s buf len).2 := by
  unfold State.evCommit
  repeat' first
    | with_reducible first | assumption | apply hP.ite
    | simp only [hP.upd]

theorem keeps_winEnd {r : Ans × State} (h : P r.2) : P (winEnd r).2 := by
  unfold winEnd
  split
  · exact keeps_bdtRefresh hP h
  · exact h

theorem keeps_shareGo (h0 : P s) : P (State.shareGo s).2 := by
  unfold State.shareGo
  repeat' with_reducible first | assumption | apply keeps_shrUpdDone hP

theorem keeps_stageCommit (g : Staging) (ver : BitVec 32) (h0 : P s) : P (State.stageCommit s g ver) := by
  unfold State.stageCommit
  repeat' first
    | with_reducible first | assumption | apply keeps_bdtRefresh hP | apply keeps_putHdr hP
    | simp only [hP.upd]

theorem keeps_authCheck (c : Cmd) (sigOk : Bool) (h0 : P s) : P (State.authCheck s c sigOk).2 := by
  unfold State.authCheck
  repeat' first
    | with_reducible assumption
    | simp only [hP.upd]
    | split

theorem keeps_mctpServe (h : MctpHdr) (g : State → State) (h_g : ∀ s, P s → P (g s)) (h0 : P s) :
    P (State.mctpServe s h g) := by
  unfold State.mctpServe
  repeat' with_reducible first | assumption | apply h_g | apply keeps_count hP | apply hP.ite

theorem keeps_mctpControl (h : MctpHdr) (cmd : Nat) (fields : List Nat) (data : List Byte) (h0 : P s) :
    P (State.mctpControl s h cmd fields data) := by
  unfold State.mctpControl
  repeat' with_reducible first | assumption | apply keeps_send hP

theorem keeps_execSetEndpointId (h : MctpHdr) (eid owner : BitVec 8) (h0 : P s) :
    Res.all P (execSetEndpointId h eid owner s) := by
  unfold execSetEndpointId
  repeat' with_reducible first
        | assumption | intro _ | apply Res.all_next | apply hP.set | apply keeps_mctpControl hP | apply keeps_mctpServe hP

theorem keeps_execGetEndpointId (h : MctpHdr) (h0 : P s) : Res.all P (execGetEndpointId h s) := by
  unfold execGetEndpointId
  repeat' with_reducible first
        | assumption | intro _ | apply Res.all_next | apply keeps_mctpControl hP | apply keeps_mctpServe hP

theorem keeps_execGetEndpointUuid (h : MctpHdr) (h0 : P s) : Res.all P (execGetEndpointUuid h s) := by
  unfold execGetEndpointUuid
  repeat' with_reducible first
        | assumption | intro _ | apply Res.all_next | apply keeps_mctpControl hP | apply keeps_mctpServe hP

theorem keeps_execGetMctpVersionSupport (h : MctpHdr) (typ : BitVec 8) (h0 : P s) :
    Res.all P (execGetMctpVersionSupport h typ s) := by
  unfold execGetMctpVersionSupport
  repeat' with_reducible first
        | assumption | intro _ | apply Res.all_next | apply keeps_mctpControl hP | apply keeps_mctpServe hP

theorem keeps_execGetMessageTypeSupport (h : MctpHdr) (h0 : P s) : Res.all P (execGetMessageTypeSupport h s) := by
  unfold execGetMessageTypeSupport
  repeat' with_reducible first
        | assumption | intro _ | apply Res.all_next | apply keeps_mctpControl hP | apply keeps_mctpServe hP

theorem keeps_execGetVendorDefinedMessageSupport (h : MctpHdr) (h0 : P s) :
    Res.all P (execGetVendorDefinedMessageSupport h s) := by
  unfold execGetVendorDefinedMessageSupport
  repeat' with_reducible first
        | assumption | intro _ | apply Res.all_next | apply keeps_mctpControl hP | apply keeps_mctpServe hP

theorem keeps_reading (i : Nat) (h0 : P s) : P (State.reading s i).2 := by
  unfold State.reading
  repeat' first
    | with_reducible first | assumption | apply keeps_draw hP
    | split

theorem keeps_pldmEvent (i new old : Nat) (v : Int) (h0 : P s) : P (State.pldmEvent s i new old v) := by
  unfold State.pldmEvent
  repeat' first
    | with_reducible first | assumption | apply keeps_send hP
    | split

theorem keeps_sensShow (i new : Nat) (v : Int) (h0 : P s) : P (State.sensShow s i new v) := by
  unfold State.sensShow
  repeat' first
    | with_reducible first | assumption | apply keeps_pldmEvent hP | apply hP.ite
    | simp only [hP.upd]

theorem keeps_pldm (h : MctpHdr) (code cc : Nat) (fields : List Int) (h0 : P s) : P (State.pldm s h code cc fields) := by
  unfold State.pldm
  repeat' with_reducible first | assumption | apply keeps_send hP

theorem keeps_pldmServe (h : MctpHdr) (g : State → State) (h_g : ∀ s, P s → P (g s)) (h0 : P s) :
    P (State.pldmServe s h g) := by
  unfold State.pldmServe
  repeat' with_reducible first | assumption | intro _ | apply keeps_mctpServe hP | apply keeps_when

theorem keeps_execSetTid (h : MctpHdr) (tid : BitVec 8) (h0 : P s) : Res.all P (execSetTid h tid s) := by
  unfold execSetTid
  repeat' first
    | with_reducible first
        | assumption | intro _ | apply Res.all_next | apply keeps_pldm hP | apply keeps_pldmServe hP
    | simp only [hP.upd]

theorem keeps_execGetTid (h : MctpHdr) (h0 : P s) : Res.all P (execGetTid h s) := by
  unfold execGetTid
  repeat' with_reducible first
        | assumption | intro _ | apply Res.all_next | apply keeps_pldm hP | apply keeps_pldmServe hP

theorem keeps_execGetPldmVersion (h : MctpHdr) (typ : BitVec 8) (h0 : P s) : Res.all P (execGetPldmVersion h typ s) := by
  unfold execGetPldmVersion
  repeat' with_reducible first
        | assumption | intro _ | apply Res.all_next | apply keeps_pldm hP | apply keeps_pldmServe hP | apply hP.ite

theorem keeps_execGetPldmTypes (h : MctpHdr) (h0 : P s) : Res.all P (execGetPldmTypes h s) := by
  unfold execGetPldmTypes
  repeat' with_reducible first
        | assumption | intro _ | apply Res.all_next | apply keeps_pldm hP | apply keeps_pldmServe hP

theorem keeps_execGetPldmCommands (h : MctpHdr) (typ : BitVec 8) (h0 : P s) :
    Res.all P (execGetPldmCommands h typ s) := by
  unfold execGetPldmCommands
  repeat' with_reducible first
        | assumption | intro _ | apply Res.all_next | apply keeps_pldm hP | apply keeps_pldmServe hP | apply hP.ite

theorem keeps_execGetSensorReading (h : MctpHdr) (sensor : BitVec 16) (h0 : P s) :
    Res.all P (execGetSensorReading h sensor s) := by
  unfold execGetSensorReading
  repeat' with_reducible first
        | assumption | intro _ | apply Res.all_next | apply keeps_mctpServe hP | apply keeps_pldm hP
        | apply keeps_reading hP | apply hP.ite

theorem keeps_execGetStateSensorReadings (h : MctpHdr) (sensor : BitVec 16) (h0 : P s) :
    Res.all P (execGetStateSensorReadings h sensor s) := by
  unfold execGetStateSensorReadings
  repeat' with_reducible first
        | assumption | intro _ | apply Res.all_next | apply keeps_mctpServe hP | apply keeps_pldm hP | apply hP.ite

theorem keeps_execSetNumericSensorEnable (h : MctpHdr) (sensor : BitVec 16) (on : Bool) (h0 : P s) :
    Res.all P (execSetNumericSensorEnable h sensor on s) := by
  unfold execSetNumericSensorEnable
  repeat' first
    | with_reducible first
        | assumption | intro _ | apply Res.all_next | apply keeps_pldm hP | apply keeps_pldmServe hP | apply hP.ite
    | simp only [hP.upd]

theorem keeps_execGetPdrRepositoryInfo (h : MctpHdr) (h0 : P s) : Res.all P (execGetPdrRepositoryInfo h s) := by
  unfold execGetPdrRepositoryInfo
  repeat' with_reducible first
        | assumption | intro _ | apply Res.all_next | apply keeps_pldm hP | apply keeps_pldmServe hP

theorem keeps_execGetPdr (h : MctpHdr) (handle : BitVec 32) (h0 : P s) : Res.all P (execGetPdr h handle s) := by
  unfold execGetPdr
  repeat' with_reducible first
        | assumption | intro _ | apply Res.all_next | apply keeps_pldm hP | apply keeps_pldmServe hP | apply hP.ite

theorem keeps_execSetEventReceiver (h : MctpHdr) (eid : BitVec 8) (h0 : P s) :
    Res.all P (execSetEventReceiver h eid s) := by
  unfold execSetEventReceiver
  repeat' first
    | with_reducible first
        | assumption | intro _ | apply Res.all_next | apply keeps_pldm hP | apply keeps_pldmServe hP
    | simp only [hP.upd]

theorem keeps_pkgTemps (v : Int) (h0 : P s) : P (State.pkgTemps s v) := by
  unfold State.pkgTemps
  repeat' first
    | with_reducible first
        | assumption | intro _ | apply hP.set | apply keeps_draw hP | apply keeps_each | apply hP.ite
    | simp only [hP.upd]
    | simp only [id_eq]
    | (extract_lets +onlyGivenNames x; refine (fun (hx : P x) => ?_) ?_; clear_value x; rotate_left; subst x; rotate_right)
    | (extract_lets +onlyGivenNames x; clear_value x)
    | (split; all_goals (rename_i heq; have e2 := congrArg Prod.snd heq; simp only at e2; subst e2))
    | split

theorem keeps_refresh (readings : List (Nat × Int)) (h0 : P s) : P (State.refresh s readings) := by
  unfold State.refresh
  repeat' first
    | with_reducible first
        | assumption | intro _ | apply keeps_pkgTemps hP | apply keeps_sensShow hP | apply keeps_each | apply hP.ite
    | simp only [hP.upd]
    | simp only [id_eq]
    | (extract_lets +onlyGivenNames x; refine (fun (hx : P x) => ?_) ?_; clear_value x; rotate_left; subst x; rotate_right)
    | (extract_lets +onlyGivenNames x; clear_value x)
    | (split; all_goals (rename_i heq; have e2 := congrArg Prod.snd heq; simp only at e2; subst e2))
    | split

theorem keeps_execPldmSensorRefresh (r1 r2 r3 r4 r5 r6 : BitVec 16) (h0 : P s) :
    Res.all P (execPldmSensorRefresh r1 r2 r3 r4 r5 r6 s) := by
  unfold execPldmSensorRefresh
  repeat' with_reducible first | assumption | apply Res.all_next | apply keeps_refresh hP | apply hP.ite

theorem keeps_execPtmDialog (good : Bool) (ofs : BitVec 64) (h0 : P s) : Res.all P (execPtmDialog good ofs s) := by
  unfold execPtmDialog
  repeat' with_reducible first
        | assumption | intro _ | apply Res.all_next | apply hP.set | apply keeps_ptmDone hP | apply keeps_when
        | apply hP.ite

theorem keeps_execSlewComplete (h0 : P s) : Res.all P (execSlewComplete s) := by
  unfold execSlewComplete
  repeat' with_reducible first | assumption | apply Res.all_next | apply keeps_slewStop hP

theorem keeps_limitUp (i lv : Nat) (h0 : P s) : P (State.limitUp s i lv) := by
  unfold State.limitUp
  repeat' first
    | with_reducible first | assumption | apply keeps_alertSync hP | apply keeps_reading hP | apply keeps_sensShow hP
    | simp only [hP.upd]

theorem keeps_execThermalLimitCleared (i : Fin 3) (warning : Bool) (h0 : P s) :
    Res.all P (execThermalLimitCleared i warning s) := by
  unfold execThermalLimitCleared
  repeat' first
    | with_reducible first | assumption | intro _ | apply Res.all_next | apply keeps_alertSync hP | apply keeps_when
    | simp only [hP.upd]

theorem keeps_execInputPowerWarning (high : Bool) (h0 : P s) : Res.all P (execInputPowerWarning high s) := by
  unfold execInputPowerWarning
  repeat' first
    | with_reducible first | assumption | intro _ | apply Res.all_next | apply keeps_alertSync hP | apply keeps_when
    | simp only [hP.upd]

theorem keeps_execVinOutOfRange (outside : Bool) (h0 : P s) : Res.all P (execVinOutOfRange outside s) := by
  unfold execVinOutOfRange
  repeat' first
    | with_reducible first | assumption | intro _ | apply Res.all_next | apply keeps_alertSync hP | apply keeps_when
    | simp only [hP.upd]

theorem keeps_execFaultLogCopy (h0 : P s) : Res.all P (execFaultLogCopy s) := by
  unfold execFaultLogCopy
  repeat' first
    | with_reducible first | assumption | intro _ | apply Res.all_next | apply hP.set | apply keeps_when
    | simp only [hP.upd]

theorem keeps_logFlush (h0 : P s) : P (State.logFlush s) := by
  unfold State.logFlush
  repeat' first
    | with_reducible assumption
    | simp only [hP.upd]

theorem keeps_execFaultLogFlush (h0 : P s) : Res.all P (execFaultLogFlush s) := by
  unfold execFaultLogFlush
  repeat' with_reducible first | assumption | intro _ | apply Res.all_next | apply keeps_logFlush hP | apply keeps_when

theorem keeps_rawServe (pec : Bool) (g : State → State) (h_g : ∀ s, P s → P (g s)) (h0 : P s) :
    P (State.rawServe s pec g) := by
  unfold State.rawServe
  repeat' with_reducible first | assumption | apply h_g | apply keeps_count hP | apply hP.ite

theorem keeps_rawData (good : Bool) (g : State → State) (h_g : ∀ s, P s → P (g s)) (h0 : P s) :
    P (State.rawData s good g) := by
  unfold State.rawData
  repeat' with_reducible first | assumption | apply h_g | apply keeps_count hP | apply keeps_send hP | apply hP.ite

theorem keeps_execRawStatus (pec : Bool) (h0 : P s) : Res.all P (execRawStatus pec s) := by
  unfold execRawStatus
  repeat' with_reducible first
        | assumption | intro _ | apply Res.all_next | apply keeps_rawServe hP | apply keeps_send hP

theorem keeps_execRawWakeLast (pec : Bool) (h0 : P s) : Res.all P (execRawWakeLast pec s) := by
  unfold execRawWakeLast
  repeat' with_reducible first
        | assumption | intro _ | apply Res.all_next | apply keeps_rawServe hP | apply keeps_send hP

theorem keeps_execRawLogSeek (pec : Bool) (num : BitVec 32) (h0 : P s) : Res.all P (execRawLogSeek pec num s) := by
  unfold execRawLogSeek
  repeat' first
    | with_reducible first | assumption | intro _ | apply Res.all_next | apply keeps_rawServe hP | apply hP.ite
    | simp only [hP.upd]

theorem keeps_execRawLogRead (pec : Bool) (h0 : P s) : Res.all P (execRawLogRead pec s) := by
  unfold execRawLogRead
  repeat' first
    | with_reducible first
        | assumption | intro _ | apply Res.all_next | apply keeps_rawServe hP | apply keeps_send hP
    | simp only [hP.upd]
    | split

theorem keeps_execThermalTripClear (h0 : P s) : Res.all P (execThermalTripClear s) := by
  unfold execThermalTripClear
  repeat' first
    | with_reducible first | assumption | apply Res.all_next | apply keeps_alertSync hP | apply hP.ite
    | simp only [hP.upd]

theorem keeps_imageChoice (h0 : P s) : P (State.imageChoice s).2 := by
  unfold State.imageChoice
  repeat' first
    | with_reducible first | assumption | apply keeps_putHdr hP
    | simp only [hP.upd]
    | split

theorem keeps_bootFailNow (h0 : P s) : P (State.bootFailNow s) := by
  unfold State.bootFailNow
  repeat' first
    | with_reducible assumption
    | simp only [hP.upd]

theorem keeps_imageReady (h0 : P s) : P (State.imageReady s) := by
  unfold State.imageReady
  repeat' first
    | with_reducible first | assumption | apply keeps_putHdr hP | apply hP.ite
    | simp only [hP.upd]

theorem keeps_execRrsTimeout (h0 : P s) : Res.all P (execRrsTimeout s) := by
  unfold execRrsTimeout
  repeat' first
    | with_reducible first | assumption | apply Res.all_next | apply hP.ite
    | simp only [hP.upd]

theorem keeps_sbStep (b : Standby) (n : Nat) (h0 : P s) : P (State.sbStep s b n) := by
  unfold State.sbStep
  repeat' first
    | with_reducible assumption
    | simp only [hP.upd]

theorem keeps_dropRecDone (ch : Nat) (h0 : P s) : P (State.dropRecDone s ch) := by
  unfold State.dropRecDone
  repeat' first
    | with_reducible assumption
    | simp only [hP.upd]

theorem keeps_takeDone (ch : Nat) (p : BeatDone → Bool) (g : State → BeatDone → State) (h_g : ∀ s r, P s → P (g s r)) (h0 : P s) :
    P (State.takeDone s ch p g) := by
  unfold State.takeDone
  repeat' first
    | with_reducible first | assumption | apply h_g | apply keeps_dropRecDone hP
    | simp only [hP.upd]
    | split

theorem keeps_execDmaReqTake (line : Fin 256) (h0 : P s) : Res.all P (execDmaReqTake line s) := by
  unfold execDmaReqTake
  repeat' first
    | with_reducible first | assumption | intro _ | apply Res.all_next | apply keeps_takeUnit hP | apply keeps_when
    | dsimp only
    | split

theorem keeps_execReqDoneSend (p : Port) (line : Fin 16) (h0 : P s) : Res.all P (execReqDoneSend p line s) := by
  unfold execReqDoneSend
  repeat' with_reducible first
        | assumption | intro _ | apply Res.all_next | apply keeps_setPort hP | apply keeps_urSend hP | apply keeps_when

theorem keeps_execGrdEpochAdvanceApply (h0 : P s) : Res.all P (execGrdEpochAdvanceApply s) := by
  unfold execGrdEpochAdvanceApply
  repeat' with_reducible first
        | assumption | intro _ | apply Res.all_next | apply keeps_grdAdvanceApply hP | apply keeps_when

omit hP in
theorem keeps_irqOn (g : State → State) (h_g : ∀ s, P s → P (g s)) (h0 : P s) : P (State.irqOn s g) := by
  unfold State.irqOn
  repeat' with_reducible first | assumption | apply keeps_when

theorem keeps_trainTaps (i : Nat) (b : TrainBlk) (rx : LaneRx) (h0 : P s) : P (State.trainTaps s i b rx) := by
  unfold State.trainTaps
  repeat' first
    | with_reducible first | assumption | intro _ | apply hP.set | apply keeps_setLtx hP | apply hP.ite
    | simp only [hP.upd]
    | simp only [id_eq]
    | (extract_lets +onlyGivenNames x; refine (fun (hx : P x) => ?_) ?_; clear_value x; rotate_left; subst x; rotate_right)
    | (extract_lets +onlyGivenNames x; clear_value x)
    | (split; all_goals (rename_i heq; have e2 := congrArg Prod.snd heq; simp only at e2; subst e2))
    | split

theorem keeps_trainTake (i : Nat) (b : TrainBlk) (h0 : P s) : P (State.trainTake s i b) := by
  unfold State.trainTake
  repeat' first
    | with_reducible first | assumption | intro _ | apply hP.set
    | simp only [hP.upd]
    | simp only [id_eq]
    | (extract_lets +onlyGivenNames x; refine (fun (hx : P x) => ?_) ?_; clear_value x; rotate_left; subst x; rotate_right)
    | (extract_lets +onlyGivenNames x; clear_value x)
    | (split; all_goals (rename_i heq; have e2 := congrArg Prod.snd heq; simp only at e2; subst e2))
    | split

theorem keeps_laneFail (cause i : Nat) (h0 : P s) : P (State.laneFail s cause i) := by
  unfold State.laneFail
  repeat' first
    | with_reducible first | assumption | intro _ | apply hP.set | apply keeps_setLane hP
    | simp only [hP.upd]
    | simp only [id_eq]
    | (extract_lets +onlyGivenNames x; refine (fun (hx : P x) => ?_) ?_; clear_value x; rotate_left; subst x; rotate_right)
    | (extract_lets +onlyGivenNames x; clear_value x)
    | (split; all_goals (rename_i heq; have e2 := congrArg Prod.snd heq; simp only at e2; subst e2))
    | split

theorem keeps_trainAgain (i : Nat) (old : LaneTx) (h0 : P s) : P (State.trainAgain s i old) := by
  unfold State.trainAgain
  repeat' first
    | with_reducible first | assumption | intro _ | apply keeps_trainLane hP | apply hP.ite
    | simp only [hP.upd]
    | simp only [id_eq]
    | (extract_lets +onlyGivenNames x; refine (fun (hx : P x) => ?_) ?_; clear_value x; rotate_left; subst x; rotate_right)
    | (extract_lets +onlyGivenNames x; clear_value x)
    | (split; all_goals (rename_i heq; have e2 := congrArg Prod.snd heq; simp only at e2; subst e2))
    | split

theorem keeps_execLaneEqTimeout (i : Lane) (h0 : P s) : Res.all P (execLaneEqTimeout i s) := by
  unfold execLaneEqTimeout
  repeat' first
    | with_reducible first
        | assumption | intro _ | apply Res.all_next | apply Res.all_ite | apply keeps_laneFail hP | apply keeps_when
        | apply hP.ite
    | simp only [hP.upd]
    | simp only [id_eq]
    | (extract_lets +onlyGivenNames x; refine (fun (hx : P x) => ?_) ?_; clear_value x; rotate_left; subst x; rotate_right)
    | (extract_lets +onlyGivenNames x; clear_value x)
    | (split; all_goals (rename_i heq; have e2 := congrArg Prod.snd heq; simp only at e2; subst e2))
    | split

theorem keeps_execTrainBeaconTick (l : Link) (on : Bool) (h0 : P s) : Res.all P (execTrainBeaconTick l on s) := by
  unfold execTrainBeaconTick
  repeat' first
    | with_reducible first
        | assumption | intro _ | apply Res.all_next | apply Res.all_ite | apply keeps_send hP | apply keeps_setLk hP
        | apply keeps_trainTx hP | apply keeps_when | apply hP.ite
    | simp only [hP.upd]
    | simp only [id_eq]
    | (extract_lets +onlyGivenNames x; refine (fun (hx : P x) => ?_) ?_; clear_value x; rotate_left; subst x; rotate_right)
    | (extract_lets +onlyGivenNames x; clear_value x)
    | (split; all_goals (rename_i heq; have e2 := congrArg Prod.snd heq; simp only at e2; subst e2))
    | split

theorem keeps_execLaneSignalDetect (i : Lane) (h0 : P s) : Res.all P (execLaneSignalDetect i s) := by
  unfold execLaneSignalDetect
  repeat' first
    | with_reducible first
        | assumption | intro _ | apply Res.all_next | apply Res.all_ite | apply hP.set | apply keeps_setLk hP
        | apply keeps_trainTx hP | apply keeps_when | apply hP.ite
    | simp only [hP.upd]
    | simp only [id_eq]
    | (extract_lets +onlyGivenNames x; refine (fun (hx : P x) => ?_) ?_; clear_value x; rotate_left; subst x; rotate_right)
    | (extract_lets +onlyGivenNames x; clear_value x)
    | (split; all_goals (rename_i heq; have e2 := congrArg Prod.snd heq; simp only at e2; subst e2))
    | split

theorem keeps_execTrialNow (i : Lane) (h0 : P s) : Res.all P (execTrialNow i s) := by
  unfold execTrialNow
  repeat' with_reducible first | assumption | intro _ | apply Res.all_next | apply keeps_trialNow hP | apply keeps_when

theorem keeps_execDarnReqRepeat (l : Link) (h0 : P s) : Res.all P (execDarnReqRepeat l s) := by
  unfold execDarnReqRepeat
  repeat' with_reducible first | assumption | intro _ | apply Res.all_next | apply keeps_sendMarker hP | apply keeps_when

theorem keeps_execPeriodicMarkerTx (l : Link) (h0 : P s) : Res.all P (execPeriodicMarkerTx l s) := by
  unfold execPeriodicMarkerTx
  repeat' with_reducible first
        | assumption | intro _ | apply Res.all_next | apply keeps_sendMarker hP | apply keeps_setLk hP | apply keeps_when

theorem keeps_execCplToPortRelease (h0 : P s) : Res.all P (execCplToPortRelease s) := by
  unfold execCplToPortRelease
  repeat' first
    | with_reducible first
        | assumption | intro _ | apply Res.all_next | apply Res.all_ite | apply keeps_respond hP | apply keeps_retire hP
    | simp only [hP.upd]
    | simp only [id_eq]
    | (extract_lets +onlyGivenNames x; refine (fun (hx : P x) => ?_) ?_; clear_value x; rotate_left; subst x; rotate_right)
    | (extract_lets +onlyGivenNames x; clear_value x)
    | (split; all_goals (rename_i heq; have e2 := congrArg Prod.snd heq; simp only at e2; subst e2))
    | split

theorem keeps_execBasketQuarantineExpire (tag : Nat) (h0 : P s) : Res.all P (execBasketQuarantineExpire tag s) := by
  unfold execBasketQuarantineExpire
  repeat' first
    | with_reducible first | assumption | apply Res.all_next
    | simp only [hP.upd]

theorem keeps_execNakHoldoffExpire (l : Link) (h0 : P s) : Res.all P (execNakHoldoffExpire l s) := by
  unfold execNakHoldoffExpire
  repeat' with_reducible first | assumption | intro _ | apply Res.all_next | apply keeps_setPort hP | apply keeps_when

theorem keeps_execFlowTx (l : Link) (vc2 : Bool) (h0 : P s) : Res.all P (execFlowTx l vc2 s) := by
  unfold execFlowTx
  repeat' with_reducible first | assumption | intro _ | apply Res.all_next | apply keeps_flowTx hP | apply keeps_when

theorem keeps_twinShows (p : Nat) (twin : Option Nat) (h0 : P s) : P (State.twinShows s p twin) := by
  unfold State.twinShows
  repeat' first
    | with_reducible assumption
    | simp only [hP.upd]

theorem keeps_execSbPollTick (p : Port) (h0 : P s) : Res.all P (execSbPollTick p s) := by
  unfold execSbPollTick
  repeat' with_reducible first
        | assumption | intro _ | apply Res.all_next | apply keeps_count hP | apply keeps_sbPollNow hP | apply keeps_when
        | apply hP.ite

theorem keeps_execSbOutSend (p : Port) (h0 : P s) : Res.all P (execSbOutSend p s) := by
  unfold execSbOutSend
  repeat' with_reducible first | assumption | intro _ | apply Res.all_next | apply keeps_sbSend hP | apply keeps_when

theorem keeps_execUlkSbLatchWrite (p : Port) (v : Nat) (h0 : P s) : Res.all P (execUlkSbLatchWrite p v s) := by
  unfold execUlkSbLatchWrite
  repeat' with_reducible first
        | assumption | intro _ | apply Res.all_next | apply keeps_sbLatchWrite hP | apply keeps_when

theorem keeps_idle (h0 : P s) : P (State.idle s) := by
  unfold State.idle
  repeat' first
    | with_reducible first | assumption | apply keeps_timeTick hP | apply hP.ite
    | simp only [hP.upd]

end Sys2Proof.Machine
end

