-- ==== Sys2Proof/Laws/KeepsBase.lean ====
section
/-!
SUPPORT. Kept properties: memory, interrupts, logs, stops and the two memories.
-/
namespace Sys2Proof.Machine

variable {P : State → Prop} (hP : Keeps P) {s : State}
include hP

theorem keeps_stBytes (d : List Byte) : ∀ {s : State} (a : Nat), P s →
    P (s.stBytes a d) := by
  induction d with
  | nil => intro s a h; exact h
  | cons b t ih => intro s a h; exact ih _ (hP.st _ _ h)

theorem keeps_st8 (a v : Nat) (h0 : P s) : P (State.st8 s a v) := by
  unfold State.st8
  repeat' with_reducible first | assumption | apply keeps_stBytes hP

theorem keeps_st4 (a v : Nat) (h0 : P s) : P (State.st4 s a v) := by
  unfold State.st4
  repeat' with_reducible first | assumption | apply keeps_stBytes hP

theorem keeps_setCfgB (f off : Nat) (b : Byte) (h0 : P s) : P (State.setCfgB s f off b) := by
  unfold State.setCfgB
  repeat' with_reducible first | assumption | apply hP.cfgSet

theorem keeps_setCfgD (f off v : Nat) (h0 : P s) : P (State.setCfgD s f off v) := by
  unfold State.setCfgD
  repeat' with_reducible first | assumption | apply keeps_setCfgB hP

theorem keeps_orCfg (f off m : Nat) (h0 : P s) : P (State.orCfg s f off m) := by
  unfold State.orCfg
  repeat' with_reducible first | assumption | apply keeps_setCfgD hP

theorem keeps_resetCfg (f : Nat) (h : P s) : P (State.resetCfg s f) :=
  hP.keep (s := s) (fun _ => true) (fun _ => true) (fun _ => true) _ _ rfl (smKeep_true _).symm (smKeep_true _).symm (smKeep_true _).symm rfl rfl h

theorem keeps_setMsixB (f off : Nat) (b : Byte) (h0 : P s) : P (State.setMsixB s f off b) := by
  unfold State.setMsixB
  repeat' with_reducible first | assumption | apply hP.msixSet

theorem keeps_setBit (a b : Nat) (v : Bool) (h0 : P s) : P (State.setBit s a b v) := by
  unfold State.setBit
  repeat' with_reducible first | assumption | apply hP.st

theorem keeps_setPend (i : Nat) (v : Bool) (h0 : P s) : P (State.setPend s i v) := by
  unfold State.setPend
  repeat' with_reducible first | assumption | apply keeps_countBank hP.regs | apply keeps_setBit hP

theorem keeps_stormCount (i : Nat) (h0 : P s) : P (State.stormCount s i) := by
  unfold State.stormCount
  repeat' first
    | with_reducible first | assumption | apply hP.set | apply keeps_setPend hP | apply hP.ite
    | simp only [hP.upd]

theorem keeps_intxSync (h0 : P s) : P (State.intxSync s) := by
  unfold State.intxSync
  repeat' first
    | with_reducible first
        | assumption | intro _ | apply keeps_hostTx hP.regs | apply keeps_stormCount hP | apply keeps_each | apply hP.ite
    | simp only [hP.upd]

theorem keeps_strandCheck (i : Nat) (h0 : P s) : P (State.strandCheck s i) := by
  unfold State.strandCheck
  repeat' first
    | with_reducible first | assumption | apply hP.set | apply keeps_setPend hP | apply hP.ite
    | simp only [hP.upd]

theorem keeps_irqEval (h0 : P s) : P (State.irqEval s) := by
  unfold State.irqEval
  repeat' with_reducible first
        | assumption | intro _ | apply keeps_intxSync hP | apply keeps_strandCheck hP | apply keeps_each

theorem keeps_raise (i : Nat) (h0 : P s) : P (State.raise s i) := by
  unfold State.raise
  repeat' first
    | with_reducible first
        | assumption | apply keeps_intxSync hP | apply keeps_irqFresh hP.regs | apply keeps_setPend hP
        | apply keeps_strandCheck hP | apply hP.ite
    | simp only [hP.upd]

theorem keeps_levelFall (i : Nat) (h0 : P s) : P (State.levelFall s i) := by
  unfold State.levelFall
  repeat' with_reducible first | assumption | apply keeps_irqEval hP | apply keeps_setPend hP | apply hP.ite

theorem keeps_relevel (i : Nat) (was : Bool) (h0 : P s) : P (State.relevel s i was) := by
  unfold State.relevel
  repeat' with_reducible first | assumption | apply keeps_levelFall hP | apply keeps_raise hP | apply hP.ite

theorem keeps_withLevels (srcs : List Nat) (g : State → State)
    (h_g : ∀ s, P s → P (g s)) (h : P s) : P (State.withLevels s srcs g) :=
  keeps_each (f := fun t i => t.relevel i (s.level i)) (h_g s h) fun _ _ ht => keeps_relevel hP _ _ ht

theorem keeps_evt (src : Nat) (f : Fld) (i : Nat) (h0 : P s) : P (State.evt s src f i) := by
  unfold State.evt
  repeat' with_reducible first | assumption | intro _ | apply hP.set | apply keeps_withLevels hP

theorem keeps_hstEvt (f : Fld) (h0 : P s) : P (State.hstEvt s f) := by
  unfold State.hstEvt
  repeat' with_reducible first | assumption | apply keeps_evt hP

theorem keeps_laneEvt (l : Nat) (f : Fld) (h0 : P s) : P (State.laneEvt s l f) := by
  unfold State.laneEvt
  repeat' with_reducible first | assumption | apply keeps_evt hP

theorem keeps_ulkEvt (p : Nat) (f : Fld) (h0 : P s) : P (State.ulkEvt s p f) := by
  unfold State.ulkEvt
  repeat' with_reducible first | assumption | apply keeps_evt hP

theorem keeps_semEvt (f : Fld) (h0 : P s) : P (State.semEvt s f) := by
  unfold State.semEvt
  repeat' with_reducible first | assumption | apply keeps_evt hP

theorem keeps_pwrEvt (f : Fld) (h0 : P s) : P (State.pwrEvt s f) := by
  unfold State.pwrEvt
  repeat' with_reducible first | assumption | apply keeps_evt hP

theorem keeps_clkEvt (f : Fld) (h0 : P s) : P (State.clkEvt s f) := by
  unfold State.clkEvt
  repeat' with_reducible first | assumption | apply keeps_evt hP

theorem keeps_memEvt (f : Fld) (h0 : P s) : P (State.memEvt s f) := by
  unfold State.memEvt
  repeat' with_reducible first | assumption | apply keeps_evt hP

theorem keeps_drsEvt (f : Fld) (h0 : P s) : P (State.drsEvt s f) := by
  unfold State.drsEvt
  repeat' with_reducible first | assumption | apply keeps_evt hP

theorem keeps_answer (r : Req) (st : Nat) (data : List Byte) (pois : List Nat) (h0 : P s) :
    P (State.answer s r st data pois) := by
  unfold State.answer
  repeat' first
    | with_reducible first
        | assumption | intro _ | apply keeps_hostTx hP.regs | apply keeps_send hP.regs | apply keeps_setPort hP.regs
        | apply keeps_urSend hP.regs | apply hP.ite
    | simp only [hP.upd]
    | simp only [id_eq]
    | (extract_lets +onlyGivenNames x; refine (fun (hx : P x) => ?_) ?_; clear_value x; rotate_left; subst x; rotate_right)
    | (extract_lets +onlyGivenNames x; clear_value x)
    | (split; all_goals (rename_i heq; have e2 := congrArg Prod.snd heq; simp only at e2; subst e2))
    | split

theorem keeps_finish (r : Req) (st : Nat) (data : List Byte) (pois : List Nat) (h0 : P s) :
    P (State.finish s r st data pois) := by
  unfold State.finish
  repeat' with_reducible first | assumption | apply keeps_answer hP | apply keeps_retire hP.regs

theorem keeps_jLeave (w : JWrite) (h0 : P s) : P (State.jLeave s w) := by
  unfold State.jLeave
  repeat' first
    | with_reducible first
        | assumption | apply keeps_finish hP | apply keeps_hostTx hP.regs | apply keeps_send hP.regs
    | simp only [hP.upd]
    | split

theorem keeps_jFlushGo (l : List JWrite) : ∀ (k : List JWrite) {s : State}, P s →
    P (State.jFlush.go l k s) := by
  induction l with
  | nil => intro k s h; simp only [State.jFlush.go, hP.upd]; exact h
  | cons w t ih =>
    intro k s h
    simp only [State.jFlush.go]
    split
    · exact ih _ (keeps_jLeave hP _ h)
    · exact ih _ h

theorem keeps_jFlush (h : P s) : P (State.jFlush s) :=
  keeps_jFlushGo hP _ _ (by simp only [hP.upd]; exact h)

theorem keeps_jSend (w : JWrite) (h0 : P s) : P (State.jSend s w) := by
  unfold State.jSend
  repeat' first
    | with_reducible first | assumption | intro _ | apply keeps_jFlush hP
    | simp only [hP.upd]
    | simp only [id_eq]
    | (extract_lets +onlyGivenNames x; refine (fun (hx : P x) => ?_) ?_; clear_value x; rotate_left; subst x; rotate_right)
    | (extract_lets +onlyGivenNames x; clear_value x)
    | (split; all_goals (rename_i heq; have e2 := congrArg Prod.snd heq; simp only at e2; subst e2))
    | split

theorem keeps_jSendTlp (port : Nat) (o : Out) (h0 : P s) : P (State.jSendTlp s port o) := by
  unfold State.jSendTlp
  repeat' with_reducible first | assumption | apply keeps_jSend hP

theorem keeps_hostFlush (h0 : P s) : P (State.hostFlush s) := by
  unfold State.hostFlush
  repeat' first
    | with_reducible first
        | assumption | intro _ | apply keeps_jFlush hP | apply keeps_send hP.regs | apply keeps_each | apply hP.ite
    | simp only [hP.upd]

theorem keeps_aer (f : Nat) (e : Aer) (h0 : P s) : P (State.aer s f e) := by
  unfold State.aer
  repeat' first
    | with_reducible first | assumption | intro _ | apply keeps_hostTx hP.regs | apply keeps_orCfg hP | apply hP.ite
    | dsimp only
    | simp only [id_eq]
    | (extract_lets +onlyGivenNames x; refine (fun (hx : P x) => ?_) ?_; clear_value x; rotate_left; subst x; rotate_right)
    | (extract_lets +onlyGivenNames x; clear_value x)
    | (split; all_goals (rename_i heq; have e2 := congrArg Prod.snd heq; simp only at e2; subst e2))
    | split

theorem keeps_faultLog (e : LogEnt) (h0 : P s) : P (State.faultLog s e) := by
  unfold State.faultLog
  repeat' first
    | with_reducible first | assumption | apply hP.set | apply keeps_evt hP | apply hP.ite
    | simp only [hP.upd]

theorem keeps_deliveryFail (i addr st : Nat) (h0 : P s) : P (State.deliveryFail s i addr st) := by
  unfold State.deliveryFail
  repeat' first
    | with_reducible first
        | assumption | intro _ | apply hP.set | apply keeps_count hP.regs | apply keeps_evt hP | apply keeps_faultLog hP
        | apply keeps_irqEval hP | apply keeps_setPend hP
    | simp only [hP.upd]
    | simp only [id_eq]
    | (extract_lets +onlyGivenNames x; refine (fun (hx : P x) => ?_) ?_; clear_value x; rotate_left; subst x; rotate_right)
    | (extract_lets +onlyGivenNames x; clear_value x)
    | (split; all_goals (rename_i heq; have e2 := congrArg Prod.snd heq; simp only at e2; subst e2))
    | split

theorem keeps_correctedLog (unit : Nat) (h0 : P s) : P (State.correctedLog s unit) := by
  unfold State.correctedLog
  repeat' first
    | with_reducible first | assumption | intro _ | apply keeps_draw hP.regs | apply keeps_faultLog hP
    | simp only [hP.upd]
    | simp only [id_eq]
    | (extract_lets +onlyGivenNames x; refine (fun (hx : P x) => ?_) ?_; clear_value x; rotate_left; subst x; rotate_right)
    | (extract_lets +onlyGivenNames x; clear_value x)
    | (split; all_goals (rename_i heq; have e2 := congrArg Prod.snd heq; simp only at e2; subst e2))
    | split

theorem keeps_logRecord (unit code : Nat) (h0 : P s) : P (State.logRecord s unit code) := by
  unfold State.logRecord
  repeat' with_reducible first | assumption | apply keeps_faultLog hP

theorem keeps_evqDivert (e : EvqEnt) (h0 : P s) : P (State.evqDivert s e) := by
  unfold State.evqDivert
  repeat' with_reducible first | assumption | apply keeps_faultLog hP

theorem keeps_evqIrq (f : Nat) (irq : Bool) (h0 : P s) : P (State.evqIrq s f irq) := by
  unfold State.evqIrq
  repeat' with_reducible first | assumption | apply keeps_raise hP | apply hP.ite

theorem keeps_evqPlace (e : EvqEnt) (h0 : P s) : P (State.evqPlace s e) := by
  unfold State.evqPlace
  repeat' first
    | with_reducible first
        | assumption | intro _ | apply hP.set | apply keeps_evqDivert hP | apply keeps_evqIrq hP | apply keeps_jSend hP
        | apply keeps_mirror hP.regs | apply hP.ite
    | simp only [hP.upd]
    | simp only [id_eq]
    | (extract_lets +onlyGivenNames x; refine (fun (hx : P x) => ?_) ?_; clear_value x; rotate_left; subst x; rotate_right)
    | (extract_lets +onlyGivenNames x; clear_value x)
    | (split; all_goals (rename_i heq; have e2 := congrArg Prod.snd heq; simp only at e2; subst e2))
    | split

theorem keeps_evqHold (e : EvqEnt) (h0 : P s) : P (State.evqHold s e) := by
  unfold State.evqHold
  repeat' first
    | with_reducible first
        | assumption | intro _ | apply hP.set | apply keeps_evq hP | apply keeps_evqDivert hP | apply hP.ite
    | simp only [hP.upd]
    | simp only [id_eq]
    | (extract_lets +onlyGivenNames x; refine (fun (hx : P x) => ?_) ?_; clear_value x; rotate_left; subst x; rotate_right)
    | (extract_lets +onlyGivenNames x; clear_value x)
    | (split; all_goals (rename_i heq; have e2 := congrArg Prod.snd heq; simp only at e2; subst e2))
    | split

theorem keeps_evqRoute (e : EvqEnt) (h0 : P s) : P (State.evqRoute s e) := by
  unfold State.evqRoute
  repeat' with_reducible first
        | assumption | apply keeps_evqDivert hP | apply keeps_evqHold hP | apply keeps_evqPlace hP | apply hP.ite

theorem keeps_evq (e : EvqEnt) (h0 : P s) : P (State.evq s e) := by
  unfold State.evq
  repeat' with_reducible first | assumption | apply keeps_evqRoute hP

theorem keeps_abandonReads (c : Nat) (h0 : P s) : P (State.abandonReads s c) := by
  unfold State.abandonReads
  repeat' first
    | with_reducible first
        | assumption | intro _ | apply hP.st | apply keeps_groupDrop hP.regs | apply keeps_retire hP.regs
        | apply keeps_each
    | simp only [hP.upd]
    | simp only [id_eq]
    | (extract_lets +onlyGivenNames x; refine (fun (hx : P x) => ?_) ?_; clear_value x; rotate_left; subst x; rotate_right)
    | (extract_lets +onlyGivenNames x; clear_value x)
    | (split; all_goals (rename_i heq; have e2 := congrArg Prod.snd heq; simp only at e2; subst e2))
    | split

theorem keeps_hardAbort (c cause : Nat) (h0 : P s) : P (State.hardAbort s c cause) := by
  unfold State.hardAbort
  repeat' first
    | with_reducible first | assumption | apply hP.set | apply keeps_abandonReads hP | apply keeps_setChan hP.regs
    | split

theorem keeps_tdiMark (f cause : Nat) (h0 : P s) : P (State.tdiMark s f cause) := by
  unfold State.tdiMark
  repeat' with_reducible first | assumption | apply hP.set | apply keeps_evt hP | apply hP.ite

theorem keeps_fnContain (f cause : Nat) (e : EvqEnt) (h0 : P s) : P (State.fnContain s f cause e) := by
  unfold State.fnContain
  repeat' first
    | with_reducible first
        | assumption | intro _ | apply hP.set | apply keeps_aer hP | apply keeps_evq hP | apply keeps_evt hP
        | apply keeps_faultLog hP | apply keeps_haltRings hP.regs | apply keeps_hardAbort hP | apply keeps_irqEval hP
        | apply keeps_tdiMark hP | apply keeps_each | apply hP.ite
    | simp only [hP.upd]

theorem keeps_tdiError (f cause : Nat) (h0 : P s) : P (State.tdiError s f cause) := by
  unfold State.tdiError
  repeat' with_reducible first | assumption | apply keeps_fnContain hP | apply keeps_tdiMark hP | apply hP.ite

theorem keeps_contain (cause : Nat) (h0 : P s) : P (State.contain s cause) := by
  unfold State.contain
  repeat' first
    | with_reducible first
        | assumption | intro _ | apply hP.set | apply keeps_aer hP | apply keeps_drainChan hP.regs
        | apply keeps_faultLog hP | apply keeps_irqEval hP | apply keeps_relevel hP | apply keeps_seamSend hP.regs
        | apply keeps_tdiError hP | apply keeps_each | apply hP.ite
    | simp only [hP.upd]

theorem keeps_ideInsecure (stream : Nat) (h0 : P s) : P (State.ideInsecure s stream) := by
  unfold State.ideInsecure
  repeat' first
    | with_reducible first
        | assumption | intro _ | apply hP.set | apply keeps_tdiError hP | apply keeps_each | apply hP.ite
    | simp only [hP.upd]

theorem keeps_ideApply (stream : Nat) (h0 : P s) : P (State.ideApply s stream) := by
  unfold State.ideApply
  repeat' first
    | with_reducible first
        | assumption | intro _ | apply keeps_ideInsecure hP | apply keeps_ideSettle hP.regs | apply hP.ite
    | simp only [hP.upd]
    | simp only [id_eq]
    | (extract_lets +onlyGivenNames x; refine (fun (hx : P x) => ?_) ?_; clear_value x; rotate_left; subst x; rotate_right)
    | (extract_lets +onlyGivenNames x; clear_value x)
    | (split; all_goals (rename_i heq; have e2 := congrArg Prod.snd heq; simp only at e2; subst e2))
    | split

theorem keeps_cfgApply (f : Nat) (h0 : P s) : P (State.cfgApply s f) := by
  unfold State.cfgApply
  repeat' first
    | with_reducible first
        | assumption | intro _ | apply keeps_ideApply hP | apply keeps_pmL1 hP.regs | apply keeps_each | apply hP.ite
    | simp only [hP.upd]
    | simp only [id_eq]
    | (extract_lets +onlyGivenNames x; refine (fun (hx : P x) => ?_) ?_; clear_value x; rotate_left; subst x; rotate_right)
    | (extract_lets +onlyGivenNames x; clear_value x)
    | (split; all_goals (rename_i heq; have e2 := congrArg Prod.snd heq; simp only at e2; subst e2))
    | split

theorem keeps_countProt (w : Who) (sram : Bool) (a len : Nat) (h0 : P s) : P (State.countProt s w sram a len) := by
  unfold State.countProt
  repeat' with_reducible first
        | assumption | apply hP.set | apply keeps_count hP.regs | apply keeps_drsEvt hP | apply keeps_memEvt hP
        | apply hP.ite

theorem keeps_memLog (cls a mst : Nat) (h0 : P s) : P (State.memLog s cls a mst) := by
  unfold State.memLog
  repeat' with_reducible first | assumption | apply keeps_faultLog hP

theorem keeps_scramble (a : Nat) (h0 : P s) : P (State.scramble s a) := by
  unfold State.scramble
  repeat' with_reducible first | assumption | intro _ | apply keeps_draw hP.regs | apply keeps_st8 hP | apply keeps_each

theorem keeps_memResolve (a mst : Nat) (e : MemErr) (h0 : P s) : P (State.memResolve s a mst e) := by
  unfold State.memResolve
  repeat' first
    | with_reducible first
        | assumption | apply hP.setPoison | apply keeps_contain hP | apply keeps_count hP.regs | apply keeps_drsEvt hP
        | apply keeps_memCapture hP.regs | apply keeps_memEvt hP | apply keeps_memLog hP | apply keeps_scramble hP
    | simp only [hP.upd]
    | split

theorem keeps_memRead (mst a len : Nat) (e : MemErr) (h0 : P s) : P (State.memRead s mst a len e).2.2 := by
  unfold State.memRead
  repeat' with_reducible first | assumption | apply keeps_countBank hP.regs | apply keeps_memResolve hP | apply hP.ite

theorem keeps_markWrite (a : Nat) (data : List Byte) (be : List Bool) (pois : List Nat) (h0 : P s) :
    P (State.markWrite s a data be pois) := by
  unfold State.markWrite
  repeat' with_reducible first | assumption | intro _ | apply hP.setPoison | apply keeps_each | apply hP.ite

theorem keeps_stMasked (f : Byte → Byte → Byte) (d : List Byte) :
    ∀ {s : State} (a : Nat) (be : List Bool), P s → P (s.stMasked f a d be) := by
  induction d with
  | nil => intro s a be h; exact h
  | cons b t ih =>
    intro s a be h
    cases be with
    | nil => exact ih _ _ (hP.st _ _ h)
    | cons e u =>
      refine ih _ _ ?_
      split
      · exact hP.st _ _ h
      · exact h

theorem keeps_rmwRead (mst a : Nat) (data : List Byte) (be : List Bool) (e : MemErr) (h0 : P s) :
    P (State.rmwRead s mst a data be e) := by
  unfold State.rmwRead
  repeat' first
    | with_reducible first | assumption | apply keeps_memResolve hP
    | split

theorem keeps_memWrite (mst a : Nat) (data : List Byte) (be : List Bool) (pois : List Nat) (e : MemErr) (h0 : P s) :
    P (State.memWrite s mst a data be pois e) := by
  unfold State.memWrite
  repeat' first
    | with_reducible first
        | assumption | intro _ | apply keeps_arrayMirror hP.regs | apply keeps_countBank hP.regs | apply keeps_irqEval hP
        | apply keeps_markWrite hP | apply keeps_rmwRead hP | apply keeps_stMasked hP | apply hP.ite
    | simp only [hP.upd]
    | simp only [id_eq]
    | (extract_lets +onlyGivenNames x; refine (fun (hx : P x) => ?_) ?_; clear_value x; rotate_left; subst x; rotate_right)
    | (extract_lets +onlyGivenNames x; clear_value x)
    | (split; all_goals (rename_i heq; have e2 := congrArg Prod.snd heq; simp only at e2; subst e2))
    | split

theorem keeps_markAlias (a : Nat) (data : List Byte) (pois : List Nat) (h0 : P s) :
    P (State.markAlias s a data pois) := by
  unfold State.markAlias
  repeat' with_reducible first | assumption | intro _ | apply hP.setPoison | apply keeps_each

theorem keeps_aliasWrite (mst viaAlias a : Nat) (data : List Byte) (be : List Bool) (pois : List Nat) (e : MemErr) (h0 : P s) :
    P (State.aliasWrite s mst viaAlias a data be pois e) := by
  unfold State.aliasWrite
  repeat' first
    | with_reducible first
        | assumption | intro _ | apply keeps_arrayMirror hP.regs | apply keeps_countBank hP.regs | apply keeps_irqEval hP
        | apply keeps_markAlias hP | apply keeps_memResolve hP | apply keeps_stMasked hP | apply hP.ite
    | simp only [hP.upd]
    | simp only [id_eq]
    | (extract_lets +onlyGivenNames x; refine (fun (hx : P x) => ?_) ?_; clear_value x; rotate_left; subst x; rotate_right)
    | (extract_lets +onlyGivenNames x; clear_value x)
    | (split; all_goals (rename_i heq; have e2 := congrArg Prod.snd heq; simp only at e2; subst e2))
    | split

end Sys2Proof.Machine
end

