-- ==== Sys2Proof/Laws/KeepsBridge.lean ====
section
/-!
SUPPORT. Kept properties: translation, mailboxes, the bridge, the Basket, deliveries, the governor and DMA.
-/
namespace Sys2Proof.Machine

variable {P : State → Prop} (hP : Keeps P) {s : State}
include hP

theorem keeps_useWin (r : Req) (idx off : Nat) (w : List Nat) (h0 : P s) : P (State.useWin s r idx off w).2 := by
  unfold State.useWin
  repeat' with_reducible first | assumption | apply keeps_count hP.regs | apply hP.ite

theorem keeps_lookup (r : Req) (rt : Route) (h0 : P s) : P (State.lookup s r rt).2 := by
  unfold State.lookup
  repeat' first
    | with_reducible first
        | assumption | apply keeps_count hP.regs | apply keeps_touchCache hP.regs | apply keeps_useWin hP
    | simp only [hP.upd]
    | (split; all_goals (rename_i heq; have e2 := congrArg Prod.snd heq; simp only at e2; subst e2))
    | split

theorem keeps_writeDropped (r : Req) (status cause : Nat) (h0 : P s) : P (State.writeDropped s r status cause) := by
  unfold State.writeDropped
  repeat' with_reducible first | assumption | apply keeps_evq hP

theorem keeps_endAccess (r : Req) (status cause : Nat) (h0 : P s) : P (State.endAccess s r status cause) := by
  unfold State.endAccess
  repeat' first
    | with_reducible first
        | assumption | intro _ | apply keeps_answer hP | apply keeps_deliveryFail hP | apply keeps_faultLog hP
        | apply keeps_hostTx hP.regs | apply keeps_send hP.regs | apply keeps_writeDropped hP | apply hP.ite
    | simp only [hP.upd]
    | simp only [id_eq]
    | (extract_lets +onlyGivenNames x; refine (fun (hx : P x) => ?_) ?_; clear_value x; rotate_left; subst x; rotate_right)
    | (extract_lets +onlyGivenNames x; clear_value x)
    | (split; all_goals (rename_i heq; have e2 := congrArg Prod.snd heq; simp only at e2; subst e2))
    | split

theorem keeps_xltFault (r : Req) (cause : Nat) (h0 : P s) : P (State.xltFault s r cause) := by
  unfold State.xltFault
  repeat' with_reducible first | assumption | apply keeps_endAccess hP | apply keeps_xltCapture hP.regs

theorem keeps_unmapped (r : Req) (h0 : P s) : P (State.unmapped s r) := by
  unfold State.unmapped
  repeat' with_reducible first | assumption | apply keeps_endAccess hP

theorem keeps_grdCapture (r : Req) (g : GFail) (h0 : P s) : P (State.grdCapture s r g) := by
  unfold State.grdCapture
  repeat' with_reducible first
        | assumption | apply hP.set | apply keeps_count hP.regs | apply keeps_evt hP | apply hP.ite

theorem keeps_guardNotice (r : Req) (cause : Nat) (h0 : P s) : P (State.guardNotice s r cause) := by
  unfold State.guardNotice
  repeat' with_reducible first | assumption | apply keeps_count hP.regs | apply keeps_evq hP

theorem keeps_guardFault (r : Req) (g : GFail) (h0 : P s) : P (State.guardFault s r g) := by
  unfold State.guardFault
  repeat' first
    | with_reducible first
        | assumption | apply keeps_answer hP | apply keeps_count hP.regs | apply keeps_dbgRefuse hP.regs
        | apply keeps_evt hP | apply keeps_faultLog hP | apply keeps_grdCapture hP | apply keeps_guardNotice hP
        | apply keeps_hostTx hP.regs | apply keeps_send hP.regs
    | split

theorem keeps_mbxChange (m : Nat) (g : State → State) (h_g : ∀ s, P s → P (g s)) (h0 : P s) :
    P (State.mbxChange s m g) := by
  unfold State.mbxChange
  repeat' with_reducible first | assumption | apply keeps_withLevels hP

theorem keeps_mbxSignalFn (m : Nat) (h0 : P s) : P (State.mbxSignalFn s m) := by
  unfold State.mbxSignalFn
  repeat' first
    | with_reducible first | assumption | apply keeps_evq hP
    | split

theorem keeps_mbxPost (m : Nat) (h0 : P s) : P (State.mbxPost s m) := by
  unfold State.mbxPost
  repeat' first
    | with_reducible first
        | assumption | intro _ | apply hP.set | apply keeps_count hP.regs | apply keeps_countBank hP.regs
        | apply keeps_mbxChange hP | apply keeps_mbxErr hP.regs | apply keeps_st8 hP | apply hP.ite
    | simp only [hP.upd]

theorem keeps_mbxRelease (m : Nat) (h0 : P s) : P (State.mbxRelease s m) := by
  unfold State.mbxRelease
  repeat' with_reducible first
        | assumption | intro _ | apply hP.set | apply keeps_mbxChange hP | apply keeps_mbxErr hP.regs | apply hP.ite

theorem keeps_mctpPost (h0 : P s) : P (State.mctpPost s) := by
  unfold State.mctpPost
  repeat' first
    | with_reducible first | assumption | apply keeps_mbxPost hP | apply keeps_stBytes hP
    | simp only [hP.upd]
    | split

theorem keeps_mctpAnswer (h0 : P s) : P (State.mctpAnswer s) := by
  unfold State.mctpAnswer
  repeat' first
    | with_reducible first | assumption | apply keeps_mctpPost hP | apply keeps_send hP.regs
    | simp only [hP.upd]
    | split

theorem keeps_mbxFinish (m : Nat) (h0 : P s) : P (State.mbxFinish s m) := by
  unfold State.mbxFinish
  repeat' first
    | with_reducible first
        | assumption | intro _ | apply hP.set | apply keeps_mbxChange hP | apply keeps_mbxSignalFn hP
        | apply keeps_mctpAnswer hP | apply hP.ite
    | simp only [hP.upd]

theorem keeps_mbxCancel (m : Nat) (h0 : P s) : P (State.mbxCancel s m) := by
  unfold State.mbxCancel
  repeat' first
    | with_reducible first
        | assumption | intro _ | apply hP.set | apply keeps_countBank hP.regs | apply keeps_mbxChange hP
        | apply keeps_mbxErr hP.regs | apply keeps_mbxFinish hP | apply keeps_stBytes hP | apply hP.ite
    | simp only [hP.upd]

theorem keeps_mbxAct (m act : Nat) (owner : Bool) (h0 : P s) : P (State.mbxAct s m act owner) := by
  unfold State.mbxAct
  repeat' with_reducible first
        | assumption | apply keeps_mbxCancel hP | apply keeps_mbxErr hP.regs | apply keeps_mbxPost hP
        | apply keeps_mbxRelease hP | apply hP.ite

theorem keeps_mbxClaim (c : Nat) (h0 : P s) : P (State.mbxClaim s c).2 := by
  unfold State.mbxClaim
  repeat' first
    | with_reducible first | assumption | intro _ | apply hP.set | apply keeps_mbxChange hP
    | simp only [hP.upd]
    | split

theorem keeps_mbxDone (m : Nat) (h0 : P s) : P (State.mbxDone s m) := by
  unfold State.mbxDone
  repeat' with_reducible first | assumption | apply keeps_mbxErr hP.regs | apply keeps_mbxFinish hP | apply hP.ite

theorem keeps_mbxReset (m : Nat) (h : P s) : P (State.mbxReset s m) := by
  unfold State.mbxReset
  have h1 : P (s.mbxChange m fun s => State.set { s with mbxQueue := s.mbxQueue.erase m } .MBX_MB_CONTROL m 0) :=
    keeps_mbxChange hP _ _ (fun s hs => hP.set _ _ _ (by simp only [hP.upd]; exact hs)) h
  exact hP.keep (s := s.mbxChange m fun s => State.set { s with mbxQueue := s.mbxQueue.erase m } .MBX_MB_CONTROL m 0)
    (fun _ => true) _ _ (fun _ => true) (fun _ => true) rfl (smKeep_true _).symm rfl rfl (smKeep_true _).symm (smKeep_true _).symm h1

theorem keeps_mbxRinse (f : Nat) (h0 : P s) : P (State.mbxRinse s f) := by
  unfold State.mbxRinse
  repeat' first
    | with_reducible first
        | assumption | intro _ | apply hP.set | apply keeps_mbxChange hP | apply keeps_each | apply hP.ite
    | simp only [hP.upd]

theorem keeps_mbxRead (mst m off len : Nat) (e : MemErr) (h0 : P s) : P (State.mbxRead s mst m off len e).2.2 := by
  unfold State.mbxRead
  repeat' first
    | with_reducible first | assumption | apply keeps_mbxErr hP.regs | apply keeps_memRead hP
    | split

theorem keeps_mbxWrite (r : Req) (m off : Nat) (h0 : P s) : P (State.mbxWrite s r m off) := by
  unfold State.mbxWrite
  repeat' first
    | with_reducible first
        | assumption | intro _ | apply hP.set | apply keeps_count hP.regs | apply keeps_mbxAct hP
        | apply keeps_mbxErr hP.regs | apply keeps_memWrite hP | apply hP.ite
    | simp only [hP.upd]
    | simp only [id_eq]
    | (extract_lets +onlyGivenNames x; refine (fun (hx : P x) => ?_) ?_; clear_value x; rotate_left; subst x; rotate_right)
    | (extract_lets +onlyGivenNames x; clear_value x)
    | (split; all_goals (rename_i heq; have e2 := congrArg Prod.snd heq; simp only at e2; subst e2))
    | split

theorem keeps_cplVia (p : Nat) (r : Req) (st : Nat) (data : List Byte) (ep : Bool) (h0 : P s) :
    P (State.cplVia s p r st data ep) := by
  unfold State.cplVia
  repeat' with_reducible first | assumption | apply keeps_jSendTlp hP

theorem keeps_strictFail (r : Req) (p seq st : Nat) (h0 : P s) : P (State.strictFail s r p seq st) := by
  unfold State.strictFail
  repeat' first
    | with_reducible first
        | assumption | intro _ | apply keeps_aer hP | apply keeps_fnContain hP | apply keeps_groupDrop hP.regs
        | apply hP.ite
    | simp only [hP.upd]
    | simp only [id_eq]
    | (extract_lets +onlyGivenNames x; refine (fun (hx : P x) => ?_) ?_; clear_value x; rotate_left; subst x; rotate_right)
    | (extract_lets +onlyGivenNames x; clear_value x)
    | (split; all_goals (rename_i heq; have e2 := congrArg Prod.snd heq; simp only at e2; subst e2))
    | split

theorem keeps_finishRead (p : Nat) (r : Req) (st : Nat) (data : List Byte) (pois : List Nat) (h0 : P s) :
    P (State.finishRead s p r st data pois) := by
  unfold State.finishRead
  repeat' first
    | with_reducible first
        | assumption | intro _ | apply keeps_cplVia hP | apply keeps_finish hP | apply keeps_respond hP.regs
        | apply keeps_retire hP.regs | apply keeps_each
    | split

theorem keeps_groupPiece (p : Nat) (r : Req) (st : Nat) (data : List Byte) (pois : List Nat) (ret : Bool) (h0 : P s) :
    P (State.groupPiece s p r st data pois ret) := by
  unfold State.groupPiece
  repeat' first
    | with_reducible first
        | assumption | intro _ | apply keeps_evq hP | apply keeps_finish hP | apply keeps_finishRead hP
        | apply keeps_retire hP.regs | apply hP.ite
    | simp only [hP.upd]
    | simp only [id_eq]
    | (extract_lets +onlyGivenNames x; refine (fun (hx : P x) => ?_) ?_; clear_value x; rotate_left; subst x; rotate_right)
    | (extract_lets +onlyGivenNames x; clear_value x)
    | (split; all_goals (rename_i heq; have e2 := congrArg Prod.snd heq; simp only at e2; subst e2))
    | split

theorem keeps_ovfPut (e : LEnt) (h0 : P s) : P (State.ovfPut s e) := by
  unfold State.ovfPut
  repeat' with_reducible first | assumption | apply keeps_stBytes hP | apply hP.ite

theorem keeps_ovfOpen (e : LEnt) (h0 : P s) : P (State.ovfOpen s e) := by
  unfold State.ovfOpen
  repeat' first
    | with_reducible first | assumption | intro _ | apply keeps_ovfPut hP | apply keeps_stBytes hP | apply hP.ite
    | simp only [hP.upd]
    | simp only [id_eq]
    | (extract_lets +onlyGivenNames x; refine (fun (hx : P x) => ?_) ?_; clear_value x; rotate_left; subst x; rotate_right)
    | (extract_lets +onlyGivenNames x; clear_value x)
    | (split; all_goals (rename_i heq; have e2 := congrArg Prod.snd heq; simp only at e2; subst e2))
    | split

theorem keeps_setEnt (e : LEnt) (h0 : P s) : P (State.setEnt s e) := by
  unfold State.setEnt
  repeat' first
    | with_reducible first | assumption | intro _ | apply keeps_ovfPut hP
    | simp only [hP.upd]
    | simp only [id_eq]
    | (extract_lets +onlyGivenNames x; refine (fun (hx : P x) => ?_) ?_; clear_value x; rotate_left; subst x; rotate_right)
    | (extract_lets +onlyGivenNames x; clear_value x)
    | (split; all_goals (rename_i heq; have e2 := congrArg Prod.snd heq; simp only at e2; subst e2))
    | split

theorem keeps_abandonedErr (p init seq st : Nat) (r : Req) (h0 : P s) : P (State.abandonedErr s p init seq st r) := by
  unfold State.abandonedErr
  repeat' with_reducible first | assumption | apply keeps_faultLog hP

theorem keeps_lateError (h : Hist) (st : Nat) (h0 : P s) : P (State.lateError s h st) := by
  unfold State.lateError
  repeat' first
    | with_reducible first
        | assumption | intro _ | apply keeps_abandonedErr hP | apply keeps_count hP.regs | apply keeps_evq hP
        | apply keeps_strictFail hP | apply hP.ite
    | simp only [hP.upd]
    | simp only [id_eq]
    | (extract_lets +onlyGivenNames x; refine (fun (hx : P x) => ?_) ?_; clear_value x; rotate_left; subst x; rotate_right)
    | (extract_lets +onlyGivenNames x; clear_value x)
    | (split; all_goals (rename_i heq; have e2 := congrArg Prod.snd heq; simp only at e2; subst e2))
    | split

theorem keeps_lateMiss (p init seq st : Nat) (h0 : P s) : P (State.lateMiss s p init seq st) := by
  unfold State.lateMiss
  repeat' first
    | with_reducible first | assumption | intro _ | apply keeps_count hP.regs | apply keeps_faultLog hP
    | simp only [hP.upd]
    | simp only [id_eq]
    | (extract_lets +onlyGivenNames x; refine (fun (hx : P x) => ?_) ?_; clear_value x; rotate_left; subst x; rotate_right)
    | (extract_lets +onlyGivenNames x; clear_value x)
    | (split; all_goals (rename_i heq; have e2 := congrArg Prod.snd heq; simp only at e2; subst e2))
    | split

theorem keeps_lateSettle (e : LEnt) (h0 : P s) : P (State.lateSettle s e) := by
  unfold State.lateSettle
  repeat' first
    | with_reducible first
        | assumption | intro _ | apply keeps_lateError hP | apply keeps_lateMiss hP | apply keeps_each | apply hP.ite
    | simp only [hP.upd]
    | simp only [id_eq]
    | (extract_lets +onlyGivenNames x; refine (fun (hx : P x) => ?_) ?_; clear_value x; rotate_left; subst x; rotate_right)
    | (extract_lets +onlyGivenNames x; clear_value x)
    | (split; all_goals (rename_i heq; have e2 := congrArg Prod.snd heq; simp only at e2; subst e2))
    | split

theorem keeps_entReply (e : LEnt) (h0 : P s) : P (State.entReply s e) := by
  unfold State.entReply
  repeat' first
    | with_reducible first
        | assumption | intro _ | apply keeps_dropLock hP.regs | apply keeps_evq hP | apply keeps_finish hP
        | apply keeps_finishRead hP | apply keeps_groupPiece hP | apply keeps_retire hP.regs | apply hP.ite
    | dsimp only
    | simp only [id_eq]
    | (extract_lets +onlyGivenNames x; refine (fun (hx : P x) => ?_) ?_; clear_value x; rotate_left; subst x; rotate_right)
    | (extract_lets +onlyGivenNames x; clear_value x)
    | (split; all_goals (rename_i heq; have e2 := congrArg Prod.snd heq; simp only at e2; subst e2))
    | split

theorem keeps_retireEnt (e : LEnt) (h0 : P s) : P (State.retireEnt s e) := by
  unfold State.retireEnt
  repeat' first
    | with_reducible first
        | assumption | intro _ | apply keeps_entReply hP | apply keeps_histAdd hP.regs | apply keeps_lateSettle hP
        | apply keeps_mirror hP.regs
    | simp only [hP.upd]
    | simp only [id_eq]
    | (extract_lets +onlyGivenNames x; refine (fun (hx : P x) => ?_) ?_; clear_value x; rotate_left; subst x; rotate_right)
    | (extract_lets +onlyGivenNames x; clear_value x)
    | (split; all_goals (rename_i heq; have e2 := congrArg Prod.snd heq; simp only at e2; subst e2))
    | split

theorem keeps_tryRetire (e : LEnt) (h0 : P s) : P (State.tryRetire s e) := by
  unfold State.tryRetire
  repeat' with_reducible first | assumption | apply keeps_retireEnt hP | apply hP.ite

theorem keeps_ledgerFail (e : LEnt) (st : Nat) (h0 : P s) : P (State.ledgerFail s e st) := by
  unfold State.ledgerFail
  repeat' first
    | with_reducible first
        | assumption | intro _ | apply keeps_abandonedErr hP | apply keeps_count hP.regs | apply keeps_deliveryFail hP
        | apply keeps_evq hP | apply keeps_strictFail hP | apply hP.ite
    | simp only [hP.upd]
    | simp only [id_eq]
    | (extract_lets +onlyGivenNames x; refine (fun (hx : P x) => ?_) ?_; clear_value x; rotate_left; subst x; rotate_right)
    | (extract_lets +onlyGivenNames x; clear_value x)
    | (split; all_goals (rename_i heq; have e2 := congrArg Prod.snd heq; simp only at e2; subst e2))
    | split

theorem keeps_ledgerAnswer (e : LEnt) (st : Nat) (h0 : P s) : P (State.ledgerAnswer s e st) := by
  unfold State.ledgerAnswer
  repeat' first
    | with_reducible first
        | assumption | apply keeps_answer hP | apply keeps_count hP.regs | apply keeps_ledgerFail hP
        | apply keeps_setEnt hP | apply keeps_tryRetire hP
    | split

theorem keeps_ledgerResponse (e : LEnt) (st : Nat) (h0 : P s) : P (State.ledgerResponse s e st) := by
  unfold State.ledgerResponse
  repeat' with_reducible first | assumption | apply keeps_ledgerAnswer hP | apply keeps_setEnt hP | apply hP.ite

theorem keeps_readForward (r : PRead) (h0 : P s) : P (State.readForward s r) := by
  unfold State.readForward
  repeat' first
    | with_reducible first
        | assumption | intro _ | apply keeps_cplVia hP | apply keeps_respond hP.regs | apply keeps_setPRead hP.regs
        | apply keeps_each | apply hP.ite
    | split

theorem keeps_portReadEnd (r : PRead) (st : Nat) (final : Bool) (h0 : P s) : P (State.portReadEnd s r st final) := by
  unfold State.portReadEnd
  repeat' first
    | with_reducible first
        | assumption | intro _ | apply keeps_count hP.regs | apply keeps_cplVia hP | apply keeps_dropLock hP.regs
        | apply keeps_dropPRead hP.regs | apply keeps_emulWrite hP.regs | apply keeps_evq hP
        | apply keeps_fillLines hP.regs | apply keeps_finish hP | apply keeps_finishRead hP | apply keeps_groupPiece hP
        | apply keeps_respond hP.regs | apply keeps_retire hP.regs | apply keeps_each | apply hP.ite
    | simp only [hP.upd]
    | simp only [id_eq]
    | (extract_lets +onlyGivenNames x; refine (fun (hx : P x) => ?_) ?_; clear_value x; rotate_left; subst x; rotate_right)
    | (extract_lets +onlyGivenNames x; clear_value x)
    | (split; all_goals (rename_i heq; have e2 := congrArg Prod.snd heq; simp only at e2; subst e2))
    | split

theorem keeps_hostWrite (r : Req) (port : Nat) (h0 : P s) : P (State.hostWrite s r port) := by
  unfold State.hostWrite
  repeat' with_reducible first | assumption | intro _ | apply keeps_jSend hP | apply keeps_each

theorem keeps_hostReadFail (r : Req) (st : Nat) (h0 : P s) : P (State.hostReadFail s r st) := by
  unfold State.hostReadFail
  repeat' first
    | with_reducible first
        | assumption | intro _ | apply keeps_finish hP | apply keeps_respond hP.regs | apply keeps_retire hP.regs
    | simp only [hP.upd]
    | simp only [id_eq]
    | (extract_lets +onlyGivenNames x; refine (fun (hx : P x) => ?_) ?_; clear_value x; rotate_left; subst x; rotate_right)
    | (extract_lets +onlyGivenNames x; clear_value x)
    | (split; all_goals (rename_i heq; have e2 := congrArg Prod.snd heq; simp only at e2; subst e2))
    | split

theorem keeps_hostProgress (h : HRead) (h0 : P s) : P (State.hostProgress s h) := by
  unfold State.hostProgress
  repeat' first
    | with_reducible first
        | assumption | intro _ | apply hP.st | apply keeps_finish hP | apply keeps_freeLock hP.regs
        | apply keeps_hostResp hP.regs | apply keeps_setHRead hP.regs | apply hP.ite
    | simp only [hP.upd]
    | simp only [id_eq]
    | (extract_lets +onlyGivenNames x; refine (fun (hx : P x) => ?_) ?_; clear_value x; rotate_left; subst x; rotate_right)
    | (extract_lets +onlyGivenNames x; clear_value x)
    | (split; all_goals (rename_i heq; have e2 := congrArg Prod.snd heq; simp only at e2; subst e2))
    | split

theorem keeps_hostData (b : BTag) (status : Nat) (data : List Byte) (ep : Bool) (h0 : P s) :
    P (State.hostData s b status data ep) := by
  unfold State.hostData
  repeat' first
    | with_reducible first | assumption | intro _ | apply keeps_hostProgress hP | apply hP.ite
    | simp only [hP.upd]
    | simp only [id_eq]
    | (extract_lets +onlyGivenNames x; refine (fun (hx : P x) => ?_) ?_; clear_value x; rotate_left; subst x; rotate_right)
    | (extract_lets +onlyGivenNames x; clear_value x)
    | (split; all_goals (rename_i heq; have e2 := congrArg Prod.snd heq; simp only at e2; subst e2))
    | split

theorem keeps_hostFail (h : HRead) (st : Nat) (h0 : P s) : P (State.hostFail s h st) := by
  unfold State.hostFail
  repeat' first
    | with_reducible first
        | assumption | intro _ | apply keeps_finish hP | apply keeps_freeLock hP.regs | apply keeps_respond hP.regs
        | apply keeps_retire hP.regs
    | simp only [hP.upd]
    | simp only [id_eq]
    | (extract_lets +onlyGivenNames x; refine (fun (hx : P x) => ?_) ?_; clear_value x; rotate_left; subst x; rotate_right)
    | (extract_lets +onlyGivenNames x; clear_value x)
    | (split; all_goals (rename_i heq; have e2 := congrArg Prod.snd heq; simp only at e2; subst e2))
    | split

theorem keeps_hostEnd (rid st : Nat) (h0 : P s) : P (State.hostEnd s rid st) := by
  unfold State.hostEnd
  repeat' first
    | with_reducible first | assumption | intro _ | apply keeps_hostFail hP
    | simp only [hP.upd]
    | simp only [id_eq]
    | (extract_lets +onlyGivenNames x; refine (fun (hx : P x) => ?_) ?_; clear_value x; rotate_left; subst x; rotate_right)
    | (extract_lets +onlyGivenNames x; clear_value x)
    | (split; all_goals (rename_i heq; have e2 := congrArg Prod.snd heq; simp only at e2; subst e2))
    | split

theorem keeps_holdTags (p : Nat → Bool) (down : Bool) (h0 : P s) : P (State.holdTags s p down) := by
  unfold State.holdTags
  repeat' first
    | with_reducible first
        | assumption | intro _ | apply hP.st | apply keeps_freeLock hP.regs | apply keeps_hostFail hP
        | apply keeps_hostReadFail hP | apply keeps_each | apply hP.ite
    | simp only [hP.upd]
    | simp only [id_eq]
    | (extract_lets +onlyGivenNames x; refine (fun (hx : P x) => ?_) ?_; clear_value x; rotate_left; subst x; rotate_right)
    | (extract_lets +onlyGivenNames x; clear_value x)
    | (split; all_goals (rename_i heq; have e2 := congrArg Prod.snd heq; simp only at e2; subst e2))
    | split

theorem keeps_dbAssert (i : Nat) (h0 : P s) : P (State.dbAssert s i) := by
  unfold State.dbAssert
  repeat' first
    | with_reducible first | assumption | apply keeps_raise hP
    | simp only [hP.upd]

theorem keeps_dbDeassert (i : Nat) (h0 : P s) : P (State.dbDeassert s i) := by
  unfold State.dbDeassert
  repeat' first
    | with_reducible first | assumption | apply keeps_levelFall hP | apply hP.ite
    | simp only [hP.upd]

theorem keeps_doorbell (w : Who) (v : Nat) (h0 : P s) : P (State.doorbell s w v).2 := by
  unfold State.doorbell
  repeat' first
    | with_reducible first
        | assumption | apply hP.set | apply keeps_count hP.regs | apply keeps_dbAssert hP | apply keeps_dbDeassert hP
    | simp only [hP.upd]
    | split

theorem keeps_finishMem (r : Req) (data : List Byte) (pois : List Nat) (h0 : P s) :
    P (State.finishMem s r data pois) := by
  unfold State.finishMem
  repeat' first
    | with_reducible first
        | assumption | intro _ | apply keeps_finish hP | apply keeps_hostTx hP.regs | apply keeps_respond hP.regs
        | apply keeps_retire hP.regs | apply keeps_each
    | split

theorem keeps_readMem (r : Req) (h0 : P s) : P (State.readMem s r) := by
  unfold State.readMem
  repeat' first
    | with_reducible first | assumption | apply keeps_finishMem hP | apply keeps_mbxRead hP | apply keeps_memRead hP
    | split

theorem keeps_writeMem (r : Req) (h0 : P s) : P (State.writeMem s r) := by
  unfold State.writeMem
  repeat' first
    | with_reducible first
        | assumption | intro _ | apply keeps_aliasWrite hP | apply keeps_countProt hP | apply keeps_dropLines hP.regs
        | apply keeps_endAccess hP | apply keeps_finish hP | apply keeps_mbxWrite hP | apply keeps_memWrite hP
        | apply keeps_retire hP.regs | apply hP.ite
    | simp only [hP.upd]
    | simp only [id_eq]
    | (extract_lets +onlyGivenNames x; refine (fun (hx : P x) => ?_) ?_; clear_value x; rotate_left; subst x; rotate_right)
    | (extract_lets +onlyGivenNames x; clear_value x)
    | (split; all_goals (rename_i heq; have e2 := congrArg Prod.snd heq; simp only at e2; subst e2))
    | split

theorem keeps_atomicMem (r : Req) (op : AtomOp) (h0 : P s) : P (State.atomicMem s r op) := by
  unfold State.atomicMem
  repeat' first
    | with_reducible first
        | assumption | intro _ | apply keeps_countProt hP | apply keeps_endAccess hP | apply keeps_finish hP
        | apply keeps_mbxErr hP.regs | apply keeps_mbxRead hP | apply keeps_mbxWrite hP | apply keeps_memRead hP
        | apply keeps_memWrite hP | apply keeps_retire hP.regs | apply hP.ite
    | dsimp only
    | simp only [id_eq]
    | (extract_lets +onlyGivenNames x; refine (fun (hx : P x) => ?_) ?_; clear_value x; rotate_left; subst x; rotate_right)
    | (extract_lets +onlyGivenNames x; clear_value x)
    | (split; all_goals (rename_i heq; have e2 := congrArg Prod.snd heq; simp only at e2; subst e2))
    | split

theorem keeps_readPort (p : Nat) (r : Req) (h0 : P s) : P (State.readPort s p r) := by
  unfold State.readPort
  repeat' first
    | with_reducible first
        | assumption | apply keeps_count hP.regs | apply keeps_finishMem hP | apply keeps_queueRead hP.regs
        | apply keeps_touchLines hP.regs
    | simp only [hP.upd]
    | split

theorem keeps_writePort (p : Nat) (r : Req) (h0 : P s) : P (State.writePort s p r) := by
  unfold State.writePort
  repeat' first
    | with_reducible first
        | assumption | intro _ | apply keeps_count hP.regs | apply keeps_dropOver hP.regs | apply keeps_finish hP
        | apply keeps_openGroup hP.regs | apply hP.ite
    | simp only [hP.upd]
    | simp only [id_eq]
    | (extract_lets +onlyGivenNames x; refine (fun (hx : P x) => ?_) ?_; clear_value x; rotate_left; subst x; rotate_right)
    | (extract_lets +onlyGivenNames x; clear_value x)
    | (split; all_goals (rename_i heq; have e2 := congrArg Prod.snd heq; simp only at e2; subst e2))
    | split

theorem keeps_issueAtomic (r : Req) (h0 : P s) : P (State.issueAtomic s r) := by
  unfold State.issueAtomic
  repeat' first
    | with_reducible first
        | assumption | apply keeps_atomicMem hP | apply keeps_bskQueue hP.regs | apply keeps_dropLock hP.regs
        | apply keeps_finish hP
    | simp only [hP.upd]
    | split

theorem keeps_grant (r : Req) (h0 : P s) : P (State.grant s r) := by
  unfold State.grant
  repeat' first
    | with_reducible first
        | assumption | intro _ | apply keeps_finish hP | apply keeps_issueAtomic hP | apply keeps_takeLock hP.regs
        | apply hP.ite
    | simp only [hP.upd]
    | simp only [id_eq]
    | (extract_lets +onlyGivenNames x; refine (fun (hx : P x) => ?_) ?_; clear_value x; rotate_left; subst x; rotate_right)
    | (extract_lets +onlyGivenNames x; clear_value x)
    | (split; all_goals (rename_i heq; have e2 := congrArg Prod.snd heq; simp only at e2; subst e2))
    | split

theorem keeps_starch (r : Req) (h0 : P s) : P (State.starch s r) := by
  unfold State.starch
  repeat' first
    | with_reducible first
        | assumption | intro _ | apply hP.set | apply keeps_finish hP | apply keeps_grant hP | apply hP.ite
    | simp only [hP.upd]
    | simp only [id_eq]
    | (extract_lets +onlyGivenNames x; refine (fun (hx : P x) => ?_) ?_; clear_value x; rotate_left; subst x; rotate_right)
    | (extract_lets +onlyGivenNames x; clear_value x)
    | (split; all_goals (rename_i heq; have e2 := congrArg Prod.snd heq; simp only at e2; subst e2))
    | split

theorem keeps_atomicAt (r : Req) (h0 : P s) : P (State.atomicAt s r) := by
  unfold State.atomicAt
  repeat' first
    | with_reducible first
        | assumption | intro _ | apply keeps_dropOver hP.regs | apply keeps_starch hP | apply hP.ite
    | simp only [hP.upd]
    | simp only [id_eq]
    | (extract_lets +onlyGivenNames x; refine (fun (hx : P x) => ?_) ?_; clear_value x; rotate_left; subst x; rotate_right)
    | (extract_lets +onlyGivenNames x; clear_value x)
    | (split; all_goals (rename_i heq; have e2 := congrArg Prod.snd heq; simp only at e2; subst e2))
    | split

theorem keeps_toHostAt (r : Req) (h0 : P s) : P (State.toHostAt s r) := by
  unfold State.toHostAt
  repeat' first
    | with_reducible first
        | assumption | apply keeps_bskQueue hP.regs | apply keeps_hostReadFail hP | apply keeps_hostWrite hP
        | apply keeps_starch hP
    | split

theorem keeps_deliverFree (r : Req) (h0 : P s) : P (State.deliverFree s r) := by
  unfold State.deliverFree
  repeat' first
    | with_reducible first
        | assumption | intro _ | apply keeps_atomicAt hP | apply keeps_doorbell hP | apply keeps_endAccess hP
        | apply keeps_finish hP | apply keeps_offAccess hP.regs | apply keeps_readMem hP | apply keeps_readPort hP
        | apply keeps_retire hP.regs | apply keeps_toHostAt hP | apply keeps_unmapped hP | apply keeps_writeMem hP
        | apply keeps_writePort hP | apply hP.ite
    | simp only [hP.upd]
    | simp only [id_eq]
    | (extract_lets +onlyGivenNames x; refine (fun (hx : P x) => ?_) ?_; clear_value x; rotate_left; subst x; rotate_right)
    | (extract_lets +onlyGivenNames x; clear_value x)
    | (split; all_goals (rename_i heq; have e2 := congrArg Prod.snd heq; simp only at e2; subst e2))
    | split

theorem keeps_deliverMem (r : Req) (h0 : P s) : P (State.deliverMem s r) := by
  unfold State.deliverMem
  repeat' first
    | with_reducible first | assumption | intro _ | apply keeps_deliverFree hP | apply hP.ite
    | simp only [hP.upd]
    | simp only [id_eq]
    | (extract_lets +onlyGivenNames x; refine (fun (hx : P x) => ?_) ?_; clear_value x; rotate_left; subst x; rotate_right)
    | (extract_lets +onlyGivenNames x; clear_value x)
    | (split; all_goals (rename_i heq; have e2 := congrArg Prod.snd heq; simp only at e2; subst e2))
    | split

theorem keeps_starchSettle (h0 : P s) : P (State.starchSettle s) := by
  unfold State.starchSettle
  repeat' first
    | with_reducible first
        | assumption | intro _ | apply keeps_deliverFree hP | apply keeps_jFlush hP | apply keeps_each
    | simp only [hP.upd]
    | simp only [id_eq]
    | (extract_lets +onlyGivenNames x; refine (fun (hx : P x) => ?_) ?_; clear_value x; rotate_left; subst x; rotate_right)
    | (extract_lets +onlyGivenNames x; clear_value x)
    | (split; all_goals (rename_i heq; have e2 := congrArg Prod.snd heq; simp only at e2; subst e2))
    | split

theorem keeps_stageChecked (del : State → Req → State) (q : Req) (h_del : ∀ s r, P s → P (del s r)) (h0 : P s) :
    P (State.stageChecked del s q) := by
  unfold State.stageChecked
  repeat' first
    | with_reducible first
        | assumption | intro _ | apply h_del | apply keeps_guardFault hP | apply keeps_retire hP.regs
        | apply keeps_unmapped hP | apply hP.ite
    | simp only [hP.upd]
    | simp only [id_eq]
    | (extract_lets +onlyGivenNames x; refine (fun (hx : P x) => ?_) ?_; clear_value x; rotate_left; subst x; rotate_right)
    | (extract_lets +onlyGivenNames x; clear_value x)
    | (split; all_goals (rename_i heq; have e2 := congrArg Prod.snd heq; simp only at e2; subst e2))
    | split

theorem keeps_stage (del : State → Req → State) (r : Req) (h_del : ∀ s r, P s → P (del s r)) (h0 : P s) :
    P (State.stage del s r) := by
  unfold State.stage
  repeat' first
    | with_reducible first
        | assumption | apply keeps_count hP.regs | apply keeps_lookup hP | apply keeps_missOn hP.regs
        | apply keeps_retire hP.regs | apply keeps_stageChecked hP | apply keeps_stamp hP.regs | apply keeps_xltFault hP
    | (split; all_goals (rename_i heq; have e2 := congrArg Prod.snd heq; simp only at e2; subst e2))
    | split

theorem keeps_stageMem (r : Req) (h0 : P s) : P (State.stageMem s r) := by
  unfold State.stageMem
  repeat' with_reducible first | assumption | intro _ | apply keeps_deliverMem hP | apply keeps_stage hP

theorem keeps_walkServe (del : State → Req → State) (bad : List Nat) (r : Req) (h_del : ∀ s r, P s → P (del s r)) (h0 : P s) :
    P (State.walkServe del bad s r) := by
  unfold State.walkServe
  repeat' first
    | with_reducible first
        | assumption | intro _ | apply h_del | apply keeps_install hP.regs | apply keeps_retire hP.regs
        | apply keeps_stageChecked hP | apply keeps_useWin hP | apply keeps_xltFault hP | apply hP.ite
    | dsimp only
    | simp only [id_eq]
    | (extract_lets +onlyGivenNames x; refine (fun (hx : P x) => ?_) ?_; clear_value x; rotate_left; subst x; rotate_right)
    | (extract_lets +onlyGivenNames x; clear_value x)
    | (split; all_goals (rename_i heq; have e2 := congrArg Prod.snd heq; simp only at e2; subst e2))
    | split

theorem keeps_walkErrors (bad : List Nat) (h0 : P s) : P (State.walkErrors s bad) := by
  unfold State.walkErrors
  repeat' with_reducible first | assumption | intro _ | apply keeps_memResolve hP | apply keeps_each | apply hP.ite

theorem keeps_walkDone (del : State → Req → State) (tbl : Nat) (bad : List Nat) (h_del : ∀ s r, P s → P (del s r)) (h0 : P s) :
    P (State.walkDone del s tbl bad) := by
  unfold State.walkDone
  repeat' first
    | with_reducible first
        | assumption | intro _ | apply h_del | apply keeps_faultLog hP | apply keeps_walkErrors hP
        | apply keeps_walkServe hP | apply keeps_each | apply hP.ite
    | simp only [hP.upd]
    | simp only [id_eq]
    | (extract_lets +onlyGivenNames x; refine (fun (hx : P x) => ?_) ?_; clear_value x; rotate_left; subst x; rotate_right)
    | (extract_lets +onlyGivenNames x; clear_value x)
    | (split; all_goals (rename_i heq; have e2 := congrArg Prod.snd heq; simp only at e2; subst e2))
    | split

theorem keeps_bskCut (h : HRead) (h0 : P s) : P (State.bskCut s h) := by
  unfold State.bskCut
  repeat' with_reducible first | assumption | apply keeps_hostProgress hP

theorem keeps_bskIssue (h0 : P s) : P (State.bskIssue s) := by
  unfold State.bskIssue
  repeat' first
    | with_reducible first
        | assumption | intro _ | apply keeps_bskCut hP | apply keeps_bskTake hP.regs | apply keeps_freeLock hP.regs
        | apply keeps_govCharge hP.regs | apply keeps_hostReadFail hP | apply keeps_issuePieces hP.regs | apply hP.ite
    | simp only [hP.upd]
    | simp only [id_eq]
    | (extract_lets +onlyGivenNames x; refine (fun (hx : P x) => ?_) ?_; clear_value x; rotate_left; subst x; rotate_right)
    | (extract_lets +onlyGivenNames x; clear_value x)
    | (split; all_goals (rename_i heq; have e2 := congrArg Prod.snd heq; simp only at e2; subst e2))
    | split

theorem keeps_burstSend (leave : Req → Bool) (h0 : P s) : P (State.burstSend s leave) := by
  unfold State.burstSend
  repeat' first
    | with_reducible first | assumption | intro _ | apply keeps_deliverMem hP | apply keeps_each
    | simp only [hP.upd]
    | simp only [id_eq]
    | (extract_lets +onlyGivenNames x; refine (fun (hx : P x) => ?_) ?_; clear_value x; rotate_left; subst x; rotate_right)
    | (extract_lets +onlyGivenNames x; clear_value x)
    | (split; all_goals (rename_i heq; have e2 := congrArg Prod.snd heq; simp only at e2; subst e2))
    | split

theorem keeps_ctxIrq (x cqSlot : Nat) (irq : Bool) (h0 : P s) : P (State.ctxIrq s x cqSlot irq) := by
  unfold State.ctxIrq
  repeat' first
    | with_reducible first | assumption | intro _ | apply keeps_raise hP | apply hP.ite
    | simp only [hP.upd]
    | simp only [id_eq]
    | (extract_lets +onlyGivenNames x; refine (fun (hx : P x) => ?_) ?_; clear_value x; rotate_left; subst x; rotate_right)
    | (extract_lets +onlyGivenNames x; clear_value x)
    | (split; all_goals (rename_i heq; have e2 := congrArg Prod.snd heq; simp only at e2; subst e2))
    | split

theorem keeps_deliverRec (q : Req) (h0 : P s) : P (State.deliverRec s q) := by
  unfold State.deliverRec
  repeat' first
    | with_reducible first | assumption | apply keeps_ctxIrq hP | apply keeps_deliverMem hP | apply keeps_raise hP
    | split

theorem keeps_deliverDma (q : Req) (h0 : P s) : P (State.deliverDma s q) := by
  unfold State.deliverDma
  repeat' first
    | with_reducible first
        | assumption | intro _ | apply keeps_burstSend hP | apply keeps_deliverMem hP | apply keeps_deliverRec hP
        | apply keeps_retire hP.regs | apply hP.ite
    | simp only [hP.upd]
    | simp only [id_eq]
    | (extract_lets +onlyGivenNames x; refine (fun (hx : P x) => ?_) ?_; clear_value x; rotate_left; subst x; rotate_right)
    | (extract_lets +onlyGivenNames x; clear_value x)
    | (split; all_goals (rename_i heq; have e2 := congrArg Prod.snd heq; simp only at e2; subst e2))
    | split

theorem keeps_dmaSend (r : Req) (h0 : P s) : P (State.dmaSend s r) := by
  unfold State.dmaSend
  repeat' first
    | with_reducible first
        | assumption | intro _ | apply keeps_deliverDma hP | apply keeps_govCharge hP.regs | apply keeps_stage hP
    | split

theorem keeps_recWrite (ch owner : Nat) (slice : Option Nat) (space a : Nat) (data : List Byte) (irq : Bool) (n : Nat) (h0 : P s) :
    P (State.recWrite s ch owner slice space a data irq n) := by
  unfold State.recWrite
  repeat' with_reducible first | assumption | apply keeps_dmaSend hP

theorem keeps_cqIssue (x cqSlot : Nat) (data : List Byte) (irq : Bool) (h0 : P s) :
    P (State.cqIssue s x cqSlot data irq) := by
  unfold State.cqIssue
  repeat' first
    | with_reducible first | assumption | intro _ | apply keeps_recWrite hP
    | simp only [hP.upd]
    | simp only [id_eq]
    | (extract_lets +onlyGivenNames x; refine (fun (hx : P x) => ?_) ?_; clear_value x; rotate_left; subst x; rotate_right)
    | (extract_lets +onlyGivenNames x; clear_value x)
    | (split; all_goals (rename_i heq; have e2 := congrArg Prod.snd heq; simp only at e2; subst e2))
    | split

theorem keeps_cqAppend (x slot status flags user residue c errOff : Nat) (irq : Bool) (h0 : P s) :
    P (State.cqAppend s x slot status flags user residue c errOff irq) := by
  unfold State.cqAppend
  repeat' first
    | with_reducible first
        | assumption | intro _ | apply hP.set | apply keeps_cqIssue hP | apply keeps_mirror hP.regs | apply hP.ite
    | simp only [hP.upd]
    | simp only [id_eq]
    | (extract_lets +onlyGivenNames x; refine (fun (hx : P x) => ?_) ?_; clear_value x; rotate_left; subst x; rotate_right)
    | (extract_lets +onlyGivenNames x; clear_value x)
    | (split; all_goals (rename_i heq; have e2 := congrArg Prod.snd heq; simp only at e2; subst e2))
    | split

theorem keeps_chRecord (c : Nat) (r : ChRun) (h0 : P s) : P (State.chRecord s c r) := by
  unfold State.chRecord
  repeat' first
    | with_reducible first
        | assumption | intro _ | apply hP.set | apply keeps_cqAppend hP | apply keeps_dropChan hP.regs
        | apply keeps_raise hP | apply keeps_recWrite hP | apply keeps_setRing hP.regs | apply keeps_sqSettle hP.regs
        | apply hP.ite
    | dsimp only
    | simp only [id_eq]
    | (extract_lets +onlyGivenNames x; refine (fun (hx : P x) => ?_) ?_; clear_value x; rotate_left; subst x; rotate_right)
    | (extract_lets +onlyGivenNames x; clear_value x)
    | (split; all_goals (rename_i heq; have e2 := congrArg Prod.snd heq; simp only at e2; subst e2))
    | split

theorem keeps_chEnd (c : Nat) (r : ChRun) (st errOff : Nat) (h0 : P s) : P (State.chEnd s c r st errOff) := by
  unfold State.chEnd
  repeat' first
    | with_reducible first
        | assumption | intro _ | apply hP.set | apply keeps_chRecord hP | apply keeps_chReset hP.regs
        | apply keeps_count hP.regs | apply keeps_setChan hP.regs | apply keeps_setRing hP.regs | apply hP.ite
    | simp only [hP.upd]
    | simp only [id_eq]
    | (extract_lets +onlyGivenNames x; refine (fun (hx : P x) => ?_) ?_; clear_value x; rotate_left; subst x; rotate_right)
    | (extract_lets +onlyGivenNames x; clear_value x)
    | (split; all_goals (rename_i heq; have e2 := congrArg Prod.snd heq; simp only at e2; subst e2))
    | split

theorem keeps_chAdvance (c : Nat) (r : ChRun) (h0 : P s) : P (State.chAdvance s c r) := by
  unfold State.chAdvance
  repeat' first
    | with_reducible first
        | assumption | intro _ | apply hP.set | apply hP.st | apply keeps_setChan hP.regs | apply keeps_setPort hP.regs
        | apply keeps_when | apply hP.ite
    | simp only [hP.upd]
    | simp only [id_eq]
    | (extract_lets +onlyGivenNames x; refine (fun (hx : P x) => ?_) ?_; clear_value x; rotate_left; subst x; rotate_right)
    | (extract_lets +onlyGivenNames x; clear_value x)
    | (split; all_goals (rename_i heq; have e2 := congrArg Prod.snd heq; simp only at e2; subst e2))
    | split

theorem keeps_chFinish (c : Nat) (h0 : P s) : P (State.chFinish s c) := by
  unfold State.chFinish
  repeat' first
    | with_reducible first | assumption | apply keeps_chEnd hP
    | split

theorem keeps_chStopEnd (c : Nat) (h0 : P s) : P (State.chStopEnd s c) := by
  unfold State.chStopEnd
  repeat' first
    | with_reducible first | assumption | apply keeps_chEnd hP
    | split

theorem keeps_beatFail (c : Nat) (r : ChRun) (b : Beat) (st : Nat) (h0 : P s) : P (State.beatFail s c r b st) := by
  unfold State.beatFail
  repeat' with_reducible first | assumption | apply hP.set | apply keeps_setChan hP.regs | apply hP.ite

theorem keeps_readResult (c : Nat) (e : BeatDone) (h0 : P s) : P (State.readResult s c e) := by
  unfold State.readResult
  repeat' first
    | with_reducible first
        | assumption | intro _ | apply keeps_beatFail hP | apply keeps_setChan hP.regs | apply keeps_each | apply hP.ite
    | split

theorem keeps_writeResult (c : Nat) (e : BeatDone) (h0 : P s) : P (State.writeResult s c e) := by
  unfold State.writeResult
  repeat' first
    | with_reducible first
        | assumption | intro _ | apply keeps_beatFail hP | apply keeps_setChan hP.regs | apply keeps_each
    | split

theorem keeps_chSettle (c : Nat) (h0 : P s) : P (State.chSettle s c) := by
  unfold State.chSettle
  repeat' first
    | with_reducible first | assumption | apply keeps_chAdvance hP | apply keeps_chFinish hP
    | split

theorem keeps_chStart (c : Nat) (ctx : Option Nat) (slot : Nat) (w : List Nat) (owner : Nat) (slice : Option Nat) (h0 : P s) :
    P (State.chStart s c ctx slot w owner slice) := by
  unfold State.chStart
  repeat' first
    | with_reducible first
        | assumption | apply hP.set | apply keeps_chEnd hP | apply keeps_chFinish hP | apply keeps_setChan hP.regs
    | split

theorem keeps_issueSource (c : Nat) (r : ChRun) (err : MemErr) (h0 : P s) : P (State.issueSource s c r err) := by
  unfold State.issueSource
  repeat' first
    | with_reducible first
        | assumption | intro _ | apply hP.set | apply keeps_dmaSend hP | apply keeps_setChan hP.regs | apply hP.ite
    | simp only [hP.upd]
    | simp only [id_eq]
    | (extract_lets +onlyGivenNames x; refine (fun (hx : P x) => ?_) ?_; clear_value x; rotate_left; subst x; rotate_right)
    | (extract_lets +onlyGivenNames x; clear_value x)
    | (split; all_goals (rename_i heq; have e2 := congrArg Prod.snd heq; simp only at e2; subst e2))
    | split

theorem keeps_issueWrite (c : Nat) (err : MemErr) (h0 : P s) : P (State.issueWrite s c err) := by
  unfold State.issueWrite
  repeat' first
    | with_reducible first
        | assumption | intro _ | apply keeps_dmaSend hP | apply keeps_setChan hP.regs | apply hP.ite
    | dsimp only
    | simp only [id_eq]
    | (extract_lets +onlyGivenNames x; refine (fun (hx : P x) => ?_) ?_; clear_value x; rotate_left; subst x; rotate_right)
    | (extract_lets +onlyGivenNames x; clear_value x)
    | (split; all_goals (rename_i heq; have e2 := congrArg Prod.snd heq; simp only at e2; subst e2))
    | split

theorem keeps_burstSettle (half : Nat) (h0 : P s) : P (State.burstSettle s half) := by
  unfold State.burstSettle
  repeat' first
    | with_reducible first | assumption | intro _ | apply keeps_burstSend hP
    | simp only [hP.upd]
    | simp only [id_eq]
    | (extract_lets +onlyGivenNames x; refine (fun (hx : P x) => ?_) ?_; clear_value x; rotate_left; subst x; rotate_right)
    | (extract_lets +onlyGivenNames x; clear_value x)
    | (split; all_goals (rename_i heq; have e2 := congrArg Prod.snd heq; simp only at e2; subst e2))
    | split

theorem keeps_dmaIssue (half : Nat) (err : MemErr) (h0 : P s) : P (State.dmaIssue s half err) := by
  unfold State.dmaIssue
  repeat' first
    | with_reducible first
        | assumption | intro _ | apply keeps_issueSource hP | apply keeps_issueWrite hP | apply keeps_notePreempt hP.regs
        | apply keeps_takeUnit hP.regs | apply hP.ite
    | simp only [hP.upd]
    | simp only [id_eq]
    | (extract_lets +onlyGivenNames x; refine (fun (hx : P x) => ?_) ?_; clear_value x; rotate_left; subst x; rotate_right)
    | (extract_lets +onlyGivenNames x; clear_value x)
    | (split; all_goals (rename_i heq; have e2 := congrArg Prod.snd heq; simp only at e2; subst e2))
    | split

theorem keeps_dmaCycle (half : Nat) (err : MemErr) (h0 : P s) : P (State.dmaCycle s half err) := by
  unfold State.dmaCycle
  repeat' first
    | with_reducible first | assumption | intro _ | apply keeps_burstSettle hP | apply keeps_dmaIssue hP
    | simp only [hP.upd]
    | simp only [id_eq]
    | (extract_lets +onlyGivenNames x; refine (fun (hx : P x) => ?_) ?_; clear_value x; rotate_left; subst x; rotate_right)
    | (extract_lets +onlyGivenNames x; clear_value x)
    | (split; all_goals (rename_i heq; have e2 := congrArg Prod.snd heq; simp only at e2; subst e2))
    | split

theorem keeps_ringFetch (x : Nat) (h0 : P s) : P (State.ringFetch s x) := by
  unfold State.ringFetch
  repeat' with_reducible first
        | assumption | apply keeps_dmaSend hP | apply keeps_setRing hP.regs | apply keeps_sqSettle hP.regs

theorem keeps_ringBell (x : Nat) (h0 : P s) : P (State.ringBell s x) := by
  unfold State.ringBell
  repeat' with_reducible first | assumption | apply keeps_ringFetch hP | apply keeps_setRing hP.regs | apply hP.ite

theorem keeps_ringPendRec (x : Nat) (h0 : P s) : P (State.ringPendRec s x) := by
  unfold State.ringPendRec
  repeat' first
    | with_reducible first
        | assumption | intro _ | apply keeps_cqAppend hP | apply keeps_setRing hP.regs | apply hP.ite
    | simp only [hP.upd]
    | simp only [id_eq]
    | (extract_lets +onlyGivenNames x; refine (fun (hx : P x) => ?_) ?_; clear_value x; rotate_left; subst x; rotate_right)
    | (extract_lets +onlyGivenNames x; clear_value x)
    | (split; all_goals (rename_i heq; have e2 := congrArg Prod.snd heq; simp only at e2; subst e2))
    | split

theorem keeps_ringTake (x : Nat) (e : BeatDone) (h0 : P s) : P (State.ringTake s x e) := by
  unfold State.ringTake
  repeat' with_reducible first
        | assumption | apply hP.set | apply keeps_ringFetch hP | apply keeps_ringPendRec hP | apply keeps_setRing hP.regs
        | apply keeps_sqSettle hP.regs | apply hP.ite

theorem keeps_ringDispatch (x : Nat) (h0 : P s) : P (State.ringDispatch s x) := by
  unfold State.ringDispatch
  repeat' first
    | with_reducible first
        | assumption | intro _ | apply hP.set | apply keeps_chStart hP | apply keeps_mirror hP.regs
        | apply keeps_ringFetch hP | apply keeps_setRing hP.regs | apply keeps_sqSettle hP.regs | apply keeps_each
        | apply hP.ite
    | dsimp only
    | simp only [id_eq]
    | (extract_lets +onlyGivenNames x; refine (fun (hx : P x) => ?_) ?_; clear_value x; rotate_left; subst x; rotate_right)
    | (extract_lets +onlyGivenNames x; clear_value x)
    | (split; all_goals (rename_i heq; have e2 := congrArg Prod.snd heq; simp only at e2; subst e2))
    | split

theorem keeps_ringResume (x : Nat) (h0 : P s) : P (State.ringResume s x) := by
  unfold State.ringResume
  repeat' first
    | with_reducible first
        | assumption | intro _ | apply hP.set | apply keeps_ringBell hP | apply keeps_setRing hP.regs
        | apply keeps_sqSettle hP.regs | apply hP.ite
    | simp only [hP.upd]
    | simp only [id_eq]
    | (extract_lets +onlyGivenNames x; refine (fun (hx : P x) => ?_) ?_; clear_value x; rotate_left; subst x; rotate_right)
    | (extract_lets +onlyGivenNames x; clear_value x)
    | (split; all_goals (rename_i heq; have e2 := congrArg Prod.snd heq; simp only at e2; subst e2))
    | split

theorem keeps_ctxDoorbell (f k v : Nat) (h0 : P s) : P (State.ctxDoorbell s f k v) := by
  unfold State.ctxDoorbell
  repeat' first
    | with_reducible first
        | assumption | intro _ | apply hP.set | apply keeps_count hP.regs | apply keeps_relevel hP
        | apply keeps_ringBell hP | apply keeps_ringPendRec hP | apply keeps_setRing hP.regs | apply hP.ite
    | simp only [hP.upd]
    | simp only [id_eq]
    | (extract_lets +onlyGivenNames x; refine (fun (hx : P x) => ?_) ?_; clear_value x; rotate_left; subst x; rotate_right)
    | (extract_lets +onlyGivenNames x; clear_value x)
    | (split; all_goals (rename_i heq; have e2 := congrArg Prod.snd heq; simp only at e2; subst e2))
    | split

theorem keeps_stepRes (r : Nat) (h0 : P s) : P (State.stepRes s r) := by
  unfold State.stepRes
  repeat' first
    | with_reducible first
        | assumption | intro _ | apply hP.set | apply keeps_draw hP.regs | apply keeps_evt hP | apply hP.ite
    | simp only [hP.upd]
    | simp only [id_eq]
    | (extract_lets +onlyGivenNames x; refine (fun (hx : P x) => ?_) ?_; clear_value x; rotate_left; subst x; rotate_right)
    | (extract_lets +onlyGivenNames x; clear_value x)
    | (split; all_goals (rename_i heq; have e2 := congrArg Prod.snd heq; simp only at e2; subst e2))
    | split

theorem keeps_shareEvent (x typ : Nat) (h0 : P s) : P (State.shareEvent s x typ) := by
  unfold State.shareEvent
  repeat' with_reducible first | assumption | apply keeps_evq hP

theorem keeps_govStep (h0 : P s) : P (State.govStep s) := by
  unfold State.govStep
  repeat' first
    | with_reducible first
        | assumption | intro _ | apply hP.set | apply keeps_shareEvent hP | apply keeps_stepRes hP | apply keeps_each
        | apply hP.ite
    | simp only [hP.upd]

theorem keeps_shrUpdCmd (a : Nat) (new : Nat × Nat) (h0 : P s) : P (State.shrUpdCmd s a new) := by
  unfold State.shrUpdCmd
  repeat' first
    | with_reducible first
        | assumption | intro _ | apply hP.set | apply keeps_evt hP | apply keeps_mirror hP.regs
        | apply keeps_shrResult hP.regs | apply hP.ite
    | simp only [hP.upd]
    | simp only [id_eq]
    | (extract_lets +onlyGivenNames x; refine (fun (hx : P x) => ?_) ?_; clear_value x; rotate_left; subst x; rotate_right)
    | (extract_lets +onlyGivenNames x; clear_value x)
    | (split; all_goals (rename_i heq; have e2 := congrArg Prod.snd heq; simp only at e2; subst e2))
    | split

end Sys2Proof.Machine
end

