-- ==== Sys2Proof/Laws/KeepsUnits.lean ====
section
/-!
SUPPORT. Kept properties: the update units, lanes, boot, power, function life and the pair.
-/
namespace Sys2Proof.Machine

variable {P : State → Prop} (hP : Keeps P) {s : State}
include hP

theorem keeps_putEntry (i : Nat) (w : List Nat) (h0 : P s) : P (State.putEntry s i w) := by
  unfold State.putEntry
  repeat' first
    | with_reducible first | assumption | intro _ | apply keeps_st8 hP | apply keeps_each
    | simp only [hP.upd]
    | simp only [id_eq]
    | (extract_lets +onlyGivenNames x; refine (fun (hx : P x) => ?_) ?_; clear_value x; rotate_left; subst x; rotate_right)
    | (extract_lets +onlyGivenNames x; clear_value x)
    | (split; all_goals (rename_i heq; have e2 := congrArg Prod.snd heq; simp only at e2; subst e2))
    | split

theorem keeps_rescueGranule (i : Nat) (h0 : P s) : P (State.rescueGranule s i) := by
  unfold State.rescueGranule
  repeat' first
    | with_reducible first
        | assumption | intro _ | apply hP.setPoison | apply keeps_faultLog hP | apply keeps_mirror hP.regs
        | apply keeps_putEntry hP
    | simp only [hP.upd]
    | simp only [id_eq]
    | (extract_lets +onlyGivenNames x; refine (fun (hx : P x) => ?_) ?_; clear_value x; rotate_left; subst x; rotate_right)
    | (extract_lets +onlyGivenNames x; clear_value x)
    | (split; all_goals (rename_i heq; have e2 := congrArg Prod.snd heq; simp only at e2; subst e2))
    | split

theorem keeps_xltCommit (h0 : P s) : P (State.xltCommit s) := by
  unfold State.xltCommit
  repeat' first
    | with_reducible first
        | assumption | intro _ | apply hP.set | apply keeps_dropLines hP.regs | apply keeps_loadPin hP.regs
        | apply keeps_mirror hP.regs | apply keeps_putEntry hP | apply keeps_rescueGranule hP
        | apply keeps_uncache hP.regs | apply keeps_xltIdle hP.regs | apply hP.ite
    | simp only [hP.upd]
    | simp only [id_eq]
    | (extract_lets +onlyGivenNames x; refine (fun (hx : P x) => ?_) ?_; clear_value x; rotate_left; subst x; rotate_right)
    | (extract_lets +onlyGivenNames x; clear_value x)
    | (split; all_goals (rename_i heq; have e2 := congrArg Prod.snd heq; simp only at e2; subst e2))
    | split

theorem keeps_xltDrainReturn (late : Bool) (h0 : P s) : P (State.xltDrainReturn s late) := by
  unfold State.xltDrainReturn
  repeat' first
    | with_reducible first | assumption | apply keeps_finish hP
    | simp only [hP.upd]
    | split

theorem keeps_grdDrainReturn (late : Bool) (h0 : P s) : P (State.grdDrainReturn s late) := by
  unfold State.grdDrainReturn
  repeat' first
    | with_reducible first | assumption | apply keeps_finish hP
    | simp only [hP.upd]
    | split

theorem keeps_grdCommit (h0 : P s) : P (State.grdCommit s) := by
  unfold State.grdCommit
  repeat' first
    | with_reducible first
        | assumption | intro _ | apply hP.set | apply keeps_grdKeep hP.regs | apply keeps_idle hP.regs
        | apply keeps_mirror hP.regs | apply keeps_st8 hP | apply hP.ite
    | simp only [hP.upd]
    | simp only [id_eq]
    | (extract_lets +onlyGivenNames x; refine (fun (hx : P x) => ?_) ?_; clear_value x; rotate_left; subst x; rotate_right)
    | (extract_lets +onlyGivenNames x; clear_value x)
    | (split; all_goals (rename_i heq; have e2 := congrArg Prod.snd heq; simp only at e2; subst e2))
    | split

theorem keeps_grdReload (h0 : P s) : P (State.grdReload s) := by
  unfold State.grdReload
  repeat' with_reducible first
        | assumption | intro _ | apply hP.set | apply keeps_faultLog hP | apply keeps_each | apply hP.ite

theorem keeps_laneSync (l : Nat) (h0 : P s) : P (State.laneSync s l) := by
  unfold State.laneSync
  repeat' with_reducible first | assumption | intro _ | apply hP.set | apply keeps_each | apply hP.ite

theorem keeps_laneReset (st i : Nat) (h0 : P s) : P (State.laneReset s st i) := by
  unfold State.laneReset
  repeat' first
    | with_reducible first
        | assumption | intro _ | apply hP.set | apply keeps_setLane hP.regs | apply keeps_setLtx hP.regs
    | simp only [hP.upd]
    | simp only [id_eq]
    | (extract_lets +onlyGivenNames x; refine (fun (hx : P x) => ?_) ?_; clear_value x; rotate_left; subst x; rotate_right)
    | (extract_lets +onlyGivenNames x; clear_value x)
    | (split; all_goals (rename_i heq; have e2 := congrArg Prod.snd heq; simp only at e2; subst e2))
    | split

theorem keeps_laneClear (l st : Nat) (k : LaneLink) (h0 : P s) : P (State.laneClear s l st k) := by
  unfold State.laneClear
  repeat' first
    | with_reducible first
        | assumption | intro _ | apply hP.set | apply keeps_setLk hP.regs | apply keeps_setPort hP.regs
        | apply keeps_setTxLp hP.regs
    | simp only [hP.upd]
    | simp only [id_eq]
    | (extract_lets +onlyGivenNames x; refine (fun (hx : P x) => ?_) ?_; clear_value x; rotate_left; subst x; rotate_right)
    | (extract_lets +onlyGivenNames x; clear_value x)
    | (split; all_goals (rename_i heq; have e2 := congrArg Prod.snd heq; simp only at e2; subst e2))
    | split

theorem keeps_laneTrain (l : Nat) (all : Bool) (h0 : P s) : P (State.laneTrain s l all) := by
  unfold State.laneTrain
  repeat' first
    | with_reducible first
        | assumption | intro _ | apply keeps_laneClear hP | apply keeps_laneReset hP | apply keeps_laneSync hP
        | apply keeps_trainTx hP.regs | apply keeps_each
    | simp only [hP.upd]
    | simp only [id_eq]
    | (extract_lets +onlyGivenNames x; refine (fun (hx : P x) => ?_) ?_; clear_value x; rotate_left; subst x; rotate_right)
    | (extract_lets +onlyGivenNames x; clear_value x)
    | (split; all_goals (rename_i heq; have e2 := congrArg Prod.snd heq; simp only at e2; subst e2))
    | split

theorem keeps_laneOff (l : Nat) (h0 : P s) : P (State.laneOff s l) := by
  unfold State.laneOff
  repeat' first
    | with_reducible first
        | assumption | intro _ | apply keeps_laneClear hP | apply keeps_laneReset hP | apply keeps_laneSync hP
        | apply keeps_send hP.regs | apply keeps_each
    | simp only [hP.upd]
    | simp only [id_eq]
    | (extract_lets +onlyGivenNames x; refine (fun (hx : P x) => ?_) ?_; clear_value x; rotate_left; subst x; rotate_right)
    | (extract_lets +onlyGivenNames x; clear_value x)
    | (split; all_goals (rename_i heq; have e2 := congrArg Prod.snd heq; simp only at e2; subst e2))
    | split

theorem keeps_mirGo (w : MirWait) (h : P s) : P (s.mirGo w) := by
  cases w with
  | event w irq => exact keeps_evqIrq hP _ _ (keeps_jSend hP _ h)
  | record x t k data irq => exact keeps_cqIssue hP _ _ _ _ h

theorem keeps_unmirror (h0 : P s) : P (State.unmirror s) := by
  unfold State.unmirror
  repeat' first
    | with_reducible first
        | assumption | intro _ | apply hP.set | apply keeps_mirGo hP | apply keeps_tryRetire hP
        | apply keeps_unitsUnmirrored hP.regs | apply keeps_each | apply hP.ite
    | simp only [hP.upd]

theorem keeps_hoFail (h0 : P s) : P (State.hoFail s) := by
  unfold State.hoFail
  repeat' first
    | with_reducible first | assumption | apply hP.set | apply keeps_semEvt hP | apply hP.ite
    | simp only [hP.upd]

theorem keeps_detach (split : Bool) (h0 : P s) : P (State.detach s split) := by
  unfold State.detach
  repeat' with_reducible first
        | assumption | apply hP.set | apply keeps_hoFail hP | apply keeps_semEvt hP | apply keeps_unmirror hP
        | apply hP.ite

theorem keeps_twinLost (loss : Nat) (h0 : P s) : P (State.twinLost s loss) := by
  unfold State.twinLost
  repeat' first
    | with_reducible first
        | assumption | apply hP.set | apply keeps_hoFail hP | apply keeps_semEvt hP | apply keeps_unmirror hP
        | apply hP.ite
    | simp only [hP.upd]

theorem keeps_seamDown (h0 : P s) : P (State.seamDown s) := by
  unfold State.seamDown
  repeat' first
    | with_reducible first
        | assumption | intro _ | apply hP.set | apply keeps_detach hP | apply keeps_setPort hP.regs | apply hP.ite
    | simp only [hP.upd]
    | simp only [id_eq]
    | (extract_lets +onlyGivenNames x; refine (fun (hx : P x) => ?_) ?_; clear_value x; rotate_left; subst x; rotate_right)
    | (extract_lets +onlyGivenNames x; clear_value x)
    | (split; all_goals (rename_i heq; have e2 := congrArg Prod.snd heq; simp only at e2; subst e2))
    | split

theorem keeps_dualCompare (p : Nat) (h0 : P s) : P (State.dualCompare s p) := by
  unfold State.dualCompare
  repeat' with_reducible first
        | assumption | apply hP.set | apply keeps_setPort hP.regs | apply keeps_ulkEvt hP | apply hP.ite

theorem keeps_portUp (p : Nat) (h0 : P s) : P (State.portUp s p) := by
  unfold State.portUp
  repeat' first
    | with_reducible first
        | assumption | intro _ | apply hP.set | apply keeps_dualCompare hP | apply keeps_irqEval hP
        | apply keeps_portFlush hP.regs | apply keeps_sbSend hP.regs | apply keeps_streamSyncs hP.regs
        | apply keeps_ulkEvt hP | apply keeps_urBatch hP.regs | apply keeps_urSend hP.regs | apply hP.ite
    | simp only [hP.upd]
    | simp only [id_eq]
    | (extract_lets +onlyGivenNames x; refine (fun (hx : P x) => ?_) ?_; clear_value x; rotate_left; subst x; rotate_right)
    | (extract_lets +onlyGivenNames x; clear_value x)
    | (split; all_goals (rename_i heq; have e2 := congrArg Prod.snd heq; simp only at e2; subst e2))
    | split

theorem keeps_helloCheck (p : Nat) (h0 : P s) : P (State.helloCheck s p) := by
  unfold State.helloCheck
  repeat' with_reducible first | assumption | apply keeps_portUp hP | apply hP.ite

theorem keeps_portDown (p cause : Nat) (h0 : P s) : P (State.portDown s p cause) := by
  unfold State.portDown
  repeat' first
    | with_reducible first
        | assumption | intro _ | apply hP.set | apply hP.st | apply keeps_dropExpl hP.regs
        | apply keeps_dropUnaccepted hP.regs | apply keeps_irqEval hP | apply keeps_laneEvt hP | apply keeps_laneTrain hP
        | apply keeps_ledgerAnswer hP | apply keeps_portReadEnd hP | apply keeps_retire hP.regs | apply keeps_setEnt hP
        | apply keeps_setPort hP.regs | apply keeps_starchSettle hP | apply keeps_ulkEvt hP | apply keeps_each
        | apply hP.ite
    | simp only [hP.upd]
    | simp only [id_eq]
    | (extract_lets +onlyGivenNames x; refine (fun (hx : P x) => ?_) ?_; clear_value x; rotate_left; subst x; rotate_right)
    | (extract_lets +onlyGivenNames x; clear_value x)
    | (split; all_goals (rename_i heq; have e2 := congrArg Prod.snd heq; simp only at e2; subst e2))
    | split

theorem keeps_protoErr (p code : Nat) (h0 : P s) : P (State.protoErr s p code) := by
  unfold State.protoErr
  repeat' with_reducible first
        | assumption | apply hP.set | apply keeps_count hP.regs | apply keeps_ulkEvt hP | apply hP.ite

theorem keeps_protoFatal (p code : Nat) (h0 : P s) : P (State.protoFatal s p code) := by
  unfold State.protoFatal
  repeat' with_reducible first | assumption | apply keeps_portDown hP | apply keeps_protoErr hP | apply hP.ite

theorem keeps_upperDown (l : Nat) (h0 : P s) : P (State.upperDown s l) := by
  unfold State.upperDown
  repeat' with_reducible first | assumption | apply keeps_portDown hP | apply keeps_seamDown hP | apply hP.ite

theorem keeps_linkDown (l : Nat) (all : Bool) (h0 : P s) : P (State.linkDown s l all) := by
  unfold State.linkDown
  repeat' first
    | with_reducible first
        | assumption | intro _ | apply keeps_laneEvt hP | apply keeps_laneTrain hP | apply keeps_upperDown hP
        | apply hP.ite
    | simp only [hP.upd]
    | simp only [id_eq]
    | (extract_lets +onlyGivenNames x; refine (fun (hx : P x) => ?_) ?_; clear_value x; rotate_left; subst x; rotate_right)
    | (extract_lets +onlyGivenNames x; clear_value x)
    | (split; all_goals (rename_i heq; have e2 := congrArg Prod.snd heq; simp only at e2; subst e2))
    | split

theorem keeps_linkOff (l : Nat) (h0 : P s) : P (State.linkOff s l) := by
  unfold State.linkOff
  repeat' with_reducible first
        | assumption | apply keeps_laneEvt hP | apply keeps_laneOff hP | apply keeps_upperDown hP | apply hP.ite

theorem keeps_linkActive (l : Nat) (h0 : P s) : P (State.linkActive s l) := by
  unfold State.linkActive
  repeat' first
    | with_reducible first
        | assumption | intro _ | apply hP.set | apply keeps_laneEvt hP | apply keeps_laneSync hP
        | apply keeps_sendMarker hP.regs | apply keeps_setLane hP.regs | apply keeps_setLk hP.regs
        | apply keeps_trainTx hP.regs | apply keeps_upperUp hP.regs | apply keeps_each | apply hP.ite
    | simp only [hP.upd]
    | simp only [id_eq]
    | (extract_lets +onlyGivenNames x; refine (fun (hx : P x) => ?_) ?_; clear_value x; rotate_left; subst x; rotate_right)
    | (extract_lets +onlyGivenNames x; clear_value x)
    | (split; all_goals (rename_i heq; have e2 := congrArg Prod.snd heq; simp only at e2; subst e2))
    | split

theorem keeps_lpExit (l : Nat) (h0 : P s) : P (State.lpExit s l) := by
  unfold State.lpExit
  repeat' first
    | with_reducible first
        | assumption | intro _ | apply keeps_laneSync hP | apply keeps_portFlush hP.regs | apply keeps_sbPollNow hP.regs
        | apply keeps_sendMarker hP.regs | apply keeps_setPort hP.regs | apply keeps_setTxLp hP.regs
        | apply keeps_trainTx hP.regs | apply keeps_upperUp hP.regs | apply keeps_urAck hP.regs | apply hP.ite
    | simp only [hP.upd]
    | simp only [id_eq]
    | (extract_lets +onlyGivenNames x; refine (fun (hx : P x) => ?_) ?_; clear_value x; rotate_left; subst x; rotate_right)
    | (extract_lets +onlyGivenNames x; clear_value x)
    | (split; all_goals (rename_i heq; have e2 := congrArg Prod.snd heq; simp only at e2; subst e2))
    | split

theorem keeps_darnNote (i : Nat) (h0 : P s) : P (State.darnNote s i) := by
  unfold State.darnNote
  repeat' first
    | with_reducible first | assumption | intro _ | apply keeps_correctedLog hP | apply keeps_count hP.regs
    | simp only [hP.upd]
    | simp only [id_eq]
    | (extract_lets +onlyGivenNames x; refine (fun (hx : P x) => ?_) ?_; clear_value x; rotate_left; subst x; rotate_right)
    | (extract_lets +onlyGivenNames x; clear_value x)
    | (split; all_goals (rename_i heq; have e2 := congrArg Prod.snd heq; simp only at e2; subst e2))
    | split

theorem keeps_darnAsk (l : Nat) (is : List Nat) (h0 : P s) : P (State.darnAsk s l is) := by
  unfold State.darnAsk
  repeat' with_reducible first
        | assumption | intro _ | apply hP.set | apply keeps_laneSync hP | apply keeps_linkDown hP | apply keeps_lpExit hP
        | apply keeps_sendMarker hP.regs | apply keeps_setLane hP.regs | apply keeps_setLk hP.regs | apply keeps_each
        | apply hP.ite

theorem keeps_darn (i : Nat) (h0 : P s) : P (State.darn s i) := by
  unfold State.darn
  repeat' first
    | with_reducible first | assumption | intro _ | apply keeps_darnAsk hP | apply keeps_darnNote hP
    | simp only [hP.upd]
    | simp only [id_eq]
    | (extract_lets +onlyGivenNames x; refine (fun (hx : P x) => ?_) ?_; clear_value x; rotate_left; subst x; rotate_right)
    | (extract_lets +onlyGivenNames x; clear_value x)
    | (split; all_goals (rename_i heq; have e2 := congrArg Prod.snd heq; simp only at e2; subst e2))
    | split

theorem keeps_forceDarn (i : Nat) (h0 : P s) : P (State.forceDarn s i) := by
  unfold State.forceDarn
  repeat' with_reducible first | assumption | apply keeps_darn hP | apply hP.ite

theorem keeps_forceAll (l : Nat) (h0 : P s) : P (State.forceAll s l) := by
  unfold State.forceAll
  repeat' with_reducible first | assumption | intro _ | apply keeps_forceDarn hP | apply keeps_each

theorem keeps_rxExit (l failed : Nat) (h0 : P s) : P (State.rxExit s l failed) := by
  unfold State.rxExit
  repeat' first
    | with_reducible first
        | assumption | intro _ | apply hP.set | apply keeps_darnAsk hP | apply keeps_forceAll hP | apply keeps_laneEvt hP
        | apply keeps_laneSync hP | apply keeps_sbPollNow hP.regs | apply keeps_setLane hP.regs
        | apply keeps_setPort hP.regs | apply keeps_upperUp hP.regs | apply keeps_each | apply hP.ite
    | simp only [hP.upd]
    | simp only [id_eq]
    | (extract_lets +onlyGivenNames x; refine (fun (hx : P x) => ?_) ?_; clear_value x; rotate_left; subst x; rotate_right)
    | (extract_lets +onlyGivenNames x; clear_value x)
    | (split; all_goals (rename_i heq; have e2 := congrArg Prod.snd heq; simp only at e2; subst e2))
    | split

theorem keeps_enableWrite (l : Nat) (v : Bool) (h0 : P s) : P (State.enableWrite s l v) := by
  unfold State.enableWrite
  repeat' with_reducible first
        | assumption | apply hP.set | apply keeps_laneTrain hP | apply keeps_linkOff hP | apply hP.ite

theorem keeps_retrain (l : Nat) (h0 : P s) : P (State.retrain s l) := by
  unfold State.retrain
  repeat' first
    | with_reducible first | assumption | intro _ | apply keeps_linkDown hP | apply hP.ite
    | simp only [hP.upd]
    | simp only [id_eq]
    | (extract_lets +onlyGivenNames x; refine (fun (hx : P x) => ?_) ?_; clear_value x; rotate_left; subst x; rotate_right)
    | (extract_lets +onlyGivenNames x; clear_value x)
    | (split; all_goals (rename_i heq; have e2 := congrArg Prod.snd heq; simp only at e2; subst e2))
    | split

theorem keeps_forceWrite (i : Nat) (v : Bool) (h0 : P s) : P (State.forceWrite s i v) := by
  unfold State.forceWrite
  repeat' first
    | with_reducible first
        | assumption | intro _ | apply hP.set | apply keeps_forceDarn hP | apply keeps_trialDrop hP.regs | apply hP.ite
    | simp only [hP.upd]
    | simp only [id_eq]
    | (extract_lets +onlyGivenNames x; refine (fun (hx : P x) => ?_) ?_; clear_value x; rotate_left; subst x; rotate_right)
    | (extract_lets +onlyGivenNames x; clear_value x)
    | (split; all_goals (rename_i heq; have e2 := congrArg Prod.snd heq; simp only at e2; subst e2))
    | split

theorem keeps_ulkEnWrite (p : Nat) (v : Bool) (h0 : P s) : P (State.ulkEnWrite s p v) := by
  unfold State.ulkEnWrite
  repeat' first
    | with_reducible first
        | assumption | intro _ | apply hP.set | apply keeps_portDown hP | apply keeps_upperUp hP.regs | apply hP.ite
    | simp only [hP.upd]
    | simp only [id_eq]
    | (extract_lets +onlyGivenNames x; refine (fun (hx : P x) => ?_) ?_; clear_value x; rotate_left; subst x; rotate_right)
    | (extract_lets +onlyGivenNames x; clear_value x)
    | (split; all_goals (rename_i heq; have e2 := congrArg Prod.snd heq; simp only at e2; subst e2))
    | split

theorem keeps_ulkReset (p : Nat) (h0 : P s) : P (State.ulkReset s p) := by
  unfold State.ulkReset
  repeat' with_reducible first | assumption | apply keeps_portDown hP | apply keeps_retrain hP | apply hP.ite

theorem keeps_evLoad (h0 : P s) : P (State.evLoad s) := by
  unfold State.evLoad
  repeat' first
    | with_reducible first | assumption | apply hP.set | apply keeps_logRecord hP | apply keeps_setVfTotal hP.regs
    | simp only [hP.upd]
    | split

theorem keeps_lifecycleMove (h : P s) : P (State.lifecycleMove s) := by
  unfold State.lifecycleMove
  split
  · exact h
  · next n _ =>
    have key : ∀ y : State, P y → P (if n = 3 then { y with mem := [], poison := [] } else y) := by
      intro y hy
      split
      · exact hP.keep (s := y) (fun _ => true) (fun _ => false) (fun _ => false) (fun _ => true) (fun _ => true) rfl (smKeep_true _).symm
          (smKeep_false _).symm (smKeep_false _).symm (smKeep_true _).symm (smKeep_true _).symm hy
      · exact hy
    refine key _ (keeps_logRecord hP _ _ ?_)
    simp only [hP.upd]
    exact hP.set _ _ _ (hP.set _ _ _ h)

theorem keeps_beforeReset (h0 : P s) : P (State.beforeReset s) := by
  unfold State.beforeReset
  repeat' first
    | with_reducible first
        | assumption | intro _ | apply keeps_aliveLow hP.regs | apply keeps_clkreq hP.regs | apply keeps_linkDown hP
        | apply keeps_send hP.regs | apply keeps_timeSave hP.regs | apply hP.ite
    | simp only [hP.upd]
    | simp only [id_eq]
    | (extract_lets +onlyGivenNames x; refine (fun (hx : P x) => ?_) ?_; clear_value x; rotate_left; subst x; rotate_right)
    | (extract_lets +onlyGivenNames x; clear_value x)
    | (split; all_goals (rename_i heq; have e2 := congrArg Prod.snd heq; simp only at e2; subst e2))
    | split

theorem keeps_resetKept (dram warm : Bool) (store : Nat → Bool) (h : P s) :
    P (State.resetKept s dram warm store) :=
  hP.keep (s := s) _ _ _ (fun _ => false) (fun _ => false) rfl rfl rfl rfl (smKeep_false _).symm
    (smKeep_false _).symm h

theorem keeps_moduleReset (cause : Nat) (h0 : P s) : P (State.moduleReset s cause) := by
  unfold State.moduleReset
  repeat' with_reducible first
        | assumption | apply hP.set | apply keeps_beforeReset hP | apply keeps_bootDomains hP.regs | apply keeps_evLoad hP
        | apply keeps_lifecycleMove hP | apply keeps_resetKept hP | apply keeps_roleLine hP.regs
        | apply keeps_selfRefresh hP.regs | apply keeps_setDom hP.regs | apply hP.ite

theorem keeps_offKept (h : P s) :
    P (State.offKept s) :=
  hP.keep (s := s) _ (fun _ => false) (fun _ => false) (fun _ => false) (fun _ => false) rfl rfl (smKeep_false _).symm (smKeep_false _).symm (smKeep_false _).symm
    (smKeep_false _).symm h

theorem keeps_powerOff (h0 : P s) : P (State.powerOff s) := by
  unfold State.powerOff
  repeat' first
    | with_reducible first
        | assumption | intro _ | apply keeps_aliveLow hP.regs | apply keeps_clkreq hP.regs | apply keeps_offKept hP
        | apply keeps_roleLine hP.regs | apply hP.ite
    | simp only [hP.upd]
    | simp only [id_eq]
    | (extract_lets +onlyGivenNames x; refine (fun (hx : P x) => ?_) ?_; clear_value x; rotate_left; subst x; rotate_right)
    | (extract_lets +onlyGivenNames x; clear_value x)
    | (split; all_goals (rename_i heq; have e2 := congrArg Prod.snd heq; simp only at e2; subst e2))
    | split

theorem keeps_vfTake (h0 : P s) : P (State.vfTake s) := by
  unfold State.vfTake
  repeat' first
    | with_reducible first | assumption | apply keeps_logRecord hP | apply keeps_setVfTotal hP.regs | apply hP.ite
    | simp only [hP.upd]

theorem keeps_enablePorts (h0 : P s) : P (State.enablePorts s) := by
  unfold State.enablePorts
  repeat' with_reducible first
        | assumption | intro _ | apply keeps_enableWrite hP | apply keeps_ulkEnWrite hP | apply keeps_each | apply hP.ite

theorem keeps_domUp (d : Nat) (h0 : P s) : P (State.domUp s d) := by
  unfold State.domUp
  repeat' with_reducible first
        | assumption | intro _ | apply hP.set | apply keeps_bootNext hP.regs | apply keeps_clkChoose hP.regs
        | apply keeps_enablePorts hP | apply keeps_enableWrite hP | apply keeps_grdReload hP | apply keeps_irqEval hP
        | apply keeps_setDom hP.regs | apply keeps_timeLoad hP.regs | apply keeps_undrainChan hP.regs
        | apply keeps_vfTake hP | apply keeps_each | apply hP.ite

theorem keeps_domOff (d : Nat) (h : P s) : P (State.domOff s d) := by
  unfold State.domOff
  extract_lets x e y z
  have hx : P x := keeps_withLevels hP _ _ (fun t ht => hP.keep (s := t) _ (fun _ => true) (fun _ => true) (fun _ => true)
    (fun _ => true) rfl rfl (smKeep_true _).symm (smKeep_true _).symm (smKeep_true _).symm (smKeep_true _).symm ht) h
  have hy : P y := by
    subst y
    split
    · simp only [hP.upd]; exact hx
    · exact hx
  have hz : P z := by
    subst z
    split
    · exact keeps_timeSave hP.regs hy
    · exact hy
  exact keeps_irqEval hP (keeps_setDom hP.regs _ _ hz)

theorem keeps_domAbort (d : Nat) (h0 : P s) : P (State.domAbort s d) := by
  unfold State.domAbort
  repeat' first
    | with_reducible first
        | assumption | intro _ | apply keeps_chStopEnd hP | apply keeps_hardAbort hP | apply keeps_linkOff hP
        | apply keeps_setCore hP.regs | apply keeps_setDom hP.regs | apply keeps_each | apply hP.ite
    | simp only [hP.upd]
    | simp only [id_eq]
    | (extract_lets +onlyGivenNames x; refine (fun (hx : P x) => ?_) ?_; clear_value x; rotate_left; subst x; rotate_right)
    | (extract_lets +onlyGivenNames x; clear_value x)
    | (split; all_goals (rename_i heq; have e2 := congrArg Prod.snd heq; simp only at e2; subst e2))
    | split

theorem keeps_domEnd (d res : Nat) (h0 : P s) : P (State.domEnd s d res) := by
  unfold State.domEnd
  repeat' first
    | with_reducible first | assumption | apply hP.set | apply keeps_pwrEvt hP | apply hP.ite
    | simp only [hP.upd]

theorem keeps_domDown (d op : Nat) (force : Bool) (h0 : P s) : P (State.domDown s d op force) := by
  unfold State.domDown
  repeat' with_reducible first
        | assumption | apply keeps_domAbort hP | apply keeps_domDrain hP.regs | apply keeps_setGoal hP.regs | apply hP.ite

theorem keeps_domRequest (d op : Nat) (force : Bool) (h0 : P s) : P (State.domRequest s d op force) := by
  unfold State.domRequest
  repeat' first
    | with_reducible first
        | assumption | intro _ | apply keeps_domAbort hP | apply keeps_domDown hP | apply keeps_domEnd hP
        | apply keeps_domOff hP | apply keeps_pwrEvt hP | apply keeps_setDom hP.regs | apply keeps_setGoal hP.regs
        | apply hP.ite
    | simp only [hP.upd]
    | simp only [id_eq]
    | (extract_lets +onlyGivenNames x; refine (fun (hx : P x) => ?_) ?_; clear_value x; rotate_left; subst x; rotate_right)
    | (extract_lets +onlyGivenNames x; clear_value x)
    | (split; all_goals (rename_i heq; have e2 := congrArg Prod.snd heq; simp only at e2; subst e2))
    | split

theorem keeps_domClamp (d : Nat) (h : P s) : P (State.domClamp s d) := by
  unfold State.domClamp
  extract_lets x y z
  have hx : P x := hP.ite (keeps_setDom hP.regs _ _ h) (keeps_domOff hP _ h)
  have hy : P y := keeps_irqEval hP (keeps_setGoal hP.regs _ _ hx)
  have hz : P z := by
    subst z
    split
    · exact hP.ite (keeps_domEnd hP _ _ hy) hy
    · exact hy
  exact keeps_coreRetry hP.regs _ hz

theorem keeps_domPowered (d : Nat) (h0 : P s) : P (State.domPowered s d) := by
  unfold State.domPowered
  repeat' first
    | with_reducible first
        | assumption | intro _ | apply keeps_domDown hP | apply keeps_domEnd hP | apply keeps_domResume hP.regs
        | apply keeps_domUp hP | apply keeps_setCore hP.regs | apply keeps_setGoal hP.regs | apply hP.ite
    | dsimp only
    | simp only [id_eq]
    | (extract_lets +onlyGivenNames x; refine (fun (hx : P x) => ?_) ?_; clear_value x; rotate_left; subst x; rotate_right)
    | (extract_lets +onlyGivenNames x; clear_value x)
    | (split; all_goals (rename_i heq; have e2 := congrArg Prod.snd heq; simp only at e2; subst e2))
    | split

theorem keeps_coreEdge (c src : Nat) (h0 : P s) : P (State.coreEdge s c src) := by
  unfold State.coreEdge
  repeat' first
    | with_reducible first
        | assumption | apply keeps_coreWake hP.regs | apply keeps_pwrEvt hP | apply keeps_setCore hP.regs
    | dsimp only
    | split

theorem keeps_coreWait (c : Nat) (h0 : P s) : P (State.coreWait s c) := by
  unfold State.coreWait
  repeat' first
    | with_reducible first
        | assumption | intro _ | apply keeps_replay hP | apply keeps_setCore hP.regs | apply hP.ite
    | simp only [hP.upd]
    | simp only [id_eq]
    | (extract_lets +onlyGivenNames x; refine (fun (hx : P x) => ?_) ?_; clear_value x; rotate_left; subst x; rotate_right)
    | (extract_lets +onlyGivenNames x; clear_value x)
    | (split; all_goals (rename_i heq; have e2 := congrArg Prod.snd heq; simp only at e2; subst e2))
    | split

theorem keeps_coreGate (c : Nat) (h0 : P s) : P (State.coreGate s c) := by
  unfold State.coreGate
  repeat' first
    | with_reducible first
        | assumption | intro _ | apply keeps_coreWake hP.regs | apply keeps_domDown hP | apply keeps_irqEval hP
        | apply keeps_setCore hP.regs | apply hP.ite
    | dsimp only
    | simp only [id_eq]
    | (extract_lets +onlyGivenNames x; refine (fun (hx : P x) => ?_) ?_; clear_value x; rotate_left; subst x; rotate_right)
    | (extract_lets +onlyGivenNames x; clear_value x)
    | (split; all_goals (rename_i heq; have e2 := congrArg Prod.snd heq; simp only at e2; subst e2))
    | split

theorem keeps_heldGo (h : Held) (h0 : P s) : P (State.heldGo s h) := by
  unfold State.heldGo
  repeat' first
    | with_reducible first
        | assumption | intro _ | apply hP.set | apply keeps_chRecord hP | apply keeps_evq hP | apply keeps_evqRoute hP
        | apply keeps_ringPendRec hP | apply hP.ite
    | simp only [hP.upd]
    | simp only [id_eq]
    | (extract_lets +onlyGivenNames x; refine (fun (hx : P x) => ?_) ?_; clear_value x; rotate_left; subst x; rotate_right)
    | (extract_lets +onlyGivenNames x; clear_value x)
    | (split; all_goals (rename_i heq; have e2 := congrArg Prod.snd heq; simp only at e2; subst e2))
    | split

theorem keeps_heldRelease (p : Nat → Bool) (h0 : P s) : P (State.heldRelease s p) := by
  unfold State.heldRelease
  repeat' first
    | with_reducible first | assumption | intro _ | apply keeps_heldGo hP | apply keeps_each
    | simp only [hP.upd]
    | simp only [id_eq]
    | (extract_lets +onlyGivenNames x; refine (fun (hx : P x) => ?_) ?_; clear_value x; rotate_left; subst x; rotate_right)
    | (extract_lets +onlyGivenNames x; clear_value x)
    | (split; all_goals (rename_i heq; have e2 := congrArg Prod.snd heq; simp only at e2; subst e2))
    | split

theorem keeps_rinseDma (f : Nat) (h0 : P s) : P (State.rinseDma s f) := by
  unfold State.rinseDma
  repeat' first
    | with_reducible first
        | assumption | intro _ | apply hP.set | apply keeps_chReset hP.regs | apply keeps_chStopEnd hP
        | apply keeps_hardAbort hP | apply keeps_mirVal hP.regs | apply keeps_ringReset hP.regs | apply keeps_each
        | apply hP.ite
    | simp only [hP.upd]
    | simp only [id_eq]
    | (extract_lets +onlyGivenNames x; refine (fun (hx : P x) => ?_) ?_; clear_value x; rotate_left; subst x; rotate_right)
    | (extract_lets +onlyGivenNames x; clear_value x)
    | (split; all_goals (rename_i heq; have e2 := congrArg Prod.snd heq; simp only at e2; subst e2))
    | split

theorem keeps_rinseEnter (f cause : Nat) (hidden : Bool) (h0 : P s) : P (State.rinseEnter s f cause hidden) := by
  unfold State.rinseEnter
  repeat' first
    | with_reducible first
        | assumption | intro _ | apply hP.set | apply keeps_heldDrop hP.regs | apply keeps_heldRelease hP
        | apply keeps_holdTags hP | apply keeps_irqEval hP | apply keeps_mbxRinse hP | apply keeps_resetCfg hP
        | apply keeps_rinseDma hP | apply keeps_rinseEvq hP.regs | apply keeps_setPend hP | apply keeps_each
        | apply hP.ite
    | simp only [hP.upd]
    | simp only [id_eq]
    | (extract_lets +onlyGivenNames x; refine (fun (hx : P x) => ?_) ?_; clear_value x; rotate_left; subst x; rotate_right)
    | (extract_lets +onlyGivenNames x; clear_value x)
    | (split; all_goals (rename_i heq; have e2 := congrArg Prod.snd heq; simp only at e2; subst e2))
    | split

theorem keeps_vfHide (pf cause : Nat) (h0 : P s) : P (State.vfHide s pf cause) := by
  unfold State.vfHide
  repeat' with_reducible first
        | assumption | intro _ | apply hP.set | apply keeps_irqEval hP | apply keeps_rinseEnter hP | apply keeps_each
        | apply hP.ite

theorem keeps_vfShow (pf : Nat) (h0 : P s) : P (State.vfShow s pf) := by
  unfold State.vfShow
  repeat' with_reducible first
        | assumption | intro _ | apply hP.set | apply keeps_irqEval hP | apply keeps_each | apply hP.ite

theorem keeps_flr (f : Nat) (h0 : P s) : P (State.flr s f) := by
  unfold State.flr
  repeat' with_reducible first
        | assumption | apply keeps_resetCfg hP | apply keeps_rinseEnter hP | apply keeps_vfHide hP | apply hP.ite

theorem keeps_rbarSettle (f : Nat) (h0 : P s) : P (State.rbarSettle s f) := by
  unfold State.rbarSettle
  repeat' first
    | with_reducible first | assumption | apply keeps_setCfgD hP | apply hP.ite
    | simp only [hP.upd]

theorem keeps_rinseEnd (f : Nat) (deadline : Bool) (h0 : P s) : P (State.rinseEnd s f deadline) := by
  unfold State.rinseEnd
  repeat' first
    | with_reducible first
        | assumption | intro _ | apply hP.set | apply keeps_cfgApply hP | apply keeps_chReset hP.regs
        | apply keeps_irqEval hP | apply keeps_mbxReset hP | apply keeps_rbarSettle hP | apply keeps_tdiUnlock hP.regs
        | apply keeps_vfShow hP | apply keeps_each | apply hP.ite
    | simp only [hP.upd]
    | simp only [id_eq]
    | (extract_lets +onlyGivenNames x; refine (fun (hx : P x) => ?_) ?_; clear_value x; rotate_left; subst x; rotate_right)
    | (extract_lets +onlyGivenNames x; clear_value x)
    | (split; all_goals (rename_i heq; have e2 := congrArg Prod.snd heq; simp only at e2; subst e2))
    | split

theorem keeps_bmeOff (f : Nat) (h0 : P s) : P (State.bmeOff s f) := by
  unfold State.bmeOff
  repeat' with_reducible first
        | assumption | intro _ | apply hP.set | apply keeps_chStopEnd hP | apply keeps_haltRings hP.regs
        | apply keeps_irqEval hP | apply keeps_masterOffChan hP.regs | apply keeps_tdiError hP | apply keeps_each
        | apply hP.ite

theorem keeps_bmeOn (f : Nat) (h0 : P s) : P (State.bmeOn s f) := by
  unfold State.bmeOn
  repeat' first
    | with_reducible first
        | assumption | intro _ | apply keeps_heldRelease hP | apply keeps_irqEval hP | apply hP.ite
    | simp only [hP.upd]
    | simp only [id_eq]
    | (extract_lets +onlyGivenNames x; refine (fun (hx : P x) => ?_) ?_; clear_value x; rotate_left; subst x; rotate_right)
    | (extract_lets +onlyGivenNames x; clear_value x)
    | (split; all_goals (rename_i heq; have e2 := congrArg Prod.snd heq; simp only at e2; subst e2))
    | split

theorem keeps_fnRelease (f : Nat) (h0 : P s) : P (State.fnRelease s f) := by
  unfold State.fnRelease
  repeat' with_reducible first | assumption | apply hP.set | apply keeps_evq hP | apply keeps_irqEval hP | apply hP.ite

theorem keeps_fnContRelease (f : Nat) (h0 : P s) : P (State.fnContRelease s f) := by
  unfold State.fnContRelease
  repeat' with_reducible first | assumption | apply hP.set | apply keeps_fnRelease hP | apply hP.ite

theorem keeps_stopSettle (h0 : P s) : P (State.stopSettle s) := by
  unfold State.stopSettle
  repeat' first
    | with_reducible first | assumption | intro _ | apply keeps_fnRelease hP | apply keeps_each
    | simp only [hP.upd]

theorem keeps_dropTlps (h0 : P s) : P (State.dropTlps s) := by
  unfold State.dropTlps
  repeat' first
    | with_reducible first | assumption | intro _ | apply keeps_finish hP | apply keeps_setPend hP | apply keeps_each
    | simp only [hP.upd]
    | split

theorem keeps_faceReset (fundamental : Bool) (h0 : P s) : P (State.faceReset s fundamental) := by
  unfold State.faceReset
  repeat' first
    | with_reducible first
        | assumption | intro _ | apply hP.set | apply keeps_dropTlps hP | apply keeps_eqDrop hP.regs
        | apply keeps_holdTags hP | apply keeps_irqEval hP | apply keeps_resetCfg hP | apply keeps_rinseEnter hP
        | apply keeps_vfHide hP | apply keeps_each | apply hP.ite
    | simp only [hP.upd]
    | simp only [id_eq]
    | (extract_lets +onlyGivenNames x; refine (fun (hx : P x) => ?_) ?_; clear_value x; rotate_left; subst x; rotate_right)
    | (extract_lets +onlyGivenNames x; clear_value x)
    | (split; all_goals (rename_i heq; have e2 := congrArg Prod.snd heq; simp only at e2; subst e2))
    | split

theorem keeps_fullFace (h0 : P s) : P (State.fullFace s) := by
  unfold State.fullFace
  repeat' first
    | with_reducible first
        | assumption | intro _ | apply hP.set | apply keeps_flr hP | apply keeps_irqEval hP | apply keeps_each
        | apply hP.ite
    | simp only [hP.upd]

theorem keeps_hostFaceReset (b : Bool) (h : P s) :
    P (State.hostFaceReset s b) := by
  unfold State.hostFaceReset
  have h1 : P (s.faceReset b) := keeps_faceReset hP b h
  generalize s.faceReset b = x at h1
  dsimp only
  split
  · split <;> (simp only [hP.upd]; exact h1)
  · split
    · split
      · exact h1
      · simp only [hP.upd]; exact keeps_resetCfg hP _ h1
    · split
      · exact keeps_fullFace hP h1
      · exact keeps_resetCfg hP _ h1
  · exact h1

theorem keeps_dualAll (h0 : P s) : P (State.dualAll s) := by
  unfold State.dualAll
  repeat' with_reducible first | assumption | intro _ | apply keeps_dualCompare hP | apply keeps_each

theorem keeps_pairRefuse (loss : Nat) (e : Fld) (h0 : P s) : P (State.pairRefuse s loss e) := by
  unfold State.pairRefuse
  repeat' with_reducible first
        | assumption | apply hP.set | apply keeps_semEvt hP | apply keeps_settled hP.regs | apply keeps_unmirror hP
        | apply hP.ite

theorem keeps_pairForm (lead : Bool) (serial : Nat) (h0 : P s) : P (State.pairForm s lead serial) := by
  unfold State.pairForm
  repeat' first
    | with_reducible first
        | assumption | intro _ | apply hP.set | apply keeps_dualAll hP | apply keeps_semEvt hP
        | apply keeps_settled hP.regs | apply keeps_snapshot hP.regs | apply hP.ite
    | simp only [hP.upd]
    | simp only [id_eq]
    | (extract_lets +onlyGivenNames x; refine (fun (hx : P x) => ?_) ?_; clear_value x; rotate_left; subst x; rotate_right)
    | (extract_lets +onlyGivenNames x; clear_value x)
    | (split; all_goals (rename_i heq; have e2 := congrArg Prod.snd heq; simp only at e2; subst e2))
    | split

theorem keeps_seamHello (mver md : Nat) (leading : Bool) (fw serial : Nat) (h0 : P s) :
    P (State.seamHello s mver md leading fw serial) := by
  unfold State.seamHello
  repeat' first
    | with_reducible first
        | assumption | intro _ | apply hP.set | apply keeps_dualAll hP | apply keeps_pairForm hP
        | apply keeps_pairRefuse hP | apply keeps_seamSend hP.regs | apply keeps_settled hP.regs | apply hP.ite
    | simp only [hP.upd]
    | simp only [id_eq]
    | (extract_lets +onlyGivenNames x; refine (fun (hx : P x) => ?_) ?_; clear_value x; rotate_left; subst x; rotate_right)
    | (extract_lets +onlyGivenNames x; clear_value x)
    | (split; all_goals (rename_i heq; have e2 := congrArg Prod.snd heq; simp only at e2; subst e2))
    | split

theorem keeps_redispatch (h0 : P s) : P (State.redispatch s) := by
  unfold State.redispatch
  repeat' first
    | with_reducible first
        | assumption | intro _ | apply keeps_ringBell hP | apply keeps_setRing hP.regs | apply keeps_each
    | simp only [hP.upd]

theorem keeps_roleOpen (loss : Nat) (h0 : P s) : P (State.roleOpen s loss) := by
  unfold State.roleOpen
  repeat' with_reducible first
        | assumption | intro _ | apply keeps_evq hP | apply keeps_logRecord hP | apply keeps_redispatch hP
        | apply keeps_semEvt hP | apply keeps_each

theorem keeps_takeover (loss : Nat) (h0 : P s) : P (State.takeover s loss) := by
  unfold State.takeover
  repeat' first
    | with_reducible first
        | assumption | intro _ | apply hP.set | apply keeps_count hP.regs | apply keeps_irqEval hP
        | apply keeps_ledgerAnswer hP | apply keeps_roleLines hP.regs | apply keeps_roleOpen hP
        | apply keeps_streamSyncs hP.regs | apply keeps_toMode hP.regs | apply keeps_undrainChan hP.regs
        | apply keeps_each | apply hP.ite
    | simp only [hP.upd]
    | simp only [id_eq]
    | (extract_lets +onlyGivenNames x; refine (fun (hx : P x) => ?_) ?_; clear_value x; rotate_left; subst x; rotate_right)
    | (extract_lets +onlyGivenNames x; clear_value x)
    | (split; all_goals (rename_i heq; have e2 := congrArg Prod.snd heq; simp only at e2; subst e2))
    | split

theorem keeps_lossDecide (h0 : P s) : P (State.lossDecide s) := by
  unfold State.lossDecide
  repeat' with_reducible first
        | assumption | apply keeps_detach hP | apply keeps_semEvt hP | apply keeps_takeover hP | apply keeps_twinLost hP
        | apply hP.ite

theorem keeps_hbMissed (h0 : P s) : P (State.hbMissed s) := by
  unfold State.hbMissed
  repeat' first
    | with_reducible first
        | assumption | apply hP.set | apply keeps_count hP.regs | apply keeps_lossDecide hP | apply keeps_semEvt hP
        | apply hP.ite
    | simp only [hP.upd]

theorem keeps_leavePair (h0 : P s) : P (State.leavePair s) := by
  unfold State.leavePair
  repeat' with_reducible first | assumption | apply keeps_seamSend hP.regs | apply keeps_twinLost hP | apply hP.ite

theorem keeps_applyReg (arg v : Nat) (h0 : P s) : P (State.applyReg s arg v) := by
  unfold State.applyReg
  repeat' first
    | with_reducible first | assumption | apply keeps_regPut hP.regs | apply keeps_stBytes hP
    | dsimp only
    | split

theorem keeps_applyRecord (rtype mseq arg : Nat) (w : List Nat) (h0 : P s) :
    P (State.applyRecord s rtype mseq arg w) := by
  unfold State.applyRecord
  repeat' first
    | with_reducible first
        | assumption | intro _ | apply hP.set | apply keeps_applyReg hP | apply keeps_dropLines hP.regs
        | apply keeps_grdKeep hP.regs | apply keeps_loadPin hP.regs | apply keeps_ovfOpen hP | apply keeps_putEntry hP
        | apply keeps_rescueGranule hP | apply keeps_semEvt hP | apply keeps_setRing hP.regs
        | apply keeps_setShare hP.regs | apply keeps_st8 hP | apply keeps_uncache hP.regs | apply hP.ite
    | simp only [hP.upd]
    | simp only [id_eq]
    | (extract_lets +onlyGivenNames x; refine (fun (hx : P x) => ?_) ?_; clear_value x; rotate_left; subst x; rotate_right)
    | (extract_lets +onlyGivenNames x; clear_value x)
    | (split; all_goals (rename_i heq; have e2 := congrArg Prod.snd heq; simp only at e2; subst e2))
    | split

theorem keeps_hoAccept (h0 : P s) : P (State.hoAccept s) := by
  unfold State.hoAccept
  repeat' first
    | with_reducible first
        | assumption | intro _ | apply hP.set | apply keeps_irqEval hP | apply keeps_roleLines hP.regs
        | apply keeps_roleOpen hP | apply keeps_seamSend hP.regs | apply keeps_semEvt hP | apply keeps_streamSyncs hP.regs
        | apply keeps_toMode hP.regs | apply keeps_each
    | simp only [hP.upd]
    | simp only [id_eq]
    | (extract_lets +onlyGivenNames x; refine (fun (hx : P x) => ?_) ?_; clear_value x; rotate_left; subst x; rotate_right)
    | (extract_lets +onlyGivenNames x; clear_value x)
    | (split; all_goals (rename_i heq; have e2 := congrArg Prod.snd heq; simp only at e2; subst e2))
    | split

theorem keeps_hoOffer (mseq : Nat) (h0 : P s) : P (State.hoOffer s mseq) := by
  unfold State.hoOffer
  repeat' first
    | with_reducible first | assumption | apply keeps_hoAccept hP | apply hP.ite
    | simp only [hP.upd]

theorem keeps_mirrorRx (rtype mseq arg : Nat) (w : List Nat) (h0 : P s) : P (State.mirrorRx s rtype mseq arg w) := by
  unfold State.mirrorRx
  repeat' first
    | with_reducible first
        | assumption | intro _ | apply hP.set | apply keeps_applyRecord hP | apply keeps_hoAccept hP
        | apply keeps_seamSend hP.regs | apply hP.ite
    | simp only [hP.upd]
    | simp only [id_eq]
    | (extract_lets +onlyGivenNames x; refine (fun (hx : P x) => ?_) ?_; clear_value x; rotate_left; subst x; rotate_right)
    | (extract_lets +onlyGivenNames x; clear_value x)
    | (split; all_goals (rename_i heq; have e2 := congrArg Prod.snd heq; simp only at e2; subst e2))
    | split

theorem keeps_ackWork (upTo : Nat → Bool) (h0 : P s) : P (State.ackWork s upTo) := by
  unfold State.ackWork
  repeat' first
    | with_reducible first
        | assumption | intro _ | apply hP.st | apply keeps_mirGo hP | apply keeps_tryRetire hP | apply keeps_each
    | simp only [hP.upd]
    | simp only [id_eq]
    | (extract_lets +onlyGivenNames x; refine (fun (hx : P x) => ?_) ?_; clear_value x; rotate_left; subst x; rotate_right)
    | (extract_lets +onlyGivenNames x; clear_value x)
    | (split; all_goals (rename_i heq; have e2 := congrArg Prod.snd heq; simp only at e2; subst e2))
    | split

theorem keeps_mirrorAckRx (m : Nat) (h0 : P s) : P (State.mirrorAckRx s m) := by
  unfold State.mirrorAckRx
  repeat' first
    | with_reducible first
        | assumption | intro _ | apply hP.set | apply keeps_ackGrd hP.regs | apply keeps_ackShr hP.regs
        | apply keeps_ackWork hP | apply keeps_ackXlt hP.regs | apply hP.ite
    | simp only [hP.upd]
    | simp only [id_eq]
    | (extract_lets +onlyGivenNames x; refine (fun (hx : P x) => ?_) ?_; clear_value x; rotate_left; subst x; rotate_right)
    | (extract_lets +onlyGivenNames x; clear_value x)
    | (split; all_goals (rename_i heq; have e2 := congrArg Prod.snd heq; simp only at e2; subst e2))
    | split

theorem keeps_hoStart (h0 : P s) : P (State.hoStart s).2 := by
  unfold State.hoStart
  repeat' first
    | with_reducible first | assumption | intro _ | apply hP.set | apply keeps_semEvt hP | apply hP.ite
    | simp only [hP.upd]
    | simp only [id_eq]
    | (extract_lets +onlyGivenNames x; refine (fun (hx : P x) => ?_) ?_; clear_value x; rotate_left; subst x; rotate_right)
    | (extract_lets +onlyGivenNames x; clear_value x)
    | (split; all_goals (rename_i heq; have e2 := congrArg Prod.snd heq; simp only at e2; subst e2))
    | split

theorem keeps_hoAccepted (h0 : P s) : P (State.hoAccepted s) := by
  unfold State.hoAccepted
  repeat' first
    | with_reducible first
        | assumption | apply hP.set | apply keeps_irqEval hP | apply keeps_logRecord hP | apply keeps_roleLines hP.regs
        | apply keeps_semEvt hP | apply keeps_toMode hP.regs
    | simp only [hP.upd]

end Sys2Proof.Machine
end

