-- ==== Sys2Proof/Laws/KeepsHost.lean ====
section
/-!
SUPPORT. Kept properties: link security, the host link, register accesses, configuration space and host memory requests.
-/
namespace Sys2Proof.Machine

variable {P : State → Prop} (hP : Keeps P) {s : State}
include hP

theorem keeps_spdmAt (stage : Nat) (g : State → State) (h_g : ∀ s, P s → P (g s)) (h0 : P s) :
    P (State.spdmAt s stage g) := by
  unfold State.spdmAt
  repeat' with_reducible first
        | assumption | intro _ | apply h_g | apply keeps_doeServes | apply keeps_spdmError hP.regs | apply hP.ite

theorem keeps_execGetCapabilities (h0 : P s) : Res.all P (execGetCapabilities s) := by
  unfold execGetCapabilities
  repeat' first
    | with_reducible first
        | assumption | intro _ | apply Res.all_next | apply keeps_doe hP.regs | apply keeps_spdmAt hP
    | simp only [hP.upd]

theorem keeps_execNegotiateAlgorithms (sig hash dhe aead : Bool) (h0 : P s) :
    Res.all P (execNegotiateAlgorithms sig hash dhe aead s) := by
  unfold execNegotiateAlgorithms
  repeat' first
    | with_reducible first
        | assumption | intro _ | apply Res.all_next | apply keeps_doe hP.regs | apply keeps_spdmAt hP
    | simp only [hP.upd]

theorem keeps_execGetDigests (h0 : P s) : Res.all P (execGetDigests s) := by
  unfold execGetDigests
  repeat' with_reducible first
        | assumption | intro _ | apply Res.all_next | apply keeps_doe hP.regs | apply keeps_drawBytes hP.regs
        | apply keeps_spdmAt hP

theorem keeps_execGetCertificate (slot off len : Nat) (h0 : P s) : Res.all P (execGetCertificate slot off len s) := by
  unfold execGetCertificate
  repeat' with_reducible first
        | assumption | intro _ | apply Res.all_next | apply keeps_doe hP.regs | apply keeps_drawBytes hP.regs
        | apply keeps_spdmAt hP | apply keeps_spdmError hP.regs | apply hP.ite

theorem keeps_execChallenge (slot : Nat) (h0 : P s) : Res.all P (execChallenge slot s) := by
  unfold execChallenge
  repeat' with_reducible first
        | assumption | intro _ | apply Res.all_next | apply keeps_doe hP.regs | apply keeps_drawBytes hP.regs
        | apply keeps_spdmAt hP | apply keeps_spdmError hP.regs | apply hP.ite

theorem keeps_measureAt (sign : Bool) (g : State → State) (h_g : ∀ s, P s → P (g s)) (h0 : P s) :
    P (State.measureAt s sign g) := by
  unfold State.measureAt
  repeat' with_reducible first
        | assumption | intro _ | apply h_g | apply keeps_doeServes | apply keeps_spdmAt hP
        | apply keeps_spdmError hP.regs | apply hP.ite

theorem keeps_execGetMeasurements (index : Nat) (sign : Bool) {s : State} (h : P s) :
    Res.all P (execGetMeasurements index sign s) := by
  have fold : ∀ (l : List Nat) (a : List Byte × State), P a.2 → P (l.foldl (fun (a : List Byte × State) i =>
      (a.1 ++ (a.2.measure i).1, (a.2.measure i).2)) a).2 := by
    intro l
    induction l with
    | nil => intro a ha; exact ha
    | cons i t ih => intro a ha; exact ih _ (keeps_measure hP.regs _ ha)
  have sig : ∀ s : State, P s → P (if sign then s.drawBytes 96 else ([], s)).2 := by
    intro s hs
    split
    · exact keeps_drawBytes hP.regs _ hs
    · exact hs
  unfold execGetMeasurements
  refine keeps_measureAt hP _ _ (fun s hs => ?_) h
  dsimp only
  refine hP.ite (keeps_doe hP.regs _ _ _ _ (sig _ hs)) (hP.ite ?_ (keeps_spdmError hP.regs _ _ hs))
  exact keeps_doe hP.regs _ _ _ _ (sig _ (fold _ _ hs))

theorem keeps_execKeyExchange (slot : Nat) {s : State} (h : P s) : Res.all P (execKeyExchange slot s) := by
  unfold execKeyExchange
  refine Res.all_next (keeps_spdmAt hP _ _ (fun s hs => ?_) h)
  refine hP.ite (keeps_spdmError hP.regs _ _ hs) (hP.ite (keeps_spdmError hP.regs _ _ hs) ?_)
  have h1 : P (s.drawBytes 96).2 := keeps_drawBytes hP.regs _ hs
  generalize s.drawBytes 96 = d at h1
  exact keeps_doe hP.regs _ _ _ _ (hP.congr (s := d.2) rfl rfl rfl rfl rfl rfl h1)

theorem keeps_ideFail (stream cause : Nat) (h0 : P s) : P (State.ideFail s stream cause) := by
  unfold State.ideFail
  repeat' with_reducible first
        | assumption | apply hP.set | apply keeps_evt hP | apply keeps_ideInsecure hP | apply keeps_orCfg hP

theorem keeps_execKSetStop (id stream kset dir sub : Nat) (h0 : P s) :
    Res.all P (execKSetStop id stream kset dir sub s) := by
  unfold execKSetStop
  repeat' first
    | with_reducible first
        | assumption | intro _ | apply Res.all_next | apply keeps_doe hP.regs | apply keeps_ideInsecure hP
        | apply keeps_inSession hP.regs | apply hP.ite
    | simp only [hP.upd]

theorem keeps_execStopInterface (id : Nat) (f : Fn) (h0 : P s) : Res.all P (execStopInterface id f s) := by
  unfold execStopInterface
  repeat' first
    | with_reducible first
        | assumption | intro _ | apply Res.all_next | apply keeps_irqEval hP | apply keeps_onTdi hP.regs
        | apply keeps_stopSettle hP | apply keeps_tdiUnlock hP.regs | apply keeps_tdisp hP.regs | apply hP.ite
    | simp only [hP.upd]

theorem keeps_zeroRange (lo hi : Nat) (h : P s) :
    P (State.zeroRange s lo hi) :=
  hP.keep (s := s) (fun _ => true) _ _ (fun _ => true) (fun _ => true) rfl (smKeep_true _).symm rfl rfl (smKeep_true _).symm
    (smKeep_true _).symm h

theorem keeps_zeroGo (h0 : P s) : P (State.zeroGo s) := by
  unfold State.zeroGo
  repeat' first
    | with_reducible first | assumption | apply hP.set | apply keeps_drsEvt hP | apply hP.ite
    | simp only [hP.upd]

theorem keeps_zeroAbort (h0 : P s) : P (State.zeroAbort s) := by
  unfold State.zeroAbort
  repeat' first
    | with_reducible first
        | assumption | apply hP.set | apply keeps_draw hP.regs | apply keeps_zeroRange hP | apply hP.ite
    | simp only [hP.upd]

theorem keeps_zeroDone (h0 : P s) : P (State.zeroDone s) := by
  unfold State.zeroDone
  repeat' first
    | with_reducible first
        | assumption | apply hP.set | apply keeps_drsEvt hP | apply keeps_zeroRange hP | apply hP.ite
    | simp only [hP.upd]

theorem keeps_execDrsZeroGo (h0 : P s) : Res.all P (execDrsZeroGo s) := by
  unfold execDrsZeroGo
  repeat' with_reducible first | assumption | intro _ | apply Res.all_next | apply keeps_zeroGo hP | apply keeps_when

theorem keeps_execDrsZeroAbort (h0 : P s) : Res.all P (execDrsZeroAbort s) := by
  unfold execDrsZeroAbort
  repeat' with_reducible first | assumption | intro _ | apply Res.all_next | apply keeps_zeroAbort hP | apply keeps_when

theorem keeps_execZeroComplete (h0 : P s) : Res.all P (execZeroComplete s) := by
  unfold execZeroComplete
  repeat' with_reducible first | assumption | apply Res.all_next | apply keeps_zeroDone hP

theorem keeps_execPatrolScrub (store : Bool) (gran : Fin 524288) (held : Bool) (err : MemErr) (h0 : P s) :
    Res.all P (execPatrolScrub store gran held err s) := by
  unfold execPatrolScrub
  repeat' with_reducible first | assumption | apply Res.all_next | apply hP.set | apply keeps_memRead hP | apply hP.ite

theorem keeps_execCeRateWindow (h0 : P s) : Res.all P (execCeRateWindow s) := by
  unfold execCeRateWindow
  repeat' first
    | with_reducible first
        | assumption | intro _ | apply Res.all_next | apply Res.all_ite | apply keeps_correctedLog hP
        | apply keeps_drsEvt hP | apply hP.ite
    | simp only [hP.upd]
    | simp only [id_eq]
    | (extract_lets +onlyGivenNames x; refine (fun (hx : P x) => ?_) ?_; clear_value x; rotate_left; subst x; rotate_right)
    | (extract_lets +onlyGivenNames x; clear_value x)
    | (split; all_goals (rename_i heq; have e2 := congrArg Prod.snd heq; simp only at e2; subst e2))
    | split

theorem keeps_dlFall (lt : Nat) (h0 : P s) : P (State.dlFall s lt) := by
  unfold State.dlFall
  repeat' first
    | with_reducible first
        | assumption | intro _ | apply hP.set | apply keeps_hstEvt hP | apply keeps_l1Leave hP.regs | apply keeps_each
        | apply hP.ite
    | simp only [hP.upd]
    | simp only [id_eq]
    | (extract_lets +onlyGivenNames x; refine (fun (hx : P x) => ?_) ?_; clear_value x; rotate_left; subst x; rotate_right)
    | (extract_lets +onlyGivenNames x; clear_value x)
    | (split; all_goals (rename_i heq; have e2 := congrArg Prod.snd heq; simp only at e2; subst e2))
    | split

theorem keeps_surprise (h0 : P s) : P (State.surprise s) := by
  unfold State.surprise
  repeat' with_reducible first
        | assumption | apply keeps_contain hP | apply keeps_dlFall hP | apply keeps_hstEvt hP | apply hP.ite

theorem keeps_recover (h0 : P s) : P (State.recover s) := by
  unfold State.recover
  repeat' first
    | with_reducible first
        | assumption | intro _ | apply hP.set | apply keeps_count hP.regs | apply keeps_hstEvt hP
        | apply keeps_limTake hP.regs | apply hP.ite
    | simp only [hP.upd]
    | simp only [id_eq]
    | (extract_lets +onlyGivenNames x; refine (fun (hx : P x) => ?_) ?_; clear_value x; rotate_left; subst x; rotate_right)
    | (extract_lets +onlyGivenNames x; clear_value x)
    | (split; all_goals (rename_i heq; have e2 := congrArg Prod.snd heq; simp only at e2; subst e2))
    | split

theorem keeps_ownRecover (h0 : P s) : P (State.ownRecover s) := by
  unfold State.ownRecover
  repeat' with_reducible first | assumption | apply keeps_recover hP | apply keeps_send hP.regs | apply hP.ite

theorem keeps_flitReplay (n : Nat) (h0 : P s) : P (State.flitReplay s n) := by
  unfold State.flitReplay
  repeat' first
    | with_reducible first | assumption | intro _ | apply keeps_aer hP | apply keeps_count hP.regs | apply hP.ite
    | simp only [hP.upd]
    | simp only [id_eq]
    | (extract_lets +onlyGivenNames x; refine (fun (hx : P x) => ?_) ?_; clear_value x; rotate_left; subst x; rotate_right)
    | (extract_lets +onlyGivenNames x; clear_value x)
    | (split; all_goals (rename_i heq; have e2 := congrArg Prod.snd heq; simp only at e2; subst e2))
    | split

theorem keeps_laneExclude (p : Nat) (h0 : P s) : P (State.laneExclude s p) := by
  unfold State.laneExclude
  repeat' first
    | with_reducible first
        | assumption | intro _ | apply hP.set | apply keeps_correctedLog hP | apply keeps_hstEvt hP
    | simp only [hP.upd]
    | simp only [id_eq]
    | (extract_lets +onlyGivenNames x; refine (fun (hx : P x) => ?_) ?_; clear_value x; rotate_left; subst x; rotate_right)
    | (extract_lets +onlyGivenNames x; clear_value x)
    | (split; all_goals (rename_i heq; have e2 := congrArg Prod.snd heq; simp only at e2; subst e2))
    | split

theorem keeps_linkAt (t : HostTrain) (flit : Bool) (h0 : P s) : P (State.linkAt s t flit) := by
  unfold State.linkAt
  repeat' first
    | with_reducible first
        | assumption | intro _ | apply hP.set | apply keeps_count hP.regs | apply keeps_eqTake hP.regs
        | apply keeps_flitReplay hP | apply keeps_hstEvt hP | apply keeps_laneExclude hP
        | apply keeps_widthTrained hP.regs | apply keeps_each | apply keeps_when | apply hP.ite
    | simp only [hP.upd]
    | simp only [id_eq]
    | (extract_lets +onlyGivenNames x; refine (fun (hx : P x) => ?_) ?_; clear_value x; rotate_left; subst x; rotate_right)
    | (extract_lets +onlyGivenNames x; clear_value x)
    | (split; all_goals (rename_i heq; have e2 := congrArg Prod.snd heq; simp only at e2; subst e2))
    | split

theorem keeps_laneAct (h0 : P s) : P (State.laneAct s) := by
  unfold State.laneAct
  repeat' first
    | with_reducible first
        | assumption | intro _ | apply keeps_ownRecover hP | apply keeps_send hP.regs | apply hP.ite
    | simp only [hP.upd]
    | simp only [id_eq]
    | (extract_lets +onlyGivenNames x; refine (fun (hx : P x) => ?_) ?_; clear_value x; rotate_left; subst x; rotate_right)
    | (extract_lets +onlyGivenNames x; clear_value x)
    | (split; all_goals (rename_i heq; have e2 := congrArg Prod.snd heq; simp only at e2; subst e2))
    | split

theorem keeps_hostLanesFail (ps : List Nat) (h0 : P s) : P (State.hostLanesFail s ps) := by
  unfold State.hostLanesFail
  repeat' first
    | with_reducible first
        | assumption | intro _ | apply keeps_laneAct hP | apply keeps_laneExclude hP | apply keeps_each | apply hP.ite
    | simp only [hP.upd]
    | simp only [id_eq]
    | (extract_lets +onlyGivenNames x; refine (fun (hx : P x) => ?_) ?_; clear_value x; rotate_left; subst x; rotate_right)
    | (extract_lets +onlyGivenNames x; clear_value x)
    | (split; all_goals (rename_i heq; have e2 := congrArg Prod.snd heq; simp only at e2; subst e2))
    | split

theorem keeps_perstUp (h0 : P s) : P (State.perstUp s) := by
  unfold State.perstUp
  repeat' with_reducible first
        | assumption | apply keeps_clkChoose hP.regs | apply keeps_fullFace hP | apply keeps_vfTake hP | apply hP.ite

theorem keeps_moduleWake (src : Nat) (h0 : P s) : P (State.moduleWake s src) := by
  unfold State.moduleWake
  repeat' first
    | with_reducible first
        | assumption | intro _ | apply keeps_moduleReset hP | apply keeps_pwrEvt hP | apply keeps_wakeAssert hP.regs
        | apply keeps_wakeRecord hP.regs | apply hP.ite
    | simp only [hP.upd]
    | simp only [id_eq]
    | (extract_lets +onlyGivenNames x; refine (fun (hx : P x) => ?_) ?_; clear_value x; rotate_left; subst x; rotate_right)
    | (extract_lets +onlyGivenNames x; clear_value x)
    | (split; all_goals (rename_i heq; have e2 := congrArg Prod.snd heq; simp only at e2; subst e2))
    | split

theorem keeps_execPerstAssert (h0 : P s) : Res.all P (execPerstAssert s) := by
  unfold execPerstAssert
  repeat' first
    | with_reducible first
        | assumption | apply Res.all_next | apply keeps_dlFall hP | apply keeps_hostFaceReset hP | apply keeps_hstEvt hP
        | apply keeps_moduleReset hP | apply hP.ite
    | simp only [hP.upd]

theorem keeps_perstWake (h0 : P s) : P (State.perstWake s) := by
  unfold State.perstWake
  repeat' with_reducible first | assumption | apply keeps_moduleWake hP | apply hP.ite

theorem keeps_execPerstDeassert (h0 : P s) : Res.all P (execPerstDeassert s) := by
  unfold execPerstDeassert
  repeat' first
    | with_reducible first
        | assumption | apply Res.all_next | apply keeps_hstEvt hP | apply keeps_perstUp hP | apply keeps_perstWake hP
        | apply keeps_wakeRelease hP.regs | apply hP.ite
    | simp only [hP.upd]

theorem keeps_execHotResetRx (h0 : P s) : Res.all P (execHotResetRx s) := by
  unfold execHotResetRx
  repeat' with_reducible first
        | assumption | intro _ | apply Res.all_next | apply keeps_dlFall hP | apply keeps_hostFaceReset hP
        | apply keeps_hstEvt hP | apply keeps_when

theorem keeps_execLinkDisableRx (h0 : P s) : Res.all P (execLinkDisableRx s) := by
  unfold execLinkDisableRx
  repeat' first
    | with_reducible first
        | assumption | intro _ | apply Res.all_next | apply Res.all_ite | apply keeps_dlFall hP | apply keeps_dropTlps hP
        | apply keeps_holdTags hP | apply keeps_hstEvt hP | apply keeps_when
    | simp only [hP.upd]
    | simp only [id_eq]
    | (extract_lets +onlyGivenNames x; refine (fun (hx : P x) => ?_) ?_; clear_value x; rotate_left; subst x; rotate_right)
    | (extract_lets +onlyGivenNames x; clear_value x)
    | (split; all_goals (rename_i heq; have e2 := congrArg Prod.snd heq; simp only at e2; subst e2))
    | split

theorem keeps_execLinkDisableExit (h0 : P s) : Res.all P (execLinkDisableExit s) := by
  unfold execLinkDisableExit
  repeat' with_reducible first
        | assumption | intro _ | apply Res.all_next | apply hP.set | apply keeps_hostFaceReset hP | apply keeps_when

theorem keeps_execDlDown (h0 : P s) : Res.all P (execDlDown s) := by
  unfold execDlDown
  repeat' with_reducible first | assumption | intro _ | apply Res.all_next | apply keeps_surprise hP | apply keeps_when

theorem keeps_dlRise (t : HostTrain) (flit l0p : Bool) (h0 : P s) : P (State.dlRise s t flit l0p) := by
  unfold State.dlRise
  repeat' first
    | with_reducible first
        | assumption | intro _ | apply hP.set | apply keeps_hostFlush hP | apply keeps_hstEvt hP
        | apply keeps_limTake hP.regs | apply keeps_linkAt hP
    | simp only [hP.upd]
    | simp only [id_eq]
    | (extract_lets +onlyGivenNames x; refine (fun (hx : P x) => ?_) ?_; clear_value x; rotate_left; subst x; rotate_right)
    | (extract_lets +onlyGivenNames x; clear_value x)
    | (split; all_goals (rename_i heq; have e2 := congrArg Prod.snd heq; simp only at e2; subst e2))
    | split

theorem keeps_execDlUp (t : HostTrain) (flit l0p : Bool) (h0 : P s) : Res.all P (execDlUp t flit l0p s) := by
  unfold execDlUp
  repeat' first
    | with_reducible first
        | assumption | intro _ | apply Res.all_next | apply Res.all_ite | apply keeps_dlRise hP | apply keeps_when
    | simp only [hP.upd]
    | simp only [id_eq]
    | (extract_lets +onlyGivenNames x; refine (fun (hx : P x) => ?_) ?_; clear_value x; rotate_left; subst x; rotate_right)
    | (extract_lets +onlyGivenNames x; clear_value x)
    | (split; all_goals (rename_i heq; have e2 := congrArg Prod.snd heq; simp only at e2; subst e2))
    | split

theorem keeps_execRefclkLoss (h0 : P s) : Res.all P (execRefclkLoss s) := by
  unfold execRefclkLoss
  repeat' with_reducible first
        | assumption | intro _ | apply Res.all_next | apply hP.set | apply keeps_surprise hP | apply keeps_when

theorem keeps_execLaneErrWindowEnd (errs margin : List Nat) (replayed : Nat) (h0 : P s) :
    Res.all P (execLaneErrWindowEnd errs margin replayed s) := by
  unfold execLaneErrWindowEnd
  repeat' first
    | with_reducible first
        | assumption | intro _ | apply Res.all_next | apply Res.all_ite | apply keeps_count hP.regs
        | apply keeps_flitReplay hP | apply keeps_hostLanesFail hP | apply keeps_margErrs hP.regs | apply keeps_each
        | apply keeps_when | apply hP.ite
    | simp only [hP.upd]
    | simp only [id_eq]
    | (extract_lets +onlyGivenNames x; refine (fun (hx : P x) => ?_) ?_; clear_value x; rotate_left; subst x; rotate_right)
    | (extract_lets +onlyGivenNames x; clear_value x)
    | (split; all_goals (rename_i heq; have e2 := congrArg Prod.snd heq; simp only at e2; subst e2))
    | split

theorem keeps_execRecoveryEntry (h0 : P s) : Res.all P (execRecoveryEntry s) := by
  unfold execRecoveryEntry
  repeat' with_reducible first | assumption | intro _ | apply Res.all_next | apply keeps_recover hP | apply keeps_when

theorem keeps_execRecoveryDone (t : HostTrain) (h0 : P s) : Res.all P (execRecoveryDone t s) := by
  unfold execRecoveryDone
  repeat' first
    | with_reducible first
        | assumption | intro _ | apply Res.all_next | apply Res.all_ite | apply keeps_hostFlush hP | apply keeps_linkAt hP
        | apply keeps_when
    | simp only [hP.upd]
    | simp only [id_eq]
    | (extract_lets +onlyGivenNames x; refine (fun (hx : P x) => ?_) ?_; clear_value x; rotate_left; subst x; rotate_right)
    | (extract_lets +onlyGivenNames x; clear_value x)
    | (split; all_goals (rename_i heq; have e2 := congrArg Prod.snd heq; simp only at e2; subst e2))
    | split

theorem keeps_execAutoRewiden (h0 : P s) : Res.all P (execAutoRewiden s) := by
  unfold execAutoRewiden
  repeat' with_reducible first
        | assumption | intro _ | apply Res.all_next | apply hP.set | apply keeps_ownRecover hP | apply keeps_when

theorem keeps_execHstRetrain (h0 : P s) : Res.all P (execHstRetrain s) := by
  unfold execHstRetrain
  repeat' with_reducible first | assumption | intro _ | apply Res.all_next | apply keeps_ownRecover hP | apply keeps_when

theorem keeps_execL0pWidthChangeDone (width : Fin 17) (h0 : P s) : Res.all P (execL0pWidthChangeDone width s) := by
  unfold execL0pWidthChangeDone
  repeat' first
    | with_reducible first
        | assumption | intro _ | apply Res.all_next | apply Res.all_ite | apply hP.set | apply keeps_hstEvt hP
        | apply keeps_laneAct hP | apply keeps_when | apply hP.ite
    | simp only [hP.upd]
    | simp only [id_eq]
    | (extract_lets +onlyGivenNames x; refine (fun (hx : P x) => ?_) ?_; clear_value x; rotate_left; subst x; rotate_right)
    | (extract_lets +onlyGivenNames x; clear_value x)
    | (split; all_goals (rename_i heq; have e2 := congrArg Prod.snd heq; simp only at e2; subst e2))
    | split

theorem keeps_execL1Exit (h0 : P s) : Res.all P (execL1Exit s) := by
  unfold execL1Exit
  repeat' first
    | with_reducible first
        | assumption | intro _ | apply Res.all_next | apply Res.all_ite | apply hP.set | apply keeps_hostFlush hP
        | apply keeps_l1Leave hP.regs | apply keeps_when
    | simp only [hP.upd]
    | simp only [id_eq]
    | (extract_lets +onlyGivenNames x; refine (fun (hx : P x) => ?_) ?_; clear_value x; rotate_left; subst x; rotate_right)
    | (extract_lets +onlyGivenNames x; clear_value x)
    | (split; all_goals (rename_i heq; have e2 := congrArg Prod.snd heq; simp only at e2; subst e2))
    | split

theorem keeps_execPmeToAckSend (expired : Bool) (h0 : P s) : Res.all P (execPmeToAckSend expired s) := by
  unfold execPmeToAckSend
  repeat' first
    | with_reducible first
        | assumption | intro _ | apply Res.all_next | apply Res.all_ite | apply hP.st | apply keeps_clkreq hP.regs
        | apply keeps_dlFall hP | apply keeps_dropTlps hP | apply keeps_holdTags hP | apply keeps_hstEvt hP
        | apply keeps_send hP.regs | apply keeps_standbyStart hP.regs | apply keeps_when | apply hP.ite
    | simp only [hP.upd]
    | simp only [id_eq]
    | (extract_lets +onlyGivenNames x; refine (fun (hx : P x) => ?_) ?_; clear_value x; rotate_left; subst x; rotate_right)
    | (extract_lets +onlyGivenNames x; clear_value x)
    | (split; all_goals (rename_i heq; have e2 := congrArg Prod.snd heq; simp only at e2; subst e2))
    | split

theorem keeps_execPostedCreditGrant (n : Nat) (h0 : P s) : Res.all P (execPostedCreditGrant n s) := by
  unfold execPostedCreditGrant
  repeat' first
    | with_reducible first | assumption | intro _ | apply Res.all_next | apply keeps_jFlush hP | apply keeps_when
    | simp only [hP.upd]

theorem keeps_irqClaim (c : Nat) (h0 : P s) : P (State.irqClaim s c) := by
  unfold State.irqClaim
  repeat' first
    | with_reducible first
        | assumption | apply keeps_count hP.regs | apply keeps_irqEval hP | apply keeps_setPend hP
        | apply keeps_stormCount hP
    | simp only [hP.upd]
    | split

theorem keeps_regRead (w : Who) (r : Reg) (i o n : Nat) (h0 : P s) : P (State.regRead s w r i o n).2 := by
  unfold State.regRead
  repeat' first
    | with_reducible first
        | assumption | apply keeps_irqClaim hP | apply keeps_mbxClaim hP | apply keeps_readClear hP.regs
    | split

theorem keeps_entEnd (e : LEnt) (h0 : P s) : P (State.entEnd s e) := by
  unfold State.entEnd
  repeat' first
    | with_reducible first
        | assumption | apply keeps_answer hP | apply keeps_dropLock hP.regs | apply keeps_finish hP
        | apply keeps_finishRead hP | apply keeps_groupPiece hP | apply keeps_retire hP.regs
    | simp only [hP.upd]
    | split

theorem keeps_waitEnd (w : LWait) (h0 : P s) : P (State.waitEnd s w) := by
  unfold State.waitEnd
  repeat' first
    | with_reducible first | assumption | apply keeps_entEnd hP
    | simp only [hP.upd]

theorem keeps_heldEnd (h0 : P s) : P (State.heldEnd s) := by
  unfold State.heldEnd
  repeat' first
    | with_reducible first | assumption | intro _ | apply keeps_portReadEnd hP | apply keeps_each
    | simp only [hP.upd]
    | simp only [id_eq]
    | (extract_lets +onlyGivenNames x; refine (fun (hx : P x) => ?_) ?_; clear_value x; rotate_left; subst x; rotate_right)
    | (extract_lets +onlyGivenNames x; clear_value x)
    | (split; all_goals (rename_i heq; have e2 := congrArg Prod.snd heq; simp only at e2; subst e2))
    | split

theorem keeps_releaseFollow (h0 : P s) : P (State.releaseFollow s) := by
  unfold State.releaseFollow
  repeat' with_reducible first
        | assumption | intro _ | apply hP.set | apply keeps_entEnd hP | apply keeps_heldEnd hP | apply keeps_logRecord hP
        | apply keeps_seamSend hP.regs | apply keeps_waitEnd hP | apply keeps_each

theorem keeps_releaseLead (h0 : P s) : P (State.releaseLead s) := by
  unfold State.releaseLead
  repeat' with_reducible first
        | assumption | intro _ | apply keeps_heldEnd hP | apply keeps_ledgerAnswer hP | apply keeps_each | apply hP.ite

theorem keeps_releaseRun (m : Mode) (h0 : P s) : P (State.releaseRun s m) := by
  unfold State.releaseRun
  repeat' first
    | with_reducible first
        | assumption | intro _ | apply hP.set | apply keeps_chStopEnd hP | apply keeps_evq hP | apply keeps_hardAbort hP
        | apply keeps_heldRelease hP | apply keeps_hostFlush hP | apply keeps_irqEval hP | apply keeps_jFlush hP
        | apply keeps_undrainChan hP.regs | apply keeps_withLevels hP | apply keeps_each | apply hP.ite
    | simp only [hP.upd]
    | simp only [id_eq]
    | (extract_lets +onlyGivenNames x; refine (fun (hx : P x) => ?_) ?_; clear_value x; rotate_left; subst x; rotate_right)
    | (extract_lets +onlyGivenNames x; clear_value x)
    | (split; all_goals (rename_i heq; have e2 := congrArg Prod.snd heq; simp only at e2; subst e2))
    | split

theorem keeps_contRelease (key : Nat) (h0 : P s) : P (State.contRelease s key) := by
  unfold State.contRelease
  repeat' with_reducible first
        | assumption | apply hP.set | apply keeps_releaseFollow hP | apply keeps_releaseLead hP
        | apply keeps_releaseRun hP | apply keeps_roleLine hP.regs | apply keeps_starchSettle hP | apply hP.ite

theorem keeps_regPlain (r : Reg) (i v m : Nat) (h0 : P s) : P (State.regPlain s r i v m) := by
  unfold State.regPlain
  repeat' with_reducible first | assumption | intro _ | apply keeps_regStore hP.regs | apply keeps_withLevels hP

theorem keeps_irqComplete (c src : Nat) (h0 : P s) : P (State.irqComplete s c src) := by
  unfold State.irqComplete
  repeat' first
    | with_reducible first | assumption | apply hP.set | apply keeps_irqEval hP | apply keeps_setPend hP
    | simp only [hP.upd]
    | split

theorem keeps_stormClear (n v : Nat) (h0 : P s) : P (State.stormClear s n v) := by
  unfold State.stormClear
  repeat' first
    | with_reducible first
        | assumption | intro _ | apply keeps_fldPut hP.regs | apply keeps_irqEval hP | apply keeps_each
    | simp only [hP.upd]

theorem keeps_irqWrite (w : Who) (r : Reg) (i v m : Nat) (h0 : P s) : P (State.irqWrite s w r i v m) := by
  unfold State.irqWrite
  repeat' first
    | with_reducible first
        | assumption | intro _ | apply keeps_aliasWrite hP | apply keeps_doorbell hP | apply keeps_irqComplete hP
        | apply keeps_irqEval hP | apply keeps_mirVal hP.regs | apply keeps_regPlain hP | apply keeps_stormClear hP
        | apply hP.ite
    | dsimp only
    | simp only [id_eq]
    | (extract_lets +onlyGivenNames x; refine (fun (hx : P x) => ?_) ?_; clear_value x; rotate_left; subst x; rotate_right)
    | (extract_lets +onlyGivenNames x; clear_value x)
    | (split; all_goals (rename_i heq; have e2 := congrArg Prod.snd heq; simp only at e2; subst e2))
    | split

theorem keeps_hstWrite (r : Reg) (i v m : Nat) (h0 : P s) : P (State.hstWrite s r i v m) := by
  unfold State.hstWrite
  repeat' first
    | with_reducible first
        | assumption | apply keeps_contRelease hP | apply keeps_contain hP | apply keeps_ownRecover hP
        | apply keeps_regPlain hP
    | split

theorem keeps_fnResWrite (f v m : Nat) (h0 : P s) : P (State.fnResWrite s f v m) := by
  unfold State.fnResWrite
  repeat' with_reducible first
        | assumption | apply hP.set | apply keeps_mirVal hP.regs | apply keeps_regPlain hP | apply hP.ite

theorem keeps_sliceWrite (k v m : Nat) (h0 : P s) : P (State.sliceWrite s k v m) := by
  unfold State.sliceWrite
  repeat' with_reducible first
        | assumption | apply hP.set | apply keeps_irqEval hP | apply keeps_mirVal hP.regs | apply keeps_regPlain hP
        | apply hP.ite

theorem keeps_fnWrite (r : Reg) (i v m : Nat) (h0 : P s) : P (State.fnWrite s r i v m) := by
  unfold State.fnWrite
  repeat' first
    | with_reducible first
        | assumption | apply hP.set | apply keeps_fnContRelease hP | apply keeps_fnContain hP | apply keeps_fnResWrite hP
        | apply keeps_irqEval hP | apply keeps_mirVal hP.regs | apply keeps_regPlain hP | apply keeps_sliceWrite hP
    | split

theorem keeps_xltWriteReg (r : Reg) (i v m : Nat) (h0 : P s) : P (State.xltWriteReg s r i v m) := by
  unfold State.xltWriteReg
  repeat' first
    | with_reducible first
        | assumption | apply hP.set | apply keeps_regPlain hP | apply keeps_tblBaseWrite hP.regs
        | apply keeps_xltAdvance hP.regs | apply keeps_xltCmd hP.regs
    | split

theorem keeps_grdWriteReg (w : Who) (r : Reg) (i v m : Nat) (h0 : P s) : P (State.grdWriteReg s w r i v m) := by
  unfold State.grdWriteReg
  repeat' first
    | with_reducible first
        | assumption | intro _ | apply hP.set | apply keeps_grdAdvance hP.regs | apply keeps_grdCmd hP.regs
        | apply keeps_regPlain hP | apply hP.ite
    | dsimp only
    | simp only [id_eq]
    | (extract_lets +onlyGivenNames x; refine (fun (hx : P x) => ?_) ?_; clear_value x; rotate_left; subst x; rotate_right)
    | (extract_lets +onlyGivenNames x; clear_value x)
    | (split; all_goals (rename_i heq; have e2 := congrArg Prod.snd heq; simp only at e2; subst e2))
    | split

theorem keeps_dmaStart (c : Nat) (h0 : P s) : P (State.dmaStart s c) := by
  unfold State.dmaStart
  repeat' with_reducible first | assumption | apply hP.set | apply keeps_chStart hP | apply hP.ite

theorem keeps_dmaAbort (c : Nat) (h0 : P s) : P (State.dmaAbort s c) := by
  unfold State.dmaAbort
  repeat' with_reducible first | assumption | apply keeps_chStopEnd hP | apply keeps_softAbort hP.regs

theorem keeps_dmaResume (c : Nat) (h0 : P s) : P (State.dmaResume s c) := by
  unfold State.dmaResume
  repeat' first
    | with_reducible first
        | assumption | intro _ | apply hP.set | apply keeps_chFinish hP | apply keeps_setChan hP.regs | apply hP.ite
    | dsimp only
    | simp only [id_eq]
    | (extract_lets +onlyGivenNames x; refine (fun (hx : P x) => ?_) ?_; clear_value x; rotate_left; subst x; rotate_right)
    | (extract_lets +onlyGivenNames x; clear_value x)
    | (split; all_goals (rename_i heq; have e2 := congrArg Prod.snd heq; simp only at e2; subst e2))
    | split

theorem keeps_dmaCtl (c v : Nat) (h0 : P s) : P (State.dmaCtl s c v) := by
  unfold State.dmaCtl
  repeat' with_reducible first
        | assumption | apply keeps_dmaAbort hP | apply keeps_dmaClear hP.regs | apply keeps_dmaResume hP
        | apply keeps_dmaStart hP | apply hP.ite

theorem keeps_dmaCfg (c v m : Nat) (h0 : P s) : P (State.dmaCfg s c v m) := by
  unfold State.dmaCfg
  repeat' with_reducible first | assumption | apply keeps_mirVal hP.regs | apply keeps_regPlain hP | apply hP.ite

theorem keeps_dmaGrant (g v m : Nat) (h0 : P s) : P (State.dmaGrant s g v m) := by
  unfold State.dmaGrant
  repeat' with_reducible first
        | assumption | apply hP.set | apply keeps_mirVal hP.regs | apply keeps_regPlain hP | apply hP.ite

theorem keeps_dmaRing (x v : Nat) (h0 : P s) : P (State.dmaRing s x v) := by
  unfold State.dmaRing
  repeat' with_reducible first
        | assumption | intro _ | apply keeps_mirVal hP.regs | apply keeps_ringReset hP.regs | apply keeps_ringResume hP
        | apply keeps_withLevels hP | apply hP.ite

theorem keeps_dmaWrite (r : Reg) (i v m : Nat) (h0 : P s) : P (State.dmaWrite s r i v m) := by
  unfold State.dmaWrite
  repeat' first
    | with_reducible first
        | assumption | apply keeps_dmaCfg hP | apply keeps_dmaCtl hP | apply keeps_dmaGrant hP | apply keeps_dmaRing hP
        | apply keeps_mirVal hP.regs | apply keeps_regPlain hP | apply keeps_ringPendRec hP | apply keeps_sqSettle hP.regs
    | split

theorem keeps_shrWrite (r : Reg) (i v m : Nat) (h0 : P s) : P (State.shrWrite s r i v m) := by
  unfold State.shrWrite
  repeat' first
    | with_reducible first
        | assumption | apply hP.set | apply keeps_ctxBind hP.regs | apply keeps_regPlain hP | apply keeps_shrUpdCmd hP
        | apply hP.ite
    | split

theorem keeps_laneWrite (r : Reg) (i v m : Nat) (h0 : P s) : P (State.laneWrite s r i v m) := by
  unfold State.laneWrite
  repeat' first
    | with_reducible first
        | assumption | intro _ | apply hP.set | apply keeps_enableWrite hP | apply keeps_forceAll hP
        | apply keeps_forceWrite hP | apply keeps_regPlain hP | apply keeps_retrain hP | apply keeps_trialNow hP.regs
        | apply hP.ite
    | dsimp only
    | simp only [id_eq]
    | (extract_lets +onlyGivenNames x; refine (fun (hx : P x) => ?_) ?_; clear_value x; rotate_left; subst x; rotate_right)
    | (extract_lets +onlyGivenNames x; clear_value x)
    | (split; all_goals (rename_i heq; have e2 := congrArg Prod.snd heq; simp only at e2; subst e2))
    | split

theorem keeps_ulkWrite (r : Reg) (i v m : Nat) (h0 : P s) : P (State.ulkWrite s r i v m) := by
  unfold State.ulkWrite
  repeat' first
    | with_reducible first
        | assumption | apply hP.set | apply keeps_regPlain hP | apply keeps_sbEffective hP.regs
        | apply keeps_sbLatchWrite hP.regs | apply keeps_sbOutWrite hP.regs | apply keeps_ulkEnWrite hP
        | apply keeps_ulkReset hP | apply hP.ite
    | split

theorem keeps_semWrite (r : Reg) (i v m : Nat) (h0 : P s) : P (State.semWrite s r i v m) := by
  unfold State.semWrite
  repeat' first
    | with_reducible first
        | assumption | apply keeps_hoStart hP | apply keeps_leavePair hP | apply keeps_regPlain hP
        | apply keeps_semSnap hP.regs | apply hP.ite
    | split

theorem keeps_sysWrite (r : Reg) (i v m : Nat) (h0 : P s) : P (State.sysWrite s r i v m) := by
  unfold State.sysWrite
  repeat' first
    | with_reducible first
        | assumption | apply hP.set | apply keeps_coreEdge hP | apply keeps_domRequest hP | apply keeps_regPlain hP
        | apply keeps_slewStop hP.regs | apply keeps_timeStep hP.regs
    | simp only [hP.upd]
    | split

theorem keeps_regDo (w : Who) (r : Reg) (i v m : Nat) (h0 : P s) : P (State.regDo s w r i v m) := by
  unfold State.regDo
  repeat' first
    | with_reducible first
        | assumption | apply keeps_dmaWrite hP | apply keeps_fnWrite hP | apply keeps_grdWriteReg hP
        | apply keeps_hstWrite hP | apply keeps_irqWrite hP | apply keeps_laneWrite hP | apply keeps_mbxDone hP
        | apply keeps_memSnap hP.regs | apply keeps_mirVal hP.regs | apply keeps_regPlain hP | apply keeps_semWrite hP
        | apply keeps_shrWrite hP | apply keeps_sysWrite hP | apply keeps_ulkWrite hP | apply keeps_xltWriteReg hP
        | apply keeps_zeroAbort hP | apply keeps_zeroGo hP
    | split

theorem keeps_regWrite (w : Who) (view : Option (Nat × Nat)) (r : Reg) (i o : Nat) (data : List Byte) (h0 : P s) :
    P (State.regWrite s w view r i o data) := by
  unfold State.regWrite
  repeat' first
    | with_reducible first | assumption | apply keeps_regDo hP | apply keeps_viewDeny hP.regs | apply hP.ite
    | split

theorem keeps_blockRead (w : Who) (b : Block) (off n : Nat) (h : P s) :
    P (State.blockRead s w b off n).2 := by
  unfold State.blockRead
  generalize regCut b off n = l
  have key : ∀ (a : List Byte × State), P a.2 → P (l.foldl (fun (acc : List Byte × State) c =>
    match regFind b (off + c.1) with
    | some (r, i, o) =>
      let (v, s) := acc.2.regRead w r i o c.2
      (acc.1 ++ wordPart v o c.2, s)
    | none => (acc.1 ++ List.replicate c.2 0, acc.2)) a).2 := by
    induction l with
    | nil => intro a ha; exact ha
    | cons c t ih =>
      intro a ha
      refine ih _ ?_
      dsimp only
      split
      · exact keeps_regRead hP _ _ _ _ _ ha
      · exact ha
  exact key _ h

theorem keeps_blockWrite (w : Who) (view : Option (Nat × Nat)) (b : Block) (off : Nat) (data : List Byte) (h0 : P s) :
    P (State.blockWrite s w view b off data) := by
  unfold State.blockWrite
  repeat' first
    | with_reducible first | assumption | intro _ | apply keeps_regWrite hP | apply keeps_each
    | split

theorem keeps_regAccess (r : Req) (b off : Nat) (h0 : P s) : P (State.regAccess s r b off) := by
  unfold State.regAccess
  repeat' first
    | with_reducible first
        | assumption | apply keeps_blockRead hP | apply keeps_blockWrite hP | apply keeps_finish hP
        | apply keeps_grdDrainRead hP.regs | apply keeps_offAccess hP.regs | apply keeps_retire hP.regs
        | apply keeps_unmapped hP | apply keeps_viewDeny hP.regs | apply keeps_xltDrainRead hP.regs | apply hP.ite
    | split

theorem keeps_msixWrite (f off : Nat) (data : List Byte) (be : List Bool) (h0 : P s) :
    P (State.msixWrite s f off data be) := by
  unfold State.msixWrite
  repeat' with_reducible first
        | assumption | intro _ | apply keeps_irqEval hP | apply keeps_setMsixB hP | apply keeps_each

theorem keeps_itemAccess (r : Req) (h0 : P s) : P (State.itemAccess s r) := by
  unfold State.itemAccess
  repeat' first
    | with_reducible first
        | assumption | apply keeps_ctxDoorbell hP | apply keeps_finish hP | apply keeps_msixWrite hP
        | apply keeps_retire hP.regs | apply keeps_unmapped hP | apply keeps_viewDeny hP.regs
    | dsimp only
    | split

theorem keeps_unlock (r : Req) (h0 : P s) : P (State.unlock s r) := by
  unfold State.unlock
  repeat' first
    | with_reducible first
        | assumption | intro _ | apply keeps_dropExpl hP.regs | apply keeps_finish hP | apply hP.ite
    | simp only [hP.upd]
    | simp only [id_eq]
    | (extract_lets +onlyGivenNames x; refine (fun (hx : P x) => ?_) ?_; clear_value x; rotate_left; subst x; rotate_right)
    | (extract_lets +onlyGivenNames x; clear_value x)
    | (split; all_goals (rename_i heq; have e2 := congrArg Prod.snd heq; simp only at e2; subst e2))
    | split

theorem keeps_deliver (r : Req) (h0 : P s) : P (State.deliver s r) := by
  unfold State.deliver
  repeat' first
    | with_reducible first
        | assumption | apply keeps_deliverDma hP | apply keeps_deliverMem hP | apply keeps_itemAccess hP
        | apply keeps_regAccess hP | apply keeps_unlock hP
    | split

theorem keeps_enterReq (r : Req) (h0 : P s) : P (State.enterReq s r) := by
  unfold State.enterReq
  repeat' with_reducible first
        | assumption | intro _ | apply keeps_deliver hP | apply keeps_govEnter hP.regs | apply keeps_stage hP
        | apply keeps_starchSettle hP

theorem keeps_admitReq (r : Req) (h0 : P s) : P (State.admitReq s r) := by
  unfold State.admitReq
  repeat' first
    | with_reducible first | assumption | intro _ | apply keeps_enterReq hP | apply hP.ite
    | simp only [hP.upd]
    | simp only [id_eq]
    | (extract_lets +onlyGivenNames x; refine (fun (hx : P x) => ?_) ?_; clear_value x; rotate_left; subst x; rotate_right)
    | (extract_lets +onlyGivenNames x; clear_value x)
    | (split; all_goals (rename_i heq; have e2 := congrArg Prod.snd heq; simp only at e2; subst e2))
    | split

theorem keeps_pasidRefuse (r : Req) (cause : Nat) (h0 : P s) : P (State.pasidRefuse s r cause) := by
  unfold State.pasidRefuse
  repeat' with_reducible first | assumption | intro _ | apply keeps_hostRefuse hP.regs | apply keeps_writeDropped hP

theorem keeps_hostPasid (r : Req) (p : Pasid) (h0 : P s) : P (State.hostPasid s r p) := by
  unfold State.hostPasid
  repeat' first
    | with_reducible first | assumption | apply keeps_admitReq hP | apply keeps_pasidRefuse hP
    | split

theorem keeps_submit (r : Req) (p : Pasid) (h0 : P s) : P (State.submit s r p) := by
  unfold State.submit
  repeat' first
    | with_reducible first
        | assumption | intro _ | apply keeps_aer hP | apply keeps_count hP.regs | apply keeps_followRefuse hP.regs
        | apply keeps_guardFault hP | apply keeps_hostPasid hP | apply keeps_hostRefuse hP.regs | apply hP.ite
    | simp only [id_eq]

theorem keeps_execConfigRead (f : Nat) (dw : Fin 1024) (tag : Nat) (h0 : P s) :
    Res.all P (execConfigRead f dw tag s) := by
  unfold execConfigRead
  repeat' with_reducible first
        | assumption | intro _ | apply Res.all_next | apply keeps_hostTx hP.regs | apply keeps_when | apply hP.ite

theorem keeps_tdiMoved (f : Nat) (h0 : P s) : P (State.tdiMoved s f) := by
  unfold State.tdiMoved
  repeat' with_reducible first | assumption | apply keeps_tdiError hP | apply hP.ite

theorem keeps_tdiVfsMoved (pf : Nat) (h0 : P s) : P (State.tdiVfsMoved s pf) := by
  unfold State.tdiVfsMoved
  repeat' with_reducible first | assumption | intro _ | apply keeps_tdiMoved hP | apply keeps_each

theorem keeps_rbarWrite (f off new : Nat) (h0 : P s) : P (State.rbarWrite s f off new) := by
  unfold State.rbarWrite
  repeat' first
    | with_reducible first
        | assumption | apply keeps_setCfgD hP | apply keeps_tdiMoved hP | apply keeps_tdiVfsMoved hP | apply hP.ite
    | simp only [hP.upd]

theorem keeps_cmdWrite (f new : Nat) (h0 : P s) : P (State.cmdWrite s f new) := by
  unfold State.cmdWrite
  repeat' with_reducible first
        | assumption | apply keeps_bmeOff hP | apply keeps_bmeOn hP | apply keeps_irqEval hP | apply keeps_setCfgD hP
        | apply keeps_tdiMoved hP | apply hP.ite

theorem keeps_iovWrite (f new : Nat) (h0 : P s) : P (State.iovWrite s f new) := by
  unfold State.iovWrite
  repeat' with_reducible first
        | assumption | apply keeps_setCfgD hP | apply keeps_tdiVfsMoved hP | apply keeps_vfHide hP | apply keeps_vfShow hP
        | apply hP.ite

theorem keeps_ideCtlWrite (off new stream : Nat) (h0 : P s) : P (State.ideCtlWrite s off new stream) := by
  unfold State.ideCtlWrite
  repeat' first
    | with_reducible first
        | assumption | intro _ | apply keeps_ideInsecure hP | apply keeps_ideSettle hP.regs | apply keeps_setCfgD hP
        | apply hP.ite
    | simp only [hP.upd]
    | simp only [id_eq]
    | (extract_lets +onlyGivenNames x; refine (fun (hx : P x) => ?_) ?_; clear_value x; rotate_left; subst x; rotate_right)
    | (extract_lets +onlyGivenNames x; clear_value x)
    | (split; all_goals (rename_i heq; have e2 := congrArg Prod.snd heq; simp only at e2; subst e2))
    | split

theorem keeps_d3Write (f new : Nat) (h0 : P s) : P (State.d3Write s f new) := by
  unfold State.d3Write
  repeat' first
    | with_reducible first | assumption | intro _ | apply keeps_pmL1 hP.regs | apply keeps_setCfgD hP | apply hP.ite
    | simp only [hP.upd]
    | simp only [id_eq]
    | (extract_lets +onlyGivenNames x; refine (fun (hx : P x) => ?_) ?_; clear_value x; rotate_left; subst x; rotate_right)
    | (extract_lets +onlyGivenNames x; clear_value x)
    | (split; all_goals (rename_i heq; have e2 := congrArg Prod.snd heq; simp only at e2; subst e2))
    | split

theorem keeps_margCtlWrite (off new n : Nat) (h0 : P s) : P (State.margCtlWrite s off new n) := by
  unfold State.margCtlWrite
  repeat' first
    | with_reducible first
        | assumption | intro _ | apply keeps_margWrite hP.regs | apply keeps_setCfgD hP | apply hP.ite
    | simp only [hP.upd]
    | simp only [id_eq]
    | (extract_lets +onlyGivenNames x; refine (fun (hx : P x) => ?_) ?_; clear_value x; rotate_left; subst x; rotate_right)
    | (extract_lets +onlyGivenNames x; clear_value x)
    | (split; all_goals (rename_i heq; have e2 := congrArg Prod.snd heq; simp only at e2; subst e2))
    | split

theorem keeps_flrAt (f : Nat) (h0 : P s) : P (State.flrAt s f) := by
  unfold State.flrAt
  repeat' first
    | with_reducible first | assumption | apply keeps_flr hP | apply keeps_resetCfg hP
    | simp only [hP.upd]
    | split

theorem keeps_cfgStore (f off v : Nat) (be : Fin 16) (h0 : P s) : P (State.cfgStore s f off v be) := by
  unfold State.cfgStore
  repeat' first
    | with_reducible first
        | assumption | intro _ | apply keeps_cmdWrite hP | apply keeps_d3Write hP | apply keeps_flrAt hP
        | apply keeps_ideCtlWrite hP | apply keeps_iovWrite hP | apply keeps_irqEval hP | apply keeps_margCtlWrite hP
        | apply keeps_rbarWrite hP | apply keeps_setCfgD hP | apply keeps_tdiMoved hP | apply keeps_tdiVfsMoved hP
        | apply hP.ite
    | dsimp only
    | simp only [id_eq]
    | (extract_lets +onlyGivenNames x; refine (fun (hx : P x) => ?_) ?_; clear_value x; rotate_left; subst x; rotate_right)
    | (extract_lets +onlyGivenNames x; clear_value x)
    | (split; all_goals (rename_i heq; have e2 := congrArg Prod.snd heq; simp only at e2; subst e2))
    | split

theorem keeps_cfgWrite (f off v : Nat) (be : Fin 16) (h0 : P s) : P (State.cfgWrite s f off v be) := by
  unfold State.cfgWrite
  repeat' with_reducible first | assumption | apply keeps_cfgStore hP | apply hP.ite

theorem keeps_execConfigWrite (f : Nat) (rid : Fin 65536) (dw : Fin 1024) (v : Fin 4294967296) (be : Fin 16) (tag : Nat) (h0 : P s) :
    Res.all P (execConfigWrite f rid dw v be tag s) := by
  unfold execConfigWrite
  repeat' with_reducible first
        | assumption | intro _ | apply Res.all_next | apply keeps_cfgWrite hP | apply keeps_flrAt hP
        | apply keeps_hostTx hP.regs | apply keeps_ridCapture hP.regs | apply keeps_when | apply hP.ite

theorem keeps_cfgBit (f off n : Nat) (on : Bool) (h0 : P s) : P (State.cfgBit s f off n on) := by
  unfold State.cfgBit
  repeat' with_reducible first | assumption | apply keeps_cfgWrite hP | apply hP.ite

theorem keeps_execFlr (f : Fn) (h0 : P s) : Res.all P (execFlr f s) := by
  unfold execFlr
  repeat' with_reducible first | assumption | intro _ | apply Res.all_next | apply keeps_flrAt hP | apply keeps_when

theorem keeps_execVfEnableSet (pf : Fin 4) (h0 : P s) : Res.all P (execVfEnableSet pf s) := by
  unfold execVfEnableSet
  repeat' with_reducible first | assumption | intro _ | apply Res.all_next | apply keeps_cfgBit hP | apply keeps_when

theorem keeps_execVfEnableClear (pf : Fin 4) (h0 : P s) : Res.all P (execVfEnableClear pf s) := by
  unfold execVfEnableClear
  repeat' with_reducible first | assumption | intro _ | apply Res.all_next | apply keeps_cfgBit hP | apply keeps_when

theorem keeps_execBmeClear (f : Fn) (h0 : P s) : Res.all P (execBmeClear f s) := by
  unfold execBmeClear
  repeat' with_reducible first | assumption | apply Res.all_next | apply keeps_cfgBit hP

theorem keeps_execBmeSet (f : Fn) (h0 : P s) : Res.all P (execBmeSet f s) := by
  unfold execBmeSet
  repeat' with_reducible first | assumption | apply Res.all_next | apply keeps_cfgBit hP

theorem keeps_execPasidEnableClear (f : Fn) (h0 : P s) : Res.all P (execPasidEnableClear f s) := by
  unfold execPasidEnableClear
  repeat' with_reducible first | assumption | apply Res.all_next | apply keeps_cfgBit hP

theorem keeps_execResizableBarWrite (pf : Fin 4) (vf : Bool) (size : Fin 64) (h0 : P s) :
    Res.all P (execResizableBarWrite pf vf size s) := by
  unfold execResizableBarWrite
  repeat' with_reducible first | assumption | intro _ | apply Res.all_next | apply keeps_cfgWrite hP | apply keeps_when

theorem keeps_execRinseDrained (f : Fn) (h0 : P s) : Res.all P (execRinseDrained f s) := by
  unfold execRinseDrained
  repeat' with_reducible first | assumption | intro _ | apply Res.all_next | apply keeps_rinseEnd hP | apply keeps_when

theorem keeps_execRinseDeadline (f : Fn) (h0 : P s) : Res.all P (execRinseDeadline f s) := by
  unfold execRinseDeadline
  repeat' with_reducible first | assumption | apply Res.all_next | apply keeps_rinseEnd hP

theorem keeps_ctlWrite (w : Who) (r : Reg) (i v m : Nat) (h0 : P s) : P (State.ctlWrite s w r i v m) := by
  unfold State.ctlWrite
  repeat' with_reducible first | assumption | apply keeps_offAccess hP.regs | apply keeps_regDo hP | apply hP.ite

theorem keeps_execFnSliceWrite (k : Fin 256) (v : BitVec 64) (h0 : P s) : Res.all P (execFnSliceWrite k v s) := by
  unfold execFnSliceWrite
  repeat' with_reducible first | assumption | apply Res.all_next | apply keeps_ctlWrite hP

theorem keeps_execFnResWrite (f : Fn) (first count : Fin 4096) (h0 : P s) :
    Res.all P (execFnResWrite f first count s) := by
  unfold execFnResWrite
  repeat' with_reducible first | assumption | apply Res.all_next | apply keeps_ctlWrite hP

theorem keeps_tlpRx (h : HostTlp) (g : State → State) (h_g : ∀ s, P s → P (g s)) (h0 : P s) : P (State.tlpRx s h g) := by
  unfold State.tlpRx
  repeat' with_reducible first
        | assumption | apply h_g | apply keeps_ideFail hP | apply keeps_starchSettle hP | apply hP.ite

theorem keeps_execHostPostedWriteRx (h : HostTlp) (data : List Byte) (be : List Bool) (err : MemErr) (h0 : P s) :
    Res.all P (execHostPostedWriteRx h data be err s) := by
  unfold execHostPostedWriteRx
  repeat' first
    | with_reducible first
        | assumption | intro _ | apply Res.all_next | apply Res.all_ite | apply keeps_submit hP | apply keeps_tlpRx hP
    | exact Res.all_refused _ _

theorem keeps_execHostMemoryReadRx (h : HostTlp) (len : Nat) (err : MemErr) (h0 : P s) :
    Res.all P (execHostMemoryReadRx h len err s) := by
  unfold execHostMemoryReadRx
  repeat' first
    | with_reducible first
        | assumption | intro _ | apply Res.all_next | apply Res.all_ite | apply keeps_submit hP | apply keeps_tlpRx hP
    | exact Res.all_refused _ _

theorem keeps_execHostAtomicopRx (h : HostTlp) (op : AtomOp) (size : Nat) (data : List Byte) (err : MemErr) (h0 : P s) :
    Res.all P (execHostAtomicopRx h op size data err s) := by
  unfold execHostAtomicopRx
  repeat' first
    | with_reducible first
        | assumption | intro _ | apply Res.all_next | apply Res.all_ite | apply keeps_submit hP | apply keeps_tlpRx hP
    | exact Res.all_refused _ _

theorem keeps_execMemoryReadLockRx (h : HostTlp) (h0 : P s) : Res.all P (execMemoryReadLockRx h s) := by
  unfold execMemoryReadLockRx
  repeat' first
    | with_reducible first
        | assumption | intro _ | apply Res.all_next | apply Res.all_ite | apply keeps_hostTx hP.regs
        | apply keeps_tlpRx hP
    | exact Res.all_refused _ _

theorem keeps_execWindowWalkDone (tbl : Nat) (bad : List Nat) (h0 : P s) : Res.all P (execWindowWalkDone tbl bad s) := by
  unfold execWindowWalkDone
  repeat' with_reducible first
        | assumption | intro _ | apply Res.all_next | apply keeps_deliver hP | apply keeps_starchSettle hP
        | apply keeps_walkDone hP

theorem keeps_updCmd (core : Option Core) (op i : Nat) (h0 : P s) : P (State.updCmd s core op i) := by
  unfold State.updCmd
  repeat' with_reducible first | assumption | apply keeps_ctlWrite hP

theorem keeps_execXltUpdWrite (core : Option Core) (i : Fin 524288) (h0 : P s) :
    Res.all P (execXltUpdWrite core i s) := by
  unfold execXltUpdWrite
  repeat' with_reducible first | assumption | apply Res.all_next | apply keeps_updCmd hP

theorem keeps_execXltUpdInvalEntry (core : Option Core) (i : Fin 524288) (h0 : P s) :
    Res.all P (execXltUpdInvalEntry core i s) := by
  unfold execXltUpdInvalEntry
  repeat' with_reducible first | assumption | apply Res.all_next | apply keeps_updCmd hP

theorem keeps_execXltUpdInvalTable (core : Option Core) (i : Fin 524288) (h0 : P s) :
    Res.all P (execXltUpdInvalTable core i s) := by
  unfold execXltUpdInvalTable
  repeat' with_reducible first | assumption | apply Res.all_next | apply keeps_updCmd hP

theorem keeps_execXltUpdInvalAll (core : Option Core) (i : Fin 524288) (h0 : P s) :
    Res.all P (execXltUpdInvalAll core i s) := by
  unfold execXltUpdInvalAll
  repeat' with_reducible first | assumption | apply Res.all_next | apply keeps_updCmd hP

theorem keeps_execXltUpdCommit (h0 : P s) : Res.all P (execXltUpdCommit s) := by
  unfold execXltUpdCommit
  repeat' first
    | with_reducible first
        | assumption | intro _ | apply Res.all_next | apply Res.all_ite | apply keeps_xltCommit hP | apply keeps_when
    | simp only [hP.upd]
    | simp only [id_eq]
    | (extract_lets +onlyGivenNames x; refine (fun (hx : P x) => ?_) ?_; clear_value x; rotate_left; subst x; rotate_right)
    | (extract_lets +onlyGivenNames x; clear_value x)
    | (split; all_goals (rename_i heq; have e2 := congrArg Prod.snd heq; simp only at e2; subst e2))
    | split

theorem keeps_execXltTblBaseWrite (core : Option Core) (base : Fin 16777216) (h0 : P s) :
    Res.all P (execXltTblBaseWrite core base s) := by
  unfold execXltTblBaseWrite
  repeat' with_reducible first | assumption | apply Res.all_next | apply keeps_ctlWrite hP

theorem keeps_execXltEpochAdvance (core : Option Core) (h0 : P s) : Res.all P (execXltEpochAdvance core s) := by
  unfold execXltEpochAdvance
  repeat' with_reducible first | assumption | apply Res.all_next | apply keeps_ctlWrite hP

theorem keeps_readBy (core : Option Core) (tag : Nat) (off len : Nat) (h0 : P s) :
    P (State.readBy s core tag off len) := by
  unfold State.readBy
  repeat' first
    | with_reducible first
        | assumption | intro _ | apply keeps_enterReq hP | apply keeps_submit hP | apply keeps_tlpRx hP
    | split

theorem keeps_execXltEpochDrainRead (core : Option Core) (tag : Nat) (h0 : P s) :
    Res.all P (execXltEpochDrainRead core tag s) := by
  unfold execXltEpochDrainRead
  repeat' with_reducible first | assumption | apply Res.all_next | apply keeps_readBy hP

theorem keeps_execXltEpochDrainReturn (h0 : P s) : Res.all P (execXltEpochDrainReturn s) := by
  unfold execXltEpochDrainReturn
  repeat' with_reducible first | assumption | apply Res.all_next | apply keeps_xltDrainReturn hP

theorem keeps_execXltEpochDrainTimeout (h0 : P s) : Res.all P (execXltEpochDrainTimeout s) := by
  unfold execXltEpochDrainTimeout
  repeat' with_reducible first | assumption | apply Res.all_next | apply keeps_xltDrainReturn hP

end Sys2Proof.Machine
end

