-- ==== Sys2Proof/Laws/KeepsPorts.lean ====
section
/-!
SUPPORT. Kept properties: Urone reception, requests of designs, the pair, mailboxes and shares.
-/
namespace Sys2Proof.Machine

variable {P : State → Prop} (hP : Keeps P) {s : State}
include hP

theorem keeps_replay (l : Nat) (h0 : P s) : P (State.replay s l) := by
  unfold State.replay
  repeat' first
    | with_reducible first
        | assumption | intro _ | apply keeps_bundleSend hP.regs | apply keeps_count hP.regs | apply keeps_linkDown hP
        | apply keeps_portDown hP | apply keeps_setPort hP.regs | apply keeps_ulkEvt hP | apply keeps_each | apply hP.ite
    | dsimp only
    | simp only [id_eq]
    | (extract_lets +onlyGivenNames x; refine (fun (hx : P x) => ?_) ?_; clear_value x; rotate_left; subst x; rotate_right)
    | (extract_lets +onlyGivenNames x; clear_value x)
    | (split; all_goals (rename_i heq; have e2 := congrArg Prod.snd heq; simp only at e2; subst e2))
    | split

theorem keeps_ackRx (l ackseq : Nat) (nak : Bool) (h0 : P s) : P (State.ackRx s l ackseq nak) := by
  unfold State.ackRx
  repeat' first
    | with_reducible first
        | assumption | intro _ | apply keeps_portFlush hP.regs | apply keeps_replay hP | apply keeps_setPort hP.regs
        | apply hP.ite
    | simp only [hP.upd]
    | simp only [id_eq]
    | (extract_lets +onlyGivenNames x; refine (fun (hx : P x) => ?_) ?_; clear_value x; rotate_left; subst x; rotate_right)
    | (extract_lets +onlyGivenNames x; clear_value x)
    | (split; all_goals (rename_i heq; have e2 := congrArg Prod.snd heq; simp only at e2; subst e2))
    | split

theorem keeps_nakDue (l : Nat) (h0 : P s) : P (State.nakDue s l) := by
  unfold State.nakDue
  repeat' first
    | with_reducible first
        | assumption | intro _ | apply keeps_count hP.regs | apply keeps_lpExit hP | apply keeps_setPort hP.regs
        | apply keeps_urAck hP.regs | apply hP.ite
    | simp only [hP.upd]
    | simp only [id_eq]
    | (extract_lets +onlyGivenNames x; refine (fun (hx : P x) => ?_) ?_; clear_value x; rotate_left; subst x; rotate_right)
    | (extract_lets +onlyGivenNames x; clear_value x)
    | (split; all_goals (rename_i heq; have e2 := congrArg Prod.snd heq; simp only at e2; subst e2))
    | split

theorem keeps_rxOne (l : Nat) (k : UrPkt) (h0 : P s) : P (State.rxOne s l k) := by
  unfold State.rxOne
  repeat' first
    | with_reducible first
        | assumption | apply keeps_protoErr hP | apply keeps_protoFatal hP | apply keeps_rxPut hP.regs
    | split

theorem keeps_rxServe (l : Nat) (k : UrPkt) (f : State → State) (h_f : ∀ s, P s → P (f s)) (h0 : P s) :
    P (State.rxServe s l k f) := by
  unfold State.rxServe
  repeat' first
    | with_reducible first
        | assumption | intro _ | apply h_f | apply keeps_rxDrop hP.regs | apply keeps_rxOne hP | apply hP.ite
    | dsimp only
    | simp only [id_eq]
    | (extract_lets +onlyGivenNames x; refine (fun (hx : P x) => ?_) ?_; clear_value x; rotate_left; subst x; rotate_right)
    | (extract_lets +onlyGivenNames x; clear_value x)
    | (split; all_goals (rename_i heq; have e2 := congrArg Prod.snd heq; simp only at e2; subst e2))
    | split

theorem keeps_flowRx (l vc hdr data : Nat) (h0 : P s) : P (State.flowRx s l vc hdr data) := by
  unfold State.flowRx
  repeat' first
    | with_reducible first
        | assumption | intro _ | apply keeps_helloCheck hP | apply keeps_portFlush hP.regs | apply keeps_setPort hP.regs
        | apply keeps_urFlush hP.regs | apply hP.ite
    | simp only [hP.upd]
    | simp only [id_eq]
    | (extract_lets +onlyGivenNames x; refine (fun (hx : P x) => ?_) ?_; clear_value x; rotate_left; subst x; rotate_right)
    | (extract_lets +onlyGivenNames x; clear_value x)
    | (split; all_goals (rename_i heq; have e2 := congrArg Prod.snd heq; simp only at e2; subst e2))
    | split

theorem keeps_urResponse (p tag st off : Nat) (last : Bool) (data : List Byte) (pois : List Nat) (h0 : P s) :
    P (State.urResponse s p tag st off last data pois) := by
  unfold State.urResponse
  repeat' first
    | with_reducible first
        | assumption | intro _ | apply hP.st | apply keeps_count hP.regs | apply keeps_ledgerResponse hP
        | apply keeps_portReadEnd hP | apply keeps_protoErr hP | apply keeps_readForward hP | apply keeps_setPRead hP.regs
        | apply keeps_setPort hP.regs | apply keeps_tagDead hP.regs | apply hP.ite
    | dsimp only
    | simp only [id_eq]
    | (extract_lets +onlyGivenNames x; refine (fun (hx : P x) => ?_) ?_; clear_value x; rotate_left; subst x; rotate_right)
    | (extract_lets +onlyGivenNames x; clear_value x)
    | (split; all_goals (rename_i heq; have e2 := congrArg Prod.snd heq; simp only at e2; subst e2))
    | split

theorem keeps_tagHold (p tag : Nat) (h0 : P s) : P (State.tagHold s p tag) := by
  unfold State.tagHold
  repeat' with_reducible first | assumption | apply keeps_portDown hP | apply keeps_setPort hP.regs | apply hP.ite

theorem keeps_cplDiscard (b : BTag) (st : Nat) (h0 : P s) : P (State.cplDiscard s b st) := by
  unfold State.cplDiscard
  repeat' with_reducible first | assumption | apply keeps_count hP.regs | apply keeps_evq hP | apply hP.ite

theorem keeps_cplUnexpected (e : EvqEnt) (h0 : P s) : P (State.cplUnexpected s e) := by
  unfold State.cplUnexpected
  repeat' with_reducible first
        | assumption | apply keeps_aer hP | apply keeps_count hP.regs | apply keeps_evq hP | apply hP.ite

theorem keeps_portEnter (p tag : Nat) (r : Req) (h0 : P s) : P (State.portEnter s p tag r) := by
  unfold State.portEnter
  repeat' first
    | with_reducible first
        | assumption | intro _ | apply keeps_enterReq hP | apply keeps_setPort hP.regs | apply hP.ite
    | simp only [hP.upd]
    | simp only [id_eq]
    | (extract_lets +onlyGivenNames x; refine (fun (hx : P x) => ?_) ?_; clear_value x; rotate_left; subst x; rotate_right)
    | (extract_lets +onlyGivenNames x; clear_value x)
    | (split; all_goals (rename_i heq; have e2 := congrArg Prod.snd heq; simp only at e2; subst e2))
    | split

theorem keeps_portTake (p : Nat) (tag : Nat) (ok : Bool) (r : Req) (h0 : P s) : P (State.portTake s p tag ok r) := by
  unfold State.portTake
  repeat' first
    | with_reducible first
        | assumption | intro _ | apply keeps_count hP.regs | apply keeps_portEnter hP | apply keeps_protoErr hP
        | apply keeps_protoFatal hP | apply keeps_urSend hP.regs | apply hP.ite
    | simp only [hP.upd]
    | simp only [id_eq]
    | (extract_lets +onlyGivenNames x; refine (fun (hx : P x) => ?_) ?_; clear_value x; rotate_left; subst x; rotate_right)
    | (extract_lets +onlyGivenNames x; clear_value x)
    | (split; all_goals (rename_i heq; have e2 := congrArg Prod.snd heq; simp only at e2; subst e2))
    | split

theorem keeps_sbTake (p lines : Nat) (unsol : Bool) (h0 : P s) : P (State.sbTake s p lines unsol) := by
  unfold State.sbTake
  repeat' first
    | with_reducible first
        | assumption | intro _ | apply hP.set | apply keeps_evt hP | apply keeps_raise hP | apply keeps_setPort hP.regs
        | apply keeps_ulkEvt hP | apply keeps_withLevels hP | apply keeps_each | apply hP.ite
    | simp only [hP.upd]
    | simp only [id_eq]
    | (extract_lets +onlyGivenNames x; refine (fun (hx : P x) => ?_) ?_; clear_value x; rotate_left; subst x; rotate_right)
    | (extract_lets +onlyGivenNames x; clear_value x)
    | (split; all_goals (rename_i heq; have e2 := congrArg Prod.snd heq; simp only at e2; subst e2))
    | split

theorem keeps_reqTake (p line count : Nat) (h0 : P s) : P (State.reqTake s p line count) := by
  unfold State.reqTake
  repeat' first
    | with_reducible first
        | assumption | intro _ | apply hP.set | apply keeps_count hP.regs | apply keeps_ulkEvt hP | apply hP.ite
    | simp only [hP.upd]
    | simp only [id_eq]
    | (extract_lets +onlyGivenNames x; refine (fun (hx : P x) => ?_) ?_; clear_value x; rotate_left; subst x; rotate_right)
    | (extract_lets +onlyGivenNames x; clear_value x)
    | (split; all_goals (rename_i heq; have e2 := congrArg Prod.snd heq; simp only at e2; subst e2))
    | split

theorem keeps_lateTake (p init seq status : Nat) (h0 : P s) : P (State.lateTake s p init seq status) := by
  unfold State.lateTake
  repeat' first
    | with_reducible first
        | assumption | intro _ | apply keeps_lateError hP | apply keeps_lateMiss hP | apply keeps_ulkEvt hP | apply hP.ite
    | simp only [hP.upd]
    | simp only [id_eq]
    | (extract_lets +onlyGivenNames x; refine (fun (hx : P x) => ?_) ?_; clear_value x; rotate_left; subst x; rotate_right)
    | (extract_lets +onlyGivenNames x; clear_value x)
    | (split; all_goals (rename_i heq; have e2 := congrArg Prod.snd heq; simp only at e2; subst e2))
    | split

theorem keeps_pktDo (p : Nat) (k : UrPkt) (err : MemErr) (h0 : P s) : P (State.pktDo s p k err) := by
  unfold State.pktDo
  repeat' first
    | with_reducible first
        | assumption | intro _ | apply keeps_count hP.regs | apply keeps_lateError hP | apply keeps_lateTake hP
        | apply keeps_portTake hP | apply keeps_reqTake hP | apply keeps_rxFree hP.regs | apply keeps_sbTake hP
    | dsimp only
    | simp only [id_eq]
    | (extract_lets +onlyGivenNames x; refine (fun (hx : P x) => ?_) ?_; clear_value x; rotate_left; subst x; rotate_right)
    | (extract_lets +onlyGivenNames x; clear_value x)
    | (split; all_goals (rename_i heq; have e2 := congrArg Prod.snd heq; simp only at e2; subst e2))
    | split

theorem keeps_heldServe (p : Nat) (h0 : P s) : P (State.heldServe s p) := by
  unfold State.heldServe
  repeat' first
    | with_reducible first
        | assumption | intro _ | apply keeps_pktDo hP | apply keeps_setPort hP.regs | apply keeps_starchSettle hP
        | apply keeps_each | apply hP.ite
    | simp only [hP.upd]
    | simp only [id_eq]
    | (extract_lets +onlyGivenNames x; refine (fun (hx : P x) => ?_) ?_; clear_value x; rotate_left; subst x; rotate_right)
    | (extract_lets +onlyGivenNames x; clear_value x)
    | (split; all_goals (rename_i heq; have e2 := congrArg Prod.snd heq; simp only at e2; subst e2))
    | split

theorem keeps_pktRx (p : Nat) (k : UrPkt) (err : MemErr) (h0 : P s) : P (State.pktRx s p k err) := by
  unfold State.pktRx
  repeat' first
    | with_reducible first
        | assumption | intro _ | apply keeps_heldServe hP | apply keeps_pktDo hP | apply keeps_rxHold hP.regs
        | apply keeps_rxServe hP | apply keeps_starchSettle hP | apply hP.ite
    | simp only [hP.upd]
    | simp only [id_eq]
    | (extract_lets +onlyGivenNames x; refine (fun (hx : P x) => ?_) ?_; clear_value x; rotate_left; subst x; rotate_right)
    | (extract_lets +onlyGivenNames x; clear_value x)
    | (split; all_goals (rename_i heq; have e2 := congrArg Prod.snd heq; simp only at e2; subst e2))
    | split

theorem keeps_hoFlush (h0 : P s) : P (State.hoFlush s) := by
  unfold State.hoFlush
  repeat' first
    | with_reducible first
        | assumption | intro _ | apply keeps_deliver hP | apply keeps_govFlush hP.regs | apply keeps_heldServe hP
        | apply keeps_stage hP | apply keeps_starchSettle hP | apply keeps_each
    | simp only [hP.upd]
    | simp only [id_eq]
    | (extract_lets +onlyGivenNames x; refine (fun (hx : P x) => ?_) ?_; clear_value x; rotate_left; subst x; rotate_right)
    | (extract_lets +onlyGivenNames x; clear_value x)
    | (split; all_goals (rename_i heq; have e2 := congrArg Prod.snd heq; simp only at e2; subst e2))
    | split

theorem keeps_execUrReadRx (p : Port) (tag : Fin 4096) (len : Nat) (addr : Fin 1099511627776) (priv exec : Bool) (err : MemErr) (h0 : P s) :
    Res.all P (execUrReadRx p tag len addr priv exec err s) := by
  unfold execUrReadRx
  repeat' first
    | with_reducible first | assumption | intro _ | apply Res.all_next | apply Res.all_ite | apply keeps_pktRx hP
    | simp only [hP.upd]
    | simp only [id_eq]
    | (extract_lets +onlyGivenNames x; refine (fun (hx : P x) => ?_) ?_; clear_value x; rotate_left; subst x; rotate_right)
    | (extract_lets +onlyGivenNames x; clear_value x)
    | (split; all_goals (rename_i heq; have e2 := congrArg Prod.snd heq; simp only at e2; subst e2))
    | split

theorem keeps_execUrWriteRx (p : Port) (tag : Fin 4096) (init seq : Nat) (addr : Fin 1099511627776) (retry priv exec : Bool) (data : List Byte) (mask : Option Nat) (err : MemErr) (h0 : P s) :
    Res.all P (execUrWriteRx p tag init seq addr retry priv exec data mask err s) := by
  unfold execUrWriteRx
  repeat' first
    | with_reducible first | assumption | intro _ | apply Res.all_next | apply Res.all_ite | apply keeps_pktRx hP
    | simp only [hP.upd]
    | simp only [id_eq]
    | (extract_lets +onlyGivenNames x; refine (fun (hx : P x) => ?_) ?_; clear_value x; rotate_left; subst x; rotate_right)
    | (extract_lets +onlyGivenNames x; clear_value x)
    | (split; all_goals (rename_i heq; have e2 := congrArg Prod.snd heq; simp only at e2; subst e2))
    | split

theorem keeps_execUrAtomicRx (p : Port) (tag : Fin 4096) (aop : Fin 16) (asz : Fin 4) (addr : Fin 1099511627776) (priv exec : Bool) (ops : List Byte) (err : MemErr) (h0 : P s) :
    Res.all P (execUrAtomicRx p tag aop asz addr priv exec ops err s) := by
  unfold execUrAtomicRx
  repeat' first
    | with_reducible first | assumption | intro _ | apply Res.all_next | apply Res.all_ite | apply keeps_pktRx hP
    | simp only [hP.upd]
    | simp only [id_eq]
    | (extract_lets +onlyGivenNames x; refine (fun (hx : P x) => ?_) ?_; clear_value x; rotate_left; subst x; rotate_right)
    | (extract_lets +onlyGivenNames x; clear_value x)
    | (split; all_goals (rename_i heq; have e2 := congrArg Prod.snd heq; simp only at e2; subst e2))
    | split

theorem keeps_execUrLockRx (p : Port) (tag : Fin 4096) (addr : Fin 1099511627776) (priv exec : Bool) (h0 : P s) :
    Res.all P (execUrLockRx p tag addr priv exec s) := by
  unfold execUrLockRx
  repeat' first
    | with_reducible first | assumption | intro _ | apply Res.all_next | apply Res.all_ite | apply keeps_pktRx hP
    | simp only [hP.upd]
    | simp only [id_eq]
    | (extract_lets +onlyGivenNames x; refine (fun (hx : P x) => ?_) ?_; clear_value x; rotate_left; subst x; rotate_right)
    | (extract_lets +onlyGivenNames x; clear_value x)
    | (split; all_goals (rename_i heq; have e2 := congrArg Prod.snd heq; simp only at e2; subst e2))
    | split

theorem keeps_execUrUnlockRx (p : Port) (tag : Fin 4096) (addr : Fin 1099511627776) (priv exec : Bool) (h0 : P s) :
    Res.all P (execUrUnlockRx p tag addr priv exec s) := by
  unfold execUrUnlockRx
  repeat' first
    | with_reducible first
        | assumption | intro _ | apply Res.all_next | apply Res.all_ite | apply keeps_pktRx hP | apply keeps_unlock hP
    | simp only [hP.upd]
    | simp only [id_eq]
    | (extract_lets +onlyGivenNames x; refine (fun (hx : P x) => ?_) ?_; clear_value x; rotate_left; subst x; rotate_right)
    | (extract_lets +onlyGivenNames x; clear_value x)
    | (split; all_goals (rename_i heq; have e2 := congrArg Prod.snd heq; simp only at e2; subst e2))
    | split

theorem keeps_seamRx (k : SeamPkt) (g : State → State) (h_g : ∀ s, P s → P (g s)) (h0 : P s) :
    P (State.seamRx s k g) := by
  unfold State.seamRx
  repeat' first
    | with_reducible first
        | assumption | intro _ | apply h_g | apply keeps_rxFree hP.regs | apply keeps_rxServe hP
        | apply keeps_starchSettle hP | apply keeps_when
    | simp only [hP.upd]
    | simp only [id_eq]
    | (extract_lets +onlyGivenNames x; refine (fun (hx : P x) => ?_) ?_; clear_value x; rotate_left; subst x; rotate_right)
    | (extract_lets +onlyGivenNames x; clear_value x)
    | (split; all_goals (rename_i heq; have e2 := congrArg Prod.snd heq; simp only at e2; subst e2))
    | split

theorem keeps_execSeamHelloRx (version mver mode : Nat) (leading : Bool) (fw serial : Nat) (far : List (Nat × Nat)) (h0 : P s) :
    Res.all P (execSeamHelloRx version mver mode leading fw serial far s) := by
  unfold execSeamHelloRx
  repeat' first
    | with_reducible first
        | assumption | intro _ | apply Res.all_next | apply keeps_hoFlush hP | apply keeps_seamHello hP
        | apply keeps_seamRx hP
    | simp only [hP.upd]

theorem keeps_execHeartbeatRx (count : Nat) (leading contained : Bool) (sync mseq : Nat) (h0 : P s) :
    Res.all P (execHeartbeatRx count leading contained sync mseq s) := by
  unfold execHeartbeatRx
  repeat' first
    | with_reducible first
        | assumption | intro _ | apply Res.all_next | apply Res.all_ite | apply keeps_count hP.regs
        | apply keeps_hbTake hP.regs | apply keeps_seamRx hP
    | simp only [hP.upd]
    | simp only [id_eq]
    | (extract_lets +onlyGivenNames x; refine (fun (hx : P x) => ?_) ?_; clear_value x; rotate_left; subst x; rotate_right)
    | (extract_lets +onlyGivenNames x; clear_value x)
    | (split; all_goals (rename_i heq; have e2 := congrArg Prod.snd heq; simp only at e2; subst e2))
    | split

theorem keeps_execHeartbeatMiss (h0 : P s) : Res.all P (execHeartbeatMiss s) := by
  unfold execHeartbeatMiss
  repeat' with_reducible first | assumption | apply Res.all_next | apply keeps_hbMissed hP | apply keeps_hoFlush hP

theorem keeps_execAliveWinExpire (h0 : P s) : Res.all P (execAliveWinExpire s) := by
  unfold execAliveWinExpire
  repeat' with_reducible first
        | assumption | intro _ | apply Res.all_next | apply hP.set | apply keeps_hoFlush hP | apply keeps_lossDecide hP
        | apply keeps_when

theorem keeps_execTwinPresentChange (present : Bool) (h0 : P s) : Res.all P (execTwinPresentChange present s) := by
  unfold execTwinPresentChange
  repeat' with_reducible first
        | assumption | apply Res.all_next | apply hP.set | apply keeps_hoFlush hP | apply keeps_lossDecide hP
        | apply keeps_moduleWake hP | apply keeps_seamPower hP.regs | apply keeps_settled hP.regs | apply hP.ite

theorem keeps_execMirrorRx (rtype mseq arg : Nat) (payload : List Nat) (h0 : P s) :
    Res.all P (execMirrorRx rtype mseq arg payload s) := by
  unfold execMirrorRx
  repeat' with_reducible first
        | assumption | intro _ | apply Res.all_next | apply keeps_mirrorRx hP | apply keeps_seamRx hP

theorem keeps_execMirrorAckRx (mseq : Nat) (h0 : P s) : Res.all P (execMirrorAckRx mseq s) := by
  unfold execMirrorAckRx
  repeat' with_reducible first
        | assumption | intro _ | apply Res.all_next | apply keeps_mirrorAckRx hP | apply keeps_seamRx hP

theorem keeps_hoAnswer (r : Req) (h0 : P s) : P (State.hoAnswer s r) := by
  unfold State.hoAnswer
  repeat' with_reducible first
        | assumption | apply keeps_answer hP | apply keeps_count hP.regs | apply keeps_followRefuse hP.regs | apply hP.ite

theorem keeps_execHandoverRx (op : Fin 8) (mseq : Nat) (h0 : P s) : Res.all P (execHandoverRx op mseq s) := by
  unfold execHandoverRx
  repeat' first
    | with_reducible first
        | assumption | intro _ | apply Res.all_next | apply Res.all_ite | apply keeps_hoAccepted hP
        | apply keeps_hoAnswer hP | apply keeps_hoFail hP | apply keeps_hoFlush hP | apply keeps_hoOffer hP
        | apply keeps_seamRx hP | apply keeps_each | apply hP.ite
    | simp only [hP.upd]
    | simp only [id_eq]
    | (extract_lets +onlyGivenNames x; refine (fun (hx : P x) => ?_) ?_; clear_value x; rotate_left; subst x; rotate_right)
    | (extract_lets +onlyGivenNames x; clear_value x)
    | (split; all_goals (rename_i heq; have e2 := congrArg Prod.snd heq; simp only at e2; subst e2))
    | split

theorem keeps_execPairCtlRx (op : Fin 8) (h0 : P s) : Res.all P (execPairCtlRx op s) := by
  unfold execPairCtlRx
  repeat' first
    | with_reducible first
        | assumption | intro _ | apply Res.all_next | apply Res.all_ite | apply hP.set | apply keeps_hoFlush hP
        | apply keeps_seamRx hP | apply keeps_snapshot hP.regs | apply keeps_takeover hP | apply keeps_twinLost hP
        | apply hP.ite
    | simp only [hP.upd]
    | simp only [id_eq]
    | (extract_lets +onlyGivenNames x; refine (fun (hx : P x) => ?_) ?_; clear_value x; rotate_left; subst x; rotate_right)
    | (extract_lets +onlyGivenNames x; clear_value x)
    | (split; all_goals (rename_i heq; have e2 := congrArg Prod.snd heq; simp only at e2; subst e2))
    | split

theorem keeps_semCtl (core : Option Core) (f : Fld) (h0 : P s) : P (State.semCtl s core f) := by
  unfold State.semCtl
  repeat' with_reducible first | assumption | apply keeps_ctlWrite hP

theorem keeps_execSemCtlHandover (core : Option Core) (h0 : P s) : Res.all P (execSemCtlHandover core s) := by
  unfold execSemCtlHandover
  repeat' with_reducible first | assumption | apply Res.all_next | apply keeps_semCtl hP

theorem keeps_execSemCtlLeave (core : Option Core) (h0 : P s) : Res.all P (execSemCtlLeave core s) := by
  unfold execSemCtlLeave
  repeat' with_reducible first | assumption | apply Res.all_next | apply keeps_hoFlush hP | apply keeps_semCtl hP

theorem keeps_execSemCtlSnap (core : Option Core) (h0 : P s) : Res.all P (execSemCtlSnap core s) := by
  unfold execSemCtlSnap
  repeat' with_reducible first | assumption | apply Res.all_next | apply keeps_semCtl hP

theorem keeps_execHoDrainTimeout (h0 : P s) : Res.all P (execHoDrainTimeout s) := by
  unfold execHoDrainTimeout
  repeat' with_reducible first
        | assumption | intro _ | apply Res.all_next | apply keeps_hoFail hP | apply keeps_hoFlush hP
        | apply keeps_seamSend hP.regs | apply keeps_when

theorem keeps_actBy (m act : Nat) (h0 : P s) : P (State.actBy s m act) := by
  unfold State.actBy
  repeat' with_reducible first | assumption | intro _ | apply keeps_mbxAct hP | apply keeps_when

theorem keeps_execMbxPost (m : Fin 2109) (h0 : P s) : Res.all P (execMbxPost m s) := by
  unfold execMbxPost
  repeat' with_reducible first | assumption | apply Res.all_next | apply keeps_actBy hP

theorem keeps_execMbxRelease (m : Fin 2109) (h0 : P s) : Res.all P (execMbxRelease m s) := by
  unfold execMbxRelease
  repeat' with_reducible first | assumption | apply Res.all_next | apply keeps_actBy hP

theorem keeps_execMbxCancel (m : Fin 2109) (h0 : P s) : Res.all P (execMbxCancel m s) := by
  unfold execMbxCancel
  repeat' with_reducible first | assumption | apply Res.all_next | apply keeps_actBy hP

theorem keeps_execMbxClaim (c : Core) (h0 : P s) : Res.all P (execMbxClaim c s) := by
  unfold execMbxClaim
  repeat' with_reducible first | assumption | apply Res.all_next | apply keeps_enterReq hP

theorem keeps_cmdRespond (m st de : Nat) (rsp : List Byte) (h0 : P s) : P (State.cmdRespond s m st de rsp) := by
  unfold State.cmdRespond
  repeat' with_reducible first | assumption | apply keeps_st8 hP | apply keeps_stBytes hP

theorem keeps_cmdEnd (m st de : Nat) (rsp : List Byte) (h0 : P s) : P (State.cmdEnd s m st de rsp) := by
  unfold State.cmdEnd
  repeat' with_reducible first | assumption | apply keeps_cmdRespond hP | apply keeps_mbxDone hP

theorem keeps_cmdDone (k : CmdRule) (m tx : Nat) (st de : Nat) (rsp : List Byte) (h0 : P s) :
    P (State.cmdDone s k m tx st de rsp) := by
  unfold State.cmdDone
  repeat' first
    | with_reducible first | assumption | apply keeps_cmdRespond hP | apply keeps_mbxDone hP | apply hP.ite
    | simp only [hP.upd]

theorem keeps_cmdAct (k : CmdRule) (m note : Nat) (act : Act)
    (h_act : ∀ c n s, P s → P (act c n s).2) (h : P s) : P (s.cmdAct k m note act) := by
  unfold State.cmdAct
  have hs := h_act (s.cmdAt m) note s h
  extract_lets tx
  clear_value tx
  split <;> (rename_i heq; rw [heq] at hs)
  · exact keeps_cmdDone hP _ _ _ _ _ _ hs
  · exact hs
  · simp only [hP.upd]; exact hs

theorem keeps_command (m : Nat) (k : CmdRule) (act : Act) (h_act : ∀ c n s, P s → P (act c n s).2) (h0 : P s) :
    P (State.command s m k act) := by
  unfold State.command
  repeat' first
    | with_reducible first
        | assumption | apply keeps_cmdAct hP | apply keeps_cmdEnd hP | apply keeps_mbxDone hP | apply keeps_stBytes hP
        | apply hP.ite
    | split

theorem keeps_execMbxDone (m : Fin 2109) (h0 : P s) : Res.all P (execMbxDone m s) := by
  unfold execMbxDone
  repeat' with_reducible first
        | assumption | intro _ | apply Res.all_next | apply keeps_cmdRespond hP | apply keeps_mbxDone hP
        | apply keeps_when | apply hP.ite

theorem keeps_cmdPut (c : Cmd) (r : Reg) (i : Nat) (l : List (Fld × Nat)) (h0 : P s) : P (State.cmdPut s c r i l) := by
  unfold State.cmdPut
  repeat' with_reducible first | assumption | apply keeps_regDo hP

theorem keeps_cmdReg (c : Cmd) (r : Reg) (i v : Nat) (h0 : P s) : P (State.cmdReg s c r i v) := by
  unfold State.cmdReg
  repeat' with_reducible first | assumption | apply keeps_regDo hP

theorem keeps_execGovEpoch (h0 : P s) : Res.all P (execGovEpoch s) := by
  unfold execGovEpoch
  repeat' with_reducible first
        | assumption | intro _ | apply Res.all_next | apply keeps_deliver hP | apply keeps_govEpoch hP.regs
        | apply keeps_govFlush hP.regs | apply keeps_stage hP | apply keeps_starchSettle hP | apply keeps_when

theorem keeps_execGovStep (h0 : P s) : Res.all P (execGovStep s) := by
  unfold execGovStep
  repeat' with_reducible first | assumption | intro _ | apply Res.all_next | apply keeps_govStep hP | apply keeps_when

theorem keeps_execShrUpdCmd (core : Option Core) (acct : Fin 8192) (h0 : P s) :
    Res.all P (execShrUpdCmd core acct s) := by
  unfold execShrUpdCmd
  repeat' with_reducible first | assumption | apply Res.all_next | apply keeps_ctlWrite hP

theorem keeps_execShrCtxBindWrite (core : Option Core) (x : Ctx) (v : BitVec 32) (h0 : P s) :
    Res.all P (execShrCtxBindWrite core x v s) := by
  unfold execShrCtxBindWrite
  repeat' with_reducible first | assumption | apply Res.all_next | apply keeps_ctlWrite hP

theorem keeps_unspill (r : Req) (h0 : P s) : P (State.unspill s r) := by
  unfold State.unspill
  repeat' first
    | with_reducible first
        | assumption | intro _ | apply keeps_deliver hP | apply keeps_govTake hP.regs | apply keeps_stage hP
        | apply keeps_starchSettle hP | apply hP.ite
    | simp only [hP.upd]
    | simp only [id_eq]
    | (extract_lets +onlyGivenNames x; refine (fun (hx : P x) => ?_) ?_; clear_value x; rotate_left; subst x; rotate_right)
    | (extract_lets +onlyGivenNames x; clear_value x)
    | (split; all_goals (rename_i heq; have e2 := congrArg Prod.snd heq; simp only at e2; subst e2))
    | split

theorem keeps_execSpillReturn (f : Fn) (h0 : P s) : Res.all P (execSpillReturn f s) := by
  unfold execSpillReturn
  repeat' first
    | with_reducible first | assumption | apply Res.all_next | apply keeps_unspill hP
    | split

end Sys2Proof.Machine
end

