-- ==== Sys2Proof/Laws/KeepsCommands.lean ====
section
/-!
SUPPORT. Kept properties: the mailbox commands, management, power, containment and the module's life.
-/
namespace Sys2Proof.Machine

variable {P : State → Prop} (hP : Keeps P) {s : State}
include hP

theorem keeps_execNop (m : Fin 2109) (h0 : P s) : Res.all P (execNop m s) := by
  unfold execNop
  repeat' with_reducible first | assumption | intro _ | apply Res.all_next | apply keeps_command hP

theorem keeps_execGetInfo (m : Fin 2109) (h0 : P s) : Res.all P (execGetInfo m s) := by
  unfold execGetInfo
  repeat' with_reducible first | assumption | intro _ | apply Res.all_next | apply keeps_command hP

theorem keeps_execFnQuery (m : Fin 2109) (h0 : P s) : Res.all P (execFnQuery m s) := by
  unfold execFnQuery
  repeat' first
    | with_reducible first | assumption | intro _ | apply Res.all_next | apply keeps_command hP
    | simp only [hP.upd]
    | split

theorem keeps_execFnSetRes (m : Fin 2109) (h0 : P s) : Res.all P (execFnSetRes m s) := by
  unfold execFnSetRes
  repeat' first
    | with_reducible first
        | assumption | intro _ | apply Res.all_next | apply keeps_cmdPut hP | apply keeps_command hP
    | simp only [hP.upd]
    | split

theorem keeps_execSliceBind (m : Fin 2109) (h0 : P s) : Res.all P (execSliceBind m s) := by
  unfold execSliceBind
  repeat' first
    | with_reducible first
        | assumption | intro _ | apply Res.all_next | apply keeps_bdtRefresh hP.regs | apply keeps_cmdPut hP
        | apply keeps_command hP
    | simp only [hP.upd]
    | split

theorem keeps_execSliceUnbind (m : Fin 2109) (h0 : P s) : Res.all P (execSliceUnbind m s) := by
  unfold execSliceUnbind
  repeat' first
    | with_reducible first
        | assumption | intro _ | apply Res.all_next | apply keeps_bdtRefresh hP.regs | apply keeps_cmdPut hP
        | apply keeps_command hP
    | simp only [hP.upd]
    | split

theorem keeps_execFnLock (m : Fin 2109) (h0 : P s) : Res.all P (execFnLock m s) := by
  unfold execFnLock
  repeat' first
    | with_reducible first
        | assumption | intro _ | apply Res.all_next | apply keeps_cmdPut hP | apply keeps_command hP
    | simp only [hP.upd]
    | split

theorem keeps_execVfTotal (m : Fin 2109) (h0 : P s) : Res.all P (execVfTotal m s) := by
  unfold execVfTotal
  repeat' first
    | with_reducible first
        | assumption | intro _ | apply Res.all_next | apply keeps_command hP | apply keeps_evCommit hP.regs
        | apply keeps_setVfTotal hP.regs
    | simp only [hP.upd]
    | split

theorem keeps_cmdBind (c : Cmd) (x : Nat) (valid sliceEn : Bool) (slice f : Nat) (chargeIn : Bool) (h0 : P s) :
    P (State.cmdBind s c x valid sliceEn slice f chargeIn).2 := by
  unfold State.cmdBind
  repeat' first
    | with_reducible first | assumption | apply hP.set | apply keeps_bdtRefresh hP.regs | apply keeps_cmdPut hP
    | split

theorem keeps_execCtxBind (m : Fin 2109) (h0 : P s) : Res.all P (execCtxBind m s) := by
  unfold execCtxBind
  repeat' first
    | with_reducible first
        | assumption | intro _ | apply Res.all_next | apply keeps_cmdBind hP | apply keeps_command hP
    | simp only [hP.upd]
    | split

theorem keeps_execCtxUnbind (m : Fin 2109) (h0 : P s) : Res.all P (execCtxUnbind m s) := by
  unfold execCtxUnbind
  repeat' first
    | with_reducible first
        | assumption | intro _ | apply Res.all_next | apply keeps_cmdBind hP | apply keeps_command hP
    | simp only [hP.upd]
    | split

theorem keeps_ctxSetup (c : Cmd) (x : Nat) (h0 : P s) : P (State.ctxSetup s c x).2 := by
  unfold State.ctxSetup
  repeat' with_reducible first
        | assumption | apply keeps_bdtRefresh hP.regs | apply keeps_cmdPut hP | apply keeps_cmdReg hP | apply hP.ite

theorem keeps_execCtxSetup (m : Fin 2109) (h0 : P s) : Res.all P (execCtxSetup m s) := by
  unfold execCtxSetup
  repeat' first
    | with_reducible first
        | assumption | intro _ | apply Res.all_next | apply keeps_command hP | apply keeps_ctxSetup hP
    | split

theorem keeps_execCtxQuery (m : Fin 2109) (h0 : P s) : Res.all P (execCtxQuery m s) := by
  unfold execCtxQuery
  repeat' first
    | with_reducible first | assumption | intro _ | apply Res.all_next | apply keeps_command hP
    | split

theorem keeps_execRingResume (m : Fin 2109) (h0 : P s) : Res.all P (execRingResume m s) := by
  unfold execRingResume
  repeat' first
    | with_reducible first
        | assumption | intro _ | apply Res.all_next | apply keeps_cmdPut hP | apply keeps_command hP
    | split

theorem keeps_execRingReset (m : Fin 2109) (h0 : P s) : Res.all P (execRingReset m s) := by
  unfold execRingReset
  repeat' first
    | with_reducible first
        | assumption | intro _ | apply Res.all_next | apply keeps_cmdPut hP | apply keeps_command hP
    | split

theorem keeps_winGo (h0 : P s) : P (State.winGo s).2 := by
  unfold State.winGo
  repeat' with_reducible first | assumption | apply keeps_xltCommit hP | apply keeps_xltInvalDone hP.regs

theorem keeps_winCmd (c : Cmd) (i op : Nat) (h0 : P s) : P (State.winCmd s c i op) := by
  unfold State.winCmd
  repeat' with_reducible first | assumption | apply keeps_cmdPut hP

theorem keeps_winStart (h0 : P s) : P (State.winStart s).2 := by
  unfold State.winStart
  repeat' first
    | with_reducible first | assumption | apply keeps_winGo hP
    | split

theorem keeps_winLoad (c : Cmd) (h0 : P s) : P (State.winLoad s c) := by
  unfold State.winLoad
  repeat' with_reducible first | assumption | intro _ | apply keeps_cmdReg hP | apply keeps_winCmd hP | apply keeps_each

theorem keeps_execWinWrite (m : Fin 2109) (h0 : P s) : Res.all P (execWinWrite m s) := by
  unfold execWinWrite
  repeat' first
    | with_reducible first
        | assumption | intro _ | apply Res.all_next | apply keeps_command hP | apply keeps_winGo hP
        | apply keeps_winLoad hP | apply keeps_winStart hP | apply keeps_winEnd hP.regs
    | split

theorem keeps_execWinRead (m : Fin 2109) (h0 : P s) : Res.all P (execWinRead m s) := by
  unfold execWinRead
  repeat' first
    | with_reducible first | assumption | intro _ | apply Res.all_next | apply keeps_command hP
    | split

theorem keeps_execWinInval (m : Fin 2109) (h0 : P s) : Res.all P (execWinInval m s) := by
  unfold execWinInval
  repeat' first
    | with_reducible first
        | assumption | intro _ | apply Res.all_next | apply keeps_command hP | apply keeps_winCmd hP
        | apply keeps_winGo hP | apply keeps_winStart hP
    | split

theorem keeps_execEpochSync (m : Fin 2109) (late : Bool) (h0 : P s) : Res.all P (execEpochSync m late s) := by
  unfold execEpochSync
  repeat' first
    | with_reducible first
        | assumption | intro _ | apply Res.all_next | apply keeps_cmdPut hP | apply keeps_command hP
    | split

theorem keeps_grdGo (h0 : P s) : P (State.grdGo s).2 := by
  unfold State.grdGo
  repeat' with_reducible first | assumption | apply keeps_grdCommit hP

theorem keeps_grdLoad (c : Cmd) (h0 : P s) : P (State.grdLoad s c) := by
  unfold State.grdLoad
  repeat' with_reducible first | assumption | apply keeps_cmdPut hP | apply keeps_cmdReg hP

theorem keeps_execGrdWrite (m : Fin 2109) (h0 : P s) : Res.all P (execGrdWrite m s) := by
  unfold execGrdWrite
  repeat' first
    | with_reducible first
        | assumption | intro _ | apply Res.all_next | apply keeps_command hP | apply keeps_grdGo hP
        | apply keeps_grdLoad hP
    | simp only [hP.upd]
    | split

theorem keeps_execGrdRead (m : Fin 2109) (h0 : P s) : Res.all P (execGrdRead m s) := by
  unfold execGrdRead
  repeat' first
    | with_reducible first | assumption | intro _ | apply Res.all_next | apply keeps_command hP
    | split

theorem keeps_execIrqSet (m : Fin 2109) (h0 : P s) : Res.all P (execIrqSet m s) := by
  unfold execIrqSet
  repeat' first
    | with_reducible first
        | assumption | intro _ | apply Res.all_next | apply Res.all_ite | apply keeps_aliasWrite hP
        | apply keeps_cmdReg hP | apply keeps_command hP | apply keeps_memWrite hP | apply hP.ite
    | simp only [hP.upd]
    | simp only [id_eq]
    | (extract_lets +onlyGivenNames x; refine (fun (hx : P x) => ?_) ?_; clear_value x; rotate_left; subst x; rotate_right)
    | (extract_lets +onlyGivenNames x; clear_value x)
    | (split; all_goals (rename_i heq; have e2 := congrArg Prod.snd heq; simp only at e2; subst e2))
    | split

theorem keeps_execIrqGet (m : Fin 2109) (h0 : P s) : Res.all P (execIrqGet m s) := by
  unfold execIrqGet
  repeat' first
    | with_reducible first | assumption | intro _ | apply Res.all_next | apply keeps_command hP
    | simp only [hP.upd]
    | split

theorem keeps_execIrqLtSet (m : Fin 2109) (h0 : P s) : Res.all P (execIrqLtSet m s) := by
  unfold execIrqLtSet
  repeat' first
    | with_reducible first
        | assumption | intro _ | apply Res.all_next | apply keeps_cmdReg hP | apply keeps_command hP
    | split

theorem keeps_execDmaGrant (m : Fin 2109) (h0 : P s) : Res.all P (execDmaGrant m s) := by
  unfold execDmaGrant
  repeat' first
    | with_reducible first
        | assumption | intro _ | apply Res.all_next | apply keeps_cmdPut hP | apply keeps_command hP
    | simp only [hP.upd]
    | split

theorem keeps_execDmaRevoke (m : Fin 2109) (h0 : P s) : Res.all P (execDmaRevoke m s) := by
  unfold execDmaRevoke
  repeat' first
    | with_reducible first
        | assumption | intro _ | apply Res.all_next | apply keeps_cmdPut hP | apply keeps_command hP
    | simp only [hP.upd]
    | split

theorem keeps_execDmaAbort (m : Fin 2109) (h0 : P s) : Res.all P (execDmaAbort m s) := by
  unfold execDmaAbort
  repeat' first
    | with_reducible first
        | assumption | intro _ | apply Res.all_next | apply keeps_cmdPut hP | apply keeps_command hP
    | simp only [hP.upd]
    | split

theorem keeps_shareLoad (c : Cmd) (h0 : P s) : P (State.shareLoad s c) := by
  unfold State.shareLoad
  repeat' with_reducible first | assumption | apply keeps_cmdPut hP | apply keeps_cmdReg hP

theorem keeps_execShareSet (m : Fin 2109) {s : State} (h : P s) :
    Res.all P (execShareSet m s) := by
  unfold execShareSet
  refine Res.all_next (keeps_command hP _ _ _ (fun c n s hs => ?_) h)
  have h1 : P (s.shareLoad c) := keeps_shareLoad hP _ hs
  generalize s.shareLoad c = x at h1
  dsimp only
  split
  · exact keeps_shareGo hP.regs hs
  · split
    · exact hs
    · split
      · exact hs
      · split
        · exact keeps_shareGo hP.regs h1
        · split <;> exact h1

theorem keeps_execShareGet (m : Fin 2109) (h0 : P s) : Res.all P (execShareGet m s) := by
  unfold execShareGet
  repeat' first
    | with_reducible first | assumption | intro _ | apply Res.all_next | apply keeps_command hP
    | simp only [hP.upd]
    | split

theorem keeps_execResQuery (m : Fin 2109) (h0 : P s) : Res.all P (execResQuery m s) := by
  unfold execResQuery
  repeat' first
    | with_reducible first | assumption | intro _ | apply Res.all_next | apply keeps_command hP
    | simp only [hP.upd]
    | split

theorem keeps_execPairStatus (m : Fin 2109) (h0 : P s) : Res.all P (execPairStatus m s) := by
  unfold execPairStatus
  repeat' with_reducible first | assumption | intro _ | apply Res.all_next | apply keeps_command hP

theorem keeps_execPairHandover (m : Fin 2109) (h0 : P s) : Res.all P (execPairHandover m s) := by
  unfold execPairHandover
  repeat' first
    | with_reducible first
        | assumption | intro _ | apply Res.all_next | apply keeps_cmdPut hP | apply keeps_command hP
        | apply keeps_hoFlush hP
    | split

theorem keeps_execPairLeave (m : Fin 2109) (h0 : P s) : Res.all P (execPairLeave m s) := by
  unfold execPairLeave
  repeat' with_reducible first
        | assumption | intro _ | apply Res.all_next | apply keeps_cmdPut hP | apply keeps_command hP
        | apply keeps_hoFlush hP

theorem keeps_execPairSnap (m : Fin 2109) (h0 : P s) : Res.all P (execPairSnap m s) := by
  unfold execPairSnap
  repeat' first
    | with_reducible first
        | assumption | intro _ | apply Res.all_next | apply keeps_cmdPut hP | apply keeps_command hP
    | split

theorem keeps_pairTake (h0 : P s) : P (State.pairTake s) := by
  unfold State.pairTake
  repeat' first
    | with_reducible first | assumption | apply hP.set | apply keeps_takeover hP | apply hP.ite
    | simp only [hP.upd]

theorem keeps_execPairTake (m : Fin 2109) (h0 : P s) : Res.all P (execPairTake m s) := by
  unfold execPairTake
  repeat' first
    | with_reducible first
        | assumption | intro _ | apply Res.all_next | apply keeps_command hP | apply keeps_hoFlush hP
        | apply keeps_pairTake hP
    | split

theorem keeps_execFwStageBegin (m : Fin 2109) (h0 : P s) : Res.all P (execFwStageBegin m s) := by
  unfold execFwStageBegin
  repeat' first
    | with_reducible first
        | assumption | intro _ | apply Res.all_next | apply keeps_command hP | apply keeps_putHdr hP.regs
    | simp only [hP.upd]
    | split

theorem keeps_execFwStageData (m : Fin 2109) (h0 : P s) : Res.all P (execFwStageData m s) := by
  unfold execFwStageData
  repeat' first
    | with_reducible first | assumption | intro _ | apply Res.all_next | apply keeps_command hP
    | simp only [hP.upd]
    | split

theorem keeps_execFwStageCommit (m : Fin 2109) (good : Bool) (ver : BitVec 32) (h0 : P s) :
    Res.all P (execFwStageCommit m good ver s) := by
  unfold execFwStageCommit
  repeat' first
    | with_reducible first
        | assumption | intro _ | apply Res.all_next | apply keeps_command hP | apply keeps_stageCommit hP.regs
    | split

theorem keeps_execFwStageAbort (m : Fin 2109) (h0 : P s) : Res.all P (execFwStageAbort m s) := by
  unfold execFwStageAbort
  repeat' first
    | with_reducible first | assumption | intro _ | apply Res.all_next | apply keeps_command hP
    | simp only [hP.upd]

theorem keeps_execModuleReset (m : Fin 2109) (h0 : P s) : Res.all P (execModuleReset m s) := by
  unfold execModuleReset
  repeat' first
    | with_reducible first | assumption | intro _ | apply Res.all_next | apply keeps_command hP
    | simp only [hP.upd]
    | split

theorem keeps_execModuleResetDelayExpire (h0 : P s) : Res.all P (execModuleResetDelayExpire s) := by
  unfold execModuleResetDelayExpire
  repeat' first
    | with_reducible first | assumption | apply Res.all_next | apply keeps_moduleReset hP
    | simp only [hP.upd]
    | split

theorem keeps_execEvosetWrite (m : Fin 2109) (h0 : P s) : Res.all P (execEvosetWrite m s) := by
  unfold execEvosetWrite
  repeat' first
    | with_reducible first
        | assumption | intro _ | apply Res.all_next | apply keeps_command hP | apply keeps_evCommit hP.regs
    | simp only [hP.upd]
    | split

theorem keeps_execStandby (m : Fin 2109) (h0 : P s) : Res.all P (execStandby m s) := by
  unfold execStandby
  repeat' first
    | with_reducible first | assumption | intro _ | apply Res.all_next | apply keeps_command hP
    | simp only [hP.upd]
    | split

theorem keeps_execDomainPower (m : Fin 2109) (h0 : P s) : Res.all P (execDomainPower m s) := by
  unfold execDomainPower
  repeat' first
    | with_reducible first
        | assumption | intro _ | apply Res.all_next | apply keeps_cmdPut hP | apply keeps_command hP
        | apply keeps_starchSettle hP
    | simp only [hP.upd]
    | split

theorem keeps_execPortEnable (m : Fin 2109) (h0 : P s) : Res.all P (execPortEnable m s) := by
  unfold execPortEnable
  repeat' first
    | with_reducible first
        | assumption | intro _ | apply Res.all_next | apply keeps_cmdPut hP | apply keeps_command hP
        | apply keeps_starchSettle hP | apply keeps_each
    | split

theorem keeps_execLogRead (m : Fin 2109) (h0 : P s) : Res.all P (execLogRead m s) := by
  unfold execLogRead
  repeat' with_reducible first | assumption | intro _ | apply Res.all_next | apply keeps_command hP

theorem keeps_logDrop (upto : Nat) (h0 : P s) : P (State.logDrop s upto) := by
  unfold State.logDrop
  repeat' first
    | with_reducible first | assumption | apply hP.set | apply keeps_logRecord hP
    | simp only [hP.upd]

theorem keeps_execLogClear (m : Fin 2109) (h0 : P s) : Res.all P (execLogClear m s) := by
  unfold execLogClear
  repeat' with_reducible first
        | assumption | intro _ | apply Res.all_next | apply keeps_command hP | apply keeps_logDrop hP

theorem keeps_execWakeSrc (m : Fin 2109) (h0 : P s) : Res.all P (execWakeSrc m s) := by
  unfold execWakeSrc
  repeat' with_reducible first | assumption | intro _ | apply Res.all_next | apply keeps_command hP

theorem keeps_execTimeGet (m : Fin 2109) (h0 : P s) : Res.all P (execTimeGet m s) := by
  unfold execTimeGet
  repeat' with_reducible first | assumption | intro _ | apply Res.all_next | apply keeps_command hP

theorem keeps_execTimeSync (m : Fin 2109) (h0 : P s) : Res.all P (execTimeSync m s) := by
  unfold execTimeSync
  repeat' with_reducible first
        | assumption | intro _ | apply Res.all_next | apply keeps_cmdPut hP | apply keeps_cmdReg hP
        | apply keeps_command hP

theorem keeps_execNonceGet (m : Fin 2109) (h0 : P s) : Res.all P (execNonceGet m s) := by
  unfold execNonceGet
  repeat' first
    | with_reducible first
        | assumption | intro _ | apply Res.all_next | apply keeps_command hP | apply keeps_drawBytes hP.regs
    | simp only [hP.upd]

theorem keeps_execLifecycleAdvance (m : Fin 2109) (sigOk : Bool) (h0 : P s) :
    Res.all P (execLifecycleAdvance m sigOk s) := by
  unfold execLifecycleAdvance
  repeat' first
    | with_reducible first
        | assumption | intro _ | apply Res.all_next | apply hP.set | apply keeps_authCheck hP.regs
        | apply keeps_command hP
    | simp only [hP.upd]
    | (split; all_goals (rename_i heq; have e2 := congrArg Prod.snd heq; simp only at e2; subst e2))
    | split

theorem keeps_execDebugUnlock (m : Fin 2109) (sigOk : Bool) (h0 : P s) : Res.all P (execDebugUnlock m sigOk s) := by
  unfold execDebugUnlock
  repeat' first
    | with_reducible first
        | assumption | intro _ | apply Res.all_next | apply hP.set | apply keeps_authCheck hP.regs
        | apply keeps_command hP
    | (split; all_goals (rename_i heq; have e2 := congrArg Prod.snd heq; simp only at e2; subst e2))
    | split

theorem keeps_execMctpMessageRx (h : MctpHdr) (opcode abi : BitVec 16) (tag : BitVec 32) (payload : List Byte) (h0 : P s) :
    Res.all P (execMctpMessageRx h opcode abi tag payload s) := by
  unfold execMctpMessageRx
  repeat' first
    | with_reducible first
        | assumption | intro _ | apply Res.all_next | apply keeps_count hP.regs | apply keeps_mctpPost hP
        | apply keeps_mctpServe hP.regs | apply keeps_send hP.regs | apply hP.ite
    | simp only [hP.upd]

theorem keeps_execPwrDomReq (core : Option Core) (dom : Fin 32) (op : Fin 4) (force : Bool) (h0 : P s) :
    Res.all P (execPwrDomReq core dom op force s) := by
  unfold execPwrDomReq
  repeat' with_reducible first | assumption | apply Res.all_next | apply keeps_ctlWrite hP | apply keeps_starchSettle hP

theorem keeps_execDomainDrained (d : Fin 20) (h0 : P s) : Res.all P (execDomainDrained d s) := by
  unfold execDomainDrained
  repeat' with_reducible first
        | assumption | apply Res.all_next | apply keeps_domClamp hP | apply keeps_starchSettle hP | apply hP.ite

theorem keeps_execDomainDrainTimeout (d : Fin 20) (h0 : P s) : Res.all P (execDomainDrainTimeout d s) := by
  unfold execDomainDrainTimeout
  repeat' first
    | with_reducible first
        | assumption | apply Res.all_next | apply keeps_domEnd hP | apply keeps_domResume hP.regs
        | apply keeps_setDom hP.regs | apply keeps_setGoal hP.regs
    | dsimp only
    | split

theorem keeps_execDomainPowered (d : Fin 20) (h0 : P s) : Res.all P (execDomainPowered d s) := by
  unfold execDomainPowered
  repeat' with_reducible first | assumption | apply Res.all_next | apply keeps_domPowered hP | apply hP.ite

theorem keeps_execCoreWait (c : Core) (h0 : P s) : Res.all P (execCoreWait c s) := by
  unfold execCoreWait
  repeat' with_reducible first | assumption | apply Res.all_next | apply keeps_coreWait hP

theorem keeps_execCoreEntryWindowEnd (c : Core) (h0 : P s) : Res.all P (execCoreEntryWindowEnd c s) := by
  unfold execCoreEntryWindowEnd
  repeat' with_reducible first | assumption | apply Res.all_next | apply keeps_coreGate hP

theorem keeps_execCoreWake (c : Core) (debug : Bool) (h0 : P s) : Res.all P (execCoreWake c debug s) := by
  unfold execCoreWake
  repeat' with_reducible first
        | assumption | apply Res.all_next | apply keeps_coreEdge hP | apply keeps_coreWake hP.regs | apply hP.ite

theorem keeps_execPwrCoreWakeWrite (core : Option Core) (c : Core) (h0 : P s) :
    Res.all P (execPwrCoreWakeWrite core c s) := by
  unfold execPwrCoreWakeWrite
  repeat' with_reducible first | assumption | apply Res.all_next | apply keeps_ctlWrite hP

theorem keeps_execClkCoreSelWrite (by_ c : Core) (pll : Bool) (h0 : P s) :
    Res.all P (execClkCoreSelWrite by_ c pll s) := by
  unfold execClkCoreSelWrite
  repeat' with_reducible first | assumption | apply Res.all_next | apply keeps_ctlWrite hP

theorem keeps_execWakeTimerFire (h0 : P s) : Res.all P (execWakeTimerFire s) := by
  unfold execWakeTimerFire
  repeat' with_reducible first
        | assumption | apply Res.all_next | apply hP.set | apply keeps_coreEdge hP | apply keeps_moduleWake hP
        | apply hP.ite

theorem keeps_execWdogKick (core : Option Core) (key : BitVec 16) (h0 : P s) : Res.all P (execWdogKick core key s) := by
  unfold execWdogKick
  repeat' with_reducible first | assumption | apply Res.all_next | apply keeps_ctlWrite hP

theorem keeps_execWdogWarn (h0 : P s) : Res.all P (execWdogWarn s) := by
  unfold execWdogWarn
  repeat' first
    | with_reducible first | assumption | intro _ | apply Res.all_next | apply keeps_pwrEvt hP | apply keeps_when
    | simp only [hP.upd]

theorem keeps_execWdogExpire (h0 : P s) : Res.all P (execWdogExpire s) := by
  unfold execWdogExpire
  repeat' with_reducible first
        | assumption | intro _ | apply Res.all_next | apply keeps_faultLog hP | apply keeps_moduleReset hP
        | apply keeps_when

theorem keeps_execPllLossOfLock (which : Fin 4) (h0 : P s) : Res.all P (execPllLossOfLock which s) := by
  unfold execPllLossOfLock
  repeat' with_reducible first
        | assumption | apply Res.all_next | apply hP.set | apply keeps_faultLog hP | apply keeps_moduleReset hP
        | apply hP.ite

theorem keeps_execLanePllUnlock (d : Fin 20) (h0 : P s) : Res.all P (execLanePllUnlock d s) := by
  unfold execLanePllUnlock
  repeat' with_reducible first
        | assumption | intro _ | apply Res.all_next | apply hP.set | apply keeps_clkEvt hP | apply keeps_linkDown hP
        | apply keeps_starchSettle hP | apply keeps_surprise hP | apply keeps_each | apply hP.ite

theorem keeps_execRstCtlKey (core : Core) (delay : Fin 1024) (h0 : P s) : Res.all P (execRstCtlKey core delay s) := by
  unfold execRstCtlKey
  repeat' with_reducible first | assumption | apply Res.all_next | apply keeps_ctlWrite hP

theorem keeps_execTimStepWrite (core : Core) (delta : BitVec 64) (h0 : P s) :
    Res.all P (execTimStepWrite core delta s) := by
  unfold execTimStepWrite
  repeat' with_reducible first | assumption | apply Res.all_next | apply keeps_ctlWrite hP

theorem keeps_warnLog (h0 : P s) : P (State.warnLog s) := by
  unfold State.warnLog
  repeat' with_reducible first | assumption | apply keeps_draw hP.regs | apply keeps_logRecord hP

theorem keeps_execThermalWarning (i : Fin 3) (h0 : P s) : Res.all P (execThermalWarning i s) := by
  unfold execThermalWarning
  repeat' with_reducible first
        | assumption | intro _ | apply Res.all_next | apply keeps_limitUp hP.regs | apply keeps_warnLog hP
        | apply keeps_when

theorem keeps_execThermalCritical (i : Fin 3) (h0 : P s) : Res.all P (execThermalCritical i s) := by
  unfold execThermalCritical
  repeat' with_reducible first
        | assumption | intro _ | apply Res.all_next | apply keeps_faultLog hP | apply keeps_limitUp hP.regs
        | apply keeps_warnLog hP | apply keeps_when

theorem keeps_execDatapathError (sram : Bool) (h0 : P s) : Res.all P (execDatapathError sram s) := by
  unfold execDatapathError
  repeat' with_reducible first | assumption | apply Res.all_next | apply keeps_contain hP

theorem keeps_execHstContEnter (core : Option Core) (h0 : P s) : Res.all P (execHstContEnter core s) := by
  unfold execHstContEnter
  repeat' with_reducible first | assumption | apply Res.all_next | apply keeps_ctlWrite hP

theorem keeps_execContainRelease (core : Option Core) (key : BitVec 8) (ledgerFail dmaAbort : Bool) (h0 : P s) :
    Res.all P (execContainRelease core key ledgerFail dmaAbort s) := by
  unfold execContainRelease
  repeat' with_reducible first | assumption | apply Res.all_next | apply keeps_ctlWrite hP | apply keeps_hoFlush hP

theorem keeps_execFnContRequest (core : Option Core) (f : Fn) (h0 : P s) : Res.all P (execFnContRequest core f s) := by
  unfold execFnContRequest
  repeat' with_reducible first | assumption | apply Res.all_next | apply keeps_ctlWrite hP

theorem keeps_execFnContRelease (core : Option Core) (f : Fn) (h0 : P s) : Res.all P (execFnContRelease core f s) := by
  unfold execFnContRelease
  repeat' with_reducible first | assumption | apply Res.all_next | apply keeps_ctlWrite hP

theorem keeps_execRawWake (pec : Bool) (data : List Byte) (h0 : P s) : Res.all P (execRawWake pec data s) := by
  unfold execRawWake
  repeat' with_reducible first
        | assumption | intro _ | apply Res.all_next | apply keeps_moduleWake hP | apply keeps_rawData hP.regs
        | apply keeps_rawServe hP.regs | apply hP.ite

theorem keeps_execRawReset (pec : Bool) (data : List Byte) (h0 : P s) : Res.all P (execRawReset pec data s) := by
  unfold execRawReset
  repeat' with_reducible first
        | assumption | intro _ | apply Res.all_next | apply keeps_moduleReset hP | apply keeps_rawData hP.regs
        | apply keeps_rawServe hP.regs

theorem keeps_execRawContain (pec : Bool) (data : List Byte) (h0 : P s) : Res.all P (execRawContain pec data s) := by
  unfold execRawContain
  repeat' with_reducible first
        | assumption | intro _ | apply Res.all_next | apply keeps_contain hP | apply keeps_rawData hP.regs
        | apply keeps_rawServe hP.regs | apply hP.ite

theorem keeps_execRegisterWrite (core : Option Core) (dw : Fin 5767168) (wide : Bool) (v : BitVec 64) (h0 : P s) :
    Res.all P (execRegisterWrite core dw wide v s) := by
  unfold execRegisterWrite
  repeat' first
    | with_reducible first
        | assumption | intro _ | apply Res.all_next | apply Res.all_ite | apply keeps_enterReq hP | apply keeps_hoFlush hP
        | apply keeps_submit hP | apply keeps_tlpRx hP | apply hP.ite
    | dsimp only
    | simp only [id_eq]
    | (extract_lets +onlyGivenNames x; refine (fun (hx : P x) => ?_) ?_; clear_value x; rotate_left; subst x; rotate_right)
    | (extract_lets +onlyGivenNames x; clear_value x)
    | (split; all_goals (rename_i heq; have e2 := congrArg Prod.snd heq; simp only at e2; subst e2))
    | split

theorem keeps_powerUp (h0 : P s) : P (State.powerUp s) := by
  unfold State.powerUp
  repeat' first
    | with_reducible first
        | assumption | apply hP.set | apply keeps_alertSync hP.regs | apply keeps_bootDomains hP.regs
        | apply keeps_evLoad hP | apply keeps_faultLog hP | apply keeps_lifecycleMove hP
    | simp only [hP.upd]
    | split

theorem keeps_execPowerUp (h0 : P s) : Res.all P (execPowerUp s) := by
  unfold execPowerUp
  repeat' with_reducible first | assumption | apply Res.all_next | apply keeps_powerUp hP | apply hP.ite

theorem keeps_execPowerDown (h0 : P s) : Res.all P (execPowerDown s) := by
  unfold execPowerDown
  repeat' with_reducible first
        | assumption | apply Res.all_next | apply keeps_alertSync hP.regs | apply keeps_powerOff hP

theorem keeps_execOvervoltage (h0 : P s) : Res.all P (execOvervoltage s) := by
  unfold execOvervoltage
  repeat' first
    | with_reducible first
        | assumption | apply Res.all_next | apply keeps_alertSync hP.regs | apply keeps_powerOff hP
    | simp only [hP.upd]

theorem keeps_execThermalTrip (i : Fin 3) (h0 : P s) : Res.all P (execThermalTrip i s) := by
  unfold execThermalTrip
  repeat' first
    | with_reducible first
        | assumption | apply Res.all_next | apply keeps_alertSync hP.regs | apply keeps_powerOff hP
    | simp only [hP.upd]

theorem keeps_imageStart (run : Nat) (trying : Bool) (ver : BitVec 32) (mirrorVer : BitVec 8) (h0 : P s) :
    P (State.imageStart s run trying ver mirrorVer) := by
  unfold State.imageStart
  repeat' first
    | with_reducible first
        | assumption | apply hP.set | apply keeps_bootNext hP.regs | apply keeps_logRecord hP
        | apply keeps_seamPower hP.regs | apply hP.ite
    | simp only [hP.upd]

theorem keeps_execImageVerified (okA okB : Bool) (ver : BitVec 32) (mirrorVer : BitVec 8) (h0 : P s) :
    Res.all P (execImageVerified okA okB ver mirrorVer s) := by
  unfold execImageVerified
  repeat' with_reducible first
        | assumption | apply Res.all_next | apply keeps_bootFailNow hP.regs | apply keeps_imageChoice hP.regs
        | apply keeps_imageStart hP | apply hP.ite

theorem keeps_storeStart (h0 : P s) : P (State.storeStart s) := by
  unfold State.storeStart
  repeat' first
    | with_reducible first
        | assumption | intro _ | apply hP.set | apply keeps_setDom hP.regs | apply keeps_zeroRange hP | apply keeps_each
        | apply hP.ite
    | simp only [hP.upd]
    | simp only [id_eq]
    | (extract_lets +onlyGivenNames x; refine (fun (hx : P x) => ?_) ?_; clear_value x; rotate_left; subst x; rotate_right)
    | (extract_lets +onlyGivenNames x; clear_value x)
    | (split; all_goals (rename_i heq; have e2 := congrArg Prod.snd heq; simp only at e2; subst e2))
    | split

theorem keeps_execStoreTrained (h0 : P s) : Res.all P (execStoreTrained s) := by
  unfold execStoreTrained
  repeat' with_reducible first | assumption | apply Res.all_next | apply keeps_storeStart hP | apply hP.ite

theorem keeps_provCommand (op : Nat) (run : Fin 2109 → State → Res)
    (hr : provCommand op = some run) {t : State} (ht : P t) : (run 0 t).all P := by
  have key : ∀ r ∈ provCommand op, ∀ t : State, P t → (r 0 t).all P := by
    unfold provCommand
    split <;> intro r hr t ht
    · cases hr; exact keeps_execFnSetRes hP 0 ht
    · cases hr; exact keeps_execSliceBind hP 0 ht
    · cases hr; exact keeps_execSliceUnbind hP 0 ht
    · cases hr; exact keeps_execFnLock hP 0 ht
    · cases hr; exact keeps_execVfTotal hP 0 ht
    · cases hr; exact keeps_execCtxBind hP 0 ht
    · cases hr; exact keeps_execCtxUnbind hP 0 ht
    · cases hr; exact keeps_execCtxSetup hP 0 ht
    · cases hr; exact keeps_execWinWrite hP 0 ht
    · cases hr; exact keeps_execWinInval hP 0 ht
    · cases hr; exact keeps_execGrdWrite hP 0 ht
    · cases hr; exact keeps_execIrqSet hP 0 ht
    · cases hr; exact keeps_execIrqLtSet hP 0 ht
    · cases hr; exact keeps_execDmaGrant hP 0 ht
    · cases hr; exact keeps_execShareSet hP 0 ht
    · cases hr
  exact key run (by simp [hr]) t ht

theorem keeps_provRun (hdr pay : List Byte) (h : P s) :
    P (State.provRun s hdr pay) := by
  have key := keeps_provCommand hP (ofBytes (hdr.take 2))
  unfold State.provRun
  split
  · exact h
  · next run hr =>
    have h1 : P ((s.set .MBX_MB_CONTROL 0 2).stBytes (mbxAddr 0 + 8) hdr) :=
      keeps_stBytes hP _ _ (hP.set _ _ _ h)
    generalize (s.set .MBX_MB_CONTROL 0 2).stBytes (mbxAddr 0 + 8) hdr = x at h1
    have h2 := key run hr (t := x.stBytes (mbxAddr 0 + 0x40) pay) (keeps_stBytes hP _ _ h1)
    dsimp only
    split
    · next t ht =>
      rw [ht] at h2
      exact keeps_mbxReset hP _ h2
    · exact keeps_mbxReset hP _ h1

theorem keeps_provAll (n : Nat) : ∀ {s : State} (b : List Byte), P s →
    P (s.provAll n b) := by
  induction n with
  | zero => intro s b h; exact h
  | succ n ih =>
    intro s b h
    simp only [State.provAll]
    split
    · exact h
    · exact ih _ (keeps_provRun hP _ _ h)

theorem keeps_provision (h0 : P s) : P (State.provision s) := by
  unfold State.provision
  repeat' with_reducible first
        | assumption | intro _ | apply hP.set | apply keeps_provAll hP | apply keeps_snapshot hP.regs | apply keeps_each
        | apply hP.ite

theorem keeps_bootEnd (h0 : P s) : P (State.bootEnd s) := by
  unfold State.bootEnd
  repeat' first
    | with_reducible first
        | assumption | apply hP.set | apply keeps_bdtBuild hP.regs | apply keeps_fullFace hP
        | apply keeps_imageReady hP.regs | apply keeps_irqEval hP | apply keeps_logRecord hP | apply keeps_provision hP
        | apply keeps_toMode hP.regs | apply hP.ite
    | simp only [hP.upd]

theorem keeps_execFwReady (h0 : P s) : Res.all P (execFwReady s) := by
  unfold execFwReady
  repeat' with_reducible first | assumption | apply Res.all_next | apply keeps_bootEnd hP | apply hP.ite

theorem keeps_execBootWatchdogExpire (h0 : P s) : Res.all P (execBootWatchdogExpire s) := by
  unfold execBootWatchdogExpire
  repeat' first
    | with_reducible first | assumption | apply Res.all_next | apply keeps_faultLog hP | apply keeps_moduleReset hP
    | simp only [hP.upd]
    | split

theorem keeps_execModuleResetEvent (cause : Fin 9) (h0 : P s) : Res.all P (execModuleResetEvent cause s) := by
  unfold execModuleResetEvent
  repeat' with_reducible first | assumption | apply Res.all_next | apply keeps_moduleReset hP | apply hP.ite

theorem keeps_portsOff (h0 : P s) : P (State.portsOff s) := by
  unfold State.portsOff
  repeat' with_reducible first
        | assumption | intro _ | apply keeps_linkOff hP | apply keeps_starchSettle hP | apply keeps_each

theorem keeps_sleepKept (retain : Bool) (h : P s) :
    P (State.sleepKept s retain) :=
  hP.keep (s := s) _ _ _ (fun _ => false) (fun _ => false) rfl rfl rfl rfl (smKeep_false _).symm
    (smKeep_false _).symm h

theorem keeps_sleep (retain : Bool) (wake : Option Nat) (h0 : P s) : P (State.sleep s retain wake) := by
  unfold State.sleep
  repeat' first
    | with_reducible first
        | assumption | intro _ | apply hP.set | apply keeps_beforeReset hP | apply keeps_logFlush hP.regs
        | apply keeps_moduleWake hP | apply keeps_roleLine hP.regs | apply keeps_selfRefresh hP.regs
        | apply keeps_sleepKept hP | apply keeps_zeroAbort hP | apply hP.ite
    | dsimp only
    | simp only [id_eq]
    | (extract_lets +onlyGivenNames x; refine (fun (hx : P x) => ?_) ?_; clear_value x; rotate_left; subst x; rotate_right)
    | (extract_lets +onlyGivenNames x; clear_value x)
    | (split; all_goals (rename_i heq; have e2 := congrArg Prod.snd heq; simp only at e2; subst e2))
    | split

theorem keeps_sbAdvance (b : Standby) (h0 : P s) : P (State.sbAdvance s b) := by
  unfold State.sbAdvance
  repeat' first
    | with_reducible first
        | assumption | intro _ | apply keeps_domDown hP | apply keeps_hoStart hP | apply keeps_leavePair hP
        | apply keeps_portsOff hP | apply keeps_sbStep hP.regs | apply keeps_sleep hP | apply hP.ite
    | dsimp only
    | simp only [id_eq]
    | (extract_lets +onlyGivenNames x; refine (fun (hx : P x) => ?_) ?_; clear_value x; rotate_left; subst x; rotate_right)
    | (extract_lets +onlyGivenNames x; clear_value x)
    | (split; all_goals (rename_i heq; have e2 := congrArg Prod.snd heq; simp only at e2; subst e2))
    | split

theorem keeps_execStandbyEntry (h0 : P s) : Res.all P (execStandbyEntry s) := by
  unfold execStandbyEntry
  repeat' first
    | with_reducible first | assumption | apply Res.all_next | apply keeps_hoFlush hP | apply keeps_sbAdvance hP
    | simp only [hP.upd]
    | split

theorem keeps_execStandbyLedgerTimeout (h0 : P s) : Res.all P (execStandbyLedgerTimeout s) := by
  unfold execStandbyLedgerTimeout
  repeat' first
    | with_reducible first | assumption | apply Res.all_next | apply keeps_portsOff hP | apply keeps_sbStep hP.regs
    | split

theorem keeps_execModuleWake (src : BitVec 8) (h0 : P s) : Res.all P (execModuleWake src s) := by
  unfold execModuleWake
  repeat' first
    | with_reducible first | assumption | apply Res.all_next | apply keeps_moduleWake hP
    | split

end Sys2Proof.Machine
end

