-- ==== Sys2Proof/Laws/KeepsEvents.lean ====
section
/-!
SUPPORT. Kept properties: the commands of DMA, the guard, interrupts, lanes, the ledger and Urone, and one nanosecond.
-/
namespace Sys2Proof.Machine

variable {P : State → Prop} (hP : Keeps P) {s : State}
include hP

theorem keeps_chCtl (core : Option Core) (c : Chan) (f : Fld) (h0 : P s) : P (State.chCtl s core c f) := by
  unfold State.chCtl
  repeat' with_reducible first | assumption | apply keeps_ctlWrite hP

theorem keeps_execDmaChStart (core : Option Core) (c : Chan) (h0 : P s) : Res.all P (execDmaChStart core c s) := by
  unfold execDmaChStart
  repeat' with_reducible first | assumption | apply Res.all_next | apply keeps_chCtl hP

theorem keeps_execDmaChAbort (core : Option Core) (c : Chan) (h0 : P s) : Res.all P (execDmaChAbort core c s) := by
  unfold execDmaChAbort
  repeat' with_reducible first | assumption | apply Res.all_next | apply keeps_chCtl hP

theorem keeps_execDmaChResume (core : Option Core) (c : Chan) (h0 : P s) : Res.all P (execDmaChResume core c s) := by
  unfold execDmaChResume
  repeat' with_reducible first | assumption | apply Res.all_next | apply keeps_chCtl hP

theorem keeps_execDmaChClear (core : Option Core) (c : Chan) (h0 : P s) : Res.all P (execDmaChClear core c s) := by
  unfold execDmaChClear
  repeat' with_reducible first | assumption | apply Res.all_next | apply keeps_chCtl hP

theorem keeps_execDmaChCfgWrite (core : Option Core) (c : Chan) (v : BitVec 64) (h0 : P s) :
    Res.all P (execDmaChCfgWrite core c v s) := by
  unfold execDmaChCfgWrite
  repeat' with_reducible first | assumption | apply Res.all_next | apply keeps_ctlWrite hP

theorem keeps_execDmaGrantWrite (core : Option Core) (pf : Fin 3) (j : Fin 64) (v : BitVec 32) (h0 : P s) :
    Res.all P (execDmaGrantWrite core pf j v s) := by
  unfold execDmaGrantWrite
  repeat' with_reducible first | assumption | apply Res.all_next | apply keeps_ctlWrite hP

theorem keeps_execDmaRingResumeWrite (core : Option Core) (x : Ctx) (h0 : P s) :
    Res.all P (execDmaRingResumeWrite core x s) := by
  unfold execDmaRingResumeWrite
  repeat' with_reducible first | assumption | apply Res.all_next | apply keeps_ctlWrite hP

theorem keeps_execDmaRingResetWrite (core : Option Core) (x : Ctx) (h0 : P s) :
    Res.all P (execDmaRingResetWrite core x s) := by
  unfold execDmaRingResetWrite
  repeat' with_reducible first | assumption | apply Res.all_next | apply keeps_ctlWrite hP

theorem keeps_execDoorbellWrite (f : Fn) (k : Fin 1024) (v : BitVec 64) (h0 : P s) :
    Res.all P (execDoorbellWrite f k v s) := by
  unfold execDoorbellWrite
  repeat' with_reducible first
        | assumption | intro _ | apply Res.all_next | apply keeps_submit hP | apply keeps_tlpRx hP | apply keeps_when

theorem keeps_execDescFetchDone (x : Ctx) (h0 : P s) : Res.all P (execDescFetchDone x s) := by
  unfold execDescFetchDone
  repeat' with_reducible first
        | assumption | intro _ | apply Res.all_next | apply keeps_ringTake hP | apply keeps_takeDone hP.regs

theorem keeps_execRingDispatch (x : Ctx) (h0 : P s) : Res.all P (execRingDispatch x s) := by
  unfold execRingDispatch
  repeat' with_reducible first
        | assumption | intro _ | apply Res.all_next | apply keeps_ringDispatch hP | apply keeps_when

theorem keeps_execDmaBeatIssue (half : Fin 2) (err : MemErr) (h0 : P s) : Res.all P (execDmaBeatIssue half err s) := by
  unfold execDmaBeatIssue
  repeat' first
    | with_reducible first
        | assumption | intro _ | apply Res.all_next | apply Res.all_ite | apply keeps_dmaCycle hP
        | apply keeps_starchSettle hP
    | simp only [hP.upd]
    | simp only [id_eq]
    | (extract_lets +onlyGivenNames x; refine (fun (hx : P x) => ?_) ?_; clear_value x; rotate_left; subst x; rotate_right)
    | (extract_lets +onlyGivenNames x; clear_value x)
    | (split; all_goals (rename_i heq; have e2 := congrArg Prod.snd heq; simp only at e2; subst e2))
    | split

theorem keeps_execDmaBeatReadDone (c : Chan) (h0 : P s) : Res.all P (execDmaBeatReadDone c s) := by
  unfold execDmaBeatReadDone
  repeat' with_reducible first
        | assumption | intro _ | apply Res.all_next | apply keeps_chSettle hP | apply keeps_readResult hP
        | apply keeps_takeDone hP.regs

theorem keeps_execDmaBeatArrived (c : Chan) (h0 : P s) : Res.all P (execDmaBeatArrived c s) := by
  unfold execDmaBeatArrived
  repeat' with_reducible first
        | assumption | intro _ | apply Res.all_next | apply keeps_chSettle hP | apply keeps_takeDone hP.regs
        | apply keeps_writeResult hP

theorem keeps_stopEnd (c : Nat) (hard : Bool) (h0 : P s) : P (State.stopEnd s c hard) := by
  unfold State.stopEnd
  repeat' first
    | with_reducible first
        | assumption | intro _ | apply keeps_chStopEnd hP | apply keeps_stopSettle hP | apply keeps_when
    | split

theorem keeps_execDmaSoftStopDone (c : Chan) (h0 : P s) : Res.all P (execDmaSoftStopDone c s) := by
  unfold execDmaSoftStopDone
  repeat' with_reducible first | assumption | apply Res.all_next | apply keeps_stopEnd hP

theorem keeps_execDmaHardAbortDone (c : Chan) (h0 : P s) : Res.all P (execDmaHardAbortDone c s) := by
  unfold execDmaHardAbortDone
  repeat' with_reducible first | assumption | apply Res.all_next | apply keeps_stopEnd hP

theorem keeps_execGrdUpdCmd (core : Option Core) (set region : Fin 32) (h0 : P s) :
    Res.all P (execGrdUpdCmd core set region s) := by
  unfold execGrdUpdCmd
  repeat' with_reducible first | assumption | apply Res.all_next | apply keeps_ctlWrite hP

theorem keeps_execGrdUpdDone (h0 : P s) : Res.all P (execGrdUpdDone s) := by
  unfold execGrdUpdDone
  repeat' with_reducible first | assumption | intro _ | apply Res.all_next | apply keeps_grdCommit hP | apply keeps_when

theorem keeps_execGrdEpochAdvance (core : Option Core) (h0 : P s) : Res.all P (execGrdEpochAdvance core s) := by
  unfold execGrdEpochAdvance
  repeat' with_reducible first | assumption | apply Res.all_next | apply keeps_ctlWrite hP

theorem keeps_execGrdEpochDrainRead (core : Option Core) (tag : Nat) (h0 : P s) :
    Res.all P (execGrdEpochDrainRead core tag s) := by
  unfold execGrdEpochDrainRead
  repeat' with_reducible first | assumption | apply Res.all_next | apply keeps_readBy hP

theorem keeps_execGrdEpochDrainReturn (late : Bool) (h0 : P s) : Res.all P (execGrdEpochDrainReturn late s) := by
  unfold execGrdEpochDrainReturn
  repeat' with_reducible first | assumption | apply Res.all_next | apply keeps_grdDrainReturn hP

theorem keeps_execDebugAccess (addr : Fin 281474976710656) (data : List Byte) (len : Nat) (err : MemErr) (h0 : P s) :
    Res.all P (execDebugAccess addr data len err s) := by
  unfold execDebugAccess
  repeat' with_reducible first
        | assumption | intro _ | apply Res.all_next | apply keeps_dbgRefuse hP.regs | apply keeps_enterReq hP
        | apply keeps_when | apply hP.ite

theorem keeps_execRelock (h0 : P s) : Res.all P (execRelock s) := by
  unfold execRelock
  repeat' with_reducible first | assumption | apply Res.all_next | apply keeps_ctlWrite hP

theorem keeps_execIrqDoorbellWrite (w : DbWriter) (v : BitVec 32) (h0 : P s) :
    Res.all P (execIrqDoorbellWrite w v s) := by
  unfold execIrqDoorbellWrite
  repeat' first
    | with_reducible first
        | assumption | intro _ | apply Res.all_next | apply Res.all_ite | apply keeps_ctlWrite hP
        | apply keeps_doorbell hP | apply keeps_irqOn | apply keeps_pktRx hP | apply keeps_submit hP
        | apply keeps_tlpRx hP
    | dsimp only
    | simp only [id_eq]
    | (extract_lets +onlyGivenNames x; refine (fun (hx : P x) => ?_) ?_; clear_value x; rotate_left; subst x; rotate_right)
    | (extract_lets +onlyGivenNames x; clear_value x)
    | (split; all_goals (rename_i heq; have e2 := congrArg Prod.snd heq; simp only at e2; subst e2))
    | split

theorem keeps_execIrqRaise (i : Src) (h0 : P s) : Res.all P (execIrqRaise i s) := by
  unfold execIrqRaise
  repeat' with_reducible first
        | assumption | intro _ | apply Res.all_next | apply keeps_irqOn | apply keeps_raise hP

theorem keeps_execIrqLevelFall (i : Src) (h0 : P s) : Res.all P (execIrqLevelFall i s) := by
  unfold execIrqLevelFall
  repeat' with_reducible first
        | assumption | intro _ | apply Res.all_next | apply keeps_dbDeassert hP | apply keeps_irqOn
        | apply keeps_levelFall hP | apply hP.ite

theorem keeps_execIrqArrayWrite (c : Core) (al : Fin 3) (off : Fin 65536) (data : List Byte) (h0 : P s) :
    Res.all P (execIrqArrayWrite c al off data s) := by
  unfold execIrqArrayWrite
  repeat' with_reducible first | assumption | apply Res.all_next | apply keeps_enterReq hP

theorem keeps_irqMask (core : Option Core) (r : Reg) (n : Fin 512) (v : BitVec 32) (h0 : P s) :
    P (State.irqMask s core r n v) := by
  unfold State.irqMask
  repeat' with_reducible first | assumption | apply keeps_ctlWrite hP

theorem keeps_execIrqPendSet (core : Option Core) (n : Fin 512) (v : BitVec 32) (h0 : P s) :
    Res.all P (execIrqPendSet core n v s) := by
  unfold execIrqPendSet
  repeat' with_reducible first | assumption | apply Res.all_next | apply keeps_irqMask hP

theorem keeps_execIrqPendClr (core : Option Core) (n : Fin 512) (v : BitVec 32) (h0 : P s) :
    Res.all P (execIrqPendClr core n v s) := by
  unfold execIrqPendClr
  repeat' with_reducible first | assumption | apply Res.all_next | apply keeps_irqMask hP

theorem keeps_execIrqEnSet (core : Option Core) (n : Fin 512) (v : BitVec 32) (h0 : P s) :
    Res.all P (execIrqEnSet core n v s) := by
  unfold execIrqEnSet
  repeat' with_reducible first | assumption | apply Res.all_next | apply keeps_irqMask hP

theorem keeps_execIrqEnClr (core : Option Core) (n : Fin 512) (v : BitVec 32) (h0 : P s) :
    Res.all P (execIrqEnClr core n v s) := by
  unfold execIrqEnClr
  repeat' with_reducible first | assumption | apply Res.all_next | apply keeps_irqMask hP

theorem keeps_execIrqRouteWrite (core : Option Core) (i : Src) (v : BitVec 64) (h0 : P s) :
    Res.all P (execIrqRouteWrite core i v s) := by
  unfold execIrqRouteWrite
  repeat' with_reducible first | assumption | apply Res.all_next | apply keeps_ctlWrite hP

theorem keeps_execIrqCoreClaim (c : Core) (h0 : P s) : Res.all P (execIrqCoreClaim c s) := by
  unfold execIrqCoreClaim
  repeat' with_reducible first | assumption | apply Res.all_next | apply keeps_enterReq hP

theorem keeps_execIrqCoreComplete (core : Option Core) (c : Core) (i : Src) (h0 : P s) :
    Res.all P (execIrqCoreComplete core c i s) := by
  unfold execIrqCoreComplete
  repeat' with_reducible first | assumption | apply Res.all_next | apply keeps_ctlWrite hP

theorem keeps_execIrqCoreThrWrite (core : Option Core) (c : Core) (thr : Fin 16) (h0 : P s) :
    Res.all P (execIrqCoreThrWrite core c thr s) := by
  unfold execIrqCoreThrWrite
  repeat' with_reducible first | assumption | apply Res.all_next | apply keeps_ctlWrite hP

theorem keeps_msixSend (f e i : Nat) (t : List Nat) (h0 : P s) : P (State.msixSend s f e i t) := by
  unfold State.msixSend
  repeat' with_reducible first
        | assumption | intro _ | apply keeps_irqEval hP | apply keeps_jSend hP | apply keeps_setPend hP
        | apply keeps_stormCount hP | apply keeps_each

theorem keeps_execMsixMessageSend (f : Fn) (e : Fin 2048) (h0 : P s) : Res.all P (execMsixMessageSend f e s) := by
  unfold execMsixMessageSend
  repeat' first
    | with_reducible first | assumption | apply Res.all_next | apply keeps_msixSend hP
    | split

theorem keeps_localSend (i : Nat) (t : Target) (h0 : P s) : P (State.localSend s i t) := by
  unfold State.localSend
  repeat' with_reducible first
        | assumption | apply keeps_deliverMem hP | apply keeps_irqEval hP | apply keeps_setPend hP
        | apply keeps_stormCount hP

theorem keeps_execLocalIrqDelivery (i : Src) (h0 : P s) : Res.all P (execLocalIrqDelivery i s) := by
  unfold execLocalIrqDelivery
  repeat' first
    | with_reducible first | assumption | apply Res.all_next | apply keeps_localSend hP
    | split

theorem keeps_stormEnd (h0 : P s) : P (State.stormEnd s) := by
  unfold State.stormEnd
  repeat' first
    | with_reducible first | assumption | intro _ | apply keeps_irqEval hP | apply keeps_each
    | simp only [hP.upd]

theorem keeps_execStormWindowEnd (h0 : P s) : Res.all P (execStormWindowEnd s) := by
  unfold execStormWindowEnd
  repeat' with_reducible first
        | assumption | intro _ | apply Res.all_next | apply keeps_irqOn | apply keeps_stormEnd hP

theorem keeps_execIrqStormWrite (core : Option Core) (n : Fin 512) (v : BitVec 32) (h0 : P s) :
    Res.all P (execIrqStormWrite core n v s) := by
  unfold execIrqStormWrite
  repeat' with_reducible first | assumption | apply Res.all_next | apply keeps_irqMask hP

theorem keeps_execLaneEnable (l : Link) (on : Bool) (h0 : P s) : Res.all P (execLaneEnable l on s) := by
  unfold execLaneEnable
  repeat' with_reducible first
        | assumption | intro _ | apply Res.all_next | apply keeps_enableWrite hP | apply keeps_when

theorem keeps_execLaneRetrain (l : Link) (h0 : P s) : Res.all P (execLaneRetrain l s) := by
  unfold execLaneRetrain
  repeat' with_reducible first | assumption | intro _ | apply Res.all_next | apply keeps_retrain hP | apply keeps_when

theorem keeps_miswireCheck (l : Nat) (h0 : P s) : P (State.miswireCheck s l) := by
  unfold State.miswireCheck
  repeat' first
    | with_reducible first
        | assumption | intro _ | apply keeps_laneEvt hP | apply keeps_laneFail hP.regs | apply keeps_each | apply hP.ite
    | simp only [hP.upd]
    | simp only [id_eq]
    | (extract_lets +onlyGivenNames x; refine (fun (hx : P x) => ?_) ?_; clear_value x; rotate_left; subst x; rotate_right)
    | (extract_lets +onlyGivenNames x; clear_value x)
    | (split; all_goals (rename_i heq; have e2 := congrArg Prod.snd heq; simp only at e2; subst e2))
    | split

theorem keeps_trainStep (i : Nat) (b : TrainBlk) (rx : LaneRx) (h0 : P s) : P (State.trainStep s i b rx) := by
  unfold State.trainStep
  repeat' first
    | with_reducible first
        | assumption | intro _ | apply hP.set | apply keeps_exchangeCheck hP.regs | apply keeps_miswireCheck hP
        | apply keeps_setLane hP.regs | apply keeps_trainTake hP.regs | apply keeps_trainTaps hP.regs | apply hP.ite
    | simp only [hP.upd]
    | simp only [id_eq]
    | (extract_lets +onlyGivenNames x; refine (fun (hx : P x) => ?_) ?_; clear_value x; rotate_left; subst x; rotate_right)
    | (extract_lets +onlyGivenNames x; clear_value x)
    | (split; all_goals (rename_i heq; have e2 := congrArg Prod.snd heq; simp only at e2; subst e2))
    | split

theorem keeps_execTrainBlockRx (i : Lane) (word : Nat) (rx : LaneRx) (h0 : P s) :
    Res.all P (execTrainBlockRx i word rx s) := by
  unfold execTrainBlockRx
  repeat' first
    | with_reducible first
        | assumption | intro _ | apply Res.all_next | apply Res.all_ite | apply keeps_count hP.regs
        | apply keeps_trainAgain hP.regs | apply keeps_trainStep hP | apply keeps_when | apply hP.ite
    | simp only [hP.upd]
    | simp only [id_eq]
    | (extract_lets +onlyGivenNames x; refine (fun (hx : P x) => ?_) ?_; clear_value x; rotate_left; subst x; rotate_right)
    | (extract_lets +onlyGivenNames x; clear_value x)
    | (split; all_goals (rename_i heq; have e2 := congrArg Prod.snd heq; simp only at e2; subst e2))
    | split

theorem keeps_execLinkTrainDecide (l : Link) (h0 : P s) : Res.all P (execLinkTrainDecide l s) := by
  unfold execLinkTrainDecide
  repeat' first
    | with_reducible first
        | assumption | intro _ | apply Res.all_next | apply Res.all_ite | apply hP.set | apply keeps_laneEvt hP
        | apply keeps_linkActive hP | apply keeps_setLane hP.regs | apply keeps_setLk hP.regs
        | apply keeps_trainTx hP.regs | apply keeps_each | apply keeps_when | apply hP.ite
    | simp only [hP.upd]
    | simp only [id_eq]
    | (extract_lets +onlyGivenNames x; refine (fun (hx : P x) => ?_) ?_; clear_value x; rotate_left; subst x; rotate_right)
    | (extract_lets +onlyGivenNames x; clear_value x)
    | (split; all_goals (rename_i heq; have e2 := congrArg Prod.snd heq; simp only at e2; subst e2))
    | split

theorem keeps_execDetectTimeout (l : Link) (h0 : P s) : Res.all P (execDetectTimeout l s) := by
  unfold execDetectTimeout
  repeat' first
    | with_reducible first
        | assumption | intro _ | apply Res.all_next | apply Res.all_ite | apply keeps_exchangeCheck hP.regs
        | apply keeps_laneTrain hP | apply keeps_setLk hP.regs | apply keeps_when | apply hP.ite
    | simp only [hP.upd]
    | simp only [id_eq]
    | (extract_lets +onlyGivenNames x; refine (fun (hx : P x) => ?_) ?_; clear_value x; rotate_left; subst x; rotate_right)
    | (extract_lets +onlyGivenNames x; clear_value x)
    | (split; all_goals (rename_i heq; have e2 := congrArg Prod.snd heq; simp only at e2; subst e2))
    | split

theorem keeps_execTrainRestartTimeout (l : Link) (h0 : P s) : Res.all P (execTrainRestartTimeout l s) := by
  unfold execTrainRestartTimeout
  repeat' with_reducible first | assumption | intro _ | apply Res.all_next | apply keeps_laneTrain hP | apply keeps_when

theorem keeps_lockLost (i : Nat) (h0 : P s) : P (State.lockLost s i) := by
  unfold State.lockLost
  repeat' first
    | with_reducible first
        | assumption | intro _ | apply keeps_darn hP | apply keeps_setLtx hP.regs | apply keeps_trialDrop hP.regs
        | apply hP.ite
    | simp only [hP.upd]
    | simp only [id_eq]
    | (extract_lets +onlyGivenNames x; refine (fun (hx : P x) => ?_) ?_; clear_value x; rotate_left; subst x; rotate_right)
    | (extract_lets +onlyGivenNames x; clear_value x)
    | (split; all_goals (rename_i heq; have e2 := congrArg Prod.snd heq; simp only at e2; subst e2))
    | split

theorem keeps_execLaneLockLoss (i : Lane) (w : LaneLoss) (h0 : P s) : Res.all P (execLaneLockLoss i w s) := by
  unfold execLaneLockLoss
  repeat' first
    | with_reducible first
        | assumption | intro _ | apply Res.all_next | apply Res.all_ite | apply hP.set | apply keeps_lockLost hP
        | apply keeps_when | apply hP.ite
    | simp only [hP.upd]
    | simp only [id_eq]
    | (extract_lets +onlyGivenNames x; refine (fun (hx : P x) => ?_) ?_; clear_value x; rotate_left; subst x; rotate_right)
    | (extract_lets +onlyGivenNames x; clear_value x)
    | (split; all_goals (rename_i heq; have e2 := congrArg Prod.snd heq; simp only at e2; subst e2))
    | split

theorem keeps_execLaneSyncErrWindow (i : Lane) (errs : Nat) (h0 : P s) : Res.all P (execLaneSyncErrWindow i errs s) := by
  unfold execLaneSyncErrWindow
  repeat' with_reducible first
        | assumption | intro _ | apply Res.all_next | apply keeps_count hP.regs | apply keeps_darn hP | apply keeps_when
        | apply hP.ite

theorem keeps_execLaneForceDarnWrite (i : Lane) (v : Bool) (h0 : P s) : Res.all P (execLaneForceDarnWrite i v s) := by
  unfold execLaneForceDarnWrite
  repeat' with_reducible first | assumption | intro _ | apply Res.all_next | apply keeps_forceWrite hP | apply keeps_when

theorem keeps_execTrialWindowEnd (i : Lane) (w : TrialWin) (h0 : P s) : Res.all P (execTrialWindowEnd i w s) := by
  unfold execTrialWindowEnd
  repeat' first
    | with_reducible first
        | assumption | intro _ | apply Res.all_next | apply Res.all_ite | apply hP.set | apply keeps_lpExit hP
        | apply keeps_sendMarker hP.regs | apply keeps_setLane hP.regs | apply keeps_setLk hP.regs
        | apply keeps_trialStart hP.regs | apply keeps_when | apply hP.ite
    | simp only [hP.upd]
    | simp only [id_eq]
    | (extract_lets +onlyGivenNames x; refine (fun (hx : P x) => ?_) ?_; clear_value x; rotate_left; subst x; rotate_right)
    | (extract_lets +onlyGivenNames x; clear_value x)
    | (split; all_goals (rename_i heq; have e2 := congrArg Prod.snd heq; simp only at e2; subst e2))
    | split

theorem keeps_markerLate (i : Nat) (h0 : P s) : P (State.markerLate s i) := by
  unfold State.markerLate
  repeat' first
    | with_reducible first | assumption | intro _ | apply keeps_darn hP | apply keeps_setLtx hP.regs | apply hP.ite
    | simp only [hP.upd]
    | simp only [id_eq]
    | (extract_lets +onlyGivenNames x; refine (fun (hx : P x) => ?_) ?_; clear_value x; rotate_left; subst x; rotate_right)
    | (extract_lets +onlyGivenNames x; clear_value x)
    | (split; all_goals (rename_i heq; have e2 := congrArg Prod.snd heq; simp only at e2; subst e2))
    | split

theorem keeps_execMarkerRx (i : Lane) (word : Option Nat) (skew : Nat) (h0 : P s) :
    Res.all P (execMarkerRx i word skew s) := by
  unfold execMarkerRx
  repeat' first
    | with_reducible first
        | assumption | intro _ | apply Res.all_next | apply Res.all_ite | apply keeps_count hP.regs
        | apply keeps_markerLate hP | apply keeps_when | apply hP.ite
    | simp only [hP.upd]
    | simp only [id_eq]
    | (extract_lets +onlyGivenNames x; refine (fun (hx : P x) => ?_) ?_; clear_value x; rotate_left; subst x; rotate_right)
    | (extract_lets +onlyGivenNames x; clear_value x)
    | (split; all_goals (rename_i heq; have e2 := congrArg Prod.snd heq; simp only at e2; subst e2))
    | split

theorem keeps_answerStripe (l tx : Nat) (h0 : P s) : P (State.answerStripe s l tx) := by
  unfold State.answerStripe
  repeat' first
    | with_reducible first
        | assumption | intro _ | apply hP.set | apply keeps_laneSync hP | apply keeps_lpExit hP
        | apply keeps_sendMarker hP.regs | apply keeps_trainTx hP.regs | apply keeps_each | apply hP.ite
    | simp only [hP.upd]
    | simp only [id_eq]
    | (extract_lets +onlyGivenNames x; refine (fun (hx : P x) => ?_) ?_; clear_value x; rotate_left; subst x; rotate_right)
    | (extract_lets +onlyGivenNames x; clear_value x)
    | (split; all_goals (rename_i heq; have e2 := congrArg Prod.snd heq; simp only at e2; subst e2))
    | split

theorem keeps_execDarnReqRx (l : Link) (arg add rxok : Nat) (h0 : P s) : Res.all P (execDarnReqRx l arg add rxok s) := by
  unfold execDarnReqRx
  repeat' first
    | with_reducible first
        | assumption | intro _ | apply Res.all_next | apply keeps_answerStripe hP | apply keeps_when
    | split

theorem keeps_execAddReqRx (l : Link) (arg rxok darn : Nat) (h0 : P s) : Res.all P (execAddReqRx l arg rxok darn s) := by
  unfold execAddReqRx
  repeat' first
    | with_reducible first
        | assumption | intro _ | apply Res.all_next | apply keeps_answerStripe hP | apply keeps_when
    | split

theorem keeps_stripeTake (l active skew : Nat) (h0 : P s) : P (State.stripeTake s l active skew) := by
  unfold State.stripeTake
  repeat' first
    | with_reducible first
        | assumption | intro _ | apply hP.set | apply keeps_count hP.regs | apply keeps_darnAsk hP
        | apply keeps_darnNote hP | apply keeps_forceAll hP | apply keeps_laneEvt hP | apply keeps_laneSync hP
        | apply keeps_setLane hP.regs | apply keeps_setLk hP.regs | apply keeps_upperUp hP.regs | apply keeps_each
        | apply hP.ite
    | simp only [hP.upd]
    | simp only [id_eq]
    | (extract_lets +onlyGivenNames x; refine (fun (hx : P x) => ?_) ?_; clear_value x; rotate_left; subst x; rotate_right)
    | (extract_lets +onlyGivenNames x; clear_value x)
    | (split; all_goals (rename_i heq; have e2 := congrArg Prod.snd heq; simp only at e2; subst e2))
    | split

theorem keeps_execStripeRx (l : Link) (active skew : Nat) (h0 : P s) : Res.all P (execStripeRx l active skew s) := by
  unfold execStripeRx
  repeat' with_reducible first | assumption | intro _ | apply Res.all_next | apply keeps_stripeTake hP | apply keeps_when

theorem keeps_rxSleep (l deep : Nat) (h0 : P s) : P (State.rxSleep s l deep) := by
  unfold State.rxSleep
  repeat' first
    | with_reducible first
        | assumption | intro _ | apply hP.set | apply keeps_laneSync hP | apply keeps_setLane hP.regs
        | apply keeps_setPort hP.regs | apply keeps_trialDrop hP.regs | apply keeps_each | apply hP.ite
    | simp only [hP.upd]
    | simp only [id_eq]
    | (extract_lets +onlyGivenNames x; refine (fun (hx : P x) => ?_) ?_; clear_value x; rotate_left; subst x; rotate_right)
    | (extract_lets +onlyGivenNames x; clear_value x)
    | (split; all_goals (rename_i heq; have e2 := congrArg Prod.snd heq; simp only at e2; subst e2))
    | split

theorem keeps_execDozeMarkerRx (l : Link) (h0 : P s) : Res.all P (execDozeMarkerRx l s) := by
  unfold execDozeMarkerRx
  repeat' with_reducible first | assumption | intro _ | apply Res.all_next | apply keeps_rxSleep hP | apply keeps_when

theorem keeps_execDeepMarkerRx (l : Link) (h0 : P s) : Res.all P (execDeepMarkerRx l s) := by
  unfold execDeepMarkerRx
  repeat' with_reducible first | assumption | intro _ | apply Res.all_next | apply keeps_rxSleep hP | apply keeps_when

theorem keeps_execDarnGiveUp (l : Link) (h0 : P s) : Res.all P (execDarnGiveUp l s) := by
  unfold execDarnGiveUp
  repeat' with_reducible first | assumption | intro _ | apply Res.all_next | apply keeps_linkDown hP | apply keeps_when

theorem keeps_txSleep (l deep : Nat) (h0 : P s) : P (State.txSleep s l deep) := by
  unfold State.txSleep
  repeat' first
    | with_reducible first
        | assumption | intro _ | apply keeps_laneSync hP | apply keeps_send hP.regs | apply keeps_sendMarker hP.regs
        | apply keeps_setTxLp hP.regs | apply hP.ite
    | simp only [hP.upd]
    | simp only [id_eq]
    | (extract_lets +onlyGivenNames x; refine (fun (hx : P x) => ?_) ?_; clear_value x; rotate_left; subst x; rotate_right)
    | (extract_lets +onlyGivenNames x; clear_value x)
    | (split; all_goals (rename_i heq; have e2 := congrArg Prod.snd heq; simp only at e2; subst e2))
    | split

theorem keeps_execDozeEntry (l : Link) (far : Bool) (h0 : P s) : Res.all P (execDozeEntry l far s) := by
  unfold execDozeEntry
  repeat' with_reducible first | assumption | intro _ | apply Res.all_next | apply keeps_txSleep hP | apply keeps_when

theorem keeps_execDeepEntry (l : Link) (far : Bool) (h0 : P s) : Res.all P (execDeepEntry l far s) := by
  unfold execDeepEntry
  repeat' with_reducible first
        | assumption | intro _ | apply Res.all_next | apply keeps_lpExit hP | apply keeps_txSleep hP | apply keeps_when

theorem keeps_execLowPowerExit (l : Link) (h0 : P s) : Res.all P (execLowPowerExit l s) := by
  unfold execLowPowerExit
  repeat' with_reducible first | assumption | intro _ | apply Res.all_next | apply keeps_lpExit hP | apply keeps_when

theorem keeps_execLowPowerExitDone (l : Link) (failed : Nat) (h0 : P s) :
    Res.all P (execLowPowerExitDone l failed s) := by
  unfold execLowPowerExitDone
  repeat' with_reducible first | assumption | intro _ | apply Res.all_next | apply keeps_rxExit hP | apply keeps_when

theorem keeps_entryOpen (w : LWait) (p init : Nat) (h0 : P s) : P (State.entryOpen s w p init) := by
  unfold State.entryOpen
  repeat' first
    | with_reducible first
        | assumption | intro _ | apply hP.set | apply keeps_mirror hP.regs | apply keeps_ovfOpen hP | apply hP.ite
    | simp only [hP.upd]
    | simp only [id_eq]
    | (extract_lets +onlyGivenNames x; refine (fun (hx : P x) => ?_) ?_; clear_value x; rotate_left; subst x; rotate_right)
    | (extract_lets +onlyGivenNames x; clear_value x)
    | (split; all_goals (rename_i heq; have e2 := congrArg Prod.snd heq; simp only at e2; subst e2))
    | split

theorem keeps_execLedgerEntryOpen (p : Port) (init : Fin 19) (h0 : P s) : Res.all P (execLedgerEntryOpen p init s) := by
  unfold execLedgerEntryOpen
  repeat' first
    | with_reducible first | assumption | apply Res.all_next | apply keeps_entryOpen hP
    | split

theorem keeps_entSend (e : LEnt) (tag : Nat) (h0 : P s) : P (State.entSend s e tag) := by
  unfold State.entSend
  repeat' first
    | with_reducible first
        | assumption | intro _ | apply hP.set | apply keeps_ledgerAnswer hP | apply keeps_setEnt hP
        | apply keeps_urSend hP.regs | apply hP.ite
    | simp only [hP.upd]
    | simp only [id_eq]
    | (extract_lets +onlyGivenNames x; refine (fun (hx : P x) => ?_) ?_; clear_value x; rotate_left; subst x; rotate_right)
    | (extract_lets +onlyGivenNames x; clear_value x)
    | (split; all_goals (rename_i heq; have e2 := congrArg Prod.snd heq; simp only at e2; subst e2))
    | split

theorem keeps_execLedgerIssue (p : Port) (init : Fin 19) (tag : Nat) (h0 : P s) :
    Res.all P (execLedgerIssue p init tag s) := by
  unfold execLedgerIssue
  repeat' first
    | with_reducible first
        | assumption | intro _ | apply Res.all_next | apply Res.all_ite | apply hP.st | apply keeps_entSend hP
        | apply keeps_ledgerAnswer hP | apply keeps_starchSettle hP | apply keeps_when | apply hP.ite
    | simp only [hP.upd]
    | simp only [id_eq]
    | (extract_lets +onlyGivenNames x; refine (fun (hx : P x) => ?_) ?_; clear_value x; rotate_left; subst x; rotate_right)
    | (extract_lets +onlyGivenNames x; clear_value x)
    | (split; all_goals (rename_i heq; have e2 := congrArg Prod.snd heq; simp only at e2; subst e2))
    | split

theorem keeps_execLedgerRetryReissue (p : Port) (init : Fin 19) (h0 : P s) :
    Res.all P (execLedgerRetryReissue p init s) := by
  unfold execLedgerRetryReissue
  repeat' first
    | with_reducible first
        | assumption | intro _ | apply Res.all_next | apply Res.all_ite | apply hP.st | apply keeps_entSend hP
        | apply keeps_starchSettle hP | apply keeps_urBatch hP.regs | apply keeps_each | apply keeps_when | apply hP.ite
    | dsimp only
    | simp only [id_eq]
    | (extract_lets +onlyGivenNames x; refine (fun (hx : P x) => ?_) ?_; clear_value x; rotate_left; subst x; rotate_right)
    | (extract_lets +onlyGivenNames x; clear_value x)
    | (split; all_goals (rename_i heq; have e2 := congrArg Prod.snd heq; simp only at e2; subst e2))
    | split

theorem keeps_execLedgerWriteTimeout (p : Port) (tag : Nat) (h0 : P s) : Res.all P (execLedgerWriteTimeout p tag s) := by
  unfold execLedgerWriteTimeout
  repeat' first
    | with_reducible first
        | assumption | apply Res.all_next | apply keeps_ledgerAnswer hP | apply keeps_starchSettle hP
        | apply keeps_tagHold hP
    | split

theorem keeps_execPortReadTimeout (p : Port) (tag : Nat) (h0 : P s) : Res.all P (execPortReadTimeout p tag s) := by
  unfold execPortReadTimeout
  repeat' first
    | with_reducible first
        | assumption | apply Res.all_next | apply keeps_portReadEnd hP | apply keeps_starchSettle hP
        | apply keeps_tagHold hP
    | split

theorem keeps_execHeldReadRelease (h0 : P s) : Res.all P (execHeldReadRelease s) := by
  unfold execHeldReadRelease
  repeat' first
    | with_reducible first
        | assumption | intro _ | apply Res.all_next | apply Res.all_ite | apply keeps_queueRead hP.regs
        | apply keeps_starch hP | apply keeps_when | apply hP.ite
    | simp only [hP.upd]
    | simp only [id_eq]
    | (extract_lets +onlyGivenNames x; refine (fun (hx : P x) => ?_) ?_; clear_value x; rotate_left; subst x; rotate_right)
    | (extract_lets +onlyGivenNames x; clear_value x)
    | (split; all_goals (rename_i heq; have e2 := congrArg Prod.snd heq; simp only at e2; subst e2))
    | split

theorem keeps_execBasketReadIssue (h0 : P s) : Res.all P (execBasketReadIssue s) := by
  unfold execBasketReadIssue
  repeat' with_reducible first | assumption | apply Res.all_next | apply keeps_bskIssue hP | apply keeps_starchSettle hP

theorem keeps_execPortReadIssue (p : Port) (tag : Nat) (h0 : P s) : Res.all P (execPortReadIssue p tag s) := by
  unfold execPortReadIssue
  repeat' first
    | with_reducible first
        | assumption | intro _ | apply Res.all_next | apply Res.all_ite | apply keeps_portReadEnd hP
        | apply keeps_starchSettle hP | apply keeps_urSend hP.regs | apply keeps_when | apply hP.ite
    | simp only [hP.upd]
    | simp only [id_eq]
    | (extract_lets +onlyGivenNames x; refine (fun (hx : P x) => ?_) ?_; clear_value x; rotate_left; subst x; rotate_right)
    | (extract_lets +onlyGivenNames x; clear_value x)
    | (split; all_goals (rename_i heq; have e2 := congrArg Prod.snd heq; simp only at e2; subst e2))
    | split

theorem keeps_execHostCompletionRx (tag : Nat) (status : Nat) (data : List Byte) (ep last : Bool) (h0 : P s) :
    Res.all P (execHostCompletionRx tag status data ep last s) := by
  unfold execHostCompletionRx
  repeat' first
    | with_reducible first
        | assumption | intro _ | apply Res.all_next | apply Res.all_ite | apply hP.st | apply keeps_aer hP
        | apply keeps_cplDiscard hP | apply keeps_cplUnexpected hP | apply keeps_hostData hP | apply keeps_starchSettle hP
        | apply hP.ite
    | simp only [hP.upd]
    | simp only [id_eq]
    | (extract_lets +onlyGivenNames x; refine (fun (hx : P x) => ?_) ?_; clear_value x; rotate_left; subst x; rotate_right)
    | (extract_lets +onlyGivenNames x; clear_value x)
    | (split; all_goals (rename_i heq; have e2 := congrArg Prod.snd heq; simp only at e2; subst e2))
    | split

theorem keeps_tagTimeout (tag : Nat) (b : BTag) (h0 : P s) : P (State.tagTimeout s tag b) := by
  unfold State.tagTimeout
  repeat' first
    | with_reducible first
        | assumption | apply keeps_aer hP | apply keeps_count hP.regs | apply keeps_evq hP | apply keeps_hostEnd hP
        | apply keeps_starchSettle hP
    | simp only [hP.upd]

theorem keeps_execBasketTagTimeout (tag : Nat) (h0 : P s) : Res.all P (execBasketTagTimeout tag s) := by
  unfold execBasketTagTimeout
  repeat' first
    | with_reducible first | assumption | apply Res.all_next | apply keeps_tagTimeout hP
    | simp only [hP.upd]
    | split

theorem keeps_execStarchGrant (gran hfn : Nat) (h0 : P s) : Res.all P (execStarchGrant gran hfn s) := by
  unfold execStarchGrant
  repeat' first
    | with_reducible first
        | assumption | intro _ | apply Res.all_next | apply Res.all_ite | apply keeps_grant hP
        | apply keeps_starchSettle hP | apply hP.ite
    | simp only [hP.upd]
    | simp only [id_eq]
    | (extract_lets +onlyGivenNames x; refine (fun (hx : P x) => ?_) ?_; clear_value x; rotate_left; subst x; rotate_right)
    | (extract_lets +onlyGivenNames x; clear_value x)
    | (split; all_goals (rename_i heq; have e2 := congrArg Prod.snd heq; simp only at e2; subst e2))
    | split

theorem keeps_execStarchHoldExpire (p : Port) (gran hfn : Nat) (h0 : P s) :
    Res.all P (execStarchHoldExpire p gran hfn s) := by
  unfold execStarchHoldExpire
  repeat' first
    | with_reducible first
        | assumption | intro _ | apply Res.all_next | apply Res.all_ite | apply hP.set | apply keeps_dropExpl hP.regs
        | apply keeps_starchSettle hP | apply keeps_when
    | simp only [hP.upd]
    | simp only [id_eq]
    | (extract_lets +onlyGivenNames x; refine (fun (hx : P x) => ?_) ?_; clear_value x; rotate_left; subst x; rotate_right)
    | (extract_lets +onlyGivenNames x; clear_value x)
    | (split; all_goals (rename_i heq; have e2 := congrArg Prod.snd heq; simp only at e2; subst e2))
    | split

theorem keeps_bundleTake (l : Nat) (data : List Nat) (h0 : P s) : P (State.bundleTake s l data) := by
  unfold State.bundleTake
  repeat' first
    | with_reducible first
        | assumption | intro _ | apply keeps_rxOne hP | apply keeps_setPort hP.regs | apply keeps_urAck hP.regs
        | apply keeps_each | apply hP.ite
    | simp only [hP.upd]
    | simp only [id_eq]
    | (extract_lets +onlyGivenNames x; refine (fun (hx : P x) => ?_) ?_; clear_value x; rotate_left; subst x; rotate_right)
    | (extract_lets +onlyGivenNames x; clear_value x)
    | (split; all_goals (rename_i heq; have e2 := congrArg Prod.snd heq; simp only at e2; subst e2))
    | split

theorem keeps_execBundleRx (l : Link) (data : List Nat) (ctl : Nat) (h0 : P s) :
    Res.all P (execBundleRx l data ctl s) := by
  unfold execBundleRx
  repeat' first
    | with_reducible first
        | assumption | intro _ | apply Res.all_next | apply Res.all_ite | apply keeps_ackRx hP | apply keeps_bundleTake hP
        | apply keeps_nakDue hP | apply keeps_when | apply hP.ite
    | simp only [hP.upd]
    | simp only [id_eq]
    | (extract_lets +onlyGivenNames x; refine (fun (hx : P x) => ?_) ?_; clear_value x; rotate_left; subst x; rotate_right)
    | (extract_lets +onlyGivenNames x; clear_value x)
    | (split; all_goals (rename_i heq; have e2 := congrArg Prod.snd heq; simp only at e2; subst e2))
    | split

theorem keeps_execAckNakOnlyRx (l : Link) (word : Nat) (h0 : P s) : Res.all P (execAckNakOnlyRx l word s) := by
  unfold execAckNakOnlyRx
  repeat' with_reducible first
        | assumption | intro _ | apply Res.all_next | apply keeps_ackRx hP | apply keeps_nakDue hP
        | apply keeps_protoErr hP | apply keeps_when | apply hP.ite

theorem keeps_execReplayTimeout (l : Link) (h0 : P s) : Res.all P (execReplayTimeout l s) := by
  unfold execReplayTimeout
  repeat' with_reducible first | assumption | intro _ | apply Res.all_next | apply keeps_replay hP | apply keeps_when

theorem keeps_execFlowRx (l : Link) (vc hdr data : Nat) (h0 : P s) : Res.all P (execFlowRx l vc hdr data s) := by
  unfold execFlowRx
  repeat' first
    | with_reducible first
        | assumption | intro _ | apply Res.all_next | apply Res.all_ite | apply keeps_flowRx hP | apply keeps_heldServe hP
        | apply keeps_rxServe hP | apply keeps_when | apply hP.ite
    | simp only [hP.upd]
    | simp only [id_eq]
    | (extract_lets +onlyGivenNames x; refine (fun (hx : P x) => ?_) ?_; clear_value x; rotate_left; subst x; rotate_right)
    | (extract_lets +onlyGivenNames x; clear_value x)
    | (split; all_goals (rename_i heq; have e2 := congrArg Prod.snd heq; simp only at e2; subst e2))
    | split

theorem keeps_helloTake (p version : Nat) (atomic seqAware dual dozeOk deepOk : Bool) (sbMin design : Nat) (h0 : P s) :
    P (State.helloTake s p version atomic seqAware dual dozeOk deepOk sbMin design) := by
  unfold State.helloTake
  repeat' with_reducible first
        | assumption | apply hP.set | apply keeps_helloCheck hP | apply keeps_sbEffective hP.regs
        | apply keeps_setPort hP.regs

theorem keeps_execHelloRx (p : Port) (version : Nat) (atomic seqAware dual dozeOk deepOk : Bool) (sbMin design : Nat) (twin : Option Nat) (h0 : P s) :
    Res.all P (execHelloRx p version atomic seqAware dual dozeOk deepOk sbMin design twin s) := by
  unfold execHelloRx
  repeat' first
    | with_reducible first
        | assumption | intro _ | apply Res.all_next | apply Res.all_ite | apply keeps_heldServe hP
        | apply keeps_helloTake hP | apply keeps_protoFatal hP | apply keeps_rxServe hP | apply keeps_twinShows hP.regs
        | apply keeps_when | apply hP.ite
    | simp only [hP.upd]
    | simp only [id_eq]
    | (extract_lets +onlyGivenNames x; refine (fun (hx : P x) => ?_) ?_; clear_value x; rotate_left; subst x; rotate_right)
    | (extract_lets +onlyGivenNames x; clear_value x)
    | (split; all_goals (rename_i heq; have e2 := congrArg Prod.snd heq; simp only at e2; subst e2))
    | split

theorem keeps_execHelloTimeout (p : Port) (h0 : P s) : Res.all P (execHelloTimeout p s) := by
  unfold execHelloTimeout
  repeat' with_reducible first
        | assumption | intro _ | apply Res.all_next | apply keeps_portDown hP | apply keeps_protoErr hP | apply keeps_when
        | apply hP.ite

theorem keeps_execUlkReset (p : Port) (h0 : P s) : Res.all P (execUlkReset p s) := by
  unfold execUlkReset
  repeat' with_reducible first | assumption | intro _ | apply Res.all_next | apply keeps_ulkReset hP | apply keeps_when

theorem keeps_execUlkEnWrite (p : Port) (on : Bool) (h0 : P s) : Res.all P (execUlkEnWrite p on s) := by
  unfold execUlkEnWrite
  repeat' with_reducible first | assumption | intro _ | apply Res.all_next | apply keeps_ulkEnWrite hP | apply keeps_when

theorem keeps_execUrResponseRx (p : Port) (tag status off : Nat) (last : Bool) (data : List Byte) (mask : Option Nat) (h0 : P s) :
    Res.all P (execUrResponseRx p tag status off last data mask s) := by
  unfold execUrResponseRx
  repeat' first
    | with_reducible first
        | assumption | intro _ | apply Res.all_next | apply Res.all_ite | apply keeps_rxServe hP
        | apply keeps_starchSettle hP | apply keeps_urResponse hP | apply keeps_when
    | simp only [hP.upd]
    | simp only [id_eq]
    | (extract_lets +onlyGivenNames x; refine (fun (hx : P x) => ?_) ?_; clear_value x; rotate_left; subst x; rotate_right)
    | (extract_lets +onlyGivenNames x; clear_value x)
    | (split; all_goals (rename_i heq; have e2 := congrArg Prod.snd heq; simp only at e2; subst e2))
    | split

theorem keeps_execSbStateRx (p : Port) (id : Nat) (unsol : Bool) (lines : Nat) (h0 : P s) :
    Res.all P (execSbStateRx p id unsol lines s) := by
  unfold execSbStateRx
  repeat' first
    | with_reducible first | assumption | intro _ | apply Res.all_next | apply Res.all_ite | apply keeps_pktRx hP
    | simp only [hP.upd]
    | simp only [id_eq]
    | (extract_lets +onlyGivenNames x; refine (fun (hx : P x) => ?_) ?_; clear_value x; rotate_left; subst x; rotate_right)
    | (extract_lets +onlyGivenNames x; clear_value x)
    | (split; all_goals (rename_i heq; have e2 := congrArg Prod.snd heq; simp only at e2; subst e2))
    | split

theorem keeps_execReqRx (p : Port) (line : Fin 16) (count : Nat) (h0 : P s) : Res.all P (execReqRx p line count s) := by
  unfold execReqRx
  repeat' first
    | with_reducible first
        | assumption | intro _ | apply Res.all_next | apply Res.all_ite | apply keeps_count hP.regs | apply keeps_pktRx hP
    | simp only [hP.upd]
    | simp only [id_eq]
    | (extract_lets +onlyGivenNames x; refine (fun (hx : P x) => ?_) ?_; clear_value x; rotate_left; subst x; rotate_right)
    | (extract_lets +onlyGivenNames x; clear_value x)
    | (split; all_goals (rename_i heq; have e2 := congrArg Prod.snd heq; simp only at e2; subst e2))
    | split

theorem keeps_execLateErrorRx (p : Port) (init seq status : Nat) (h0 : P s) :
    Res.all P (execLateErrorRx p init seq status s) := by
  unfold execLateErrorRx
  repeat' first
    | with_reducible first
        | assumption | intro _ | apply Res.all_next | apply Res.all_ite | apply keeps_lateError hP | apply keeps_pktRx hP
    | simp only [hP.upd]
    | simp only [id_eq]
    | (extract_lets +onlyGivenNames x; refine (fun (hx : P x) => ?_) ?_; clear_value x; rotate_left; subst x; rotate_right)
    | (extract_lets +onlyGivenNames x; clear_value x)
    | (split; all_goals (rename_i heq; have e2 := congrArg Prod.snd heq; simp only at e2; subst e2))
    | split

end Sys2Proof.Machine
end

