-- ==== Sys2Proof/Laws/RegWrite.lean ====
section
/-!
SUPPORT. Laws of register writes that are commands, and of the commands served in mailboxes: what they come to where they
take effect.
-/
namespace Sys2Proof.Machine

/-- A write that reaches its register is the write of that register. -/
theorem State.ctlWrite_on {s : State} {r : Reg} {i : Nat} (h : s.regOn r i = true) (w : Who) (v m : Nat) :
    s.ctlWrite w r i v m = s.regDo w r i v m := by
  simp only [State.regOn, Bool.and_eq_true, bne_iff_ne, ne_eq] at h
  simp [State.ctlWrite, h]

/-- A field whose bits are all written takes the value. -/
theorem laidOver_full {f : Fld} {m : Nat} (h : fieldOf f m = 2 ^ (fldInfo f).w - 1) (old v : Nat) :
    laidOver f old v m = fieldOf f v := by
  simp [laidOver, h]

/-- A field none of whose bits are written keeps its value. -/
theorem laidOver_none {f : Fld} {m : Nat} (h : fieldOf f m = 0) (hw : (fldInfo f).w ≠ 0) (old v : Nat) :
    laidOver f old v m = old := by
  have : (2 : Nat) ^ (fldInfo f).w - 1 ≠ 0 := by
    have := Nat.one_lt_two_pow hw
    omega
  simp [laidOver, h, this.symm]

/-- A command that begins runs its action. -/
theorem State.command_begins {s : State} {m : Nat} {k : CmdRule} (h : s.begins m k) (act : Act) :
    s.command m k act = s.cmdAct k m 0 act := by
  obtain ⟨h1, h2, h3, h4, h5, h6, h7, h8⟩ := h
  have h6 : (s.mode == .CONTAIN && decide (2 ≤ (s.cmdAt m).cls)) = false := by
    rcases h6 with h6 | h6
    · simp [h6]
    · simp; intro; omega
  have h5 : ¬ 4 ≤ s.mg.cmdRun.length := by omega
  simp [State.command, h1, h2, h3, h4, h5, h6, h7, h8]

/-- A request on the TDI of a function that exists, in an open session, is served. -/
theorem State.onTdi_ok {s : State} {id : Nat} {e : SpdmSession} {f : Fn} (h1 : s.fwReady = true) (h2 : s.session id = some e)
    (h3 : e.open_ = true) (h4 : f.val ≠ 0) (h5 : s.fnState f ≠ fnDISABLED) (g : State → State) :
    s.onTdi id f g = g s := by
  have h6 : ¬ 2052 ≤ f.val := by have := f.isLt; omega
  simp [State.onTdi, State.inSession, State.doeServes, h1, h2, h3, h4, h5, h6]

/-- A packet that passes the checks of its reception is delivered. -/
theorem State.rxOne_passes {s : State} {l : Nat} {k : UrPkt} (h : s.rxPasses l k = true) : s.rxOne l k = s.rxPut l k := by
  unfold State.rxPasses at h
  unfold State.rxOne
  by_cases h16 : l = 16
  · subst h16
    cases k <;> simp_all
  · cases k <;> simp_all <;> grind

/-- The command of a packet acts in the state that gives it. -/
theorem State.rxServe_gives {s t : State} {l : Nat} {k : UrPkt} (h : s.rxGives l k = some t) (f : State → State) :
    s.rxServe l k f = f t := by
  unfold State.rxGives at h
  unfold State.rxServe
  split at h
  · next q hq =>
    split at h
    · next he => simp only [hq, he, if_true]; simp at h; rw [h]
    · cases h
  · next hq =>
    split at h
    · next hp =>
      simp only [hq, State.rxOne_passes hp]
      simp at h
      have : ((s.rxPut l k).port l).rx.contains k = true := by simp [State.rxPut, State.port, State.setPort]
      rw [if_pos this, h]
    · cases h

/-- What the state that gives a packet leaves alone: all but the links, and of the port the requests that are out and the
packets that are held. -/
theorem State.rxGives_same {s t : State} {l : Nat} {k : UrPkt} (h : s.rxGives l k = some t) :
    t = { s with ll := t.ll } ∧ (t.port l).dreq = (s.port l).dreq ∧ (t.port l).held = (s.port l).held := by
  unfold State.rxGives at h
  split at h <;> split at h <;> simp only [Option.some.injEq, reduceCtorEq] at h <;> subst h <;>
    exact ⟨rfl, by simp [State.rxDrop, State.rxPut, State.port, State.setPort],
      by simp [State.rxDrop, State.rxPut, State.port, State.setPort]⟩

/-- A packet that its port gives, with no packet held before it and no reason to wait, is handled. -/
theorem State.pktRx_gives {s t : State} {p : Nat} {k : UrPkt} (h1 : s.urRuns p = true) (h2 : s.fld .ULK_STS_STATE p ≠ 1)
    (h3 : s.mode ≠ .CONTAIN ∨ k.vc ≠ 0) (h4 : (s.port p).held = []) (h5 : s.rxGives p k = some t) (err : MemErr) :
    s.pktRx p k err = (t.pktDo p k err).starchSettle := by
  have h6 : s.heldServe p = s := by simp [State.heldServe, h4]
  have h7 : t.pktWaits p k = false := by
    have e1 : t.fld .ULK_STS_STATE p = s.fld .ULK_STS_STATE p := by rw [(State.rxGives_same h5).1]; rfl
    have e2 : t.mode = s.mode := by rw [(State.rxGives_same h5).1]
    simp only [State.pktWaits, e1, e2, Bool.or_eq_false_iff, Bool.and_eq_false_iff, beq_eq_false_iff_ne, ne_eq]
    exact ⟨h2, h3⟩
  simp [State.pktRx, h1, h6, State.rxServe_gives h5, h7]

/-- A request of a design with a tag that is not out enters the module. -/
theorem State.pktRx_enter {s t : State} {p tag : Nat} {k : UrPkt} {r : Req} {err : MemErr} (h1 : s.urRuns p = true)
    (h2 : s.fld .ULK_STS_STATE p ≠ 1) (h3 : s.mode = .LEAD) (h4 : (s.port p).held = []) (h5 : s.rxGives p k = some t)
    (h6 : (s.port p).dreq.contains tag = false) (h7 : reqOf p err k = some (tag, true, r)) :
    s.pktRx p k err = ((t.rxFree p k).portEnter p tag r).starchSettle := by
  obtain ⟨e1, e2, -⟩ := State.rxGives_same h5
  have h8 : ((t.rxFree p k).port p).dreq.contains tag = false := by
    rw [show ((t.rxFree p k).port p).dreq = (t.port p).dreq by simp [State.rxFree, State.port, State.setPort], e2]
    exact h6
  have h9 : (t.rxFree p k).mode = .LEAD := by rw [← h3, e1]; rfl
  rw [s.pktRx_gives h1 h2 (.inl (by simp [h3])) h4 h5]
  simp [State.pktDo, h7, State.portTake, h8, h9, -List.contains_eq_mem]

end Sys2Proof.Machine
end

