-- ==== Sys2Proof/Laws/RegCmd.lean ====
section
/-!
SUPPORT. The registers whose write is a command: where their fields lie, and what a write of them stores.
-/
namespace Sys2Proof.Machine

/-- A field that takes no write stores nothing. -/
theorem State.fldPut_noWrite {f : Fld} (h : (fldInfo f).ty ≠ .RW) (h1 : (fldInfo f).ty ≠ .RWP) (h2 : (fldInfo f).ty ≠
      .W1C)
    (s : State) (i v m : Nat) : s.fldPut f i v m = s := by
  unfold State.fldPut
  cases hc : (fldInfo f).ty <;> simp_all

@[simp] theorem fieldOf_HST_CONT_REL_KEY (v : Nat) : fieldOf .HST_CONT_REL_KEY v = v / 2 ^ 0 % 2 ^ 8 := rfl
@[simp] theorem lo_HST_CONT_REL_KEY : (fldInfo .HST_CONT_REL_KEY).lo = 0 := rfl
@[simp] theorem width_HST_CONT_REL_KEY : (fldInfo .HST_CONT_REL_KEY).w = 8 := rfl
@[simp] theorem State.fldPut_HST_CONT_REL_KEY (s : State) (i v m : Nat) : s.fldPut .HST_CONT_REL_KEY i v m = s :=
  State.fldPut_noWrite (by decide) (by decide) (by decide) s i v m
@[simp] theorem fieldOf_HST_CONT_REL_LEDGER_FAIL (v : Nat) : fieldOf .HST_CONT_REL_LEDGER_FAIL v = v / 2 ^ 8 % 2 ^ 1
      := rfl
@[simp] theorem lo_HST_CONT_REL_LEDGER_FAIL : (fldInfo .HST_CONT_REL_LEDGER_FAIL).lo = 8 := rfl
@[simp] theorem width_HST_CONT_REL_LEDGER_FAIL : (fldInfo .HST_CONT_REL_LEDGER_FAIL).w = 1 := rfl
@[simp] theorem State.fldPut_HST_CONT_REL_LEDGER_FAIL (s : State) (i v m : Nat) : s.fldPut .HST_CONT_REL_LEDGER_FAIL
      i v m
    = if fieldOf .HST_CONT_REL_LEDGER_FAIL m = 0 then s else s.set .HST_CONT_REL_LEDGER_FAIL i (laidOver
      .HST_CONT_REL_LEDGER_FAIL (s.fld .HST_CONT_REL_LEDGER_FAIL i) v m) := rfl
@[simp] theorem fieldOf_HST_CONT_REL_DMA_ABORT (v : Nat) : fieldOf .HST_CONT_REL_DMA_ABORT v = v / 2 ^ 9 % 2 ^ 1 := rfl
@[simp] theorem lo_HST_CONT_REL_DMA_ABORT : (fldInfo .HST_CONT_REL_DMA_ABORT).lo = 9 := rfl
@[simp] theorem width_HST_CONT_REL_DMA_ABORT : (fldInfo .HST_CONT_REL_DMA_ABORT).w = 1 := rfl
@[simp] theorem State.fldPut_HST_CONT_REL_DMA_ABORT (s : State) (i v m : Nat) : s.fldPut .HST_CONT_REL_DMA_ABORT i v m
    = if fieldOf .HST_CONT_REL_DMA_ABORT m = 0 then s else s.set .HST_CONT_REL_DMA_ABORT i (laidOver
      .HST_CONT_REL_DMA_ABORT (s.fld .HST_CONT_REL_DMA_ABORT i) v m) := rfl
@[simp] theorem fieldOf_HST_CONT_REL_ENTER (v : Nat) : fieldOf .HST_CONT_REL_ENTER v = v / 2 ^ 10 % 2 ^ 1 := rfl
@[simp] theorem lo_HST_CONT_REL_ENTER : (fldInfo .HST_CONT_REL_ENTER).lo = 10 := rfl
@[simp] theorem width_HST_CONT_REL_ENTER : (fldInfo .HST_CONT_REL_ENTER).w = 1 := rfl
@[simp] theorem State.fldPut_HST_CONT_REL_ENTER (s : State) (i v m : Nat) : s.fldPut .HST_CONT_REL_ENTER i v m = s :=
  State.fldPut_noWrite (by decide) (by decide) (by decide) s i v m
theorem State.regPlain_HST_CONT_REL (s : State) (i v m : Nat) : s.regPlain .HST_CONT_REL i v m
    = [Fld.HST_CONT_REL_KEY, .HST_CONT_REL_LEDGER_FAIL, .HST_CONT_REL_DMA_ABORT, .HST_CONT_REL_ENTER].foldl
      (fun s f => s.fldPut f i v m) s := rfl

@[simp] theorem fieldOf_FN_RES_FIRST_CTX (v : Nat) : fieldOf .FN_RES_FIRST_CTX v = v / 2 ^ 0 % 2 ^ 12 := rfl
@[simp] theorem lo_FN_RES_FIRST_CTX : (fldInfo .FN_RES_FIRST_CTX).lo = 0 := rfl
@[simp] theorem width_FN_RES_FIRST_CTX : (fldInfo .FN_RES_FIRST_CTX).w = 12 := rfl
@[simp] theorem State.fldPut_FN_RES_FIRST_CTX (s : State) (i v m : Nat) : s.fldPut .FN_RES_FIRST_CTX i v m
    = if fieldOf .FN_RES_FIRST_CTX m = 0 then s else s.set .FN_RES_FIRST_CTX i (laidOver .FN_RES_FIRST_CTX (s.fld
      .FN_RES_FIRST_CTX i) v m) := rfl
@[simp] theorem fieldOf_FN_RES_CTX_COUNT (v : Nat) : fieldOf .FN_RES_CTX_COUNT v = v / 2 ^ 12 % 2 ^ 11 := rfl
@[simp] theorem lo_FN_RES_CTX_COUNT : (fldInfo .FN_RES_CTX_COUNT).lo = 12 := rfl
@[simp] theorem width_FN_RES_CTX_COUNT : (fldInfo .FN_RES_CTX_COUNT).w = 11 := rfl
@[simp] theorem State.fldPut_FN_RES_CTX_COUNT (s : State) (i v m : Nat) : s.fldPut .FN_RES_CTX_COUNT i v m
    = if fieldOf .FN_RES_CTX_COUNT m = 0 then s else s.set .FN_RES_CTX_COUNT i (laidOver .FN_RES_CTX_COUNT (s.fld
      .FN_RES_CTX_COUNT i) v m) := rfl
theorem State.regPlain_FN_RES (s : State) (i v m : Nat) : s.regPlain .FN_RES i v m
    = [Fld.FN_RES_FIRST_CTX, .FN_RES_CTX_COUNT].foldl
      (fun s f => s.fldPut f i v m) s := rfl

@[simp] theorem fieldOf_FN_CONT_CAUSE (v : Nat) : fieldOf .FN_CONT_CAUSE v = v / 2 ^ 0 % 2 ^ 4 := rfl
@[simp] theorem lo_FN_CONT_CAUSE : (fldInfo .FN_CONT_CAUSE).lo = 0 := rfl
@[simp] theorem width_FN_CONT_CAUSE : (fldInfo .FN_CONT_CAUSE).w = 4 := rfl
@[simp] theorem State.fldPut_FN_CONT_CAUSE (s : State) (i v m : Nat) : s.fldPut .FN_CONT_CAUSE i v m = s :=
  State.fldPut_noWrite (by decide) (by decide) (by decide) s i v m
@[simp] theorem fieldOf_FN_CONT_REQUEST (v : Nat) : fieldOf .FN_CONT_REQUEST v = v / 2 ^ 4 % 2 ^ 1 := rfl
@[simp] theorem lo_FN_CONT_REQUEST : (fldInfo .FN_CONT_REQUEST).lo = 4 := rfl
@[simp] theorem width_FN_CONT_REQUEST : (fldInfo .FN_CONT_REQUEST).w = 1 := rfl
@[simp] theorem State.fldPut_FN_CONT_REQUEST (s : State) (i v m : Nat) : s.fldPut .FN_CONT_REQUEST i v m
    = if fieldOf .FN_CONT_REQUEST m = 0 then s else s.set .FN_CONT_REQUEST i (laidOver .FN_CONT_REQUEST (s.fld
      .FN_CONT_REQUEST i) v m) := rfl
@[simp] theorem fieldOf_FN_CONT_RELEASE (v : Nat) : fieldOf .FN_CONT_RELEASE v = v / 2 ^ 5 % 2 ^ 1 := rfl
@[simp] theorem lo_FN_CONT_RELEASE : (fldInfo .FN_CONT_RELEASE).lo = 5 := rfl
@[simp] theorem width_FN_CONT_RELEASE : (fldInfo .FN_CONT_RELEASE).w = 1 := rfl
@[simp] theorem State.fldPut_FN_CONT_RELEASE (s : State) (i v m : Nat) : s.fldPut .FN_CONT_RELEASE i v m
    = if fieldOf .FN_CONT_RELEASE m = 0 then s else s.set .FN_CONT_RELEASE i (laidOver .FN_CONT_RELEASE (s.fld
      .FN_CONT_RELEASE i) v m) := rfl
@[simp] theorem fieldOf_FN_CONT_REL_RESULT (v : Nat) : fieldOf .FN_CONT_REL_RESULT v = v / 2 ^ 6 % 2 ^ 2 := rfl
@[simp] theorem lo_FN_CONT_REL_RESULT : (fldInfo .FN_CONT_REL_RESULT).lo = 6 := rfl
@[simp] theorem width_FN_CONT_REL_RESULT : (fldInfo .FN_CONT_REL_RESULT).w = 2 := rfl
@[simp] theorem State.fldPut_FN_CONT_REL_RESULT (s : State) (i v m : Nat) : s.fldPut .FN_CONT_REL_RESULT i v m = s :=
  State.fldPut_noWrite (by decide) (by decide) (by decide) s i v m
@[simp] theorem fieldOf_FN_CONT_DROPS (v : Nat) : fieldOf .FN_CONT_DROPS v = v / 2 ^ 8 % 2 ^ 24 := rfl
@[simp] theorem lo_FN_CONT_DROPS : (fldInfo .FN_CONT_DROPS).lo = 8 := rfl
@[simp] theorem width_FN_CONT_DROPS : (fldInfo .FN_CONT_DROPS).w = 24 := rfl
@[simp] theorem State.fldPut_FN_CONT_DROPS (s : State) (i v m : Nat) : s.fldPut .FN_CONT_DROPS i v m = s :=
  State.fldPut_noWrite (by decide) (by decide) (by decide) s i v m
theorem State.regPlain_FN_CONT (s : State) (i v m : Nat) : s.regPlain .FN_CONT i v m
    = [Fld.FN_CONT_CAUSE, .FN_CONT_REQUEST, .FN_CONT_RELEASE, .FN_CONT_REL_RESULT, .FN_CONT_DROPS].foldl
      (fun s f => s.fldPut f i v m) s := rfl

@[simp] theorem fieldOf_FN_SLICE_VALID (v : Nat) : fieldOf .FN_SLICE_VALID v = v / 2 ^ 0 % 2 ^ 1 := rfl
@[simp] theorem lo_FN_SLICE_VALID : (fldInfo .FN_SLICE_VALID).lo = 0 := rfl
@[simp] theorem width_FN_SLICE_VALID : (fldInfo .FN_SLICE_VALID).w = 1 := rfl
@[simp] theorem State.fldPut_FN_SLICE_VALID (s : State) (i v m : Nat) : s.fldPut .FN_SLICE_VALID i v m
    = if fieldOf .FN_SLICE_VALID m = 0 then s else s.set .FN_SLICE_VALID i (laidOver .FN_SLICE_VALID (s.fld
      .FN_SLICE_VALID i) v m) := rfl
@[simp] theorem fieldOf_FN_SLICE_PRIV_OK (v : Nat) : fieldOf .FN_SLICE_PRIV_OK v = v / 2 ^ 1 % 2 ^ 1 := rfl
@[simp] theorem lo_FN_SLICE_PRIV_OK : (fldInfo .FN_SLICE_PRIV_OK).lo = 1 := rfl
@[simp] theorem width_FN_SLICE_PRIV_OK : (fldInfo .FN_SLICE_PRIV_OK).w = 1 := rfl
@[simp] theorem State.fldPut_FN_SLICE_PRIV_OK (s : State) (i v m : Nat) : s.fldPut .FN_SLICE_PRIV_OK i v m
    = if fieldOf .FN_SLICE_PRIV_OK m = 0 then s else s.set .FN_SLICE_PRIV_OK i (laidOver .FN_SLICE_PRIV_OK (s.fld
      .FN_SLICE_PRIV_OK i) v m) := rfl
@[simp] theorem fieldOf_FN_SLICE_EXEC_OK (v : Nat) : fieldOf .FN_SLICE_EXEC_OK v = v / 2 ^ 2 % 2 ^ 1 := rfl
@[simp] theorem lo_FN_SLICE_EXEC_OK : (fldInfo .FN_SLICE_EXEC_OK).lo = 2 := rfl
@[simp] theorem width_FN_SLICE_EXEC_OK : (fldInfo .FN_SLICE_EXEC_OK).w = 1 := rfl
@[simp] theorem State.fldPut_FN_SLICE_EXEC_OK (s : State) (i v m : Nat) : s.fldPut .FN_SLICE_EXEC_OK i v m
    = if fieldOf .FN_SLICE_EXEC_OK m = 0 then s else s.set .FN_SLICE_EXEC_OK i (laidOver .FN_SLICE_EXEC_OK (s.fld
      .FN_SLICE_EXEC_OK i) v m) := rfl
@[simp] theorem fieldOf_FN_SLICE_ACTIVE (v : Nat) : fieldOf .FN_SLICE_ACTIVE v = v / 2 ^ 3 % 2 ^ 1 := rfl
@[simp] theorem lo_FN_SLICE_ACTIVE : (fldInfo .FN_SLICE_ACTIVE).lo = 3 := rfl
@[simp] theorem width_FN_SLICE_ACTIVE : (fldInfo .FN_SLICE_ACTIVE).w = 1 := rfl
@[simp] theorem State.fldPut_FN_SLICE_ACTIVE (s : State) (i v m : Nat) : s.fldPut .FN_SLICE_ACTIVE i v m = s :=
  State.fldPut_noWrite (by decide) (by decide) (by decide) s i v m
@[simp] theorem fieldOf_FN_SLICE_FUNC (v : Nat) : fieldOf .FN_SLICE_FUNC v = v / 2 ^ 4 % 2 ^ 12 := rfl
@[simp] theorem lo_FN_SLICE_FUNC : (fldInfo .FN_SLICE_FUNC).lo = 4 := rfl
@[simp] theorem width_FN_SLICE_FUNC : (fldInfo .FN_SLICE_FUNC).w = 12 := rfl
@[simp] theorem State.fldPut_FN_SLICE_FUNC (s : State) (i v m : Nat) : s.fldPut .FN_SLICE_FUNC i v m
    = if fieldOf .FN_SLICE_FUNC m = 0 then s else s.set .FN_SLICE_FUNC i (laidOver .FN_SLICE_FUNC (s.fld
      .FN_SLICE_FUNC i) v m) := rfl
@[simp] theorem fieldOf_FN_SLICE_PASID (v : Nat) : fieldOf .FN_SLICE_PASID v = v / 2 ^ 16 % 2 ^ 20 := rfl
@[simp] theorem lo_FN_SLICE_PASID : (fldInfo .FN_SLICE_PASID).lo = 16 := rfl
@[simp] theorem width_FN_SLICE_PASID : (fldInfo .FN_SLICE_PASID).w = 20 := rfl
@[simp] theorem State.fldPut_FN_SLICE_PASID (s : State) (i v m : Nat) : s.fldPut .FN_SLICE_PASID i v m
    = if fieldOf .FN_SLICE_PASID m = 0 then s else s.set .FN_SLICE_PASID i (laidOver .FN_SLICE_PASID (s.fld
      .FN_SLICE_PASID i) v m) := rfl
theorem State.regPlain_FN_SLICE (s : State) (i v m : Nat) : s.regPlain .FN_SLICE i v m
    = [Fld.FN_SLICE_VALID, .FN_SLICE_PRIV_OK, .FN_SLICE_EXEC_OK, .FN_SLICE_ACTIVE, .FN_SLICE_FUNC,
      .FN_SLICE_PASID].foldl
      (fun s f => s.fldPut f i v m) s := rfl

@[simp] theorem fieldOf_XLT_TBL_BASE_BASE (v : Nat) : fieldOf .XLT_TBL_BASE_BASE v = v / 2 ^ 24 % 2 ^ 24 := rfl
@[simp] theorem lo_XLT_TBL_BASE_BASE : (fldInfo .XLT_TBL_BASE_BASE).lo = 24 := rfl
@[simp] theorem width_XLT_TBL_BASE_BASE : (fldInfo .XLT_TBL_BASE_BASE).w = 24 := rfl
@[simp] theorem State.fldPut_XLT_TBL_BASE_BASE (s : State) (i v m : Nat) : s.fldPut .XLT_TBL_BASE_BASE i v m
    = if fieldOf .XLT_TBL_BASE_BASE m = 0 then s else s.set .XLT_TBL_BASE_BASE i (laidOver .XLT_TBL_BASE_BASE (s.fld
      .XLT_TBL_BASE_BASE i) v m) := rfl
theorem State.regPlain_XLT_TBL_BASE (s : State) (i v m : Nat) : s.regPlain .XLT_TBL_BASE i v m
    = [Fld.XLT_TBL_BASE_BASE].foldl
      (fun s f => s.fldPut f i v m) s := rfl

@[simp] theorem fieldOf_XLT_EPOCH_CURRENT (v : Nat) : fieldOf .XLT_EPOCH_CURRENT v = v / 2 ^ 0 % 2 ^ 16 := rfl
@[simp] theorem lo_XLT_EPOCH_CURRENT : (fldInfo .XLT_EPOCH_CURRENT).lo = 0 := rfl
@[simp] theorem width_XLT_EPOCH_CURRENT : (fldInfo .XLT_EPOCH_CURRENT).w = 16 := rfl
@[simp] theorem State.fldPut_XLT_EPOCH_CURRENT (s : State) (i v m : Nat) : s.fldPut .XLT_EPOCH_CURRENT i v m = s :=
  State.fldPut_noWrite (by decide) (by decide) (by decide) s i v m
@[simp] theorem fieldOf_XLT_EPOCH_ADVANCE (v : Nat) : fieldOf .XLT_EPOCH_ADVANCE v = v / 2 ^ 16 % 2 ^ 1 := rfl
@[simp] theorem lo_XLT_EPOCH_ADVANCE : (fldInfo .XLT_EPOCH_ADVANCE).lo = 16 := rfl
@[simp] theorem width_XLT_EPOCH_ADVANCE : (fldInfo .XLT_EPOCH_ADVANCE).w = 1 := rfl
@[simp] theorem State.fldPut_XLT_EPOCH_ADVANCE (s : State) (i v m : Nat) : s.fldPut .XLT_EPOCH_ADVANCE i v m = s :=
  State.fldPut_noWrite (by decide) (by decide) (by decide) s i v m
@[simp] theorem fieldOf_XLT_EPOCH_LIVE (v : Nat) : fieldOf .XLT_EPOCH_LIVE v = v / 2 ^ 17 % 2 ^ 4 := rfl
@[simp] theorem lo_XLT_EPOCH_LIVE : (fldInfo .XLT_EPOCH_LIVE).lo = 17 := rfl
@[simp] theorem width_XLT_EPOCH_LIVE : (fldInfo .XLT_EPOCH_LIVE).w = 4 := rfl
@[simp] theorem State.fldPut_XLT_EPOCH_LIVE (s : State) (i v m : Nat) : s.fldPut .XLT_EPOCH_LIVE i v m = s :=
  State.fldPut_noWrite (by decide) (by decide) (by decide) s i v m
theorem State.regPlain_XLT_EPOCH (s : State) (i v m : Nat) : s.regPlain .XLT_EPOCH i v m
    = [Fld.XLT_EPOCH_CURRENT, .XLT_EPOCH_ADVANCE, .XLT_EPOCH_LIVE].foldl
      (fun s f => s.fldPut f i v m) s := rfl

@[simp] theorem fieldOf_XLT_UPD_CMD_INDEX (v : Nat) : fieldOf .XLT_UPD_CMD_INDEX v = v / 2 ^ 0 % 2 ^ 19 := rfl
@[simp] theorem lo_XLT_UPD_CMD_INDEX : (fldInfo .XLT_UPD_CMD_INDEX).lo = 0 := rfl
@[simp] theorem width_XLT_UPD_CMD_INDEX : (fldInfo .XLT_UPD_CMD_INDEX).w = 19 := rfl
@[simp] theorem State.fldPut_XLT_UPD_CMD_INDEX (s : State) (i v m : Nat) : s.fldPut .XLT_UPD_CMD_INDEX i v m
    = if fieldOf .XLT_UPD_CMD_INDEX m = 0 then s else s.set .XLT_UPD_CMD_INDEX i (laidOver .XLT_UPD_CMD_INDEX (s.fld
      .XLT_UPD_CMD_INDEX i) v m) := rfl
@[simp] theorem fieldOf_XLT_UPD_CMD_OP (v : Nat) : fieldOf .XLT_UPD_CMD_OP v = v / 2 ^ 20 % 2 ^ 2 := rfl
@[simp] theorem lo_XLT_UPD_CMD_OP : (fldInfo .XLT_UPD_CMD_OP).lo = 20 := rfl
@[simp] theorem width_XLT_UPD_CMD_OP : (fldInfo .XLT_UPD_CMD_OP).w = 2 := rfl
@[simp] theorem State.fldPut_XLT_UPD_CMD_OP (s : State) (i v m : Nat) : s.fldPut .XLT_UPD_CMD_OP i v m
    = if fieldOf .XLT_UPD_CMD_OP m = 0 then s else s.set .XLT_UPD_CMD_OP i (laidOver .XLT_UPD_CMD_OP (s.fld
      .XLT_UPD_CMD_OP i) v m) := rfl
@[simp] theorem fieldOf_XLT_UPD_CMD_GO (v : Nat) : fieldOf .XLT_UPD_CMD_GO v = v / 2 ^ 31 % 2 ^ 1 := rfl
@[simp] theorem lo_XLT_UPD_CMD_GO : (fldInfo .XLT_UPD_CMD_GO).lo = 31 := rfl
@[simp] theorem width_XLT_UPD_CMD_GO : (fldInfo .XLT_UPD_CMD_GO).w = 1 := rfl
@[simp] theorem State.fldPut_XLT_UPD_CMD_GO (s : State) (i v m : Nat) : s.fldPut .XLT_UPD_CMD_GO i v m = s :=
  State.fldPut_noWrite (by decide) (by decide) (by decide) s i v m
theorem State.regPlain_XLT_UPD_CMD (s : State) (i v m : Nat) : s.regPlain .XLT_UPD_CMD i v m
    = [Fld.XLT_UPD_CMD_INDEX, .XLT_UPD_CMD_OP, .XLT_UPD_CMD_GO].foldl
      (fun s f => s.fldPut f i v m) s := rfl

@[simp] theorem fieldOf_GRD_EPOCH_CURRENT (v : Nat) : fieldOf .GRD_EPOCH_CURRENT v = v / 2 ^ 0 % 2 ^ 16 := rfl
@[simp] theorem lo_GRD_EPOCH_CURRENT : (fldInfo .GRD_EPOCH_CURRENT).lo = 0 := rfl
@[simp] theorem width_GRD_EPOCH_CURRENT : (fldInfo .GRD_EPOCH_CURRENT).w = 16 := rfl
@[simp] theorem State.fldPut_GRD_EPOCH_CURRENT (s : State) (i v m : Nat) : s.fldPut .GRD_EPOCH_CURRENT i v m = s :=
  State.fldPut_noWrite (by decide) (by decide) (by decide) s i v m
@[simp] theorem fieldOf_GRD_EPOCH_ADVANCE (v : Nat) : fieldOf .GRD_EPOCH_ADVANCE v = v / 2 ^ 16 % 2 ^ 1 := rfl
@[simp] theorem lo_GRD_EPOCH_ADVANCE : (fldInfo .GRD_EPOCH_ADVANCE).lo = 16 := rfl
@[simp] theorem width_GRD_EPOCH_ADVANCE : (fldInfo .GRD_EPOCH_ADVANCE).w = 1 := rfl
@[simp] theorem State.fldPut_GRD_EPOCH_ADVANCE (s : State) (i v m : Nat) : s.fldPut .GRD_EPOCH_ADVANCE i v m = s :=
  State.fldPut_noWrite (by decide) (by decide) (by decide) s i v m
@[simp] theorem fieldOf_GRD_EPOCH_LIVE (v : Nat) : fieldOf .GRD_EPOCH_LIVE v = v / 2 ^ 17 % 2 ^ 4 := rfl
@[simp] theorem lo_GRD_EPOCH_LIVE : (fldInfo .GRD_EPOCH_LIVE).lo = 17 := rfl
@[simp] theorem width_GRD_EPOCH_LIVE : (fldInfo .GRD_EPOCH_LIVE).w = 4 := rfl
@[simp] theorem State.fldPut_GRD_EPOCH_LIVE (s : State) (i v m : Nat) : s.fldPut .GRD_EPOCH_LIVE i v m = s :=
  State.fldPut_noWrite (by decide) (by decide) (by decide) s i v m
theorem State.regPlain_GRD_EPOCH (s : State) (i v m : Nat) : s.regPlain .GRD_EPOCH i v m
    = [Fld.GRD_EPOCH_CURRENT, .GRD_EPOCH_ADVANCE, .GRD_EPOCH_LIVE].foldl
      (fun s f => s.fldPut f i v m) s := rfl

@[simp] theorem fieldOf_GRD_UPD_CMD_REGION (v : Nat) : fieldOf .GRD_UPD_CMD_REGION v = v / 2 ^ 0 % 2 ^ 5 := rfl
@[simp] theorem lo_GRD_UPD_CMD_REGION : (fldInfo .GRD_UPD_CMD_REGION).lo = 0 := rfl
@[simp] theorem width_GRD_UPD_CMD_REGION : (fldInfo .GRD_UPD_CMD_REGION).w = 5 := rfl
@[simp] theorem State.fldPut_GRD_UPD_CMD_REGION (s : State) (i v m : Nat) : s.fldPut .GRD_UPD_CMD_REGION i v m
    = if fieldOf .GRD_UPD_CMD_REGION m = 0 then s else s.set .GRD_UPD_CMD_REGION i (laidOver .GRD_UPD_CMD_REGION
      (s.fld .GRD_UPD_CMD_REGION i) v m) := rfl
@[simp] theorem fieldOf_GRD_UPD_CMD_SET (v : Nat) : fieldOf .GRD_UPD_CMD_SET v = v / 2 ^ 5 % 2 ^ 5 := rfl
@[simp] theorem lo_GRD_UPD_CMD_SET : (fldInfo .GRD_UPD_CMD_SET).lo = 5 := rfl
@[simp] theorem width_GRD_UPD_CMD_SET : (fldInfo .GRD_UPD_CMD_SET).w = 5 := rfl
@[simp] theorem State.fldPut_GRD_UPD_CMD_SET (s : State) (i v m : Nat) : s.fldPut .GRD_UPD_CMD_SET i v m
    = if fieldOf .GRD_UPD_CMD_SET m = 0 then s else s.set .GRD_UPD_CMD_SET i (laidOver .GRD_UPD_CMD_SET (s.fld
      .GRD_UPD_CMD_SET i) v m) := rfl
@[simp] theorem fieldOf_GRD_UPD_CMD_GO (v : Nat) : fieldOf .GRD_UPD_CMD_GO v = v / 2 ^ 31 % 2 ^ 1 := rfl
@[simp] theorem lo_GRD_UPD_CMD_GO : (fldInfo .GRD_UPD_CMD_GO).lo = 31 := rfl
@[simp] theorem width_GRD_UPD_CMD_GO : (fldInfo .GRD_UPD_CMD_GO).w = 1 := rfl
@[simp] theorem State.fldPut_GRD_UPD_CMD_GO (s : State) (i v m : Nat) : s.fldPut .GRD_UPD_CMD_GO i v m = s :=
  State.fldPut_noWrite (by decide) (by decide) (by decide) s i v m
theorem State.regPlain_GRD_UPD_CMD (s : State) (i v m : Nat) : s.regPlain .GRD_UPD_CMD i v m
    = [Fld.GRD_UPD_CMD_REGION, .GRD_UPD_CMD_SET, .GRD_UPD_CMD_GO].foldl
      (fun s f => s.fldPut f i v m) s := rfl

@[simp] theorem fieldOf_DMA_CH_CTL_START (v : Nat) : fieldOf .DMA_CH_CTL_START v = v / 2 ^ 0 % 2 ^ 1 := rfl
@[simp] theorem lo_DMA_CH_CTL_START : (fldInfo .DMA_CH_CTL_START).lo = 0 := rfl
@[simp] theorem width_DMA_CH_CTL_START : (fldInfo .DMA_CH_CTL_START).w = 1 := rfl
@[simp] theorem State.fldPut_DMA_CH_CTL_START (s : State) (i v m : Nat) : s.fldPut .DMA_CH_CTL_START i v m = s :=
  State.fldPut_noWrite (by decide) (by decide) (by decide) s i v m
@[simp] theorem fieldOf_DMA_CH_CTL_ABORT (v : Nat) : fieldOf .DMA_CH_CTL_ABORT v = v / 2 ^ 1 % 2 ^ 1 := rfl
@[simp] theorem lo_DMA_CH_CTL_ABORT : (fldInfo .DMA_CH_CTL_ABORT).lo = 1 := rfl
@[simp] theorem width_DMA_CH_CTL_ABORT : (fldInfo .DMA_CH_CTL_ABORT).w = 1 := rfl
@[simp] theorem State.fldPut_DMA_CH_CTL_ABORT (s : State) (i v m : Nat) : s.fldPut .DMA_CH_CTL_ABORT i v m = s :=
  State.fldPut_noWrite (by decide) (by decide) (by decide) s i v m
@[simp] theorem fieldOf_DMA_CH_CTL_RESUME (v : Nat) : fieldOf .DMA_CH_CTL_RESUME v = v / 2 ^ 2 % 2 ^ 1 := rfl
@[simp] theorem lo_DMA_CH_CTL_RESUME : (fldInfo .DMA_CH_CTL_RESUME).lo = 2 := rfl
@[simp] theorem width_DMA_CH_CTL_RESUME : (fldInfo .DMA_CH_CTL_RESUME).w = 1 := rfl
@[simp] theorem State.fldPut_DMA_CH_CTL_RESUME (s : State) (i v m : Nat) : s.fldPut .DMA_CH_CTL_RESUME i v m = s :=
  State.fldPut_noWrite (by decide) (by decide) (by decide) s i v m
@[simp] theorem fieldOf_DMA_CH_CTL_CLEAR (v : Nat) : fieldOf .DMA_CH_CTL_CLEAR v = v / 2 ^ 3 % 2 ^ 1 := rfl
@[simp] theorem lo_DMA_CH_CTL_CLEAR : (fldInfo .DMA_CH_CTL_CLEAR).lo = 3 := rfl
@[simp] theorem width_DMA_CH_CTL_CLEAR : (fldInfo .DMA_CH_CTL_CLEAR).w = 1 := rfl
@[simp] theorem State.fldPut_DMA_CH_CTL_CLEAR (s : State) (i v m : Nat) : s.fldPut .DMA_CH_CTL_CLEAR i v m = s :=
  State.fldPut_noWrite (by decide) (by decide) (by decide) s i v m
theorem State.regPlain_DMA_CH_CTL (s : State) (i v m : Nat) : s.regPlain .DMA_CH_CTL i v m
    = [Fld.DMA_CH_CTL_START, .DMA_CH_CTL_ABORT, .DMA_CH_CTL_RESUME, .DMA_CH_CTL_CLEAR].foldl
      (fun s f => s.fldPut f i v m) s := rfl

@[simp] theorem fieldOf_DMA_CH_CFG_MODE (v : Nat) : fieldOf .DMA_CH_CFG_MODE v = v / 2 ^ 0 % 2 ^ 1 := rfl
@[simp] theorem lo_DMA_CH_CFG_MODE : (fldInfo .DMA_CH_CFG_MODE).lo = 0 := rfl
@[simp] theorem width_DMA_CH_CFG_MODE : (fldInfo .DMA_CH_CFG_MODE).w = 1 := rfl
@[simp] theorem State.fldPut_DMA_CH_CFG_MODE (s : State) (i v m : Nat) : s.fldPut .DMA_CH_CFG_MODE i v m
    = if fieldOf .DMA_CH_CFG_MODE m = 0 then s else s.set .DMA_CH_CFG_MODE i (laidOver .DMA_CH_CFG_MODE (s.fld
      .DMA_CH_CFG_MODE i) v m) := rfl
@[simp] theorem fieldOf_DMA_CH_CFG_SLICE_EN (v : Nat) : fieldOf .DMA_CH_CFG_SLICE_EN v = v / 2 ^ 1 % 2 ^ 1 := rfl
@[simp] theorem lo_DMA_CH_CFG_SLICE_EN : (fldInfo .DMA_CH_CFG_SLICE_EN).lo = 1 := rfl
@[simp] theorem width_DMA_CH_CFG_SLICE_EN : (fldInfo .DMA_CH_CFG_SLICE_EN).w = 1 := rfl
@[simp] theorem State.fldPut_DMA_CH_CFG_SLICE_EN (s : State) (i v m : Nat) : s.fldPut .DMA_CH_CFG_SLICE_EN i v m
    = if fieldOf .DMA_CH_CFG_SLICE_EN m = 0 then s else s.set .DMA_CH_CFG_SLICE_EN i (laidOver .DMA_CH_CFG_SLICE_EN
      (s.fld .DMA_CH_CFG_SLICE_EN i) v m) := rfl
@[simp] theorem fieldOf_DMA_CH_CFG_OWNER (v : Nat) : fieldOf .DMA_CH_CFG_OWNER v = v / 2 ^ 2 % 2 ^ 12 := rfl
@[simp] theorem lo_DMA_CH_CFG_OWNER : (fldInfo .DMA_CH_CFG_OWNER).lo = 2 := rfl
@[simp] theorem width_DMA_CH_CFG_OWNER : (fldInfo .DMA_CH_CFG_OWNER).w = 12 := rfl
@[simp] theorem State.fldPut_DMA_CH_CFG_OWNER (s : State) (i v m : Nat) : s.fldPut .DMA_CH_CFG_OWNER i v m
    = if fieldOf .DMA_CH_CFG_OWNER m = 0 then s else s.set .DMA_CH_CFG_OWNER i (laidOver .DMA_CH_CFG_OWNER (s.fld
      .DMA_CH_CFG_OWNER i) v m) := rfl
@[simp] theorem fieldOf_DMA_CH_CFG_SLICE (v : Nat) : fieldOf .DMA_CH_CFG_SLICE v = v / 2 ^ 14 % 2 ^ 8 := rfl
@[simp] theorem lo_DMA_CH_CFG_SLICE : (fldInfo .DMA_CH_CFG_SLICE).lo = 14 := rfl
@[simp] theorem width_DMA_CH_CFG_SLICE : (fldInfo .DMA_CH_CFG_SLICE).w = 8 := rfl
@[simp] theorem State.fldPut_DMA_CH_CFG_SLICE (s : State) (i v m : Nat) : s.fldPut .DMA_CH_CFG_SLICE i v m
    = if fieldOf .DMA_CH_CFG_SLICE m = 0 then s else s.set .DMA_CH_CFG_SLICE i (laidOver .DMA_CH_CFG_SLICE (s.fld
      .DMA_CH_CFG_SLICE i) v m) := rfl
@[simp] theorem fieldOf_DMA_CH_CFG_IRQ_EN (v : Nat) : fieldOf .DMA_CH_CFG_IRQ_EN v = v / 2 ^ 22 % 2 ^ 1 := rfl
@[simp] theorem lo_DMA_CH_CFG_IRQ_EN : (fldInfo .DMA_CH_CFG_IRQ_EN).lo = 22 := rfl
@[simp] theorem width_DMA_CH_CFG_IRQ_EN : (fldInfo .DMA_CH_CFG_IRQ_EN).w = 1 := rfl
@[simp] theorem State.fldPut_DMA_CH_CFG_IRQ_EN (s : State) (i v m : Nat) : s.fldPut .DMA_CH_CFG_IRQ_EN i v m
    = if fieldOf .DMA_CH_CFG_IRQ_EN m = 0 then s else s.set .DMA_CH_CFG_IRQ_EN i (laidOver .DMA_CH_CFG_IRQ_EN (s.fld
      .DMA_CH_CFG_IRQ_EN i) v m) := rfl
@[simp] theorem fieldOf_DMA_CH_CFG_WB_EN (v : Nat) : fieldOf .DMA_CH_CFG_WB_EN v = v / 2 ^ 23 % 2 ^ 1 := rfl
@[simp] theorem lo_DMA_CH_CFG_WB_EN : (fldInfo .DMA_CH_CFG_WB_EN).lo = 23 := rfl
@[simp] theorem width_DMA_CH_CFG_WB_EN : (fldInfo .DMA_CH_CFG_WB_EN).w = 1 := rfl
@[simp] theorem State.fldPut_DMA_CH_CFG_WB_EN (s : State) (i v m : Nat) : s.fldPut .DMA_CH_CFG_WB_EN i v m
    = if fieldOf .DMA_CH_CFG_WB_EN m = 0 then s else s.set .DMA_CH_CFG_WB_EN i (laidOver .DMA_CH_CFG_WB_EN (s.fld
      .DMA_CH_CFG_WB_EN i) v m) := rfl
@[simp] theorem fieldOf_DMA_CH_CFG_WB_SPACE (v : Nat) : fieldOf .DMA_CH_CFG_WB_SPACE v = v / 2 ^ 24 % 2 ^ 2 := rfl
@[simp] theorem lo_DMA_CH_CFG_WB_SPACE : (fldInfo .DMA_CH_CFG_WB_SPACE).lo = 24 := rfl
@[simp] theorem width_DMA_CH_CFG_WB_SPACE : (fldInfo .DMA_CH_CFG_WB_SPACE).w = 2 := rfl
@[simp] theorem State.fldPut_DMA_CH_CFG_WB_SPACE (s : State) (i v m : Nat) : s.fldPut .DMA_CH_CFG_WB_SPACE i v m
    = if fieldOf .DMA_CH_CFG_WB_SPACE m = 0 then s else s.set .DMA_CH_CFG_WB_SPACE i (laidOver .DMA_CH_CFG_WB_SPACE
      (s.fld .DMA_CH_CFG_WB_SPACE i) v m) := rfl
@[simp] theorem fieldOf_DMA_CH_CFG_IRQ_SRC (v : Nat) : fieldOf .DMA_CH_CFG_IRQ_SRC v = v / 2 ^ 32 % 2 ^ 14 := rfl
@[simp] theorem lo_DMA_CH_CFG_IRQ_SRC : (fldInfo .DMA_CH_CFG_IRQ_SRC).lo = 32 := rfl
@[simp] theorem width_DMA_CH_CFG_IRQ_SRC : (fldInfo .DMA_CH_CFG_IRQ_SRC).w = 14 := rfl
@[simp] theorem State.fldPut_DMA_CH_CFG_IRQ_SRC (s : State) (i v m : Nat) : s.fldPut .DMA_CH_CFG_IRQ_SRC i v m
    = if fieldOf .DMA_CH_CFG_IRQ_SRC m = 0 then s else s.set .DMA_CH_CFG_IRQ_SRC i (laidOver .DMA_CH_CFG_IRQ_SRC
      (s.fld .DMA_CH_CFG_IRQ_SRC i) v m) := rfl
theorem State.regPlain_DMA_CH_CFG (s : State) (i v m : Nat) : s.regPlain .DMA_CH_CFG i v m
    = [Fld.DMA_CH_CFG_MODE, .DMA_CH_CFG_SLICE_EN, .DMA_CH_CFG_OWNER, .DMA_CH_CFG_SLICE, .DMA_CH_CFG_IRQ_EN,
      .DMA_CH_CFG_WB_EN, .DMA_CH_CFG_WB_SPACE, .DMA_CH_CFG_IRQ_SRC].foldl
      (fun s f => s.fldPut f i v m) s := rfl

@[simp] theorem fieldOf_DMA_GRANT_CHANNEL (v : Nat) : fieldOf .DMA_GRANT_CHANNEL v = v / 2 ^ 0 % 2 ^ 8 := rfl
@[simp] theorem lo_DMA_GRANT_CHANNEL : (fldInfo .DMA_GRANT_CHANNEL).lo = 0 := rfl
@[simp] theorem width_DMA_GRANT_CHANNEL : (fldInfo .DMA_GRANT_CHANNEL).w = 8 := rfl
@[simp] theorem State.fldPut_DMA_GRANT_CHANNEL (s : State) (i v m : Nat) : s.fldPut .DMA_GRANT_CHANNEL i v m
    = if fieldOf .DMA_GRANT_CHANNEL m = 0 then s else s.set .DMA_GRANT_CHANNEL i (laidOver .DMA_GRANT_CHANNEL (s.fld
      .DMA_GRANT_CHANNEL i) v m) := rfl
@[simp] theorem fieldOf_DMA_GRANT_VALID (v : Nat) : fieldOf .DMA_GRANT_VALID v = v / 2 ^ 8 % 2 ^ 1 := rfl
@[simp] theorem lo_DMA_GRANT_VALID : (fldInfo .DMA_GRANT_VALID).lo = 8 := rfl
@[simp] theorem width_DMA_GRANT_VALID : (fldInfo .DMA_GRANT_VALID).w = 1 := rfl
@[simp] theorem State.fldPut_DMA_GRANT_VALID (s : State) (i v m : Nat) : s.fldPut .DMA_GRANT_VALID i v m
    = if fieldOf .DMA_GRANT_VALID m = 0 then s else s.set .DMA_GRANT_VALID i (laidOver .DMA_GRANT_VALID (s.fld
      .DMA_GRANT_VALID i) v m) := rfl
@[simp] theorem fieldOf_DMA_GRANT_SLICE_EN (v : Nat) : fieldOf .DMA_GRANT_SLICE_EN v = v / 2 ^ 9 % 2 ^ 1 := rfl
@[simp] theorem lo_DMA_GRANT_SLICE_EN : (fldInfo .DMA_GRANT_SLICE_EN).lo = 9 := rfl
@[simp] theorem width_DMA_GRANT_SLICE_EN : (fldInfo .DMA_GRANT_SLICE_EN).w = 1 := rfl
@[simp] theorem State.fldPut_DMA_GRANT_SLICE_EN (s : State) (i v m : Nat) : s.fldPut .DMA_GRANT_SLICE_EN i v m
    = if fieldOf .DMA_GRANT_SLICE_EN m = 0 then s else s.set .DMA_GRANT_SLICE_EN i (laidOver .DMA_GRANT_SLICE_EN
      (s.fld .DMA_GRANT_SLICE_EN i) v m) := rfl
@[simp] theorem fieldOf_DMA_GRANT_SLICE (v : Nat) : fieldOf .DMA_GRANT_SLICE v = v / 2 ^ 10 % 2 ^ 8 := rfl
@[simp] theorem lo_DMA_GRANT_SLICE : (fldInfo .DMA_GRANT_SLICE).lo = 10 := rfl
@[simp] theorem width_DMA_GRANT_SLICE : (fldInfo .DMA_GRANT_SLICE).w = 8 := rfl
@[simp] theorem State.fldPut_DMA_GRANT_SLICE (s : State) (i v m : Nat) : s.fldPut .DMA_GRANT_SLICE i v m
    = if fieldOf .DMA_GRANT_SLICE m = 0 then s else s.set .DMA_GRANT_SLICE i (laidOver .DMA_GRANT_SLICE (s.fld
      .DMA_GRANT_SLICE i) v m) := rfl
theorem State.regPlain_DMA_GRANT (s : State) (i v m : Nat) : s.regPlain .DMA_GRANT i v m
    = [Fld.DMA_GRANT_CHANNEL, .DMA_GRANT_VALID, .DMA_GRANT_SLICE_EN, .DMA_GRANT_SLICE].foldl
      (fun s f => s.fldPut f i v m) s := rfl

@[simp] theorem fieldOf_DMA_RING_CTL_RESUME (v : Nat) : fieldOf .DMA_RING_CTL_RESUME v = v / 2 ^ 0 % 2 ^ 1 := rfl
@[simp] theorem lo_DMA_RING_CTL_RESUME : (fldInfo .DMA_RING_CTL_RESUME).lo = 0 := rfl
@[simp] theorem width_DMA_RING_CTL_RESUME : (fldInfo .DMA_RING_CTL_RESUME).w = 1 := rfl
@[simp] theorem State.fldPut_DMA_RING_CTL_RESUME (s : State) (i v m : Nat) : s.fldPut .DMA_RING_CTL_RESUME i v m = s :=
  State.fldPut_noWrite (by decide) (by decide) (by decide) s i v m
@[simp] theorem fieldOf_DMA_RING_CTL_RESET (v : Nat) : fieldOf .DMA_RING_CTL_RESET v = v / 2 ^ 1 % 2 ^ 1 := rfl
@[simp] theorem lo_DMA_RING_CTL_RESET : (fldInfo .DMA_RING_CTL_RESET).lo = 1 := rfl
@[simp] theorem width_DMA_RING_CTL_RESET : (fldInfo .DMA_RING_CTL_RESET).w = 1 := rfl
@[simp] theorem State.fldPut_DMA_RING_CTL_RESET (s : State) (i v m : Nat) : s.fldPut .DMA_RING_CTL_RESET i v m = s :=
  State.fldPut_noWrite (by decide) (by decide) (by decide) s i v m
theorem State.regPlain_DMA_RING_CTL (s : State) (i v m : Nat) : s.regPlain .DMA_RING_CTL i v m
    = [Fld.DMA_RING_CTL_RESUME, .DMA_RING_CTL_RESET].foldl
      (fun s f => s.fldPut f i v m) s := rfl

@[simp] theorem fieldOf_SHR_UPD_CMD_ACCT (v : Nat) : fieldOf .SHR_UPD_CMD_ACCT v = v / 2 ^ 0 % 2 ^ 13 := rfl
@[simp] theorem lo_SHR_UPD_CMD_ACCT : (fldInfo .SHR_UPD_CMD_ACCT).lo = 0 := rfl
@[simp] theorem width_SHR_UPD_CMD_ACCT : (fldInfo .SHR_UPD_CMD_ACCT).w = 13 := rfl
@[simp] theorem State.fldPut_SHR_UPD_CMD_ACCT (s : State) (i v m : Nat) : s.fldPut .SHR_UPD_CMD_ACCT i v m
    = if fieldOf .SHR_UPD_CMD_ACCT m = 0 then s else s.set .SHR_UPD_CMD_ACCT i (laidOver .SHR_UPD_CMD_ACCT (s.fld
      .SHR_UPD_CMD_ACCT i) v m) := rfl
@[simp] theorem fieldOf_SHR_UPD_CMD_GO (v : Nat) : fieldOf .SHR_UPD_CMD_GO v = v / 2 ^ 31 % 2 ^ 1 := rfl
@[simp] theorem lo_SHR_UPD_CMD_GO : (fldInfo .SHR_UPD_CMD_GO).lo = 31 := rfl
@[simp] theorem width_SHR_UPD_CMD_GO : (fldInfo .SHR_UPD_CMD_GO).w = 1 := rfl
@[simp] theorem State.fldPut_SHR_UPD_CMD_GO (s : State) (i v m : Nat) : s.fldPut .SHR_UPD_CMD_GO i v m = s :=
  State.fldPut_noWrite (by decide) (by decide) (by decide) s i v m
theorem State.regPlain_SHR_UPD_CMD (s : State) (i v m : Nat) : s.regPlain .SHR_UPD_CMD i v m
    = [Fld.SHR_UPD_CMD_ACCT, .SHR_UPD_CMD_GO].foldl
      (fun s f => s.fldPut f i v m) s := rfl

@[simp] theorem fieldOf_SHR_CTX_BIND_VALID (v : Nat) : fieldOf .SHR_CTX_BIND_VALID v = v / 2 ^ 0 % 2 ^ 1 := rfl
@[simp] theorem lo_SHR_CTX_BIND_VALID : (fldInfo .SHR_CTX_BIND_VALID).lo = 0 := rfl
@[simp] theorem width_SHR_CTX_BIND_VALID : (fldInfo .SHR_CTX_BIND_VALID).w = 1 := rfl
@[simp] theorem State.fldPut_SHR_CTX_BIND_VALID (s : State) (i v m : Nat) : s.fldPut .SHR_CTX_BIND_VALID i v m
    = if fieldOf .SHR_CTX_BIND_VALID m = 0 then s else s.set .SHR_CTX_BIND_VALID i (laidOver .SHR_CTX_BIND_VALID
      (s.fld .SHR_CTX_BIND_VALID i) v m) := rfl
@[simp] theorem fieldOf_SHR_CTX_BIND_SLICE_EN (v : Nat) : fieldOf .SHR_CTX_BIND_SLICE_EN v = v / 2 ^ 1 % 2 ^ 1 := rfl
@[simp] theorem lo_SHR_CTX_BIND_SLICE_EN : (fldInfo .SHR_CTX_BIND_SLICE_EN).lo = 1 := rfl
@[simp] theorem width_SHR_CTX_BIND_SLICE_EN : (fldInfo .SHR_CTX_BIND_SLICE_EN).w = 1 := rfl
@[simp] theorem State.fldPut_SHR_CTX_BIND_SLICE_EN (s : State) (i v m : Nat) : s.fldPut .SHR_CTX_BIND_SLICE_EN i v m
    = if fieldOf .SHR_CTX_BIND_SLICE_EN m = 0 then s else s.set .SHR_CTX_BIND_SLICE_EN i (laidOver
      .SHR_CTX_BIND_SLICE_EN (s.fld .SHR_CTX_BIND_SLICE_EN i) v m) := rfl
@[simp] theorem fieldOf_SHR_CTX_BIND_SLICE (v : Nat) : fieldOf .SHR_CTX_BIND_SLICE v = v / 2 ^ 2 % 2 ^ 8 := rfl
@[simp] theorem lo_SHR_CTX_BIND_SLICE : (fldInfo .SHR_CTX_BIND_SLICE).lo = 2 := rfl
@[simp] theorem width_SHR_CTX_BIND_SLICE : (fldInfo .SHR_CTX_BIND_SLICE).w = 8 := rfl
@[simp] theorem State.fldPut_SHR_CTX_BIND_SLICE (s : State) (i v m : Nat) : s.fldPut .SHR_CTX_BIND_SLICE i v m
    = if fieldOf .SHR_CTX_BIND_SLICE m = 0 then s else s.set .SHR_CTX_BIND_SLICE i (laidOver .SHR_CTX_BIND_SLICE
      (s.fld .SHR_CTX_BIND_SLICE i) v m) := rfl
@[simp] theorem fieldOf_SHR_CTX_BIND_FUNC (v : Nat) : fieldOf .SHR_CTX_BIND_FUNC v = v / 2 ^ 10 % 2 ^ 12 := rfl
@[simp] theorem lo_SHR_CTX_BIND_FUNC : (fldInfo .SHR_CTX_BIND_FUNC).lo = 10 := rfl
@[simp] theorem width_SHR_CTX_BIND_FUNC : (fldInfo .SHR_CTX_BIND_FUNC).w = 12 := rfl
@[simp] theorem State.fldPut_SHR_CTX_BIND_FUNC (s : State) (i v m : Nat) : s.fldPut .SHR_CTX_BIND_FUNC i v m
    = if fieldOf .SHR_CTX_BIND_FUNC m = 0 then s else s.set .SHR_CTX_BIND_FUNC i (laidOver .SHR_CTX_BIND_FUNC (s.fld
      .SHR_CTX_BIND_FUNC i) v m) := rfl
@[simp] theorem fieldOf_SHR_CTX_BIND_CHARGE_IN (v : Nat) : fieldOf .SHR_CTX_BIND_CHARGE_IN v = v / 2 ^ 22 % 2 ^ 1 := rfl
@[simp] theorem lo_SHR_CTX_BIND_CHARGE_IN : (fldInfo .SHR_CTX_BIND_CHARGE_IN).lo = 22 := rfl
@[simp] theorem width_SHR_CTX_BIND_CHARGE_IN : (fldInfo .SHR_CTX_BIND_CHARGE_IN).w = 1 := rfl
@[simp] theorem State.fldPut_SHR_CTX_BIND_CHARGE_IN (s : State) (i v m : Nat) : s.fldPut .SHR_CTX_BIND_CHARGE_IN i v m
    = if fieldOf .SHR_CTX_BIND_CHARGE_IN m = 0 then s else s.set .SHR_CTX_BIND_CHARGE_IN i (laidOver
      .SHR_CTX_BIND_CHARGE_IN (s.fld .SHR_CTX_BIND_CHARGE_IN i) v m) := rfl
theorem State.regPlain_SHR_CTX_BIND (s : State) (i v m : Nat) : s.regPlain .SHR_CTX_BIND i v m
    = [Fld.SHR_CTX_BIND_VALID, .SHR_CTX_BIND_SLICE_EN, .SHR_CTX_BIND_SLICE, .SHR_CTX_BIND_FUNC,
      .SHR_CTX_BIND_CHARGE_IN].foldl
      (fun s f => s.fldPut f i v m) s := rfl

@[simp] theorem fieldOf_SEM_CTL_PAIR_EN (v : Nat) : fieldOf .SEM_CTL_PAIR_EN v = v / 2 ^ 0 % 2 ^ 1 := rfl
@[simp] theorem lo_SEM_CTL_PAIR_EN : (fldInfo .SEM_CTL_PAIR_EN).lo = 0 := rfl
@[simp] theorem width_SEM_CTL_PAIR_EN : (fldInfo .SEM_CTL_PAIR_EN).w = 1 := rfl
@[simp] theorem State.fldPut_SEM_CTL_PAIR_EN (s : State) (i v m : Nat) : s.fldPut .SEM_CTL_PAIR_EN i v m
    = if fieldOf .SEM_CTL_PAIR_EN m = 0 then s else s.set .SEM_CTL_PAIR_EN i (laidOver .SEM_CTL_PAIR_EN (s.fld
      .SEM_CTL_PAIR_EN i) v m) := rfl
@[simp] theorem fieldOf_SEM_CTL_HANDOVER (v : Nat) : fieldOf .SEM_CTL_HANDOVER v = v / 2 ^ 1 % 2 ^ 1 := rfl
@[simp] theorem lo_SEM_CTL_HANDOVER : (fldInfo .SEM_CTL_HANDOVER).lo = 1 := rfl
@[simp] theorem width_SEM_CTL_HANDOVER : (fldInfo .SEM_CTL_HANDOVER).w = 1 := rfl
@[simp] theorem State.fldPut_SEM_CTL_HANDOVER (s : State) (i v m : Nat) : s.fldPut .SEM_CTL_HANDOVER i v m = s :=
  State.fldPut_noWrite (by decide) (by decide) (by decide) s i v m
@[simp] theorem fieldOf_SEM_CTL_LEAVE (v : Nat) : fieldOf .SEM_CTL_LEAVE v = v / 2 ^ 2 % 2 ^ 1 := rfl
@[simp] theorem lo_SEM_CTL_LEAVE : (fldInfo .SEM_CTL_LEAVE).lo = 2 := rfl
@[simp] theorem width_SEM_CTL_LEAVE : (fldInfo .SEM_CTL_LEAVE).w = 1 := rfl
@[simp] theorem State.fldPut_SEM_CTL_LEAVE (s : State) (i v m : Nat) : s.fldPut .SEM_CTL_LEAVE i v m = s :=
  State.fldPut_noWrite (by decide) (by decide) (by decide) s i v m
@[simp] theorem fieldOf_SEM_CTL_SNAP (v : Nat) : fieldOf .SEM_CTL_SNAP v = v / 2 ^ 3 % 2 ^ 1 := rfl
@[simp] theorem lo_SEM_CTL_SNAP : (fldInfo .SEM_CTL_SNAP).lo = 3 := rfl
@[simp] theorem width_SEM_CTL_SNAP : (fldInfo .SEM_CTL_SNAP).w = 1 := rfl
@[simp] theorem State.fldPut_SEM_CTL_SNAP (s : State) (i v m : Nat) : s.fldPut .SEM_CTL_SNAP i v m = s :=
  State.fldPut_noWrite (by decide) (by decide) (by decide) s i v m
@[simp] theorem fieldOf_SEM_CTL_AUTO_TAKE (v : Nat) : fieldOf .SEM_CTL_AUTO_TAKE v = v / 2 ^ 4 % 2 ^ 1 := rfl
@[simp] theorem lo_SEM_CTL_AUTO_TAKE : (fldInfo .SEM_CTL_AUTO_TAKE).lo = 4 := rfl
@[simp] theorem width_SEM_CTL_AUTO_TAKE : (fldInfo .SEM_CTL_AUTO_TAKE).w = 1 := rfl
@[simp] theorem State.fldPut_SEM_CTL_AUTO_TAKE (s : State) (i v m : Nat) : s.fldPut .SEM_CTL_AUTO_TAKE i v m
    = if fieldOf .SEM_CTL_AUTO_TAKE m = 0 then s else s.set .SEM_CTL_AUTO_TAKE i (laidOver .SEM_CTL_AUTO_TAKE (s.fld
      .SEM_CTL_AUTO_TAKE i) v m) := rfl
theorem State.regPlain_SEM_CTL (s : State) (i v m : Nat) : s.regPlain .SEM_CTL i v m
    = [Fld.SEM_CTL_PAIR_EN, .SEM_CTL_HANDOVER, .SEM_CTL_LEAVE, .SEM_CTL_SNAP, .SEM_CTL_AUTO_TAKE].foldl
      (fun s f => s.fldPut f i v m) s := rfl

@[simp] theorem fieldOf_PWR_DOM_REQ_DOMAIN (v : Nat) : fieldOf .PWR_DOM_REQ_DOMAIN v = v / 2 ^ 0 % 2 ^ 5 := rfl
@[simp] theorem lo_PWR_DOM_REQ_DOMAIN : (fldInfo .PWR_DOM_REQ_DOMAIN).lo = 0 := rfl
@[simp] theorem width_PWR_DOM_REQ_DOMAIN : (fldInfo .PWR_DOM_REQ_DOMAIN).w = 5 := rfl
@[simp] theorem State.fldPut_PWR_DOM_REQ_DOMAIN (s : State) (i v m : Nat) : s.fldPut .PWR_DOM_REQ_DOMAIN i v m
    = if fieldOf .PWR_DOM_REQ_DOMAIN m = 0 then s else s.set .PWR_DOM_REQ_DOMAIN i (laidOver .PWR_DOM_REQ_DOMAIN
      (s.fld .PWR_DOM_REQ_DOMAIN i) v m) := rfl
@[simp] theorem fieldOf_PWR_DOM_REQ_OP (v : Nat) : fieldOf .PWR_DOM_REQ_OP v = v / 2 ^ 5 % 2 ^ 2 := rfl
@[simp] theorem lo_PWR_DOM_REQ_OP : (fldInfo .PWR_DOM_REQ_OP).lo = 5 := rfl
@[simp] theorem width_PWR_DOM_REQ_OP : (fldInfo .PWR_DOM_REQ_OP).w = 2 := rfl
@[simp] theorem State.fldPut_PWR_DOM_REQ_OP (s : State) (i v m : Nat) : s.fldPut .PWR_DOM_REQ_OP i v m
    = if fieldOf .PWR_DOM_REQ_OP m = 0 then s else s.set .PWR_DOM_REQ_OP i (laidOver .PWR_DOM_REQ_OP (s.fld
      .PWR_DOM_REQ_OP i) v m) := rfl
@[simp] theorem fieldOf_PWR_DOM_REQ_FORCE (v : Nat) : fieldOf .PWR_DOM_REQ_FORCE v = v / 2 ^ 7 % 2 ^ 1 := rfl
@[simp] theorem lo_PWR_DOM_REQ_FORCE : (fldInfo .PWR_DOM_REQ_FORCE).lo = 7 := rfl
@[simp] theorem width_PWR_DOM_REQ_FORCE : (fldInfo .PWR_DOM_REQ_FORCE).w = 1 := rfl
@[simp] theorem State.fldPut_PWR_DOM_REQ_FORCE (s : State) (i v m : Nat) : s.fldPut .PWR_DOM_REQ_FORCE i v m
    = if fieldOf .PWR_DOM_REQ_FORCE m = 0 then s else s.set .PWR_DOM_REQ_FORCE i (laidOver .PWR_DOM_REQ_FORCE (s.fld
      .PWR_DOM_REQ_FORCE i) v m) := rfl
@[simp] theorem fieldOf_PWR_DOM_REQ_GO (v : Nat) : fieldOf .PWR_DOM_REQ_GO v = v / 2 ^ 31 % 2 ^ 1 := rfl
@[simp] theorem lo_PWR_DOM_REQ_GO : (fldInfo .PWR_DOM_REQ_GO).lo = 31 := rfl
@[simp] theorem width_PWR_DOM_REQ_GO : (fldInfo .PWR_DOM_REQ_GO).w = 1 := rfl
@[simp] theorem State.fldPut_PWR_DOM_REQ_GO (s : State) (i v m : Nat) : s.fldPut .PWR_DOM_REQ_GO i v m = s :=
  State.fldPut_noWrite (by decide) (by decide) (by decide) s i v m
theorem State.regPlain_PWR_DOM_REQ (s : State) (i v m : Nat) : s.regPlain .PWR_DOM_REQ i v m
    = [Fld.PWR_DOM_REQ_DOMAIN, .PWR_DOM_REQ_OP, .PWR_DOM_REQ_FORCE, .PWR_DOM_REQ_GO].foldl
      (fun s f => s.fldPut f i v m) s := rfl

@[simp] theorem fieldOf_PWR_WDOG_KICK_KEY (v : Nat) : fieldOf .PWR_WDOG_KICK_KEY v = v / 2 ^ 0 % 2 ^ 16 := rfl
@[simp] theorem lo_PWR_WDOG_KICK_KEY : (fldInfo .PWR_WDOG_KICK_KEY).lo = 0 := rfl
@[simp] theorem width_PWR_WDOG_KICK_KEY : (fldInfo .PWR_WDOG_KICK_KEY).w = 16 := rfl
@[simp] theorem State.fldPut_PWR_WDOG_KICK_KEY (s : State) (i v m : Nat) : s.fldPut .PWR_WDOG_KICK_KEY i v m = s :=
  State.fldPut_noWrite (by decide) (by decide) (by decide) s i v m
theorem State.regPlain_PWR_WDOG_KICK (s : State) (i v m : Nat) : s.regPlain .PWR_WDOG_KICK i v m
    = [Fld.PWR_WDOG_KICK_KEY].foldl
      (fun s f => s.fldPut f i v m) s := rfl

@[simp] theorem fieldOf_PWR_CORE_CTL_MODE (v : Nat) : fieldOf .PWR_CORE_CTL_MODE v = v / 2 ^ 0 % 2 ^ 2 := rfl
@[simp] theorem lo_PWR_CORE_CTL_MODE : (fldInfo .PWR_CORE_CTL_MODE).lo = 0 := rfl
@[simp] theorem width_PWR_CORE_CTL_MODE : (fldInfo .PWR_CORE_CTL_MODE).w = 2 := rfl
@[simp] theorem State.fldPut_PWR_CORE_CTL_MODE (s : State) (i v m : Nat) : s.fldPut .PWR_CORE_CTL_MODE i v m
    = if fieldOf .PWR_CORE_CTL_MODE m = 0 then s else s.set .PWR_CORE_CTL_MODE i (laidOver .PWR_CORE_CTL_MODE (s.fld
      .PWR_CORE_CTL_MODE i) v m) := rfl
@[simp] theorem fieldOf_PWR_CORE_CTL_WAKE (v : Nat) : fieldOf .PWR_CORE_CTL_WAKE v = v / 2 ^ 2 % 2 ^ 1 := rfl
@[simp] theorem lo_PWR_CORE_CTL_WAKE : (fldInfo .PWR_CORE_CTL_WAKE).lo = 2 := rfl
@[simp] theorem width_PWR_CORE_CTL_WAKE : (fldInfo .PWR_CORE_CTL_WAKE).w = 1 := rfl
@[simp] theorem State.fldPut_PWR_CORE_CTL_WAKE (s : State) (i v m : Nat) : s.fldPut .PWR_CORE_CTL_WAKE i v m = s :=
  State.fldPut_noWrite (by decide) (by decide) (by decide) s i v m
@[simp] theorem fieldOf_PWR_CORE_CTL_ASLEEP (v : Nat) : fieldOf .PWR_CORE_CTL_ASLEEP v = v / 2 ^ 3 % 2 ^ 1 := rfl
@[simp] theorem lo_PWR_CORE_CTL_ASLEEP : (fldInfo .PWR_CORE_CTL_ASLEEP).lo = 3 := rfl
@[simp] theorem width_PWR_CORE_CTL_ASLEEP : (fldInfo .PWR_CORE_CTL_ASLEEP).w = 1 := rfl
@[simp] theorem State.fldPut_PWR_CORE_CTL_ASLEEP (s : State) (i v m : Nat) : s.fldPut .PWR_CORE_CTL_ASLEEP i v m = s :=
  State.fldPut_noWrite (by decide) (by decide) (by decide) s i v m
theorem State.regPlain_PWR_CORE_CTL (s : State) (i v m : Nat) : s.regPlain .PWR_CORE_CTL i v m
    = [Fld.PWR_CORE_CTL_MODE, .PWR_CORE_CTL_WAKE, .PWR_CORE_CTL_ASLEEP].foldl
      (fun s f => s.fldPut f i v m) s := rfl

@[simp] theorem fieldOf_CLK_CORE_SEL_SEL (v : Nat) : fieldOf .CLK_CORE_SEL_SEL v = v / 2 ^ 0 % 2 ^ 1 := rfl
@[simp] theorem lo_CLK_CORE_SEL_SEL : (fldInfo .CLK_CORE_SEL_SEL).lo = 0 := rfl
@[simp] theorem width_CLK_CORE_SEL_SEL : (fldInfo .CLK_CORE_SEL_SEL).w = 1 := rfl
@[simp] theorem State.fldPut_CLK_CORE_SEL_SEL (s : State) (i v m : Nat) : s.fldPut .CLK_CORE_SEL_SEL i v m
    = if fieldOf .CLK_CORE_SEL_SEL m = 0 then s else s.set .CLK_CORE_SEL_SEL i (laidOver .CLK_CORE_SEL_SEL (s.fld
      .CLK_CORE_SEL_SEL i) v m) := rfl
@[simp] theorem fieldOf_CLK_CORE_SEL_ACTIVE (v : Nat) : fieldOf .CLK_CORE_SEL_ACTIVE v = v / 2 ^ 1 % 2 ^ 1 := rfl
@[simp] theorem lo_CLK_CORE_SEL_ACTIVE : (fldInfo .CLK_CORE_SEL_ACTIVE).lo = 1 := rfl
@[simp] theorem width_CLK_CORE_SEL_ACTIVE : (fldInfo .CLK_CORE_SEL_ACTIVE).w = 1 := rfl
@[simp] theorem State.fldPut_CLK_CORE_SEL_ACTIVE (s : State) (i v m : Nat) : s.fldPut .CLK_CORE_SEL_ACTIVE i v m = s :=
  State.fldPut_noWrite (by decide) (by decide) (by decide) s i v m
theorem State.regPlain_CLK_CORE_SEL (s : State) (i v m : Nat) : s.regPlain .CLK_CORE_SEL i v m
    = [Fld.CLK_CORE_SEL_SEL, .CLK_CORE_SEL_ACTIVE].foldl
      (fun s f => s.fldPut f i v m) s := rfl

@[simp] theorem fieldOf_TIM_STEP_DELTA (v : Nat) : fieldOf .TIM_STEP_DELTA v = v / 2 ^ 0 % 2 ^ 64 := rfl
@[simp] theorem lo_TIM_STEP_DELTA : (fldInfo .TIM_STEP_DELTA).lo = 0 := rfl
@[simp] theorem width_TIM_STEP_DELTA : (fldInfo .TIM_STEP_DELTA).w = 64 := rfl
@[simp] theorem State.fldPut_TIM_STEP_DELTA (s : State) (i v m : Nat) : s.fldPut .TIM_STEP_DELTA i v m = s :=
  State.fldPut_noWrite (by decide) (by decide) (by decide) s i v m
theorem State.regPlain_TIM_STEP (s : State) (i v m : Nat) : s.regPlain .TIM_STEP i v m
    = [Fld.TIM_STEP_DELTA].foldl
      (fun s f => s.fldPut f i v m) s := rfl

@[simp] theorem fieldOf_RST_CTL_DELAY (v : Nat) : fieldOf .RST_CTL_DELAY v = v / 2 ^ 0 % 2 ^ 10 := rfl
@[simp] theorem lo_RST_CTL_DELAY : (fldInfo .RST_CTL_DELAY).lo = 0 := rfl
@[simp] theorem width_RST_CTL_DELAY : (fldInfo .RST_CTL_DELAY).w = 10 := rfl
@[simp] theorem State.fldPut_RST_CTL_DELAY (s : State) (i v m : Nat) : s.fldPut .RST_CTL_DELAY i v m
    = if fieldOf .RST_CTL_DELAY m = 0 then s else s.set .RST_CTL_DELAY i (laidOver .RST_CTL_DELAY (s.fld
      .RST_CTL_DELAY i) v m) := rfl
@[simp] theorem fieldOf_RST_CTL_KEY (v : Nat) : fieldOf .RST_CTL_KEY v = v / 2 ^ 16 % 2 ^ 8 := rfl
@[simp] theorem lo_RST_CTL_KEY : (fldInfo .RST_CTL_KEY).lo = 16 := rfl
@[simp] theorem width_RST_CTL_KEY : (fldInfo .RST_CTL_KEY).w = 8 := rfl
@[simp] theorem State.fldPut_RST_CTL_KEY (s : State) (i v m : Nat) : s.fldPut .RST_CTL_KEY i v m = s :=
  State.fldPut_noWrite (by decide) (by decide) (by decide) s i v m
theorem State.regPlain_RST_CTL (s : State) (i v m : Nat) : s.regPlain .RST_CTL i v m
    = [Fld.RST_CTL_DELAY, .RST_CTL_KEY].foldl
      (fun s f => s.fldPut f i v m) s := rfl

@[simp] theorem fieldOf_DBG_CTL_RELOCK (v : Nat) : fieldOf .DBG_CTL_RELOCK v = v / 2 ^ 0 % 2 ^ 1 := rfl
@[simp] theorem lo_DBG_CTL_RELOCK : (fldInfo .DBG_CTL_RELOCK).lo = 0 := rfl
@[simp] theorem width_DBG_CTL_RELOCK : (fldInfo .DBG_CTL_RELOCK).w = 1 := rfl
@[simp] theorem State.fldPut_DBG_CTL_RELOCK (s : State) (i v m : Nat) : s.fldPut .DBG_CTL_RELOCK i v m = s :=
  State.fldPut_noWrite (by decide) (by decide) (by decide) s i v m
theorem State.regPlain_DBG_CTL (s : State) (i v m : Nat) : s.regPlain .DBG_CTL i v m
    = [Fld.DBG_CTL_RELOCK].foldl
      (fun s f => s.fldPut f i v m) s := rfl

@[simp] theorem fieldOf_IRQ_CORE_COMPLETE_SRC (v : Nat) : fieldOf .IRQ_CORE_COMPLETE_SRC v = v / 2 ^ 0 % 2 ^ 14 := rfl
@[simp] theorem lo_IRQ_CORE_COMPLETE_SRC : (fldInfo .IRQ_CORE_COMPLETE_SRC).lo = 0 := rfl
@[simp] theorem width_IRQ_CORE_COMPLETE_SRC : (fldInfo .IRQ_CORE_COMPLETE_SRC).w = 14 := rfl
@[simp] theorem State.fldPut_IRQ_CORE_COMPLETE_SRC (s : State) (i v m : Nat) : s.fldPut .IRQ_CORE_COMPLETE_SRC i v m
      = s :=
  State.fldPut_noWrite (by decide) (by decide) (by decide) s i v m
theorem State.regPlain_IRQ_CORE_COMPLETE (s : State) (i v m : Nat) : s.regPlain .IRQ_CORE_COMPLETE i v m
    = [Fld.IRQ_CORE_COMPLETE_SRC].foldl
      (fun s f => s.fldPut f i v m) s := rfl

@[simp] theorem fieldOf_IRQ_CORE_CTL_THR (v : Nat) : fieldOf .IRQ_CORE_CTL_THR v = v / 2 ^ 0 % 2 ^ 4 := rfl
@[simp] theorem lo_IRQ_CORE_CTL_THR : (fldInfo .IRQ_CORE_CTL_THR).lo = 0 := rfl
@[simp] theorem width_IRQ_CORE_CTL_THR : (fldInfo .IRQ_CORE_CTL_THR).w = 4 := rfl
@[simp] theorem State.fldPut_IRQ_CORE_CTL_THR (s : State) (i v m : Nat) : s.fldPut .IRQ_CORE_CTL_THR i v m
    = if fieldOf .IRQ_CORE_CTL_THR m = 0 then s else s.set .IRQ_CORE_CTL_THR i (laidOver .IRQ_CORE_CTL_THR (s.fld
      .IRQ_CORE_CTL_THR i) v m) := rfl
@[simp] theorem fieldOf_IRQ_CORE_CTL_WAKE_EN (v : Nat) : fieldOf .IRQ_CORE_CTL_WAKE_EN v = v / 2 ^ 4 % 2 ^ 1 := rfl
@[simp] theorem lo_IRQ_CORE_CTL_WAKE_EN : (fldInfo .IRQ_CORE_CTL_WAKE_EN).lo = 4 := rfl
@[simp] theorem width_IRQ_CORE_CTL_WAKE_EN : (fldInfo .IRQ_CORE_CTL_WAKE_EN).w = 1 := rfl
@[simp] theorem State.fldPut_IRQ_CORE_CTL_WAKE_EN (s : State) (i v m : Nat) : s.fldPut .IRQ_CORE_CTL_WAKE_EN i v m
    = if fieldOf .IRQ_CORE_CTL_WAKE_EN m = 0 then s else s.set .IRQ_CORE_CTL_WAKE_EN i (laidOver
      .IRQ_CORE_CTL_WAKE_EN (s.fld .IRQ_CORE_CTL_WAKE_EN i) v m) := rfl
theorem State.regPlain_IRQ_CORE_CTL (s : State) (i v m : Nat) : s.regPlain .IRQ_CORE_CTL i v m
    = [Fld.IRQ_CORE_CTL_THR, .IRQ_CORE_CTL_WAKE_EN].foldl
      (fun s f => s.fldPut f i v m) s := rfl

theorem State.regDo_HST_CONT_REL (s : State) (w : Who) (i v m : Nat) :
    s.regDo w .HST_CONT_REL i v m = s.hstWrite .HST_CONT_REL i v m := rfl
theorem State.regDo_FN_RES (s : State) (w : Who) (i v m : Nat) :
    s.regDo w .FN_RES i v m = s.fnWrite .FN_RES i v m := rfl
theorem State.regDo_FN_CONT (s : State) (w : Who) (i v m : Nat) :
    s.regDo w .FN_CONT i v m = s.fnWrite .FN_CONT i v m := rfl
theorem State.regDo_FN_SLICE (s : State) (w : Who) (i v m : Nat) :
    s.regDo w .FN_SLICE i v m = s.fnWrite .FN_SLICE i v m := rfl
theorem State.regDo_XLT_TBL_BASE (s : State) (w : Who) (i v m : Nat) :
    s.regDo w .XLT_TBL_BASE i v m = s.xltWriteReg .XLT_TBL_BASE i v m := rfl
theorem State.regDo_XLT_EPOCH (s : State) (w : Who) (i v m : Nat) :
    s.regDo w .XLT_EPOCH i v m = s.xltWriteReg .XLT_EPOCH i v m := rfl
theorem State.regDo_XLT_UPD_CMD (s : State) (w : Who) (i v m : Nat) :
    s.regDo w .XLT_UPD_CMD i v m = s.xltWriteReg .XLT_UPD_CMD i v m := rfl
theorem State.regDo_GRD_EPOCH (s : State) (w : Who) (i v m : Nat) :
    s.regDo w .GRD_EPOCH i v m = s.grdWriteReg w .GRD_EPOCH i v m := rfl
theorem State.regDo_GRD_UPD_CMD (s : State) (w : Who) (i v m : Nat) :
    s.regDo w .GRD_UPD_CMD i v m = s.grdWriteReg w .GRD_UPD_CMD i v m := rfl
theorem State.regDo_DMA_CH_CTL (s : State) (w : Who) (i v m : Nat) :
    s.regDo w .DMA_CH_CTL i v m = s.dmaWrite .DMA_CH_CTL i v m := rfl
theorem State.regDo_DMA_CH_CFG (s : State) (w : Who) (i v m : Nat) :
    s.regDo w .DMA_CH_CFG i v m = s.dmaWrite .DMA_CH_CFG i v m := rfl
theorem State.regDo_DMA_GRANT (s : State) (w : Who) (i v m : Nat) :
    s.regDo w .DMA_GRANT i v m = s.dmaWrite .DMA_GRANT i v m := rfl
theorem State.regDo_DMA_RING_CTL (s : State) (w : Who) (i v m : Nat) :
    s.regDo w .DMA_RING_CTL i v m = s.dmaWrite .DMA_RING_CTL i v m := rfl
theorem State.regDo_SHR_UPD_CMD (s : State) (w : Who) (i v m : Nat) :
    s.regDo w .SHR_UPD_CMD i v m = s.shrWrite .SHR_UPD_CMD i v m := rfl
theorem State.regDo_SHR_CTX_BIND (s : State) (w : Who) (i v m : Nat) :
    s.regDo w .SHR_CTX_BIND i v m = s.shrWrite .SHR_CTX_BIND i v m := rfl
theorem State.regDo_SEM_CTL (s : State) (w : Who) (i v m : Nat) :
    s.regDo w .SEM_CTL i v m = s.semWrite .SEM_CTL i v m := rfl
theorem State.regDo_PWR_DOM_REQ (s : State) (w : Who) (i v m : Nat) :
    s.regDo w .PWR_DOM_REQ i v m = s.sysWrite .PWR_DOM_REQ i v m := rfl
theorem State.regDo_PWR_WDOG_KICK (s : State) (w : Who) (i v m : Nat) :
    s.regDo w .PWR_WDOG_KICK i v m = s.sysWrite .PWR_WDOG_KICK i v m := rfl
theorem State.regDo_PWR_CORE_CTL (s : State) (w : Who) (i v m : Nat) :
    s.regDo w .PWR_CORE_CTL i v m = s.sysWrite .PWR_CORE_CTL i v m := rfl
theorem State.regDo_CLK_CORE_SEL (s : State) (w : Who) (i v m : Nat) :
    s.regDo w .CLK_CORE_SEL i v m = s.sysWrite .CLK_CORE_SEL i v m := rfl
theorem State.regDo_TIM_STEP (s : State) (w : Who) (i v m : Nat) :
    s.regDo w .TIM_STEP i v m = s.sysWrite .TIM_STEP i v m := rfl
theorem State.regDo_RST_CTL (s : State) (w : Who) (i v m : Nat) :
    s.regDo w .RST_CTL i v m = s.sysWrite .RST_CTL i v m := rfl
theorem State.regDo_DBG_CTL (s : State) (w : Who) (i v m : Nat) :
    s.regDo w .DBG_CTL i v m = s.sysWrite .DBG_CTL i v m := rfl
theorem State.regDo_IRQ_CORE_COMPLETE (s : State) (w : Who) (i v m : Nat) :
    s.regDo w .IRQ_CORE_COMPLETE i v m = s.irqWrite w .IRQ_CORE_COMPLETE i v m := rfl
theorem State.regDo_IRQ_CORE_CTL (s : State) (w : Who) (i v m : Nat) :
    s.regDo w .IRQ_CORE_CTL i v m = s.irqWrite w .IRQ_CORE_CTL i v m := rfl
theorem State.regDo_IRQ_DOORBELL (s : State) (w : Who) (i v m : Nat) :
    s.regDo w .IRQ_DOORBELL i v m = s.irqWrite w .IRQ_DOORBELL i v m := rfl
theorem State.regDo_IRQ_PEND_SET (s : State) (w : Who) (i v m : Nat) :
    s.regDo w .IRQ_PEND_SET i v m = s.irqWrite w .IRQ_PEND_SET i v m := rfl
theorem State.regDo_IRQ_PEND_CLR (s : State) (w : Who) (i v m : Nat) :
    s.regDo w .IRQ_PEND_CLR i v m = s.irqWrite w .IRQ_PEND_CLR i v m := rfl
theorem State.regDo_IRQ_EN_SET (s : State) (w : Who) (i v m : Nat) :
    s.regDo w .IRQ_EN_SET i v m = s.irqWrite w .IRQ_EN_SET i v m := rfl
theorem State.regDo_IRQ_EN_CLR (s : State) (w : Who) (i v m : Nat) :
    s.regDo w .IRQ_EN_CLR i v m = s.irqWrite w .IRQ_EN_CLR i v m := rfl
theorem State.regDo_IRQ_STORM (s : State) (w : Who) (i v m : Nat) :
    s.regDo w .IRQ_STORM i v m = s.irqWrite w .IRQ_STORM i v m := rfl
theorem State.regDo_IRQ_ROUTE (s : State) (w : Who) (i v m : Nat) :
    s.regDo w .IRQ_ROUTE i v m = s.irqWrite w .IRQ_ROUTE i v m := rfl

end Sys2Proof.Machine
end

