-- ==== Sys2Proof/Laws/Wire.lean ====
section
/-!
SUPPORT. Laws of the wire formats: checks, fields and flags of a word, data in blocks, and one step of reading packets.
-/
namespace Sys2Proof.Machine

/-! ### Cyclic redundancy checks -/

/-- A remainder over `n` bits takes no bit above them. -/
theorem crcBits_mod (w poly : Nat) : ∀ n r x, crcBits w poly n r (x % 2 ^ n) = crcBits w poly n r x
  | 0, _, _ => rfl
  | n + 1, r, x => by
    have hb : (x % 2 ^ (n + 1)).testBit 0 = x.testBit 0 := by simp
    have hd : x % 2 ^ (n + 1) / 2 = x / 2 % 2 ^ n := by rw [Nat.pow_succ, Nat.mul_comm, Nat.mod_mul_right_div_self]
    simp only [crcBits, hb, hd, crcBits_mod]

/-- A remainder stays of its width. -/
theorem crcBits_lt {w poly : Nat} (hp : poly < 2 ^ w) : ∀ n r x, r < 2 ^ w → crcBits w poly n r x < 2 ^ w
  | 0, _, _, h => h
  | n + 1, r, x, _ => by
    have ht : 2 * r % 2 ^ w < 2 ^ w := Nat.mod_lt _ (Nat.two_pow_pos _)
    simp only [crcBits]
    apply crcBits_lt hp
    unfold crcBit
    split
    · exact Nat.xor_lt_two_pow ht hp
    · exact ht

theorem crc8_lt (x : Nat) : crc8 x < 256 := crcBits_lt (by decide : 7 < 2 ^ 8) 56 255 x (by decide)

/-- The CRC-8 covers bits [55:0] alone. -/
theorem crc8_low {x y : Nat} (h : x % 2 ^ 56 = y % 2 ^ 56) : crc8 x = crc8 y := by
  unfold crc8
  rw [← crcBits_mod, h, crcBits_mod]

/-- A sealed block is good: its low 56 bits and some CRC above them. -/
theorem laneSeal_ctl (x : Nat) : ∃ c, c < 256 ∧ laneGood (laneSeal x) = true ∧ laneSeal x = x % 2 ^ 56 + c * 2 ^ 56 := by
  have hc := crc8_lt x
  refine ⟨crc8 x, hc, ?_, rfl⟩
  have e : crc8 (laneSeal x) = crc8 x := crc8_low (by unfold laneSeal; omega)
  simp only [laneGood, e, beq_iff_eq]
  unfold laneSeal
  omega

/-- The CRC-32 of a bundle is a value of 32 bits. -/
theorem bundleCrc_lt (data : List Nat) (ctl : Nat) : bundleCrc data ctl < 2 ^ 32 := by
  have hp : 0x04C11DB7 < 2 ^ 32 := by decide
  have fold : ∀ (ds : List Nat) r, r < 2 ^ 32 → ds.foldl (fun r d => crcBits 32 0x04C11DB7 64 r d) r < 2 ^ 32 := by
    intro ds
    induction ds with
    | nil => exact fun _ h => h
    | cons d t ih => exact fun r h => ih _ (crcBits_lt hp 64 r d h)
  exact crcBits_lt hp 32 _ _ (fold data _ (by decide))

/-! ### Fields and flags -/

/-- A flag is a field of one bit. -/
theorem flagPut_bit (b : Bool) (lo : Nat) : flagPut b lo = fieldPut (bit b) 1 lo := by cases b <;> simp [flagPut, fieldPut, bit]

theorem bit_lt (b : Bool) : bit b < 2 := by cases b <;> simp [bit]

/-- The bit that a flag leaves in a word. -/
theorem testBit_of_flag {w k : Nat} {b : Bool} (h : w / 2 ^ k % 2 = bit b) : w.testBit k = b := by
  rw [Nat.testBit_eq_decide_div_mod_eq, h]
  cases b <;> simp [bit]

/-- Every field of word 0 of a request (R223). -/
theorem reqWord_fields {kind tag init seq len : Nat} (pois retry priv exec : Bool) (hk : kind < 32) (h1 : tag < 4096)
    (h2 : init < 32) (h3 : seq < 65536) (h4 : 1 ≤ len) (h5 : len ≤ 8192) :
    ∃ w, reqWord kind pois retry priv exec tag init seq len = w ∧ w % 32 = kind ∧ w.testBit 5 = pois ∧
      w.testBit 6 = retry ∧ w.testBit 7 = priv ∧ w.testBit 8 = exec ∧ fieldAt w 21 10 = tag ∧ fieldAt w 26 22 = init ∧
      fieldAt w 42 27 = seq ∧ fieldAt w 55 43 + 1 = len := by
  refine ⟨_, rfl, ?_⟩
  have b1 := bit_lt pois
  have b2 := bit_lt retry
  have b3 := bit_lt priv
  have b4 := bit_lt exec
  generalize hw : reqWord kind pois retry priv exec tag init seq len = w
  unfold reqWord at hw
  simp only [flagPut_bit] at hw
  unfold fieldPut at hw
  unfold fieldAt
  refine ⟨by omega, testBit_of_flag (by omega), testBit_of_flag (by omega), testBit_of_flag (by omega),
    testBit_of_flag (by omega), by omega, by omega, by omega, by omega⟩

/-! ### Data in blocks -/

/-- The bytes of the number that bytes spell. -/
theorem toBytes_ofBytes : ∀ b : List Byte, toBytes b.length (ofBytes b) = b
  | [] => rfl
  | c :: t => by
    have hc := c.isLt
    simp only [List.length_cons, toBytes, ofBytes]
    rw [show (c.toNat + 256 * ofBytes t) / 256 = ofBytes t by omega, toBytes_ofBytes t]
    congr 1
    apply BitVec.eq_of_toNat_eq
    simp
    exact hc

/-- Whole words of bytes give the bytes back. -/
theorem wordsOf_bytes (b : List Byte) (n : Nat) (h : b.length = 8 * n) :
    (wordsOf b).flatMap (toBytes 8) = b ∧ (wordsOf b).length = n := by
  have hn : (b.length + 7) / 8 = n := by omega
  refine ⟨?_, by simp [wordsOf, hn]⟩
  simp only [wordsOf, hn, List.flatMap_map]
  clear hn
  induction n generalizing b with
  | zero => simp at h ⊢; exact h.symm ▸ rfl
  | succ n ih =>
    have h1 := ih (b.drop 8) (by simp; omega)
    have h2 : toBytes 8 (ofBytes (b.take 8)) = b.take 8 := by
      have := toBytes_ofBytes (b.take 8)
      rwa [List.length_take, show min 8 b.length = 8 by omega] at this
    rw [List.range_succ_eq_map, List.flatMap_cons, List.flatMap_map, Nat.mul_zero, List.drop_zero, h2]
    conv => rhs; rw [← List.take_append_drop 8 b]
    rw [← h1]
    congr 1
    congr 1
    funext i
    simp [List.drop_drop]
    congr 4
    omega

/-- Data laid out from an address read back, and take the blocks that R224 counts. -/
theorem blocksFrom_bytes (a : Nat) {d : List Byte} (m : List Nat) (hd : d ≠ []) :
    bytesFrom a d.length (blocksFrom a d ++ m) = d ∧ (blocksFrom a d).length = dataBlocks a d.length := by
  have hp := List.length_pos_iff.mpr hd
  obtain ⟨h1, h2⟩ := wordsOf_bytes
    (List.replicate (a % 8) 0 ++ d ++ List.replicate ((8 - (a + d.length) % 8) % 8) 0) ((a % 8 + d.length + 7) / 8)
    (by simp; omega)
  constructor
  · simp only [bytesFrom, blocksFrom, if_neg hd, List.flatMap_append, h1]
    simp
  · rw [blocksFrom, if_neg hd, h2, dataBlocks, if_neg (by omega)]

/-! ### Reading packets -/

/-- What follows a packet of one block does not change its length. -/
theorem pktBlocks_one {sm : Bool} {base : Nat → Nat} {w0 w1 : Nat} (w : Nat) (h : pktBlocks sm base w0 w1 = 1) :
    pktBlocks sm base w0 w = 1 := by
  unfold pktBlocks at *
  split at h <;> simp_all <;> omega

/-- A whole packet at the front of a run is read, and the rest after it. -/
theorem readPkts_front {sm : Bool} {base : Nat → Nat} (n : Nat) {w0 : Nat} {t : List Nat} (rest : List Nat) {k : UrPkt}
    (h : pktBlocks sm base w0 (t.getD 0 0) = t.length + 1)
    (hr : (if sm then seamRead (w0 :: t) else urRead base (w0 :: t)) = some k) :
    readPkts sm base (n + 1) ((w0 :: t) ++ rest) = (k :: (readPkts sm base n rest).1, (readPkts sm base n rest).2) := by
  have e : pktBlocks sm base w0 ((t ++ rest).getD 0 0) = t.length + 1 := by
    cases t with
    | nil => exact pktBlocks_one _ h
    | cons a b => simpa using h
  have hn : ¬ ((t ++ rest).length + 1 < if t ++ rest = [] ∧ t.length + 1 ≠ 1 then 2 else t.length + 1) := by
    split
    · rename_i hh; simp at hh; simp [hh] at *
    · simp
  have ht : List.take (t.length + 1) (w0 :: (t ++ rest)) = w0 :: t := by simp
  simp only [List.cons_append, readPkts, e]
  rw [if_neg hn, ht, hr]
  simp

end Sys2Proof.Machine
end

