-- ==== Sys2Proof/Tests/Slice0.lean ====
section
/-!
SUPPORT. The author's own tests: for every statement a witness that its hypotheses can be met, clause by clause; commands no
sender can form; and small checks of single operations against the text of the specification.
-/
namespace Sys2Proof.Tests
open Sys2Proof Sys2Proof.Machine

/-! ### Small states -/

/-- A small state: all power domains on, firmware ready, the host face full. -/
def base : State :=
  { State.reset with mode := .LEAD, fwReady := true, perst := false, doms := (List.range 20).map fun d => (d, .on)
                     bt := { State.reset.bt with face := .full } }

/-- `base` with register fields set. -/
def st (l : List (Fld × Nat × Nat)) (s : State := base) : State := l.foldl (fun s x => s.set x.1 x.2.1 x.2.2) s

/-- Its links up: the host link in L0, link 0 and the Seam ACTIVE, port 0 UP, lane 0 ACTIVE. -/
def up : State :=
  st [(.HST_LINK_STS_DL_UP, 0, 1), (.HST_LINK_STS_LTSSM, 0, 3), (.ULK_STS_STATE, 0, 2), (.SEM_STS_SEAM_UP, 0, 1),
      (.LANE_LINK_STS_STATE, 0, 2), (.LANE_STS_STATE, 0, lnACTIVE), (.LANE_LINK_CTL_DOZE_EN, 0, 1),
      (.LANE_LINK_CTL_DEEP_EN, 0, 1), (.ULK_FAR_DOZE_OK, 0, 1), (.ULK_FAR_DEEP_OK, 0, 1), (.ULK_PM_CFG_DOZE_IDLE, 0, 1),
      (.ULK_PM_CFG_DEEP_IDLE, 0, 1), (.MBX_CFG_EN, 0, 1)]

/-- `up` with a mailbox that firmware has claimed, holding a request. -/
def cmd (m op : Nat) (pay : List Byte) (s : State := up) : State :=
  ((s.set .MBX_MB_CONTROL m 2).stBytes (mbxAddr m + 8) (toBytes 2 op ++ [0, 0] ++ toBytes 2 pay.length)).stBytes
    (mbxAddr m + 0x40) pay

/-- A request of port 0 for a byte range, a ledger entry, a read, a Basket tag and a DMA run for it. -/
def rq (k : Kind) : Req := { who := .host 0, kind := k, addr := 0, len := 4, data := [1, 2, 3, 4], dst := 0x4000000000 }
def ent (st : LSt) (tag : Option Nat) : LEnt :=
  { port := 0, init := 0, seq := 0, st := st, req := rq .write, status := 0, retried := false, mirrored := false
    abandoned := false, tag := tag, atom := none }
def rd (tag : Option Nat) : PRead :=
  { port := 0, req := rq .read, tag := tag, retried := false, got := [], pois := [], sent := 0, emul := false }
def btag : BTag := { tag := 7, st := .issued, fn := 0, rid := 0, off := 0, len := 4, got := 0, req := rq .read }
def run (stop : StopWhy) : ChRun :=
  { ctx := none, slot := 0, words := [0, 0, 0, 0, 0, 0, 0, 0], owner := 0, slice := none, size := 64, desc := false, next := 0
    beats := [], nextTag := 0, done := 0, units := 0, servedUnits := 0, stop := stop, cause := 0, errOff := none
    mism := none, poisOff := none, drainFrom := 0 }
def dn (ch tag : Nat) : BeatDone := { ch := ch, tag := tag, addr := 0, len := 4, status := 0, data := [0, 0, 0, 0], pois := [] }
def l0p : State := { up with bt := { up.bt with l0pNeg := true }, cfg := [(0x2D0, 8)] }
/-- `up` with credit granted to the design of port 0 and its HELLO in. -/
def rxUp : State := up.setPort 0 { up.port 0 with farHello := true, grant0 := 10, grantD0 := 1000, grant2 := 10 }
def credit (s : State) : State := s.setPort 0 { s.port 0 with hdr0 := 10, data0 := 1000, hdr2 := 10 }

/-! ### Words of the wire -/

/-- R213, R214: a bundle of sixteen blocks of zeros with BSEQ 0 and ACKSEQ 4,095. -/
theorem test_bundle_crc : bundleGood (List.replicate 16 0) 0x2dc82eddfff00001 = true := by
  have h1 : [0, 0, 0, 0].foldl (fun r d => crcBits 32 0x04C11DB7 64 r d) 0xFFFFFFFF = 1247129447 := by decide +kernel
  have h2 : [0, 0, 0, 0].foldl (fun r d => crcBits 32 0x04C11DB7 64 r d) 1247129447 = 2470006353 := by decide +kernel
  have h3 : [0, 0, 0, 0].foldl (fun r d => crcBits 32 0x04C11DB7 64 r d) 2470006353 = 2321141922 := by decide +kernel
  have h4 : [0, 0, 0, 0].foldl (fun r d => crcBits 32 0x04C11DB7 64 r d) 2321141922 = 1184950972 := by decide +kernel
  have h5 : crcBits 32 0x04C11DB7 32 1184950972 0xfff00001 = 0x2dc82edd := by decide +kernel
  have e : (List.replicate 16 0 : List Nat) = [0, 0, 0, 0] ++ ([0, 0, 0, 0] ++ ([0, 0, 0, 0] ++ [0, 0, 0, 0])) := rfl
  have h : bundleCrc (List.replicate 16 0) 0xfff00001 = 0x2dc82edd := by
    unfold bundleCrc
    rw [e, List.foldl_append, h1, List.foldl_append, h2, List.foldl_append, h3, h4, h5]
  unfold bundleGood ctlGood
  rw [show 0x2dc82eddfff00001 % 2 ^ 32 = 0xfff00001 by decide, h]
  decide
/-- R218, R223, R229: the words of the worked example of the Urone chapter ("one write stream through a refusal"). -/
theorem test_wire_write : ((urWords (.write 0x5A 0 0xFFFF 0x2000100000 false false false (List.replicate 512 0) none)).take 2
      = [0x000FFFFFF8016809, 0x2000100000]) ∧
    ((urWords (.write 0x5A 0 0xFFFF 0x2000100000 true false false (List.replicate 512 0) none)).take 2
      = [0x000FFFFFF8016849, 0x2000100000]) := by decide +kernel
theorem test_wire_response : urWords (.response 0x5A 1 0 true [] none 0x200) = [0x416810, 0x2000] ∧
    urWords (.response 0x5B 7 0 true [] none 3) = [0x1C16C10, 0x2000] := by decide
/-- R220: VC 2 at bit 5, HDR_LIMIT 100 at bit 8. -/
theorem test_wire_flow : urWords (.flow 2 100 0) = [0x6441] := by decide
/-- R193: LANE 5, WIDTH 8, RATES 7, TARGET 2, PHASE 3 and LINK_ID 0xAB at their bits; a MARKER of lane 1 with STRIPE. -/
theorem test_wire_train : trainWord { lane := 5, width := 8, rates := 7, target := 2, phase := 3, linkId := 0xAB } % 2 ^ 56
    = 0xABC00BC5C0 := by decide +kernel
theorem test_wire_marker : markWord { lane := 1, active := 0x0F, rxok := 0x0F, cmd := 1, mcount := 2 } % 2 ^ 56
    = 0x100087879C1 := by decide +kernel
/-- R188: the pairs (1,0), (1,1), (0,1) and (0,0), the first bit the lower, are the levels 3, 2, 1 and 0. -/
theorem test_wire_levels : lineLevels 2 0b00101101 = 3 + 4 * 2 + 16 * 1 := by decide
/-- R192, by hand: from all ones a payload of zeros stays 0 for 39 bits, then the taps differ for 19. -/
theorem test_wire_scrambler : (scramble (2 ^ 58 - 1) 0).1 = 2 ^ 58 - 2 ^ 39 := by decide
/-- R195: block n goes on the (n mod A)th ACTIVE lane. -/
theorem test_wire_stripe : stripe [0, 2] 0 [7, 8, 9] = [(0, 7), (2, 8), (0, 9)] := by decide

/-! ### Witnesses of the completion statements, clause by clause -/

theorem witness_LifeComplete :
    (∃ (s : State), s.mode = .OFF ∧ s.bt.trip = none) ∧
    (∃ (s : State), s.mode = .OFF) ∧
    (∃ (s : State), s.mode ≠ .OFF) ∧
    (∃ (s : State), s.mode ≠ .OFF) ∧
    (∃ (s : State), s.mode ≠ .OFF) ∧
    (∃ (s : State), s.mode ≠ .OFF) ∧
    (∃ (s : State), s.mode ≠ .OFF) ∧
    (∃ (c : Fin 9), 2 ≤ c.val) ∧
    (∃ (s : State) (i : _), s.mode = .BOOT ∧ s.fwReady = false ∧ s.bt.image = some i) ∧
    (∃ (s : State), s.mode = .BOOT ∧ s.bt.face = .rrs ∧ s.perst = false ∧ s.hctlOn = true) ∧
    (∃ (s : State) (b : _), s.bt.standby = some b ∧ (s.mode = .LEAD ∨ s.mode = .FOLLOW)) ∧
    (∃ (s : State) (b : _), s.bt.standby = some b ∧ (s.mode = .LEAD ∨ s.mode = .FOLLOW) ∧ b.step = 4) ∧
    (∃ (s : State), s.flag .PWR_WAKE_EN_TIMER = true) ∧
    (∃ (s : State) (n : _), s.bt.rstArmed = some n) ∧
    (∃ (s : State), s.mode = .BOOT ∧ s.domOn 1 = true ∧ s.domOn 16 = true ∧ s.domOn 2 = true ∧ s.bt.image = none ∧
      s.bt.bootFail = false ∧ s.hdr.attempt = 0 ∧ s.hdr.active = 0 ∧ s.bt.wdogFailed = 0) ∧
    (∃ (s : State), s.mode = .BOOT ∧ s.domOn 17 = true ∧ s.domOn 18 = true ∧ s.flag .DRS_STS_TRAINED = false) ∧
    (∃ (s : State), s.readyDue = true ∧ s.fwReady = false) :=
  ⟨⟨{ base with mode := .OFF }, by decide, by decide⟩,
   ⟨{ base with mode := .OFF }, by decide⟩,
   ⟨base, by decide⟩,
   ⟨up, by decide⟩,
   ⟨up, by decide⟩,
   ⟨up, by decide⟩,
   ⟨up, by decide⟩,
   ⟨2, by decide⟩,
   ⟨{ base with mode := .BOOT, fwReady := false, bt := { base.bt with image := some 0 } }, 0, by decide, by decide, rfl⟩,
   ⟨{ base with mode := .BOOT, bt := { base.bt with face := .rrs } }, by decide, by decide, by decide, by decide⟩,
   ⟨{ base with bt := { base.bt with standby := some { retain := false } } }, _, rfl, by decide⟩,
   ⟨{ base with bt := { base.bt with standby := some { retain := false, step := 4 } } }, _, rfl, by decide, by decide⟩,
   ⟨st [(.PWR_WAKE_EN_TIMER, 0, 1)], by decide⟩,
   ⟨{ base with bt := { base.bt with rstArmed := some 2 } }, 2, rfl⟩,
   ⟨{ base with mode := .BOOT, fwReady := false }, by decide, by decide, by decide, by decide, by decide, by decide,
      by decide, by decide, by decide⟩,
   ⟨{ base with mode := .BOOT, fwReady := false }, by decide, by decide, by decide, by decide⟩,
   ⟨st [(.DRS_STS_TRAINED, 0,
      1)] { base with mode := .BOOT, fwReady := false, bt := { base.bt with image := some 0, roleSettled := true } },
      by decide, by decide⟩⟩

theorem witness_HostFaceComplete :
    (∃ (s : State), s.perst = false ∧ s.hctlOn = true ∧ s.perstResets = false) ∧
    (∃ (s : State), s.perst = true ∧ (State.wakeRelease { s with perst := false }).hctlOn = true) ∧
    (∃ (s : State), s.hctlOn = true ∧ s.flag .HST_LINK_STS_DL_UP = true) ∧
    (∃ (s : State), s.hctlOn = true ∧ s.ltssm = ltDISABLED) ∧
    (∃ (s t : State), s.hctlOn = true ∧ t.hctlOn = true ∧ s.flag .HST_LINK_STS_DL_UP = true ∧ t.ltssm = ltHOTRESET) ∧
    (∃ (s : State) (train : HostTrain), s.hctlOn = true ∧ s.perst = false ∧ s.ltssm ≠ ltDISABLED ∧
      s.flag .HST_LINK_STS_DL_UP = false ∧ train.rate.val ≠ 0 ∧ train.width.val ∈ linkWidths) ∧
    (∃ (s : State), s.hctlOn = true ∧ s.fld .HST_CLK_CFG_ACTIVE = 1 ∧ s.flag .HST_LINK_STS_DL_UP = true) :=
  ⟨⟨base, by decide, by decide, by decide⟩,
   ⟨{ base with perst := true }, by decide, by decide⟩,
   ⟨up, by decide, by decide⟩,
   ⟨st [(.HST_LINK_STS_LTSSM, 0, ltDISABLED)], by decide, by decide⟩,
   ⟨up, st [(.HST_LINK_STS_LTSSM, 0, ltHOTRESET)], by decide, by decide, by decide, by decide⟩,
   ⟨base, { rate := 6, width := 16 }, by decide, by decide, by decide, by decide, by decide, by decide⟩,
   ⟨st [(.HST_CLK_CFG_ACTIVE, 0, 1)] up, by decide, by decide, by decide⟩⟩

theorem witness_HostLaneComplete :
    (∃ (s t : State), s.hctlOn = true ∧ s.flag .HST_LINK_STS_DL_UP = true ∧ t.hctlOn = true ∧
      t.flag .HST_LINK_STS_DL_UP = true ∧
      ((t.each ([5].zipIdx) fun s e => s.count .HST_LANE_ERR_CNT_CORR e.2 e.1).flag .HST_LINK_CTL_LANE_ACT) = true ∧
      ((s.each ([5].zipIdx) fun s e => s.count .HST_LANE_ERR_CNT_CORR e.2 e.1).flag .HST_LINK_CTL_LANE_ACT) = false) ∧
    (∃ (s : State), s.hctlOn = true ∧ s.ltssm = ltL0) ∧
    (∃ (s : State) (train : HostTrain), s.hctlOn = true ∧ s.ltssm = ltRECOVERY ∧ train.rate.val ≠ 0 ∧
      train.width.val ∈ linkWidths) ∧
    (∃ (s : State), s.hctlOn = true ∧ s.flag .HST_LINK_CTL_AUTO_REWIDEN = true ∧ s.fld .HST_LANE_FAIL_EXCLUDE ≠ 0 ∧
      (s.cfgD 0 0x080).testBit 9 = false) ∧
    (∃ (s : State) (epoch : Nat), s.hctlOn = true ∧ s.l0pOn = true ∧ s.linkOpen = true ∧
      s.fld .HST_LINK_STS_L0P_WIDTH = 8 ∧ min 100 (s.fld .HST_PM_CTL_L0P_HIGH) * s.hostRate 8 < 100 * epoch ∧
      2 * 8 ≤ s.fld .HST_LINK_STS_WIDTH ∧ s.l0pFree (2 * 8) = true) ∧
    (∃ (s : State) (window epoch : Nat), s.hctlOn = true ∧ s.l0pOn = true ∧ s.linkOpen = true ∧
      s.fld .HST_LINK_STS_L0P_WIDTH = 16 ∧ 100 * epoch ≤ min 100 (s.fld .HST_PM_CTL_L0P_HIGH) * s.hostRate 16 ∧
      s.flag .HST_LINK_CTL_L0P_AUTO = true ∧ s.l0pMin ≤ 16 / 2 ∧
      100 * window < min 100 (s.fld .HST_PM_CTL_L0P_LOW) * s.hostRate (16 / 2) ∧
      s.hostGuarantee ≤ s.hostRate (16 / 2)) ∧
    (∃ (s : State) (width : Fin 17), s.hctlOn = true ∧ s.l0pOn = true ∧ s.flag .HST_LINK_STS_DL_UP = true ∧
      width.val ∈ linkWidths ∧ width.val ≤ s.fld .HST_LINK_STS_WIDTH ∧
      (width.val ≤ s.fld .HST_LINK_STS_L0P_WIDTH ∨ s.l0pFree width = true)) ∧
    (∃ (s : State), s.hctlOn = true ∧ s.linkOpen = true ∧ s.aspmL1 = true ∧ s.flag .HST_LINK_CTL_L1_AUTO = true ∧
      s.fld .HST_PM_CTL_L1_IDLE ≠ 0 ∧ s.l1Idle = true) ∧
    (∃ (s : State), s.hctlOn = true ∧ s.ltssm = ltL1 ∧ (s.cfgD 0 0x2A8 / (if s.hp.l1Pm then 1 else 4)).testBit 0 = true) ∧
    (∃ (s : State), s.hctlOn = true ∧ s.ltssm = ltL1 ∧ (s.cfgD 0 0x2A8 / (if s.hp.l1Pm then 1 else 4)).testBit 1 = true) ∧
    (∃ (s : State), s.hctlOn = true ∧ ltL1 ≤ s.ltssm ∧ s.ltssm ≤ 7) ∧
    (∃ (s : State), s.hctlOn = true ∧ s.pmeOff = true ∧ s.flag .HST_LINK_STS_DL_UP = true ∧ (∀ b ∈ s.bTags,
      b.st ≠ .issued)) :=
  ⟨⟨st [(.HST_LINK_CTL_LANE_ACT, 0, 0)] up, up, by decide, by decide, by decide, by decide, by decide, by decide⟩,
   ⟨up, by decide, by decide⟩,
   ⟨st [(.HST_LINK_STS_LTSSM, 0, ltRECOVERY)], { rate := 6, width := 8 }, by decide, by decide, by decide, by decide⟩,
   ⟨st [(.HST_LINK_CTL_AUTO_REWIDEN, 0, 1), (.HST_LANE_FAIL_EXCLUDE, 0, 1)], by decide, by decide, by decide, by decide⟩,
   ⟨st [(.HST_LINK_STS_L0P_WIDTH, 0, 8), (.HST_LINK_STS_WIDTH, 0, 16), (.HST_PM_CTL_L0P_HIGH, 0, 0)] l0p, 1000,
      by decide, by decide, by decide, by decide, by decide, by decide, by decide⟩,
   ⟨st [(.HST_LINK_STS_L0P_WIDTH, 0, 16), (.HST_LINK_STS_WIDTH, 0, 16), (.HST_LINK_CTL_L0P_AUTO, 0, 1),
      (.HST_LINK_CTL_L0P_MIN, 0, 4), (.HST_PM_CTL_L0P_LOW, 0, 50), (.HST_LINK_STS_RATE, 0, 6)] l0p, 0, 0, by decide,
      by decide, by decide, by decide, by decide, by decide, by decide, by decide, by decide⟩,
   ⟨st [(.HST_LINK_STS_WIDTH, 0, 16)] l0p, 8, by decide, by decide, by decide, by decide, by decide, by decide⟩,
   ⟨st [(.HST_LINK_CTL_L1_AUTO, 0, 1), (.HST_PM_CTL_L1_IDLE, 0, 1)] { up with cfg := [(0x080, 2)] }, by decide,
      by decide, by decide, by decide, by decide, by decide⟩,
   ⟨st [(.HST_LINK_STS_LTSSM, 0, ltL1)] { base with cfg := [(0x2A8, 4)] }, by decide, by decide, by decide⟩,
   ⟨st [(.HST_LINK_STS_LTSSM, 0, ltL1)] { base with cfg := [(0x2A8, 8)] }, by decide, by decide, by decide⟩,
   ⟨st [(.HST_LINK_STS_LTSSM, 0, 6)], by decide, by decide, by decide⟩,
   ⟨{ up with pmeOff := true }, by decide, by decide, by decide, by decide⟩⟩

theorem witness_HostMemoryComplete :
    (∃ (s : State) (h : HostTlp) (data : List Byte) (be : List Bool), s.hctlOn = true ∧ s.linkOpen = true ∧
      h.ideCause = 0 ∧ ((h.stream = 0 ∨ s.fld .SEC_IDE_STS_STATE (h.stream - 1) = 2)) ∧ hostWriteOk h data be = true) ∧
    (∃ (s : State) (h : HostTlp) (len : Nat), s.hctlOn = true ∧ s.linkOpen = true ∧ h.ideCause = 0 ∧
      ((h.stream = 0 ∨ s.fld .SEC_IDE_STS_STATE (h.stream - 1) = 2)) ∧ hostReadOk h len = true) ∧
    (∃ (s : State) (h : HostTlp) (op : AtomOp) (size : Nat) (data : List Byte), s.hctlOn = true ∧ s.linkOpen = true ∧
      h.ideCause = 0 ∧ ((h.stream = 0 ∨ s.fld .SEC_IDE_STS_STATE (h.stream - 1) = 2)) ∧
      hostAtomOk h op size data = true) ∧
    (∃ (s : State) (h : HostTlp), s.hctlOn = true ∧ s.linkOpen = true ∧ h.ideCause = 0 ∧
      ((h.stream = 0 ∨ s.fld .SEC_IDE_STS_STATE (h.stream - 1) = 2)) ∧ hostTlpOk h 0 = true) :=
  ⟨⟨up, { fn := 0, bar := .bar2, off := 0 }, [1], [], by decide, by decide, by decide, by decide, by decide⟩,
   ⟨up, { fn := 0, bar := .bar2, off := 0 }, 4096, by decide, by decide, by decide, by decide, by decide⟩,
   ⟨up, { fn := 0, bar := .bar2, off := 4080 }, .cas, 16, (toBytes 32 5), by decide, by decide, by decide, by decide,
      by decide⟩,
   ⟨up, { fn := 0, bar := .bar2, off := 0 }, by decide, by decide, by decide, by decide, by decide⟩⟩

theorem witness_TranslationComplete :
    (∃ (s : State) (w : _), (s.walks.find? fun w => !w.slot) = some w ∧ (s.walks.filter (·.slot)).length < 128) ∧
    (∃ (s : State), s.regOn .XLT_UPD_CMD 0 = true ∧ s.flag .XLT_UPD_STS_BUSY = false) ∧
    (∃ (s : State), s.regOn .XLT_UPD_CMD 0 = true ∧ s.flag .XLT_UPD_STS_BUSY = false) ∧
    (∃ (s : State), s.regOn .XLT_UPD_CMD 0 = true ∧ s.flag .XLT_UPD_STS_BUSY = false) ∧
    (∃ (s : State), s.regOn .XLT_UPD_CMD 0 = true ∧ s.flag .XLT_UPD_STS_BUSY = false) ∧
    (∃ (s : State), s.domOn 14 = true) ∧
    (∃ (s : State), s.domOn 14 = true) ∧
    (∃ (s : State), s.regOn .XLT_TBL_BASE 0 = true) ∧
    (∃ (s : State), s.regOn .XLT_EPOCH 0 = true) ∧
    (∃ (s : State), s.domOn 14 = true) :=
  ⟨⟨{ base with walks := [{ tbl := 0, slot := false, waiting := [] }] }, _, rfl, by decide⟩,
   ⟨up, by decide, by decide⟩,
   ⟨up, by decide, by decide⟩,
   ⟨up, by decide, by decide⟩,
   ⟨up, by decide, by decide⟩,
   ⟨up, by decide⟩,
   ⟨up, by decide⟩,
   ⟨up, by decide⟩,
   ⟨up, by decide⟩,
   ⟨up, by decide⟩⟩

theorem witness_FunctionComplete :
    (∃ (s : State) (f : Nat), s.hctlOn = true ∧ s.linkOpen = true ∧ s.bt.face = .full ∧ s.cfgReach f = true) ∧
    (∃ (s : State) (f : Nat), f ≠ 0 ∧ s.hctlOn = true ∧ s.linkOpen = true ∧ s.cfgAnswer f = 0) ∧
    (∃ (s : State) (f : Fn), s.hctlOn = true ∧ s.bt.face = .full ∧ s.cfgReach f = true) ∧
    (∃ (s : State) (pf : Fin 4), pf.val ≠ 0 ∧ s.hctlOn = true ∧ s.cfgAnswer pf = 0) ∧
    (∃ (s : State) (pf : Fin 4), pf.val ≠ 0 ∧ s.hctlOn = true ∧ s.cfgAnswer pf = 0) ∧
    (∃ (s : State) (f : Fn), s.hctlOn = true ∧ s.cfgAnswer f = 0) ∧
    (∃ (s : State) (f : Fn), s.hctlOn = true ∧ s.cfgAnswer f = 0) ∧
    (∃ (s : State) (f : Fn), s.hctlOn = true ∧ s.cfgAnswer f = 0) ∧
    (∃ (s : State) (pf : Fin 4), pf.val ≠ 0 ∧ s.hctlOn = true ∧ s.cfgAnswer pf = 0) ∧
    (∃ (s : State) (f : Fn), s.rinseDone f = true) ∧
    (∃ (s : State) (k : Fin 256), s.regOn .FN_SLICE k = true) ∧
    (∃ (s : State) (f : Fn) (first : Fin 4096) (count : Fin 4096), s.regOn .FN_RES f = true ∧ count.val ≤ 8 ∧
      first.val + count.val ≤ 4096) ∧
    (∃ (s : State), s.fwReady = true) :=
  ⟨⟨up, 3, by decide, by decide, by decide, by decide⟩,
   ⟨up, 2, by decide, by decide, by decide, by decide⟩,
   ⟨up, 0, by decide, by decide, by decide⟩,
   ⟨up, 1, by decide, by decide, by decide⟩,
   ⟨up, 1, by decide, by decide, by decide⟩,
   ⟨up, 0, by decide, by decide⟩,
   ⟨up, 0, by decide, by decide⟩,
   ⟨up, 0, by decide, by decide⟩,
   ⟨up, 3, by decide, by decide, by decide⟩,
   ⟨up, 0, by decide⟩,
   ⟨up, 0, by decide⟩,
   ⟨up, 0, 4088, 8, by decide, by decide, by decide⟩,
   ⟨up, by decide⟩⟩

theorem witness_LedgerComplete :
    (∃ (s : State) (p : Port) (init : Fin 19) (w : _) (t : _),
      (s.ldgWait.filter fun w => w.port == p.val && w.init == init.val) = w :: t ∧ s.lockHolds w.req = false ∧
      s.ldgFree init = true ∧ (s.stream p init).length < s.pairMax ∧ s.mirrors = false) ∧
    (∃ (s : State) (p : Port) (init : Fin 19) (tag : Nat) (e : _), s.mode = .LEAD ∧
      (s.stream p init).any (fun e => e.st == .retry) = false ∧
      (s.stream p init).find? (fun e => e.st == .opened) = some e ∧ s.mirrorOk e = true ∧
      s.entLocked (s.stream p init) e = false ∧ s.fld .ULK_STS_STATE p ≠ 0 ∧ s.tagFree p tag = true ∧
      s.canIssue p (wrPkt e tag) = true ∧ s.ovfBad e = false) ∧
    (∃ (s : State) (p : Port) (init : Fin 19) (e : _) (t : _), s.mode = .LEAD ∧
      (s.stream p init).filter (fun e => e.st == .retry) = e :: t ∧
      (s.stream p init).any (fun e => e.st == .issued) = false ∧ s.canIssue p (wrPkt e (e.tag.getD 0)) = true ∧
      (s.port p).fitsAll 0 ((e :: t).map fun e => wrPkt e (e.tag.getD 0)) = true) ∧
    (∃ (s : State) (p : Port) (tag : Nat) (e : _),
      s.ledger.find? (fun e => e.port == p.val && e.st == .issued && e.tag == some tag) = some e) ∧
    (∃ (s : State) (p : Port) (tag : Nat) (r : _),
      s.pReads.find? (fun r => r.port == p.val && r.tag == some tag) = some r) ∧
    (∃ (s : State) (e : _), s.mode ≠ .CONTAIN ∧ s.heldReads.find? (fun e => !s.heldByWrites e.2) = some e ∧
      e.2.kind = .read ∧ State.lockHolds { s with heldReads := s.heldReads.erase e } e.2 = false ∧
      State.lockBehind { s with heldReads := s.heldReads.erase e } e.2 = false) ∧
    (∃ (s : State) (e : _), s.mode ≠ .CONTAIN ∧ s.heldReads.find? (fun e => !s.heldByWrites e.2) = some e ∧
      e.2.kind = .read ∧ State.lockHolds { s with heldReads := s.heldReads.erase e } e.2 = true) ∧
    (∃ (s : State) (e : _), s.mode ≠ .CONTAIN ∧ s.heldReads.find? (fun e => !s.heldByWrites e.2) = some e ∧
      e.2.kind ≠ .read) ∧
    (∃ (s : State) (h : CplHeld), s.cplHeld.find? (fun h => !s.cplHeldBy h.port h.ord h.req.ro) = some h ∧
      (∀ a b c d e f, h.pkt ≠ .response a b c true d e f)) ∧
    (∃ (s : State) (h : CplHeld) (a b c : Nat) (d : List Byte),
      s.cplHeld.find? (fun h => !s.cplHeldBy h.port h.ord h.req.ro) = some h ∧ h.pkt = .response a b c true d none 0) :=
  ⟨⟨{ base with ldgWait := [{ port := 0, init := 0, req := rq .write, atom := none }] }, 0, 0, _, _, rfl, by decide,
      by decide, by decide, by decide⟩,
   ⟨credit { up with ledger := [ent .opened none] }, 0, 0, 0, _, by decide, by decide, rfl, by decide, by decide,
      by decide, by decide, by decide, by decide⟩,
   ⟨credit { up with ledger := [ent .retry (some 3), { ent .retry (some 4) with seq := 1 }] }, 0, 0, _, _, by decide,
      rfl, by decide, by decide, by decide⟩,
   ⟨{ up with ledger := [ent .issued (some 3)] }, 0, 3, _, rfl⟩,
   ⟨{ up with pReads := [rd (some 3)] }, 0, 3, _, rfl⟩,
   ⟨{ up with heldReads := [(0, rq .read)] }, _, by decide, rfl, by decide, by decide, by decide⟩,
   ⟨{ up with heldReads := [(0, rq .read)], locks := [{ gran := (granKey (rq .read)).1, hfn := (granKey (rq .read)).2, expl := some 5, hostRun := 0 }] },
      _, by decide, rfl, by decide, by decide⟩,
   ⟨{ up with heldReads := [(0, rq (.atomic .swap))] }, _, by decide, rfl, by decide⟩,
   ⟨{ up with cplHeld := [{ port := 0, ord := 0, req := rq .read, pkt := .hello 0 true true true true true 0 0, units := 0 }] },
      _, rfl, by intro a b c d e f h; cases h⟩,
   ⟨{ up with cplHeld := [{ port := 0, ord := 0, req := rq .read, pkt := .response 1 0 0 true [7] none 0, units := 0 }] },
      _, 1, 0, 0, [7], rfl, rfl⟩⟩

theorem witness_BasketComplete :
    (∃ (s : State) (p : Port) (tag : Nat) (r : _) (emul : _) (k : _), s.mode = .LEAD ∧
      s.pReads.find? (fun r => r.port == p.val && r.tag.isNone && !s.lockHolds r.req) = some r ∧
      s.fld .ULK_STS_STATE p ≠ 0 ∧ s.rdPkt r tag = (emul, k) ∧ s.tagFree p tag = true ∧ s.canIssue p k = true ∧
      s.respUsed p + r.req.len + r.req.ext ≤ 65536) ∧
    (∃ (s : State) (tag : Nat) (b : _), s.bTags.find? (fun b => b.tag == tag) = some b ∧ b.st = .issued) ∧
    (∃ (s : State) (gran : Nat) (hfn : Nat) (r : _), s.lockWait.filter (fun r => granKey r == (gran,
      hfn) && r.kind != .read && r.kind != .write) = [r] ∧ s.lockedFor r = false ∧ s.lockBehind r = false ∧
      s.locks.length < 1024) ∧
    (∃ (s : State) (p : Port) (gran : Nat) (hfn : Nat),
      s.locks.any (fun l => l.gran == gran && l.hfn == hfn && l.expl == some p.val) = true) :=
  ⟨⟨credit { up with pReads := [rd none] }, 0, 0, _, _, _, by decide, rfl, by decide, rfl, by decide, by decide, by decide⟩,
   ⟨{ up with bTags := [btag] }, 7, _, rfl, by decide⟩,
   ⟨{ up with lockWait := [rq .lock] }, 0x4000000000, 0, _, rfl, by decide, by decide, by decide⟩,
   ⟨{ up with locks := [{ gran := 64, hfn := 0, expl := some 0, hostRun := 0 }] }, 0, 64, 0, by decide⟩⟩

theorem witness_LaneTrainComplete :
    (∃ (s : State) (l : Link), s.linkOn l = true) ∧
    (∃ (s : State) (idx : Lane) (word : Nat) (b : TrainBlk) (rx : LaneRx), s.linkOn (linkOf idx) = true ∧
      s.lane idx ≠ lnOFF ∧ laneCtl word = .train b ∧ rxLocked rx = true) ∧
    (∃ (s : State) (idx : Lane) (word : Nat), s.linkOn (linkOf idx) = true ∧ s.lane idx ≠ lnOFF ∧ laneCtl word = .bad) ∧
    (∃ (s : State) (idx : Lane), s.lane idx = lnEQUALISE) ∧
    (∃ (s : State) (l : Link), s.linkOn l = true ∧ s.fld .LANE_LINK_STS_STATE l = 1 ∧ (s.lk l).target = 0 ∧
      s.darnMin l ≤ (s.lanesIn l lnREADY).length) ∧
    (∃ (s : State) (l : Link), s.linkOn l = true ∧ s.fld .LANE_LINK_STS_STATE l = 1 ∧ s.lanesIn l lnDETECT ≠ [] ∧
      (∀ i ∈ lanesOf l, s.lane i = lnDETECT)) ∧
    (∃ (s : State) (l : Link), s.linkOn l = true ∧ s.fld .LANE_LINK_STS_STATE l = 1 ∧ s.lanesIn l lnDETECT ≠ [] ∧
      (∃ i ∈ lanesOf l, s.lane i ≠ lnDETECT)) ∧
    (∃ (s : State) (l : Link), s.linkOn l = true ∧ (s.lk l).failed = true) ∧
    (∃ (s : State) (l : Link), s.linkOn l = true ∧ s.fld .LANE_LINK_STS_STATE l = 1 ∧ (∀ i ∈ lanesOf l,
      s.flag .LANE_STS_SIG i = false)) ∧
    (∃ (s : State) (idx : Lane), s.linkOn (linkOf idx) = true ∧ s.fld .LANE_LINK_STS_STATE (linkOf idx) ≠ 1) ∧
    (∃ (s : State) (idx : Lane) (a b c : LaneLoss), s.linkOn (linkOf idx) = true ∧ s.lane idx = lnACTIVE ∧
      100 ≤ a.dark ∧ 16 ≤ b.headerErrs ∧ 300 < c.ppm ∧ 100 ≤ c.ppmTime) ∧
    (∃ (s : State) (idx : Lane) (errs : Nat), s.linkOn (linkOf idx) = true ∧ s.lane idx = lnACTIVE ∧
      s.fld .LANE_CTL_ERR_THR idx ≠ 0 ∧ s.fld .LANE_CTL_ERR_THR idx ≤ errs) ∧
    (∃ (s : State) (idx : Lane), s.linkOn (linkOf idx) = true ∧ s.linkUp (linkOf idx) = true ∧
      (s.port (linkOf idx)).rxLp = 0 ∧ s.lane idx = lnDARNED ∧ s.mayTry idx = true) ∧
    (∃ (s t : State) (idx : Lane) (w : TrialWin), s.linkOn (linkOf idx) = true ∧ s.linkUp (linkOf idx) = true ∧
      (s.port (linkOf idx)).rxLp = 0 ∧ s.lane idx = lnTRIAL ∧ ((s.lk (linkOf idx)).adding &&& s.farBit idx) = 0 ∧
      s.winClean idx w = true ∧ s.fld .LANE_STS_CLEAN idx < 2 ∧ t = s.set .LANE_STS_CLEAN idx 2 ∧
      t.winClean idx w = true ∧ 2 ≤ t.fld .LANE_STS_CLEAN idx ∧ t.lane idx = lnTRIAL) :=
  ⟨⟨up, 0, by decide⟩,
   ⟨up, 0, 0x590000090003a0c0, { lane := 0, width := 4, rates := 7, linkId := 9 }, { }, by decide, by decide,
      by decide +kernel, by decide⟩,
   ⟨up, 0, 0xC0, by decide, by decide, by decide +kernel⟩,
   ⟨st [(.LANE_STS_STATE, 0, lnEQUALISE)], 0, by decide⟩,
   ⟨st ((.LANE_LINK_STS_STATE, 0, 1) :: (lanesOf 0).map fun i => (.LANE_STS_STATE, i, lnREADY)), 0, by decide,
      by decide, by decide, by decide⟩,
   ⟨st ((.LANE_LINK_STS_STATE, 0, 1) :: (lanesOf 0).map fun i => (.LANE_STS_STATE, i, lnDETECT)), 0, by decide,
      by decide, by decide, by decide⟩,
   ⟨st [(.LANE_LINK_STS_STATE, 0, 1), (.LANE_STS_STATE, 0, lnDETECT), (.LANE_STS_STATE, 1, lnREADY)], 0, by decide,
      by decide, by decide, by decide⟩,
   ⟨{ base with lanes := [(0, { failed := true })] }, 0, by decide, by decide⟩,
   ⟨st [(.LANE_LINK_STS_STATE, 0, 1)], 0, by decide, by decide, by decide⟩,
   ⟨up, 0, by decide, by decide⟩,
   ⟨up, 0, { dark := 100 }, { headerErrs := 16 }, { ppm := 301, ppmTime := 100 }, by decide, by decide, by decide,
      by decide, by decide, by decide⟩,
   ⟨st [(.LANE_CTL_ERR_THR, 0, 5)] up, 0, 5, by decide, by decide, by decide, by decide⟩,
   ⟨st [(.LANE_STS_STATE, 0, lnDARNED), (.LANE_CTL_TRIAL_EN, 0, 1)] up, 0, by decide, by decide, by decide, by decide,
      by decide⟩,
   ⟨st [(.LANE_STS_STATE, 0, lnTRIAL), (.LANE_CTL_TRIAL_EN, 0, 1)] up, _, 0, { }, by decide, by decide, by decide,
      by decide, by decide, by decide, by decide, rfl, by decide, by decide, by decide⟩⟩

theorem witness_LaneMarkerComplete :
    (∃ (s : State) (l : Link) (idx : Lane) (word : Nat) (b : MarkBlk) (skew : Nat), s.linkOn l = true ∧
      s.linkUp l = true ∧ linkOf idx = l.val ∧ s.lane idx ≠ lnOFF ∧ laneCtl word = .marker b ∧ skew ≤ skewLimit l ∧
      skewLimit l < skew + 1) ∧
    (∃ (s : State) (l : Link) (idx : Lane) (word : Nat), s.linkOn l = true ∧ s.linkUp l = true ∧ linkOf idx = l.val ∧
      s.lane idx ≠ lnOFF ∧ laneCtl word = .bad ∧ (s.count .LANE_ERR_CNT_MARKER_ERR idx).linkUp l = true) ∧
    (∃ (s : State) (l : Link) (arg add rxok tx : Nat), s.linkOn l = true ∧ s.linkUp l = true ∧
      s.stripeWanted l arg add rxok = some tx ∧
      s.fld .LANE_LINK_STS_TX_ACTIVE l - (s.fld .LANE_LINK_STS_TX_ACTIVE l &&& arg) ≠ 0 ∧ arg ≠ 0) ∧
    (∃ (s : State) (l : Link) (arg rxok : Nat), s.linkOn l = true ∧ s.linkUp l = true ∧
      (arg &&& rxok) % 2 ^ linkWidth l ≠ 0) ∧
    (∃ (s : State) (l : Link), s.linkOn l = true ∧ s.linkUp l = true ∧ s.flag .LANE_LINK_CTL_DOZE_EN l = true ∧
      (s.port l).rxLp = 0) ∧
    (∃ (s : State) (l : Link), s.linkOn l = true ∧ s.linkUp l = true ∧ s.deepOk l = true ∧ (s.port l).rxLp = 0) ∧
    (∃ (s : State) (l : Link), s.linkOn l = true ∧ s.linkUp l = true ∧ (s.lk l).darning ≠ 0) ∧
    (∃ (s : State) (l : Link), s.linkOn l = true ∧ s.linkUp l = true ∧ s.mayIdle l = true ∧ (s.port l).txLp = 0 ∧
      s.flag .LANE_LINK_CTL_DOZE_EN l = true ∧ (l.val ≠ 16 ∧ s.flag .ULK_FAR_DOZE_OK l = true ∧
      s.fld .ULK_PM_CFG_DOZE_IDLE l ≠ 0)) ∧
    (∃ (s : State) (l : Link), s.linkOn l = true ∧ s.linkUp l = true ∧ s.mayIdle l = true ∧ (s.port l).txLp ≠ 2 ∧
      s.deepOk l = true ∧ (l.val ≠ 16 ∧ s.flag .ULK_FAR_DEEP_OK l = true ∧ s.fld .ULK_PM_CFG_DEEP_IDLE l ≠ 0)) ∧
    (∃ (s : State) (l : Link), s.linkOn l = true ∧ s.linkUp l = true ∧ s.portWork l = true) :=
  ⟨⟨up, 0, 0, 0xef000000007878c1, { lane := 0, active := 15, rxok := 15, cmd := 0 }, skewLimit 0, by decide, by decide,
      by decide, by decide, by decide +kernel, by decide, by decide⟩,
   ⟨up, 0, 0, 0xC5, by decide, by decide, by decide, by decide, by decide +kernel, by decide⟩,
   ⟨st [(.LANE_LINK_STS_TX_ACTIVE, 0, 3)] up, 0, 1, 0, 0, _, by decide, by decide, rfl, by decide, by decide⟩,
   ⟨up, 0, 1, 1, by decide, by decide, by decide⟩,
   ⟨up, 0, by decide, by decide, by decide, by decide⟩,
   ⟨up, 0, by decide, by decide, by decide, by decide⟩,
   ⟨{ up with lanes := [(0, { darning := 1 })] }, 0, by decide, by decide, by decide⟩,
   ⟨up, 0, by decide, by decide, by decide, by decide, by decide, by decide⟩,
   ⟨up, 0, by decide, by decide, by decide, by decide, by decide, by decide⟩,
   ⟨up.setPort 0 { up.port 0 with txq := [.flow 0 0 0] }, 0, by decide, by decide, by decide⟩⟩

theorem witness_UroneLinkComplete :
    (∃ (s : State) (l : Link) (data : List Nat) (ctl : Nat), s.streamOpen l = true ∧ bundleGood data ctl = false) ∧
    (∃ (s t : State) (l : Link) (data : List Nat) (ctl : Nat), s.streamOpen l = true ∧ bundleGood data ctl = true ∧
      t = s.ackRx l (fieldAt ctl 31 20) (ctl % 256 == ctBUNDLE_NAK) ∧ t.urRuns l = true ∧
      fieldAt ctl 19 8 = (t.port l).e) ∧
    (∃ (s : State) (l : Link) (word : Nat), s.streamOpen l = true ∧ ctlGood word [] = true ∧
      (word % 256 = ctACK_ONLY ∨ word % 256 = ctNAK_ONLY)) ∧
    (∃ (s : State) (l : Link), s.urRuns l = true ∧ s.mode ≠ .CONTAIN) ∧
    (∃ (s t : State) (l : Link), s.urRuns l = true ∧ s.rxGives l (.flow 0 5 9) = some t) ∧
    (∃ (s t : State) (p : Port), s.urRuns p = true ∧ s.rxGives p (.hello 0x10 true true false true true 0 0) = some t ∧
      s.fld .ULK_STS_STATE p ≠ 2 ∧ 0x10 / 16 % 16 = 1) ∧
    (∃ (s : State) (p : Port), s.fld .ULK_STS_STATE p = 1) ∧
    (∃ (s : State) (p : Port), s.domOn (linkDom p) = true) :=
  ⟨⟨up, 0, [], 0, by decide, by decide⟩,
   ⟨up, _, 0, List.replicate 16 0, 0x2dc82eddfff00001, by decide, test_bundle_crc, rfl, by decide, by decide⟩,
   ⟨up, 0, 0xbc810daffff00003, by decide, by decide +kernel, by decide⟩,
   ⟨up, 0, by decide, by decide⟩,
   ⟨up, _, 0, by decide, rfl⟩,
   ⟨st [(.ULK_STS_STATE, 0, 1)] up, _, 0, by decide, rfl, by decide, by decide⟩,
   ⟨st [(.ULK_STS_STATE, 0, 1)], 0, by decide⟩,
   ⟨up, 0, by decide⟩⟩

theorem witness_UronePortComplete :
    (∃ (s t : State) (p : Port), s.urRuns p = true ∧ s.rxGives p (.response 3 0 0 true [7] none (s.tagBase p 3)) = some t) ∧
    (∃ (s : State) (p : Port), s.urUp p = true ∧ s.flag .ULK_SB_CFG_POLL_EN p = true ∧ (s.port p).txLp ≠ 2 ∧
      (s.port p).rxLp ≠ 2 ∧ (s.port p).pollOut = false) ∧
    (∃ (s : State) (p : Port), s.urUp p = true ∧ s.flag .ULK_SB_CFG_POLL_EN p = true ∧ (s.port p).txLp ≠ 2 ∧
      (s.port p).rxLp ≠ 2 ∧ (s.port p).pollOut = true) ∧
    (∃ (s t : State) (p : Port), s.urRuns p = true ∧ s.fld .ULK_STS_STATE p ≠ 1 ∧ (s.port p).held = [] ∧
      s.rxGives p (.sbState 3 true 5) = some t) ∧
    (∃ (s t : State) (p : Port), s.urRuns p = true ∧ s.fld .ULK_STS_STATE p ≠ 1 ∧ (s.port p).held = [] ∧
      s.rxGives p (.req 15 65535) = some t) ∧
    (∃ (s t : State) (p : Port), s.urRuns p = true ∧ s.fld .ULK_STS_STATE p ≠ 1 ∧ (s.port p).held = [] ∧
      s.rxGives p (.lateError 18 65535 5) = some t) ∧
    (∃ (s : State) (p : Port), s.urUp p = true ∧ (s.port p).sbDirty = true) ∧
    (∃ (s : State) (p : Port) (line : Fin 16), s.urUp p = true ∧ min 65535 (nGet (s.port p).served line) ≠ 0) :=
  ⟨⟨{ rxUp with pReads := [rd (some 3)] }, _, 0, by decide, rfl⟩,
   ⟨st [(.ULK_SB_CFG_POLL_EN, 0, 1)] up, 0, by decide, by decide, by decide, by decide, by decide⟩,
   ⟨st [(.ULK_SB_CFG_POLL_EN, 0, 1)] (up.setPort 0 { up.port 0 with pollOut := true }), 0, by decide, by decide,
      by decide, by decide, by decide⟩,
   ⟨rxUp, _, 0, by decide, by decide, by decide, rfl⟩,
   ⟨rxUp, _, 0, by decide, by decide, by decide, rfl⟩,
   ⟨rxUp, _, 0, by decide, by decide, by decide, rfl⟩,
   ⟨up.setPort 0 { up.port 0 with sbDirty := true }, 0, by decide, by decide⟩,
   ⟨up.setPort 0 { up.port 0 with served := [(3, 2)] }, 0, 3, by decide, by decide⟩⟩

theorem witness_DesignRequestComplete :
    (∃ (s : State) (p : Port) (tag : Fin 4096), s.urRuns p = true ∧ s.fld .ULK_STS_STATE p ≠ 1 ∧ s.mode = .LEAD ∧
      (s.port p).held = [] ∧ (s.port p).dreq.contains tag.val = false) ∧
    (∃ (t : State), spanOk 0xFFFFFFF000 4096 = true ∧ rxUp.rxGives 0 (.read 4095 4096 0xFFFFFFF000 true false) = some t) ∧
    (∃ (t : State), spanOk 63 2 = true ∧ rxUp.rxGives 0 (.write 4095 3 9 63 false true false [1, 2] (some 3)) = some t) ∧
    (∃ (t : State), urAtomOk 2 1 8 16 = true ∧
      rxUp.rxGives 0 (.atomic 4095 2 1 8 true false (List.replicate 16 1)) = some t) ∧
    (∃ (t : State), rxUp.rxGives 0 (.lock 4095 64 true false) = some t) ∧
    (∃ (t : State), rxUp.rxGives 0 (.unlock 4095 64 true false) = some t) :=
  ⟨⟨rxUp, 0, 4095, by decide, by decide, by decide, by decide, by decide⟩,
   ⟨_, by decide, rfl⟩,
   ⟨_, by decide, rfl⟩,
   ⟨_, by decide, rfl⟩,
   ⟨_, rfl⟩,
   ⟨_, rfl⟩⟩

theorem witness_DmaRegisterComplete :
    (∃ (s : State) (c : Chan), s.regOn .DMA_CH_CTL c = true) ∧
    (∃ (s : State) (c : Chan), s.regOn .DMA_CH_CTL c = true) ∧
    (∃ (s : State) (c : Chan), s.regOn .DMA_CH_CTL c = true) ∧
    (∃ (s : State) (c : Chan), s.regOn .DMA_CH_CTL c = true) ∧
    (∃ (s : State) (c : Chan), s.regOn .DMA_CH_CFG c = true) ∧
    (∃ (s : State) (pf : Fin 3) (j : Fin 64), s.regOn .DMA_GRANT (64 * pf.val + j.val) = true) ∧
    (∃ (s : State) (x : Ctx), s.regOn .DMA_RING_CTL x = true) ∧
    (∃ (s : State) (x : Ctx), s.regOn .DMA_RING_CTL x = true ∧ (s.ringOf x).running = []) ∧
    (∃ (s : State) (f : Fn) (k : Fin 1024), f.val ≠ 0 ∧ (f.val < 4 ∨ k.val < 8) ∧ s.hctlOn = true ∧ s.linkOpen = true) :=
  ⟨⟨up, 0, by decide⟩,
   ⟨up, 0, by decide⟩,
   ⟨up, 0, by decide⟩,
   ⟨up, 0, by decide⟩,
   ⟨up, 0, by decide⟩,
   ⟨up, 0, 0, by decide⟩,
   ⟨up, 0, by decide⟩,
   ⟨up, 0, by decide, by decide⟩,
   ⟨up, 1, 0, by decide, by decide, by decide, by decide⟩⟩

theorem witness_DmaEngineComplete :
    (∃ (s : State) (x : Ctx) (e : _),
      (s.dropRecDone (256 + x.val)).dmaDone.find? (fun e => e.ch == 256 + x.val && true) = some e) ∧
    (∃ (s : State), s.ho = .none) ∧
    (∃ (s : State) (line : Fin 256) (e : _), s.domOn 15 = true ∧
      s.chans.filter (fun e => s.chState e.1 == chWAIT && dLine e.2.words == line.val) = [e]) ∧
    (∃ (s : State) (c : Chan) (e : _),
      (s.dropRecDone c).dmaDone.find? (fun e => e.ch == c.val && decide (tagKind e.tag < 2)) = some e) ∧
    (∃ (s : State) (c : Chan) (e : _),
      (s.dropRecDone c).dmaDone.find? (fun e => e.ch == c.val && tagKind e.tag == 2) = some e) ∧
    (∃ (s : State) (c : Chan) (r : _), s.chan c = some r ∧ r.stop ≠ .hard) ∧
    (∃ (s : State) (c : Chan) (r : _), s.chan c = some r ∧ r.stop = .hard) :=
  ⟨⟨{ base with dmaDone := [dn 256 0] }, 0, _, rfl⟩,
   ⟨base, by decide⟩,
   ⟨st [(.DMA_CH_STS_STATE, 0, chWAIT)] { base with chans := [(0, run .run)] }, 0, _, by decide, rfl⟩,
   ⟨{ base with dmaDone := [dn 0 1] }, 0, _, rfl⟩,
   ⟨{ base with dmaDone := [dn 0 2] }, 0, _, rfl⟩,
   ⟨{ base with chans := [(0, run .run)] }, 0, _, rfl, by decide⟩,
   ⟨{ base with chans := [(0, run .hard)] }, 0, _, rfl, by decide⟩⟩

theorem witness_InterruptComplete :
    (∃ (s : State), s.regOn .IRQ_DOORBELL 0 = true) ∧
    (∃ (s : State), s.domOn 1 = true) ∧
    (∃ (s : State) (idx : Src), s.domOn 1 = true ∧ 0x2800 ≤ idx.val) ∧
    (∃ (s : State) (n : Fin 512), s.regOn .IRQ_PEND_SET n = true) ∧
    (∃ (s : State) (n : Fin 512), s.regOn .IRQ_PEND_CLR n = true) ∧
    (∃ (s : State) (n : Fin 512), s.regOn .IRQ_EN_SET n = true) ∧
    (∃ (s : State) (n : Fin 512), s.regOn .IRQ_EN_CLR n = true) ∧
    (∃ (s : State) (n : Fin 512), s.regOn .IRQ_STORM n = true) ∧
    (∃ (s : State) (idx : Src), s.regOn .IRQ_ROUTE idx = true) ∧
    (∃ (s : State) (c : Core), s.regOn .IRQ_CORE_COMPLETE c = true) ∧
    (∃ (s : State) (c : Core), s.regOn .IRQ_CORE_CTL c = true) ∧
    (∃ (s : State) (f : Fn) (e : Fin 2048) (i : _) (t : _), s.msixSrcs f e = i :: t) ∧
    (∃ (s : State) (idx : Src) (t : _), s.presented idx = some t ∧ t.kind = 4 ∧ s.localFirst t = some idx.val) ∧
    (∃ (s : State), s.domOn 1 = true) :=
  ⟨⟨up, by decide⟩,
   ⟨up, by decide⟩,
   ⟨base, 0x2800, by decide, by decide⟩,
   ⟨up, 0, by decide⟩,
   ⟨up, 0, by decide⟩,
   ⟨up, 0, by decide⟩,
   ⟨up, 0, by decide⟩,
   ⟨up, 0, by decide⟩,
   ⟨up, 0, by decide⟩,
   ⟨up, 0, by decide⟩,
   ⟨up, 0, by decide⟩,
   ⟨((((st [(.IRQ_ROUTE_KIND, 0x2800, 1), (.IRQ_LT_VALID, 0, 1), (.FN_STS_STATE, 0,
      fnACTIVE)] { up with cfg := [(4, 4), (0x53, 0x80)], msix := [(12, 0)] }).setPend 0x2800 true).setBit (enBase + 0x2800 / 8) 0 true).st (prioBase + 0x2800) 1),
      0, 0, 0x2800, [], by decide⟩,
   ⟨((((st [(.IRQ_ROUTE_KIND, 0x2800, 4), (.IRQ_LT_VALID, 0, 1), (.FN_STS_STATE, 0,
      fnACTIVE)] { up with cfg := [(4, 4), (0x53, 0x80)] }).setPend 0x2800 true).setBit (enBase + 0x2800 / 8) 0 true).st (prioBase + 0x2800) 1),
      0x2800, _, rfl, by decide, by decide⟩,
   ⟨up, by decide⟩⟩

theorem witness_GovernorComplete :
    (∃ (s : State), s.domOn 1 = true) ∧
    (∃ (s : State), s.domOn 1 = true) ∧
    (∃ (s : State), s.domOn 1 = true) ∧
    (∃ (s : State), s.regOn .SHR_UPD_CMD 0 = true ∧ s.flag .SHR_UPD_STS_BUSY = false) ∧
    (∃ (s : State), s.domOn 1 = true) ∧
    (∃ (s : State) (x : Ctx), s.regOn .SHR_CTX_BIND x = true) ∧
    (∃ (s : State) (f : Fn) (r : _), s.spill.find? (fun r => r.fn == f.val) = some r ∧ s.inboundUse f = 0) :=
  ⟨⟨up, by decide⟩,
   ⟨up, by decide⟩,
   ⟨up, by decide⟩,
   ⟨up, by decide, by decide⟩,
   ⟨up, by decide⟩,
   ⟨up, 0, by decide⟩,
   ⟨{ up with spill := [rq .read] }, 0, _, rfl, by decide⟩⟩

theorem witness_GuardDebugComplete :
    (∃ (s : State), s.regOn .GRD_UPD_CMD 0 = true ∧ s.flag .GRD_UPD_STS_BUSY = false) ∧
    (∃ (s : State), s.domOn 14 = true ∧ s.regOn .GRD_EPOCH 0 = true) ∧
    (∃ (s : State), s.domOn 0 = true ∧ s.mode ≠ .OFF ∧ s.fld .SEC_LIFECYCLE_STATE ≠ lcPRODUCTION ∧
      s.regOn .DBG_CTL 0 = true) :=
  ⟨⟨up, by decide, by decide⟩,
   ⟨up, by decide, by decide⟩,
   ⟨base, by decide, by decide, by decide, by decide⟩⟩

theorem witness_SpdmComplete :
    (∃ (s : State) (index : Nat), s.fwReady = true ∧ s.spdmFull = true ∧ s.sc.spdmStage = 3 ∧ index < 3) ∧
    (∃ (s : State), s.fwReady = true ∧ s.spdmFull = true ∧ s.sc.spdmStage = 3) ∧
    (∃ (s : State) (slot : Nat), s.fwReady = true ∧ s.spdmFull = true ∧ s.sc.spdmStage = 3 ∧ slot < 2) ∧
    (∃ (s : State) (slot : Nat), s.fwReady = true ∧ s.spdmFull = true ∧ s.sc.spdmStage = 3 ∧ slot < 2) ∧
    (∃ (s : State) (slot : Nat), s.fwReady = true ∧ s.spdmFull = true ∧ s.sc.spdmStage = 3 ∧ slot < 2 ∧
      s.sc.sessions.length < 4) :=
  ⟨⟨st [(.SEC_LIFECYCLE_STATE, 0,
      1)] { up with sc := { up.sc with spdmStage := 3, sessions := [{ id := 5, open_ := true }] } }, 2, by decide,
      by decide, by decide, by decide⟩,
   ⟨st [(.SEC_LIFECYCLE_STATE, 0,
      1)] { up with sc := { up.sc with spdmStage := 3, sessions := [{ id := 5, open_ := true }] } }, by decide,
      by decide, by decide⟩,
   ⟨st [(.SEC_LIFECYCLE_STATE, 0,
      1)] { up with sc := { up.sc with spdmStage := 3, sessions := [{ id := 5, open_ := true }] } }, 1, by decide,
      by decide, by decide, by decide⟩,
   ⟨st [(.SEC_LIFECYCLE_STATE, 0,
      1)] { up with sc := { up.sc with spdmStage := 3, sessions := [{ id := 5, open_ := true }] } }, 1, by decide,
      by decide, by decide, by decide⟩,
   ⟨st [(.SEC_LIFECYCLE_STATE, 0,
      1)] { up with sc := { up.sc with spdmStage := 3, sessions := [{ id := 5, open_ := true }] } }, 1, by decide,
      by decide, by decide, by decide, by decide⟩⟩

theorem witness_SpdmComplete_session :
    (∃ (s : State) (id : Nat) (e : SpdmSession), s.fwReady = true ∧ s.session id = some e ∧ e.open_ = true) ∧
    (∃ (s : State) (id : Nat) (e : SpdmSession) (op : Nat), s.fwReady = true ∧ s.session id = some e ∧ e.open_ = true ∧
      (op = 1 ∨ op = 2)) ∧
    (∃ (s : State) (id : Nat) (e : SpdmSession) (stream : Nat) (kset : Nat) (dir : Nat) (sub : Nat), s.fwReady = true ∧
      s.session id = some e ∧ e.open_ = true ∧ ideValid stream kset dir sub = true ∧
      nGet s.sc.ideGo (ideSub stream dir sub) ≠ kset + 1) ∧
    (∃ (s : State) (id : Nat) (e : SpdmSession) (stream : Nat) (kset : Nat) (dir : Nat) (sub : Nat), s.fwReady = true ∧
      s.session id = some e ∧ e.open_ = true ∧ ideValid stream kset dir sub = true ∧
      nGet s.sc.ideKeys (ideKey stream kset dir sub) ≠ 0) ∧
    (∃ (s : State) (id : Nat) (e : SpdmSession) (stream : Nat) (kset : Nat) (dir : Nat) (sub : Nat), s.fwReady = true ∧
      s.session id = some e ∧ e.open_ = true ∧ ideValid stream kset dir sub = true ∧
      nGet s.sc.ideGo (ideSub stream dir sub) = kset + 1) :=
  ⟨⟨st [(.SEC_LIFECYCLE_STATE, 0,
      1)] { up with sc := { up.sc with spdmStage := 3, sessions := [{ id := 5, open_ := true }] } }, 5, _, by decide,
      rfl, by decide⟩,
   ⟨st [(.SEC_LIFECYCLE_STATE, 0,
      1)] { up with sc := { up.sc with spdmStage := 3, sessions := [{ id := 5, open_ := true }] } }, 5, _, 2, by decide,
      rfl, by decide, by decide⟩,
   ⟨st [(.SEC_LIFECYCLE_STATE, 0,
      1)] { up with sc := { up.sc with spdmStage := 3, sessions := [{ id := 5, open_ := true }] } }, 5, _, 8, 1, 1, 2,
      by decide, rfl, by decide, by decide, by decide⟩,
   ⟨st [(.SEC_LIFECYCLE_STATE, 0,
      1)] { up with sc := { up.sc with spdmStage := 3, sessions := [{ id := 5, open_ := true }], ideKeys := [(ideKey 8 1 1 2, 1)] } },
      5, _, 8, 1, 1, 2, by decide, rfl, by decide, by decide, by decide⟩,
   ⟨st [(.SEC_LIFECYCLE_STATE, 0,
      1)] { up with sc := { up.sc with spdmStage := 3, sessions := [{ id := 5, open_ := true }], ideGo := [(ideSub 8 1 2, 2)] } },
      5, _, 8, 1, 1, 2, by decide, rfl, by decide, by decide, by decide⟩⟩

theorem witness_TdispComplete :
    (∃ (s : State) (id : Nat) (e : SpdmSession) (f : Fn), s.fwReady = true ∧ s.session id = some e ∧ e.open_ = true ∧
      f.val ≠ 0 ∧ s.fnState f ≠ fnDISABLED) ∧
    (∃ (s : State) (id : Nat) (e : SpdmSession) (f : Fn) (stream : Nat), s.fwReady = true ∧ s.session id = some e ∧
      e.open_ = true ∧ f.val ≠ 0 ∧ s.fnState f ≠ fnDISABLED ∧ s.fld .SEC_TDI_STATE f = tdiUNLOCKED ∧ stream ≠ 0 ∧
      stream ≤ 8 ∧ s.fld .SEC_IDE_STS_STATE stream = 2 ∧ s.fnState f = fnACTIVE) ∧
    (∃ (s : State) (id : Nat) (e : SpdmSession) (f : Fn), s.fwReady = true ∧ s.session id = some e ∧ e.open_ = true ∧
      f.val ≠ 0 ∧ s.fnState f ≠ fnDISABLED ∧ s.tdiHeld f = true) ∧
    (∃ (s : State) (id : Nat) (e : SpdmSession) (f : Fn) (nonce : Nat), s.fwReady = true ∧ s.session id = some e ∧
      e.open_ = true ∧ f.val ≠ 0 ∧ s.fnState f ≠ fnDISABLED ∧ s.fld .SEC_TDI_STATE f = tdiLOCKED ∧
      (s.sc.tdiNonce.any fun e => e.1 == f.val && e.2 == nonce) = true) ∧
    (∃ (s : State) (id : Nat) (e : SpdmSession) (f : Fn), s.fwReady = true ∧ s.session id = some e ∧ e.open_ = true ∧
      f.val ≠ 0 ∧ s.fnState f ≠ fnDISABLED ∧ s.fld .SEC_TDI_STATE f ≠ tdiERROR) :=
  ⟨⟨st [(.SEC_LIFECYCLE_STATE, 0, 1), (.FN_STS_STATE, 1, fnACTIVE), (.SEC_IDE_STS_STATE, 8, 2), (.SEC_TDI_STATE, 1,
      tdiUNLOCKED)] { up with sc := { up.sc with spdmStage := 3, sessions := [{ id := 5, open_ := true }] } }, 5, _, 1,
      by decide, rfl, by decide, by decide, by decide⟩,
   ⟨st [(.SEC_LIFECYCLE_STATE, 0, 1), (.FN_STS_STATE, 1, fnACTIVE), (.SEC_IDE_STS_STATE, 8, 2), (.SEC_TDI_STATE, 1,
      tdiUNLOCKED)] { up with sc := { up.sc with spdmStage := 3, sessions := [{ id := 5, open_ := true }] } }, 5, _, 1,
      8, by decide, rfl, by decide, by decide, by decide, by decide, by decide, by decide, by decide, by decide⟩,
   ⟨st [(.SEC_LIFECYCLE_STATE, 0, 1), (.FN_STS_STATE, 1, fnACTIVE), (.SEC_IDE_STS_STATE, 8, 2), (.SEC_TDI_STATE, 1,
      tdiLOCKED)] { up with sc := { up.sc with spdmStage := 3, sessions := [{ id := 5, open_ := true }] } }, 5, _, 1,
      by decide, rfl, by decide, by decide, by decide, by decide⟩,
   ⟨st [(.SEC_LIFECYCLE_STATE, 0, 1), (.FN_STS_STATE, 1, fnACTIVE), (.SEC_IDE_STS_STATE, 8, 2), (.SEC_TDI_STATE, 1,
      tdiLOCKED)] { up with sc := { up.sc with spdmStage := 3, sessions := [{ id := 5, open_ := true }], tdiNonce := [(1, 9)] } },
      5, _, 1, 9, by decide, rfl, by decide, by decide, by decide, by decide, by decide⟩,
   ⟨st [(.SEC_LIFECYCLE_STATE, 0, 1), (.FN_STS_STATE, 1, fnACTIVE), (.SEC_IDE_STS_STATE, 8, 2), (.SEC_TDI_STATE, 1,
      tdiLOCKED)] { up with sc := { up.sc with spdmStage := 3, sessions := [{ id := 5, open_ := true }] } }, 5, _, 1,
      by decide, rfl, by decide, by decide, by decide, by decide⟩⟩

theorem witness_PairComplete :
    (∃ (s t : State), s.urUp 16 = true ∧ s.rxGives 16 (.seam (.hello 0x10 0x10 3 true 7 9)) = some t) ∧
    (∃ (s t : State), s.urUp 16 = true ∧ s.rxGives 16 (.seam (.heartbeat 1 true false 2 5)) = some t) ∧
    (∃ (s t : State), s.urUp 16 = true ∧ s.rxGives 16 (.seam (.mirror 1 5 0 [7])) = some t) ∧
    (∃ (s t : State), s.urUp 16 = true ∧ s.rxGives 16 (.seam (.mirrorAck 5)) = some t) ∧
    (∃ (s t : State), s.urUp 16 = true ∧ s.rxGives 16 (.seam (.handover 1 5)) = some t) ∧
    (∃ (s t : State), s.urUp 16 = true ∧ s.rxGives 16 (.seam (.pairCtl 2)) = some t) :=
  ⟨⟨up, _, by decide, rfl⟩,
   ⟨up, _, by decide, rfl⟩,
   ⟨up, _, by decide, rfl⟩,
   ⟨up, _, by decide, rfl⟩,
   ⟨up, _, by decide, rfl⟩,
   ⟨up, _, by decide, rfl⟩⟩

theorem witness_PairComplete_lines :
    (∃ (s : State), (s.mode = .LEAD ∨ s.mode = .FOLLOW ∨ s.mode = .CONTAIN)) ∧
    (∃ (s : State), s.mode ≠ .OFF) ∧
    (∃ (s : State), s.mode ≠ .OFF) ∧
    (∃ (s : State), s.mode = .LEAD ∧ s.flag .PWR_WAKE_EN_TWIN = false) ∧
    (∃ (s : State), s.regOn .SEM_CTL 0 = true) ∧
    (∃ (s : State), s.regOn .SEM_CTL 0 = true) ∧
    (∃ (s : State), s.regOn .SEM_CTL 0 = true) ∧
    (∃ (s : State), s.ho = .drain ∧ s.mode = .LEAD ∧ s.hoDrained = true) ∧
    (∃ (s : State), s.ho = .drain) :=
  ⟨⟨up, by decide⟩,
   ⟨up, by decide⟩,
   ⟨up, by decide⟩,
   ⟨st [(.PWR_WAKE_EN_TWIN, 0, 0)], by decide, by decide⟩,
   ⟨up, by decide⟩,
   ⟨up, by decide⟩,
   ⟨up, by decide⟩,
   ⟨{ up with ho := .drain }, by decide, by decide, by decide⟩,
   ⟨{ up with ho := .drain }, by decide⟩⟩

theorem witness_MailboxUnitComplete :
    (∃ (s : State) (m : Fin 2109), s.domOn 1 = true ∧ m.val ≠ 0 ∧ (s.mbxState m = 0 ∨ s.mbxState m = 3) ∧
      s.flag .MBX_CFG_EN = true) ∧
    (∃ (s : State) (m : Fin 2109), s.domOn 1 = true ∧ m.val ≠ 0 ∧ s.mbxState m = 3) ∧
    (∃ (s : State) (m : Fin 2109), s.domOn 1 = true ∧ m.val ≠ 0 ∧ s.mbxState m = 2) ∧
    (∃ (s : State), s.domOn 1 = true) ∧
    (∃ (s : State) (m : Fin 2109), s.domOn 1 = true ∧ s.mbxState m = 2 ∧ cmdOpcodes.contains (s.mbxOp m) = true) :=
  ⟨⟨up, 1, by decide, by decide, by decide, by decide⟩,
   ⟨st [(.MBX_MB_CONTROL, 1, 3)] up, 1, by decide, by decide, by decide⟩,
   ⟨st [(.MBX_MB_CONTROL, 1, 2)] up, 1, by decide, by decide, by decide⟩,
   ⟨up, by decide⟩,
   ⟨cmd 0 1 [], 0, by decide, by decide, by decide⟩⟩

theorem witness_GeneralCommandComplete :
    (∃ (s : State) (m : Fin 2109) (c : Cmd) (tx : Nat), c = s.cmdAt m ∧ tx = s.fld .SEM_MSEQ_TX ∧
      s.begins m { op := 0x0001, who := whoAll, hi := 4032 }) ∧
    (∃ (s : State) (m : Fin 2109) (c : Cmd) (tx : Nat), c = s.cmdAt m ∧ tx = s.fld .SEM_MSEQ_TX ∧
      s.begins m { op := 0x0002, who := whoAll, free := true }) ∧
    (∃ (s : State) (m : Fin 2109) (c : Cmd) (tx : Nat), c = s.cmdAt m ∧ tx = s.fld .SEM_MSEQ_TX ∧
      s.begins m (CmdRule.len { op := 0x0101, who := whoFn, free := true } 2) ∧ c.n 0 2 = 0xFFFF ∧ c.who < 2052) ∧
    (∃ (s : State) (m : Fin 2109) (c : Cmd) (tx : Nat) (f : _) (a : _) (n : _), c = s.cmdAt m ∧
      tx = s.fld .SEM_MSEQ_TX ∧ s.begins m (CmdRule.len { op := 0x0102, mir := true } 6) ∧ c.n 0 2 = f ∧ c.n 2 2 = a ∧
      c.n 4 2 = n ∧ f < 2052 ∧ a + n ≤ 4096 ∧ s.resOverlap f a n = false ∧ n ≤ 8 ∧ s.fld .FN_RES_CTX_COUNT f = 0) ∧
    (∃ (s : State) (m : Fin 2109) (c : Cmd) (tx : Nat) (k : _) (f : _) (pasid : _), c = s.cmdAt m ∧
      tx = s.fld .SEM_MSEQ_TX ∧ s.begins m (CmdRule.len { op := 0x0103, mir := true } 8) ∧ c.n 0 1 = k ∧ c.n 2 2 = f ∧
      c.n 4 4 = pasid ∧ f ≠ 0 ∧ f < 2052 ∧ pasid < 1048576 ∧ s.listed .FN_SLICE_VALID = [] ∧
      s.flag .FN_SLICE_VALID k = false ∧ s.tdiHeld f = false) ∧
    (∃ (s : State) (m : Fin 2109) (c : Cmd) (tx : Nat) (k : _), c = s.cmdAt m ∧ tx = s.fld .SEM_MSEQ_TX ∧
      s.begins m (CmdRule.len { op := 0x0104, mir := true } 1) ∧ c.n 0 1 = k ∧
      s.tdiHeld (s.fld .FN_SLICE_FUNC k) = false) ∧
    (∃ (s : State) (m : Fin 2109) (c : Cmd) (tx : Nat) (f : _), c = s.cmdAt m ∧ tx = s.fld .SEM_MSEQ_TX ∧
      s.begins m (CmdRule.len { op := 0x0105, mir := true } 3) ∧ c.n 0 2 = f ∧ f < 2052 ∧ c.n 2 1 = 1) ∧
    (∃ (s : State) (m : Fin 2109) (c : Cmd) (tx : Nat), c = s.cmdAt m ∧ tx = s.fld .SEM_MSEQ_TX ∧
      s.begins m (CmdRule.len { op := 0x0106 } 6) ∧ vfTotalsOk (c.n 0 2) (c.n 2 2) (c.n 4 2) = true) :=
  ⟨⟨cmd 0 1 [1, 2], 0, _, _, rfl, rfl, by unfold State.begins; decide⟩,
   ⟨cmd 0 2 [], 0, _, _, rfl, rfl, by unfold State.begins; decide⟩,
   ⟨cmd 1 0x101 [0xFF, 0xFF], 1, _, _, rfl, rfl, by unfold State.begins; decide, by decide, by decide⟩,
   ⟨cmd 0 0x102 (toBytes 2 2051 ++ toBytes 2 4092 ++ toBytes 2 4), 0, _, _, 2051, 4092, 4, rfl, rfl,
      by unfold State.begins; decide, by decide, by decide, by decide, by decide, by decide, by decide, by decide,
      by decide⟩,
   ⟨cmd 0 0x103 (toBytes 1 255 ++ [0] ++ toBytes 2 2051 ++ toBytes 4 1048575), 0, _, _, 255, 2051, 1048575, rfl, rfl,
      by unfold State.begins; decide, rfl, by decide, by decide, by decide, by decide, by decide, by decide, by decide,
      by decide⟩,
   ⟨cmd 0 0x104 [255], 0, _, _, 255, rfl, rfl, by unfold State.begins; decide, rfl, by decide⟩,
   ⟨cmd 0 0x105 (toBytes 2 2051 ++ [1]), 0, _, _, 2051, rfl, rfl, by unfold State.begins; decide, by decide, by decide,
      by decide⟩,
   ⟨cmd 0 0x106 (List.replicate 6 0), 0, _, _, rfl, rfl, by unfold State.begins; decide, by decide⟩⟩

theorem witness_ContextCommandComplete :
    (∃ (s : State) (m : Fin 2109) (c : Cmd) (tx : Nat) (x : Nat), c = s.cmdAt m ∧ tx = s.fld .SEM_MSEQ_TX ∧
      s.begins m (CmdRule.len { op := 0x0201, mir := true } 6) ∧ c.n 0 2 = x ∧ x < 4096 ∧ c.n 2 2 < 2052 ∧
      s.bindBad x true ((c.n 5 1).testBit 0) (c.n 4 1) (c.n 2 2) ((c.n 5 1).testBit 1) = false) ∧
    (∃ (s : State) (m : Fin 2109) (c : Cmd) (tx : Nat) (x : Nat), c = s.cmdAt m ∧ tx = s.fld .SEM_MSEQ_TX ∧
      s.begins m (CmdRule.len { op := 0x0202, mir := true } 2) ∧ c.n 0 2 = x ∧ x < 4096 ∧
      s.bindBad x false (s.flag .SHR_CTX_BIND_SLICE_EN x) (s.fld .SHR_CTX_BIND_SLICE x) (s.fld .SHR_CTX_BIND_FUNC x) (s.flag .SHR_CTX_BIND_CHARGE_IN x) = false) ∧
    (∃ (s : State) (m : Fin 2109) (c : Cmd) (tx : Nat) (x : Nat), c = s.cmdAt m ∧ tx = s.fld .SEM_MSEQ_TX ∧
      s.begins m (CmdRule.len { op := 0x0203, who := whoFn, mir := true } 24) ∧ s.cmdCtx c (c.n 0 2) = some x ∧
      s.flag .SHR_CTX_BIND_VALID x = true ∧ (c.cls < 2 ∨ s.fld .SHR_CTX_BIND_FUNC x = c.who) ∧ setupBad c = none ∧
      s.ctxRuns x = false) ∧
    (∃ (s : State) (m : Fin 2109) (c : Cmd) (tx : Nat) (x : Nat), c = s.cmdAt m ∧ tx = s.fld .SEM_MSEQ_TX ∧
      s.begins m (CmdRule.len { op := 0x0204, who := whoFn, free := true } 2) ∧ s.cmdCtx c (c.n 0 2) = some x) ∧
    (∃ (s : State) (m : Fin 2109) (c : Cmd) (tx : Nat) (x : Nat), c = s.cmdAt m ∧ tx = s.fld .SEM_MSEQ_TX ∧
      s.begins m (CmdRule.len { op := 0x0205, who := whoFn } 2) ∧ s.cmdCtx c (c.n 0 2) = some x ∧
      s.fld .DMA_SQ_STS_STATE x = 3) ∧
    (∃ (s : State) (m : Fin 2109) (c : Cmd) (tx : Nat) (x : Nat), c = s.cmdAt m ∧ tx = s.fld .SEM_MSEQ_TX ∧
      s.begins m (CmdRule.len { op := 0x0206, who := whoFn, mir := true } 2) ∧ s.cmdCtx c (c.n 0 2) = some x ∧
      s.ctxRuns x = false) :=
  ⟨⟨cmd 0 0x201 (toBytes 2 4095 ++ toBytes 2 2051 ++ [0, 0]), 0, _, _, 4095, rfl, rfl, by unfold State.begins; decide,
      rfl, by decide, by decide, by decide⟩,
   ⟨cmd 0 0x202 (toBytes 2 4095) (st [(.SHR_CTX_BIND_FUNC, 4095, 2)] up), 0, _, _, 4095, rfl, rfl,
      by unfold State.begins; decide, rfl, by decide, by decide⟩,
   ⟨cmd 0 0x203 (toBytes 2 4095 ++ [16, 4, 1, 2, 8] ++ List.replicate 17 0) (st [(.SHR_CTX_BIND_VALID, 4095, 1)] up), 0,
      _, _, 4095, rfl, rfl, by unfold State.begins; decide, rfl, by decide, by decide, by decide, by decide⟩,
   ⟨cmd 0 0x204 (toBytes 2 4095), 0, _, _, 4095, rfl, rfl, by unfold State.begins; decide, rfl⟩,
   ⟨cmd 0 0x205 (toBytes 2 4095) (st [(.DMA_SQ_STS_STATE, 4095, 3)] up), 0, _, _, 4095, rfl, rfl,
      by unfold State.begins; decide, rfl, by decide⟩,
   ⟨cmd 0 0x206 (toBytes 2 4095), 0, _, _, 4095, rfl, rfl, by unfold State.begins; decide, rfl, by decide⟩⟩

theorem witness_WindowCommandComplete :
    (∃ (s : State) (m : Fin 2109) (c : Cmd) (tx : Nat) (k : _) (t : _) (u : _), c = s.cmdAt m ∧
      tx = s.fld .SEM_MSEQ_TX ∧ k = CmdRule.len { op := 0x0301, mir := true } 40 ∧ s.begins m k ∧ c.n 0 4 < 524288 ∧
      s.flag .XLT_UPD_STS_BUSY = false ∧ s.winLoad c = t ∧ t.flag .XLT_UPD_STS_BUSY = true ∧
      t.xltCommit.xltInvalDone = u ∧ u.flag .XLT_UPD_STS_BUSY = false) ∧
    (∃ (s : State) (m : Fin 2109) (c : Cmd) (tx : Nat) (k : _), c = s.cmdAt m ∧ tx = s.fld .SEM_MSEQ_TX ∧
      k = CmdRule.len { op := 0x0302 } 4 ∧ s.begins m k ∧ c.n 0 4 < 524288) ∧
    (∃ (s : State) (m : Fin 2109) (c : Cmd) (tx : Nat) (k : _) (op : _) (t : _) (u : _), c = s.cmdAt m ∧
      tx = s.fld .SEM_MSEQ_TX ∧ k = CmdRule.len { op := 0x0303 } 5 ∧ s.begins m k ∧ c.n 0 4 < 524288 ∧ c.n 4 1 = op ∧
      1 ≤ op ∧ op ≤ 3 ∧ s.flag .XLT_UPD_STS_BUSY = false ∧ s.winCmd c (c.n 0 4) op = t ∧
      t.flag .XLT_UPD_STS_BUSY = true ∧ t.xltCommit.xltInvalDone = u ∧ u.flag .XLT_UPD_STS_BUSY = false) ∧
    (∃ (s : State) (m : Fin 2109) (c : Cmd) (tx : Nat) (k : _) (t : _), c = s.cmdAt m ∧ tx = s.fld .SEM_MSEQ_TX ∧
      k = CmdRule.len { op := 0x0304 } 1 ∧ s.begins m k ∧ c.n 0 1 = 0 ∧ s.cmdPut c .XLT_EPOCH 0 [(.XLT_EPOCH_ADVANCE,
      1)] = t ∧ drained t.xltLive (t.fld .XLT_EPOCH_CURRENT) (t.fld .XLT_EPOCH_CURRENT) = true) ∧
    (∃ (s : State) (m : Fin 2109) (c : Cmd) (tx : Nat) (k : _) (t : _) (u : _), c = s.cmdAt m ∧
      tx = s.fld .SEM_MSEQ_TX ∧ k = CmdRule.len { op := 0x0401, mir := true } 16 ∧ s.begins m k ∧ c.n 0 1 < 32 ∧
      c.n 1 1 < 32 ∧ s.flag .GRD_UPD_STS_BUSY = false ∧ s.grdLoad c = t ∧ t.flag .GRD_UPD_STS_BUSY = true ∧
      t.grdCommit = u ∧ u.flag .GRD_UPD_STS_BUSY = false) ∧
    (∃ (s : State) (m : Fin 2109) (c : Cmd) (tx : Nat) (k : _), c = s.cmdAt m ∧ tx = s.fld .SEM_MSEQ_TX ∧
      k = CmdRule.len { op := 0x0402 } 2 ∧ s.begins m k ∧ c.n 0 1 ≤ 18 ∧ c.n 1 1 < 32) :=
  ⟨⟨cmd 0 0x301 (toBytes 4 64 ++ List.replicate 36 0), 0, _, _, _, _, _, rfl, rfl, rfl, by unfold State.begins; decide,
      by decide, by decide, rfl, by decide, rfl, by decide⟩,
   ⟨cmd 0 0x302 (toBytes 4 524287), 0, _, _, _, rfl, rfl, rfl, by unfold State.begins; decide, by decide⟩,
   ⟨cmd 0 0x303 (toBytes 4 524287 ++ [3]), 0, _, _, _, 3, _, _, rfl, rfl, rfl, by unfold State.begins; decide,
      by decide, by decide, by decide, by decide, by decide, rfl, by decide, rfl, by decide⟩,
   ⟨cmd 0 0x304 [0], 0, _, _, _, _, rfl, rfl, rfl, by unfold State.begins; decide, by decide, rfl, by decide⟩,
   ⟨cmd 0 0x401 ([18, 31] ++ List.replicate 14 0), 0, _, _, _, _, _, rfl, rfl, rfl, by unfold State.begins; decide,
      by decide, by decide, by decide, rfl, by decide, rfl, by decide⟩,
   ⟨cmd 0 0x402 [18, 31], 0, _, _, _, rfl, rfl, rfl, by unfold State.begins; decide, by decide, by decide⟩⟩

theorem witness_ItemCommandComplete :
    (∃ (s : State) (m : Fin 2109) (c : Cmd) (tx : Nat) (k : _) (idx : _), c = s.cmdAt m ∧ tx = s.fld .SEM_MSEQ_TX ∧
      k = CmdRule.len { op := 0x0501, who := whoFn, mir := true } 16 ∧ s.begins m k ∧ c.n 0 2 = idx ∧
      s.srcMay c idx = true ∧ c.n 2 1 = 0xFF ∧ c.n 3 1 = 2 ∧ routeMay c (c.n 8 8) = true) ∧
    (∃ (s : State) (m : Fin 2109) (c : Cmd) (tx : Nat) (k : _) (idx : _), c = s.cmdAt m ∧ tx = s.fld .SEM_MSEQ_TX ∧
      k = CmdRule.len { op := 0x0502, who := whoFn } 2 ∧ s.begins m k ∧ c.n 0 2 = idx ∧ s.srcMay c idx = true) ∧
    (∃ (s : State) (m : Fin 2109) (c : Cmd) (tx : Nat) (k : _), c = s.cmdAt m ∧ tx = s.fld .SEM_MSEQ_TX ∧
      k = CmdRule.len { op := 0x0503, mir := true } 16 ∧ s.begins m k ∧ c.n 0 1 < 64) ∧
    (∃ (s : State) (m : Fin 2109) (c : Cmd) (tx : Nat) (k : _) (pf : _) (j : _) (ch : _), c = s.cmdAt m ∧
      tx = s.fld .SEM_MSEQ_TX ∧ k = CmdRule.len { op := 0x0601, mir := true } 5 ∧ s.begins m k ∧ c.n 0 1 = pf ∧ 1 ≤ pf ∧
      pf ≤ 3 ∧ c.n 1 1 = j ∧ j < 64 ∧ s.flag .DMA_GRANT_VALID (64 * (pf - 1) + j) = false ∧ c.n 2 1 = ch ∧ c.n 3 1 = 0 ∧
      s.chState ch = chIDLE) ∧
    (∃ (s : State) (m : Fin 2109) (c : Cmd) (tx : Nat) (k : _) (pf : _) (j : _) (ch : _), c = s.cmdAt m ∧
      tx = s.fld .SEM_MSEQ_TX ∧ k = CmdRule.len { op := 0x0602, mir := true } 2 ∧ s.begins m k ∧ c.n 0 1 = pf ∧ 1 ≤ pf ∧
      pf ≤ 3 ∧ c.n 1 1 = j ∧ j < 64 ∧ s.flag .DMA_GRANT_VALID (64 * (pf - 1) + j) = true ∧
      s.fld .DMA_GRANT_CHANNEL (64 * (pf - 1) + j) = ch ∧ s.chBusy ch = false ∧
      (s.cmdPut c .DMA_CH_CTL ch [(.DMA_CH_CTL_CLEAR, 1)]).chState ch = chIDLE) ∧
    (∃ (s : State) (m : Fin 2109) (c : Cmd) (tx : Nat) (k : _) (ch : _), c = s.cmdAt m ∧ tx = s.fld .SEM_MSEQ_TX ∧
      k = CmdRule.len { op := 0x0603, who := [0, 1, 2] } 1 ∧ s.begins m k ∧ c.cls < 2 ∧ c.n 0 1 = ch ∧
      s.chBusy ch = false) ∧
    (∃ (s : State) (m : Fin 2109) (c : Cmd) (tx : Nat) (k : _) (t : _) (u : _), c = s.cmdAt m ∧
      tx = s.fld .SEM_MSEQ_TX ∧ k = CmdRule.len { op := 0x0701, mir := true } 24 ∧ s.begins m k ∧ c.n 0 2 < 8192 ∧
      s.flag .SHR_UPD_STS_BUSY = false ∧ s.shareLoad c = t ∧ t.flag .SHR_UPD_STS_BUSY = true ∧ t.shrUpdDone = u ∧
      u.flag .SHR_UPD_STS_BUSY = false) ∧
    (∃ (s : State) (m : Fin 2109) (c : Cmd) (tx : Nat) (k : _) (a : _), c = s.cmdAt m ∧ tx = s.fld .SEM_MSEQ_TX ∧
      k = CmdRule.len { op := 0x0702, who := whoFn } 2 ∧ s.begins m k ∧ c.cls < 2 ∧ c.n 0 2 = a ∧ a < 4096) ∧
    (∃ (s : State) (m : Fin 2109) (c : Cmd) (tx : Nat) (k : _) (r : _), c = s.cmdAt m ∧ tx = s.fld .SEM_MSEQ_TX ∧
      k = CmdRule.len { op := 0x0703 } 1 ∧ s.begins m k ∧ c.n 0 1 = r ∧ r < resCount) :=
  ⟨⟨cmd 0 0x501 ([0, 0x28, 0xFF, 2] ++ List.replicate 12 0), 0, _, _, _, 0x2800, rfl, rfl, rfl,
      by unfold State.begins; decide, by decide, by decide, by decide, by decide, by decide⟩,
   ⟨cmd 0 0x502 [0, 0x28], 0, _, _, _, 0x2800, rfl, rfl, rfl, by unfold State.begins; decide, by decide, by decide⟩,
   ⟨cmd 0 0x503 (63 :: List.replicate 15 0), 0, _, _, _, rfl, rfl, rfl, by unfold State.begins; decide, by decide⟩,
   ⟨cmd 0 0x601 [3, 63, 255, 0, 0], 0, _, _, _, 3, 63, 255, rfl, rfl, rfl, by unfold State.begins; decide, by decide,
      by decide, by decide, by decide, by decide, by decide, by decide, by decide, by decide⟩,
   ⟨cmd 0 0x602 [3, 63] (st [(.DMA_GRANT_VALID, 191, 1), (.DMA_GRANT_CHANNEL, 191, 255)] up), 0, _, _, _, 3, 63, 255,
      rfl, rfl, rfl, by unfold State.begins; decide, by decide, by decide, by decide, by decide, by decide, by decide, by decide,
      by decide, by decide⟩,
   ⟨cmd 0 0x603 [255], 0, _, _, _, 255, rfl, rfl, rfl, by unfold State.begins; decide, by decide, by decide, by decide⟩,
   ⟨cmd 0 0x701 (toBytes 2 4111 ++ List.replicate 6 0 ++ [2] ++ List.replicate 15 0), 0, _, _, _, _, _, rfl, rfl, rfl,
      by unfold State.begins; decide, by decide, by decide, rfl, by decide, rfl, by decide⟩,
   ⟨cmd 0 0x702 (toBytes 2 4095), 0, _, _, _, 4095, rfl, rfl, rfl, by unfold State.begins; decide, by decide, by decide,
      by decide⟩,
   ⟨cmd 0 0x703 [0], 0, _, _, _, 0, rfl, rfl, rfl, by unfold State.begins; decide, rfl, by decide⟩⟩

theorem witness_PairCommandComplete :
    (∃ (s : State) (m : Fin 2109) (c : Cmd) (tx : Nat) (k : _), c = s.cmdAt m ∧ tx = s.fld .SEM_MSEQ_TX ∧
      k = { op := 0x0801 } ∧ s.begins m k) ∧
    (∃ (s : State) (m : Fin 2109) (c : Cmd) (tx : Nat) (k : _) (t : _), c = s.cmdAt m ∧ tx = s.fld .SEM_MSEQ_TX ∧
      k = { op := 0x0802 } ∧ s.begins m k ∧ s.mode = .LEAD ∧ s.fld .SEM_STS_ROLE ≠ 2 ∧ s.ho = .none ∧
      s.cmdPut c .SEM_CTL 0 [(.SEM_CTL_HANDOVER, 1)] = t ∧ t.ho ≠ .none) ∧
    (∃ (s : State) (m : Fin 2109) (c : Cmd) (tx : Nat) (k : _), c = s.cmdAt m ∧ tx = s.fld .SEM_MSEQ_TX ∧
      k = { op := 0x0803 } ∧ s.begins m k) ∧
    (∃ (s : State) (m : Fin 2109) (c : Cmd) (tx : Nat) (k : _), c = s.cmdAt m ∧ tx = s.fld .SEM_MSEQ_TX ∧
      k = { op := 0x0804 } ∧ s.begins m k ∧ s.fld .SEM_STS_ROLE = 2 ∧ s.fld .SEM_STS_SYNC = 3) ∧
    (∃ (s : State) (m : Fin 2109) (c : Cmd) (tx : Nat) (k : _), c = s.cmdAt m ∧ tx = s.fld .SEM_MSEQ_TX ∧
      k = { op := 0x0805 } ∧ s.begins m k ∧ s.mode = .FOLLOW ∧ s.flag .SEM_STS_TWIN_ALIVE = false ∧
      s.fld .SEM_STS_SYNC = 2 ∧ s.paired = true) ∧
    (∃ (s : State) (m : Fin 2109) (c : Cmd) (tx : Nat) (k : _), c = s.cmdAt m ∧ tx = s.fld .SEM_MSEQ_TX ∧
      k = CmdRule.len { op := 0x0901 } 16 ∧ s.begins m k ∧ c.n 0 1 = 0 ∧ 1 ≤ c.n 1 1 ∧ c.n 1 1 ≤ 3 ∧
      c.n 4 4 ≤ 15 * 1048576 ∧ s.mg.staging = none ∧ s.hdr.attempt = 0) ∧
    (∃ (s : State) (m : Fin 2109) (c : Cmd) (tx : Nat) (k : _) (g : _), c = s.cmdAt m ∧ tx = s.fld .SEM_MSEQ_TX ∧
      k = { op := 0x0902, lo := 16, hi := 4032 } ∧ s.begins m k ∧ s.mg.staging = some g ∧ g.source = 0 ∧
      c.n 0 4 = g.data.length ∧ g.data.length + (c.pay.drop 8).length ≤ g.size) ∧
    (∃ (s : State) (m : Fin 2109) (c : Cmd) (tx : Nat) (k : _) (g : _), c = s.cmdAt m ∧ tx = s.fld .SEM_MSEQ_TX ∧
      k = { op := 0x0903 } ∧ s.begins m k ∧ s.mg.staging = some g ∧ g.data.length = g.size) ∧
    (∃ (s : State) (m : Fin 2109) (c : Cmd) (tx : Nat) (k : _), c = s.cmdAt m ∧ tx = s.fld .SEM_MSEQ_TX ∧
      k = { op := 0x0904 } ∧ s.begins m k) ∧
    (∃ (s : State) (m : Fin 2109) (c : Cmd) (tx : Nat) (k : _), c = s.cmdAt m ∧ tx = s.fld .SEM_MSEQ_TX ∧
      k = CmdRule.len { op := 0x0905 } 2 ∧ s.begins m k ∧ c.n 0 2 ≤ 1000) ∧
    (∃ (s : State) (m : Fin 2109) (c : Cmd) (tx : Nat) (k : _), c = s.cmdAt m ∧ tx = s.fld .SEM_MSEQ_TX ∧
      k = { op := 0x0906, lo := 8, hi := 4032 } ∧ s.begins m k ∧ c.n 0 2 + (c.pay.drop 8).length ≤ 4096 ∧
      (c.n 2 1).testBit 0 = false) :=
  ⟨⟨cmd 0 0x801 [], 0, _, _, _, rfl, rfl, rfl, by unfold State.begins; decide⟩,
   ⟨cmd 0 0x802 [] (st [(.SEM_STS_ROLE, 0, 1), (.SEM_STS_SYNC, 0, 2), (.SEM_STS_TWIN_MODE, 0, 4)] { up with twinSync := 2 }), 0, _, _, _, _,
      rfl, rfl, rfl, by unfold State.begins; decide, by decide, by decide, by decide, rfl, by decide⟩,
   ⟨cmd 0 0x803 [], 0, _, _, _, rfl, rfl, rfl, by unfold State.begins; decide⟩,
   ⟨cmd 0 0x804 [] (st [(.SEM_STS_ROLE, 0, 2), (.SEM_STS_SYNC, 0, 3)] up), 0, _, _, _, rfl, rfl, rfl,
      by unfold State.begins; decide, by decide, by decide⟩,
   ⟨cmd 0 0x805 [] (st [(.SEM_STS_ROLE, 0, 2), (.SEM_STS_SYNC, 0, 2)] { up with mode := .FOLLOW }), 0, _, _, _, rfl,
      rfl, rfl, by unfold State.begins; decide, by decide, by decide, by decide, by decide⟩,
   ⟨cmd 0 0x901 ([0, 3, 0, 0] ++ toBytes 4 15728640 ++ List.replicate 8 0), 0, _, _, _, rfl, rfl, rfl,
      by unfold State.begins; decide, by decide, by decide, by decide, by decide, by decide, by decide⟩,
   ⟨cmd 0 0x902 (List.replicate 16 0) ({ up with mg := { up.mg with staging := some { source := 0, tries := 1, size := 8, base := 0 } } }),
      0, _, _, _, _, rfl, rfl, rfl, by unfold State.begins; decide, rfl, by decide, by decide, by decide⟩,
   ⟨cmd 0 0x903 [] ({ up with mg := { up.mg with staging := some { source := 0, tries := 1, size := 8, base := 0, data := [1, 2, 3, 4, 5, 6, 7, 8] } } }),
      0, _, _, _, _, rfl, rfl, rfl, by unfold State.begins; decide, rfl, by decide⟩,
   ⟨cmd 0 0x904 [], 0, _, _, _, rfl, rfl, rfl, by unfold State.begins; decide⟩,
   ⟨cmd 0 0x905 (toBytes 2 1000), 0, _, _, _, rfl, rfl, rfl, by unfold State.begins; decide, by decide⟩,
   ⟨cmd 0 0x906 ([0xF8, 0x0F, 0, 0, 0, 0, 0, 0] ++ List.replicate 8 1), 0, _, _, _, rfl, rfl, rfl,
      by unfold State.begins; decide, by decide, by decide⟩⟩

theorem witness_SystemCommandComplete :
    (∃ (s : State) (m : Fin 2109) (c : Cmd) (tx : Nat) (k : _), c = s.cmdAt m ∧ tx = s.fld .SEM_MSEQ_TX ∧
      k = CmdRule.len { op := 0x0A01 } 1 ∧ s.begins m k ∧ (s.mode = .LEAD ∨ s.mode = .FOLLOW) ∧ s.bt.standby = none) ∧
    (∃ (s : State) (m : Fin 2109) (c : Cmd) (tx : Nat) (k : _) (d : _) (t : _), c = s.cmdAt m ∧
      tx = s.fld .SEM_MSEQ_TX ∧ k = CmdRule.len { op := 0x0A02 } 3 ∧ s.begins m k ∧ c.n 0 1 = d ∧ domByReq d = true ∧
      d ≠ 2 + s.fld .MBX_MB_CORE c.m ∧ c.n 1 1 ≤ 1 ∧ s.bt.domReq = none ∧
      s.cmdPut c .PWR_DOM_REQ 0 [(.PWR_DOM_REQ_DOMAIN, d), (.PWR_DOM_REQ_OP, c.n 1 1), (.PWR_DOM_REQ_FORCE,
      c.n 2 1 % 2), (.PWR_DOM_REQ_GO, 1)] = t ∧ t.bt.domReq = none ∧ t.fld .PWR_DOM_RESULT_RESULT = 0) ∧
    (∃ (s : State) (m : Fin 2109) (c : Cmd) (tx : Nat) (k : _), c = s.cmdAt m ∧ tx = s.fld .SEM_MSEQ_TX ∧
      k = CmdRule.len { op := 0x0A03 } 3 ∧ s.begins m k ∧ c.n 2 1 ≤ 1) ∧
    (∃ (s : State) (m : Fin 2109) (c : Cmd) (tx : Nat) (k : _), c = s.cmdAt m ∧ tx = s.fld .SEM_MSEQ_TX ∧
      k = CmdRule.len { op := 0x0B01 } 6 ∧ s.begins m k) ∧
    (∃ (s : State) (m : Fin 2109) (c : Cmd) (tx : Nat) (k : _), c = s.cmdAt m ∧ tx = s.fld .SEM_MSEQ_TX ∧
      k = CmdRule.len { op := 0x0B02 } 4 ∧ s.begins m k) ∧
    (∃ (s : State) (m : Fin 2109) (c : Cmd) (tx : Nat) (k : _), c = s.cmdAt m ∧ tx = s.fld .SEM_MSEQ_TX ∧
      k = { op := 0x0B03 } ∧ s.begins m k) ∧
    (∃ (s : State) (m : Fin 2109) (c : Cmd) (tx : Nat) (k : _), c = s.cmdAt m ∧ tx = s.fld .SEM_MSEQ_TX ∧
      k = { op := 0x0C01, who := whoAll } ∧ s.begins m k) ∧
    (∃ (s : State) (m : Fin 2109) (c : Cmd) (tx : Nat) (k : _) (d : _), c = s.cmdAt m ∧ tx = s.fld .SEM_MSEQ_TX ∧
      k = CmdRule.len { op := 0x0C02 } 8 ∧ s.begins m k ∧
      d = (c.n 0 8 + 18446744073709551616 - s.ld8 (mbxAddr c.m + 0x20)) % 18446744073709551616) ∧
    (∃ (s : State) (m : Fin 2109) (c : Cmd) (tx : Nat) (k : _), c = s.cmdAt m ∧ tx = s.fld .SEM_MSEQ_TX ∧
      k = { op := 0x0D01 } ∧ s.begins m k) :=
  ⟨⟨cmd 0 0xA01 [0], 0, _, _, _, rfl, rfl, rfl, by unfold State.begins; decide, by decide, by decide⟩,
   ⟨cmd 0 0xA02 [19, 1, 0], 0, _, _, _, 19, _, rfl, rfl, rfl, by unfold State.begins; decide, rfl, by decide, by decide,
      by decide, by decide, rfl, by decide, by decide⟩,
   ⟨cmd 0 0xA03 [0, 0, 1], 0, _, _, _, rfl, rfl, rfl, by unfold State.begins; decide, by decide⟩,
   ⟨cmd 0 0xB01 (List.replicate 6 0), 0, _, _, _, rfl, rfl, rfl, by unfold State.begins; decide⟩,
   ⟨cmd 0 0xB02 (List.replicate 4 0), 0, _, _, _, rfl, rfl, rfl, by unfold State.begins; decide⟩,
   ⟨cmd 0 0xB03 [], 0, _, _, _, rfl, rfl, rfl, by unfold State.begins; decide⟩,
   ⟨cmd 0 0xC01 [], 0, _, _, _, rfl, rfl, rfl, by unfold State.begins; decide⟩,
   ⟨cmd 0 0xC02 (List.replicate 8 0), 0, _, _, _, _, rfl, rfl, rfl, by unfold State.begins; decide, rfl⟩,
   ⟨cmd 0 0xD01 [], 0, _, _, _, rfl, rfl, rfl, by unfold State.begins; decide⟩⟩

theorem witness_ManagementComplete :
    (∃ (s : State) (h : MctpHdr) (payload : List Byte), s.mode ≠ .OFF ∧ h.binding = 0 ∧ h.pec = true ∧ h.ic = false ∧
      s.flag .MGT_CFG_SMB_MCTP_EN = true ∧ s.fwReady = true ∧ payload.length ≤ 4032 ∧ s.flag .MBX_CFG_EN = true ∧
      s.mg.mctpNow = none ∧ s.mg.mctpHeld = [] ∧ s.mbxState 0 = 0) ∧
    (∃ (s : State) (h : MctpHdr), s.mode ≠ .OFF ∧ h.binding = 0 ∧ h.pec = true ∧ h.ic = false ∧
      s.flag .MGT_CFG_SMB_MCTP_EN = true ∧ s.fwReady = true) ∧
    (∃ (s : State) (h : MctpHdr) (sensor : BitVec 16), s.mode ≠ .OFF ∧ h.binding = 0 ∧ h.pec = true ∧ h.ic = false ∧
      s.flag .MGT_CFG_SMB_MCTP_EN = true ∧ s.fwReady = true ∧ sensor.toNat ≠ 0 ∧ sensor.toNat ≤ 6) ∧
    (∃ (s : State) (h : MctpHdr) (sensor : BitVec 16), s.mode ≠ .OFF ∧ h.binding = 0 ∧ h.pec = true ∧ h.ic = false ∧
      s.flag .MGT_CFG_SMB_MCTP_EN = true ∧ s.fwReady = true ∧ 7 ≤ sensor.toNat ∧ sensor.toNat ≤ 9) ∧
    (∃ (s : State) (h : MctpHdr) (sensor : BitVec 16), s.mode ≠ .OFF ∧ h.binding = 0 ∧ h.pec = true ∧ h.ic = false ∧
      s.flag .MGT_CFG_SMB_MCTP_EN = true ∧ s.fwReady = true ∧ sensor.toNat ≠ 0 ∧ sensor.toNat ≤ 6) :=
  ⟨⟨st [(.MGT_CFG_SMB_MCTP_EN, 0, 1)] up, { binding := 0 }, [], by decide, by decide, by decide, by decide, by decide,
      by decide, by decide, by decide, by decide, by decide, by decide⟩,
   ⟨st [(.MGT_CFG_SMB_MCTP_EN, 0, 1)] up, { binding := 0 }, by decide, by decide, by decide, by decide, by decide,
      by decide⟩,
   ⟨st [(.MGT_CFG_SMB_MCTP_EN, 0, 1)] up, { binding := 0 }, 6, by decide, by decide, by decide, by decide, by decide,
      by decide, by decide, by decide⟩,
   ⟨st [(.MGT_CFG_SMB_MCTP_EN, 0, 1)] up, { binding := 0 }, 7, by decide, by decide, by decide, by decide, by decide,
      by decide, by decide, by decide⟩,
   ⟨st [(.MGT_CFG_SMB_MCTP_EN, 0, 1)] up, { binding := 0 }, 6, by decide, by decide, by decide, by decide, by decide,
      by decide, by decide, by decide⟩⟩

theorem witness_MemoryComplete :
    (∃ (s : State), s.domOn 17 = true) ∧
    (∃ (s : State), s.domOn 17 = true) ∧
    (∃ (s : State), s.domOn 16 = true) ∧
    (∃ (s : State), s.flag .MEM_CFG_SCRUB_EN = true ∧ s.domOn 16 = true) ∧
    (∃ (s : State), s.flag .DRS_CFG_SCRUB_EN = true ∧ s.domOn 17 = true ∧ s.flag .DRS_STS_SELF_REFRESH = false ∧
      s.flag .DRS_STS_TRAINED = true ∧ s.fld .DRS_SCRUB_POS_POS + 64 ≠ 0x2000000000) ∧
    (∃ (s : State), s.fld .DRS_CFG_CE_THR ≠ 0 ∧ s.fld .DRS_CFG_CE_THR ≤ s.ceWindow) :=
  ⟨⟨up, by decide⟩,
   ⟨up, by decide⟩,
   ⟨up, by decide⟩,
   ⟨st [(.MEM_CFG_SCRUB_EN, 0, 1)], by decide, by decide⟩,
   ⟨st [(.DRS_CFG_SCRUB_EN, 0, 1), (.DRS_STS_TRAINED, 0, 1), (.DRS_STS_SELF_REFRESH, 0, 0)], by decide, by decide,
      by decide, by decide, by decide⟩,
   ⟨st [(.DRS_CFG_CE_THR, 0, 5)] { base with ceWindow := 5 }, by decide, by decide⟩⟩

theorem witness_PowerComplete :
    (∃ (s : State), s.regOn .PWR_DOM_REQ 0 = true) ∧
    (∃ (s : State) (d : Fin 20), s.dom d = .draining ∧ s.domDrained d = true) ∧
    (∃ (s : State) (d : Fin 20), s.dom d = .draining ∧ s.domDrained d = false) ∧
    (∃ (s : State) (d : Fin 20), s.dom d = .powering) ∧
    (∃ (s : State) (c : Core), s.regOn .PWR_CORE_CTL c = true) ∧
    (∃ (s : State) (c : Core), s.regOn .CLK_CORE_SEL c = true) ∧
    (∃ (s : State), s.mode ≠ .OFF ∧ s.flag .PWR_WAKE_TIMER_ARMED = true ∧ s.fld .PWR_WAKE_TIMER_AT ≤ s.aonCount ∧
      s.fld .PWR_WAKE_TIMER_TARGET < 4) ∧
    (∃ (s : State), s.regOn .PWR_WDOG_KICK 0 = true) ∧
    (∃ (s : State), s.wdogRuns = true ∧ s.bt.wdogHalf = false) ∧
    (∃ (s : State), s.wdogRuns = true ∧ s.bt.wdogHalf = true) ∧
    (∃ (s : State) (which : Fin 4), s.mode ≠ .OFF ∧ s.domOn 1 = true ∧ which.val < 3) ∧
    (∃ (s : State), s.domOn 8 = true ∧ s.flag .HST_LINK_STS_DL_UP = true) ∧
    (∃ (s : State), s.regOn .RST_CTL 0 = true) ∧
    (∃ (s : State), s.regOn .TIM_STEP 0 = true) ∧
    (∃ (s : State), s.domOn 1 = true ∧ s.linkOpen = true ∧ (s.cfgD 0 0x2C0).testBit 0 = true ∧
      s.flag .TIM_PTM_CFG_PERIOD = true) :=
  ⟨⟨up, by decide⟩,
   ⟨base.setDom 16 .draining, 16, by decide, by decide⟩,
   ⟨base.setDom 2 .draining, 2, by decide, by decide⟩,
   ⟨base.setDom 9 .powering, 9, by decide⟩,
   ⟨up, 0, by decide⟩,
   ⟨up, 0, by decide⟩,
   ⟨st [(.PWR_WAKE_TIMER_ARMED, 0, 1), (.PWR_WAKE_TIMER_TARGET, 0, 3)], by decide, by decide, by decide, by decide⟩,
   ⟨up, by decide⟩,
   ⟨st [(.PWR_WDOG_CFG_EN, 0, 1)], by decide, by decide⟩,
   ⟨st [(.PWR_WDOG_CFG_EN, 0, 1)] { base with bt := { base.bt with wdogHalf := true } }, by decide, by decide⟩,
   ⟨base, 2, by decide, by decide, by decide⟩,
   ⟨up, by decide, by decide⟩,
   ⟨up, by decide⟩,
   ⟨up, by decide⟩,
   ⟨st [(.TIM_PTM_CFG_PERIOD, 0, 1)] { up with cfg := [(0x2C0, 1)] }, by decide, by decide, by decide, by decide⟩⟩

theorem witness_ContainComplete :
    (∃ (s : State), s.regOn .HST_CONT_REL 0 = true) ∧
    (∃ (s : State), s.regOn .HST_CONT_REL 0 = true) ∧
    (∃ (s : State) (f : Fn), s.regOn .FN_CONT f = true) ∧
    (∃ (s : State) (f : Fn), s.regOn .FN_CONT f = true) ∧
    (∃ (s : State), s.fwReady = true) ∧
    (∃ (s : State), s.fwReady = true) ∧
    (∃ (s : State), s.mode ≠ .OFF) ∧
    (∃ (s : State), s.mode ≠ .OFF) ∧
    (∃ (s : State) (num : BitVec 32), s.mode ≠ .OFF ∧ s.ring.any (fun e => e.num == num.toNat) = true) ∧
    (∃ (s : State) (e : _), s.mode ≠ .OFF ∧ s.ring.find? (fun e => decide (s.mg.rawSeek.getD 0 ≤ e.num)) = some e) ∧
    (∃ (s : State), s.mode ≠ .OFF ∧ s.flag .PWR_WAKE_EN_RAW = true) ∧
    (∃ (s : State), s.mode ≠ .OFF) ∧
    (∃ (s : State), (s.mode = .LEAD ∨ s.mode = .FOLLOW)) :=
  ⟨⟨up, by decide⟩,
   ⟨up, by decide⟩,
   ⟨up, 0, by decide⟩,
   ⟨up, 0, by decide⟩,
   ⟨up, by decide⟩,
   ⟨up, by decide⟩,
   ⟨up, by decide⟩,
   ⟨up, by decide⟩,
   ⟨{ base with ring := [{ num := 4, cls := 1, unit := 1 }] }, 4, by decide, by decide⟩,
   ⟨{ base with ring := [{ num := 4, cls := 1, unit := 1 }] }, _, by decide, rfl⟩,
   ⟨st [(.PWR_WAKE_EN_RAW, 0, 1)], by decide, by decide⟩,
   ⟨up, by decide⟩,
   ⟨up, by decide⟩⟩

/-! ### Authorised commands -/

/-- A request with the module's serial number, whose bytes nothing evaluates, in mailbox 0. -/
def authPay (op b2 : Nat) : List Byte :=
  (toBytes 2 op ++ [BitVec.ofNat 8 b2, 0, 0, 0, 0, 0]) ++ (toBytes 8 Config.serial ++ List.replicate 144 0)
def authHdr (op lc : Nat) : State :=
  (st [(.MBX_MB_CONTROL, 0, 2), (.SEC_LIFECYCLE_STATE, 0, lc)] { up with sc := { up.sc with nonce := some (0, 0) } }).stBytes
    (mbxAddr 0 + 8) (toBytes 2 op ++ [0, 0] ++ toBytes 2 160)
def authSt (op b2 lc : Nat) : State := (authHdr op lc).stBytes (mbxAddr 0 + 0x40) (authPay op b2)

def authCmd (op b2 : Nat) : Cmd := { m := 0, cls := 0, who := 0xFFFF, pay := authPay op b2 }

theorem authSt_fld (op b2 lc : Nat) (f : Fld) (i : Nat) : (authSt op b2 lc).fld f i = (authHdr op lc).fld f i :=
  State.fld_congr (by unfold authSt; rw [State.stBytes_eq]) _ _

theorem used_fld (s : State) (f : Fld) (i : Nat) : State.fld { s with sc.nonce := none } f i = s.fld f i := rfl

theorem authSt_pay (op b2 lc : Nat) (h : ofBytes ((authHdr op lc).ldBytes (mbxAddr 0 + 0x0C) 2) = 160) :
    (authSt op b2 lc).cmdAt 0 = authCmd op b2 := by
  have hl : (authPay op b2).length = 160 := by simp [authPay, toBytes_length]
  have h1 : (authSt op b2 lc).ldBytes (mbxAddr 0 + 0x0C) 2 = (authHdr op lc).ldBytes (mbxAddr 0 + 0x0C) 2 :=
    State.ldBytes_congr fun c _ h2 => State.ld_stBytes_out _ _ _ _ (Or.inl (by omega))
  have h2 : (authSt op b2 lc).ldBytes (mbxAddr 0 + 0x40) 160 = authPay op b2 := by
    rw [← hl]; exact State.ldBytes_stBytes _ _ _
  unfold State.cmdAt
  rw [h1, h]
  show Cmd.mk _ _ _ _ = _
  rw [show min 4032 160 = 160 from rfl, h2]
  rfl

theorem authSt_checks (op b2 lc : Nat) (c : Cmd) (hc : c = authCmd op b2) :
    (authSt op b2 lc).authCheck c true = (none, { authSt op b2 lc with sc.nonce := none }) := by
  have hn : c.n 0x10 32 = 0 := by subst hc; simp [Cmd.n, authCmd, authPay, toBytes]; decide
  have hs : c.n 8 8 = Config.serial % 18446744073709551616 := by
    have : c.n 8 8 = ofBytes (toBytes 8 Config.serial) := by
      subst hc; simp [Cmd.n, authCmd, authPay, toBytes]
    have e : (256 : Nat) ^ 8 = 18446744073709551616 := by decide
    rw [this, ofBytes_toBytes, e]
  have e := State.stBytes_eq (authPay op b2) (authHdr op lc) (mbxAddr 0 + 0x40)
  have h1 : (authSt op b2 lc).sc.nonce = some (0, 0) := by unfold authSt; rw [e]; rfl
  have h2 : (authSt op b2 lc).tick = 0 := by unfold authSt; rw [e]; rfl
  unfold State.authCheck
  rw [h1]
  simp [hn, hs, h2]

theorem authSt_begins (op b2 lc : Nat) (k : CmdRule) (hk : k = CmdRule.len { op := op } 160)
    (h1 : (authHdr op lc).mbxOp 0 = op) (h2 : (authHdr op lc).mbxAbi 0 = 0) (h3 : (authHdr op lc).mbxLen 0 = 160)
    (h4 : (authHdr op lc).mbxState 0 = 2) (h5 : (authHdr op lc).mbxCancelReq 0 = false) : (authSt op b2 lc).begins 0 k := by
  have hp := authSt_pay op b2 lc h3
  have hb : ∀ a, a + 2 ≤ mbxAddr 0 + 0x40 → (authSt op b2 lc).ldBytes a 2 = (authHdr op lc).ldBytes a 2 := fun a ha =>
    State.ldBytes_congr fun c _ h => State.ld_stBytes_out _ _ _ _ (Or.inl (by omega))
  have hr : (authSt op b2 lc).regs = (authHdr op lc).regs := by unfold authSt; rw [State.stBytes_eq]
  have e := State.stBytes_eq (authPay op b2) (authHdr op lc) (mbxAddr 0 + 0x40)
  refine ⟨by unfold authSt; rw [e]; rfl, ?_, ?_, by unfold authSt; rw [e]; rfl, by unfold authSt; rw [e]; exact Nat.zero_lt_succ 3,
    Or.inl (by unfold authSt; rw [e]; exact fun h => nomatch (show Mode.LEAD = Mode.CONTAIN from h)), ?_, ?_⟩
  · rw [← h4]; unfold State.mbxState; rw [State.fld_congr hr]
  · subst hk; exact (congrArg ofBytes (hb (mbxAddr 0 + 8) (by decide))).trans h1
  · rw [← h5]; unfold State.mbxCancelReq; rw [State.fld_congr hr]
  · have ha : (authSt op b2 lc).mbxAbi 0 = 0 := (congrArg ofBytes (hb (mbxAddr 0 + 0x0E) (by decide))).trans h2
    have hl : (authSt op b2 lc).mbxLen 0 = 160 := (congrArg ofBytes (hb (mbxAddr 0 + 0x0C) (by decide))).trans h3
    have hm : (authSt op b2 lc).mode = .LEAD := by unfold authSt; rw [e]; rfl
    subst hk
    unfold State.cmdCheck
    rw [show (Machine.State.cmdAt _ _ : Cmd) = _ from hp]
    simp [ha, hl, hm, CmdRule.len, authCmd]

/-- The two authorised commands of SystemCommandComplete. -/
theorem witness_SystemCommandComplete_authorised :
    (∃ (s : State) (m : Fin 2109) (c : Cmd) (k : CmdRule) (n : Nat) (t : State), c = s.cmdAt m ∧
      k = CmdRule.len { op := 0x0D02 } 160 ∧ s.begins m k ∧ c.n 0 2 = 0x0D02 ∧ c.n 2 1 = n ∧ n ≤ 3 ∧
      s.fld .SEC_LIFECYCLE_STATE < n ∧ s.authCheck c true = (none, t)) ∧
    (∃ (s : State) (m : Fin 2109) (c : Cmd) (k : CmdRule) (t : State), c = s.cmdAt m ∧ k = CmdRule.len { op := 0x0D03 } 160 ∧
      s.begins m k ∧ c.n 0 2 = 0x0D03 ∧ c.n 2 1 = 0 ∧ s.authCheck c true = (none, t) ∧
      t.fld .SEC_LIFECYCLE_STATE = lcPRODUCTION) := by
  constructor
  · refine ⟨authSt 0x0D02 3 2, 0, authCmd 0x0D02 3, _, 3, _, (authSt_pay 0x0D02 3 2 (by decide)).symm, rfl, ?_, ?_, ?_, by decide,
      ?_, authSt_checks _ _ _ _ rfl⟩
    · exact authSt_begins _ _ _ _ rfl (by decide) (by decide) (by decide) (by decide) (by decide)
    · simp [Cmd.n, authCmd, authPay, toBytes]; decide
    · simp [Cmd.n, authCmd, authPay, toBytes]; decide
    · rw [authSt_fld]; decide
  · refine ⟨authSt 0x0D03 0 lcPRODUCTION, 0, authCmd 0x0D03 0, _,
      { authSt 0x0D03 0 lcPRODUCTION with sc.nonce := none }, (authSt_pay 0x0D03 0 lcPRODUCTION (by decide)).symm, rfl,
      ?_, ?_, ?_, authSt_checks _ _ _ _ rfl, ?_⟩
    · exact authSt_begins _ _ _ _ rfl (by decide) (by decide) (by decide) (by decide) (by decide)
    · simp [Cmd.n, authCmd, authPay, toBytes]; decide
    · simp [Cmd.n, authCmd, authPay, toBytes]; decide
    · rw [used_fld, authSt_fld]; decide

/-! ### Witnesses of the other statements -/

theorem witness_StepRunsFront : ∃ (c : Instr) (rest : List Instr) (s : State), s.pending = c :: rest :=
  ⟨.powerDown, [.powerUp], { base with pending := [.powerDown, .powerUp] }, rfl⟩
theorem witness_StepIdleTicks : State.reset.pending = [] ∧ { base with mode := .OFF }.pending = [] := by decide
theorem witness_ResetState : Fld.IRQ_CFG_EN ≠ .LANE_LINK_CTL_LINK_ID ∧ 16 < 1048576 := by decide
theorem witness_EveryStepKeepsForms : ∃ s t : State, s.regsWf = true ∧ s.bytesWf = true ∧ step s = .next t :=
  ⟨{ cmd 1 1 [1] with pending := [.powerDown] }, _, by decide, by decide, rfl⟩
theorem witness_CommandsLeaveQueue : ∃ (c : Instr) (s t : State), exec c s = .next t := ⟨.powerDown, up, _, rfl⟩
theorem witness_StoresNothingFrame : ∃ (c : Instr) (s t : State), c.storesNothing = true ∧ exec c s = .next t :=
  ⟨.govWindowEnd, up, _, rfl, rfl⟩
theorem witness_WellFormedRuns : (Instr.memoryReadLockRx { fn := 0, bar := .bar0, off := 4095 }).wf = true ∧
    (Instr.memoryReadLockRx { fn := 0, bar := .bar0, off := 0, stream := 10 }).wf = false := by decide
/-- One register with an RW, one with an RWP, one with a W1C and one with an RO field. -/
theorem witness_RegisterWrite : State.reset.regsWf = true ∧
    (.IRQ_CFG_EN ∈ regFlds .IRQ_CFG ∧ (fldInfo .IRQ_CFG_EN).ty = .RW) ∧
    (.IRQ_STS_STORM_NEW ∈ regFlds .IRQ_STS ∧ (fldInfo .IRQ_STS_STORM_NEW).ty = .W1C) ∧
    (.IRQ_STS_STRANDED ∈ regFlds .IRQ_STS ∧ (fldInfo .IRQ_STS_STRANDED).ty = .RO) ∧ Fld.IRQ_CFG_EN ∉ regFlds .IRQ_STS := by
  decide
theorem witness_LittleEndian : 7 < 8 ∧ (7 < 8 ∨ 8 + 8 ≤ 7) := by decide
theorem witness_EnabledBytes : ([1, 2] : List Byte)[1]? = some 2 ∧ ([true, false] : List Bool)[1]? ≠ some true := by decide
theorem witness_PoisonMarks : 0 < granCount 60 8 ∧ 1 < granCount 60 8 ∧ granule 60 + 64 * granCount 60 8 ≤ 128 := by decide
theorem witness_PiecesOfRange : 0 < 64 ∧ 100 ≤ 64 * (3 - 1) := by decide
theorem witness_OffDomainAccess : ∃ (s : State) (rd wr : Req) (b off : Nat) (blk : Block) (o : Nat) (d : List Byte),
    blockAt b = some blk ∧ s.domOn (blockDom blk off) = false ∧ rd.view ≠ 2 ∧ wr.view ≠ 2 ∧ rd.kind = .read ∧ rd.len = 8 ∧
    off % rd.len = 0 ∧ wr.kind = .write ∧ regRun wr = some (o, d) :=
  ⟨{ base with doms := [] }, { rq .read with len := 8 }, rq .write, 0, 0, .IRQ, 0, [1, 2, 3, 4], by decide⟩
theorem witness_GuardCapture : base.fld .GRD_FAULT_INFO_VALID = 0 ∧ (st [(.GRD_FAULT_INFO_VALID, 0, 1)]).fld .GRD_FAULT_INFO_VALID = 1 := by
  decide
theorem witness_HostRouteCheck : ∃ (a b : Req), a.who = .dma 255 ∧ a.fixed = 5 ∧ a.exec = false ∧ b.fixed ≠ 5 :=
  ⟨{ rq .read with who := .dma 255, fixed := 5 }, rq .read, by decide⟩
theorem witness_ClassBeforeRegions : ∃ (r : Req) (key : Nat), r.key = some key ∧ r.fixed = 0 ∧
    classMay r (if r.toHost then Region.host else regionOf key) = false :=
  ⟨{ rq .read with who := .port 0, key := some 0x005000000000 }, 0x005000000000, by decide⟩
theorem witness_BestSource : ∃ (s : State) (c : Nat), s.bytesWf = true ∧ s.bestFor c = some 0x2800 ∧ s.bestFor 1 = none :=
  ⟨(((st [(.IRQ_ROUTE_KIND, 0x2800, 3)]).setPend 0x2800 true).setBit (enBase + 0x2800 / 8) 0 true).st (prioBase + 0x2800) 9, 0,
    by decide⟩
theorem witness_ModeTransitions : ∃ (s t u : State) (c : Fin 9), s.mode = .OFF ∧ s.bt.trip = none ∧ t.mode = .OFF ∧
    t.bt.trip = some 3 ∧ 2 ≤ c.val ∧ u.mode ≠ .OFF :=
  ⟨{ base with mode := .OFF }, { base with mode := .OFF, bt := { base.bt with trip := some 3 } }, base, 2, by decide⟩
theorem witness_PowerDownLoses : base.mode ≠ .OFF ∧ fuseFld .SEC_LIFECYCLE_STATE = true ∧ fuseFld .IRQ_CFG_EN = false := by decide
theorem witness_ContainAgain : ∃ s t : State, s.mode = .CONTAIN ∧ t.mode = .BOOT :=
  ⟨{ base with mode := .CONTAIN }, State.reset, by decide⟩
theorem witness_DomainDependency : ∃ s t : State, s.bt.domReq = none ∧ domByReq 9 = true ∧ s.dom 9 ≠ .on ∧
    (∃ e ∈ domNeeds 9, s.dom e ≠ .on) ∧ domByReq 13 = true ∧ t.domNeeded 13 = true ∧ t.bt.domReq = none :=
  ⟨{ base with doms := [] }, base, by decide, by decide, by decide, ⟨13, by decide, by decide⟩, by decide, by decide, by decide⟩
theorem witness_MailboxStates : ∃ a b c d : State, a.mbxState 5 = 0 ∧ a.flag .MBX_CFG_EN = true ∧ b.mbxState 5 = 3 ∧
    c.mbxState 5 = 2 ∧ d.mbxQueue = [5] ∧ d.flag .MBX_CFG_EN = false :=
  ⟨up, st [(.MBX_MB_CONTROL, 5, 3)] up, st [(.MBX_MB_CONTROL, 5, 2)] up,
    { st [(.MBX_CFG_EN, 0, 0)] with mbxQueue := [5] }, by decide⟩
/-- Each check of the order, at the edge of its range. -/
theorem witness_CommandChecks : ∃ (s f : State) (k : CmdRule) (c : Cmd), s.mbxAbi c.m = 0 ∧ c.cls ∈ k.who ∧ 4 ∉ k.who ∧
    s.mbxLen c.m = k.lo ∧ k.lo ≤ k.hi ∧ s.mode ≠ .FOLLOW ∧ f.mode = .FOLLOW ∧ k.mir = true :=
  ⟨cmd 0 1 [1, 2], { base with mode := .FOLLOW }, { op := 1, lo := 2, hi := 4, mir := true }, { m := 0, cls := 0, who := 0xFFFF, pay := [] },
    by decide⟩
theorem witness_CommandChecks_refused : ∃ (a l h : State) (k : CmdRule), a.mbxAbi 0 = 0x0200 ∧ l.mbxLen 0 < k.lo ∧
    k.hi < h.mbxLen 0 ∧ (st [(.FN_STS_STATE, 5, fnCONTAINED)]).fnState 5 = fnCONTAINED ∧ k.free = false :=
  ⟨(cmd 0 1 []).stBytes (mbxAddr 0 + 0x0E) [0, 2], cmd 0 1 [1], cmd 0 1 [1, 2, 3, 4, 5], { op := 1, lo := 2, hi := 4 }, by decide⟩
theorem witness_AtomicValues : ([1, 2, 3, 4] : List Byte).length = 4 ∧ 4 ≤ ([9, 9, 9, 9] : List Byte).length := by decide
theorem witness_EqualiserTap : (6 < 8 ∧ 7 < 8) ∧ 6 + 1 < 8 ∧ 7 + 1 = 8 ∧ 0 < 1 := by decide
theorem witness_LaneBlockRoundTrip : TrainBlk.fits { lane := 7, width := 15, rates := 7, phase := 3, linkId := 255 } ∧
    MarkBlk.fits { lane := 7, active := 255, rxok := 255, cmd := 15, arg := 255, mcount := 255 } ∧
    (∃ got : List (Nat × Nat), got ≠ stripe [0, 2] 1 [7, 8, 9] ∧
      ∀ i, got.filter (·.1 = i) = (stripe [0, 2] 1 [7, 8, 9]).filter (·.1 = i)) := by
  refine ⟨by unfold TrainBlk.fits; decide, by unfold MarkBlk.fits; decide, [(0, 8), (2, 7), (2, 9)], by decide, fun i => ?_⟩
  by_cases h : i = 0
  · subst h; decide
  · by_cases h2 : i = 2
    · subst h2; decide
    · simp [stripe, stripeLane, Ne.symm h, Ne.symm h2]
theorem witness_PacketRoundTrip : (∃ k : UrPkt, k.fits (fun _ => 63)) ∧ (∃ k : SeamPkt, k.fits) ∧ 255 < 256 ∧ 4095 < 4096 :=
  ⟨⟨.response 4095 15 8191 true [1, 2] (some 3) 63, by unfold UrPkt.fits; decide⟩,
    ⟨.mirror 255 4294967295 7 [1], by unfold SeamPkt.fits; decide⟩, by decide⟩
theorem witness_LedgerSequence : 15 < 32768 ∧ 18 < 32 ∧ base.mirrors = false ∧ (0 ≠ 15 ∨ 18 ≠ 18) := by decide

/-! ### Commands no sender can form -/

/-- A host request that crosses 4 KiB, names no stream, fails a check on no stream. -/
theorem test_tlp_crosses_4k : (Instr.hostMemoryReadRx { fn := 0, bar := .bar2, off := 4092 } 8 .clean).wf = false := by decide
theorem test_tlp_stream_ten : (Instr.memoryReadLockRx { fn := 0, bar := .bar2, off := 0, stream := 10 }).wf = false := by decide
theorem test_tlp_cause_without_stream : (Instr.memoryReadLockRx { fn := 0, bar := .bar2, off := 0, ideCause := 1 }).wf = false := by
  decide
theorem test_tlp_cause_five : (Instr.memoryReadLockRx { fn := 0, bar := .bar2, off := 0, stream := 1, ideCause := 5 }).wf = false := by
  decide
theorem test_write_empty : (Instr.hostPostedWriteRx { fn := 0, bar := .bar2, off := 0 } [] [] .clean).wf = false := by decide
theorem test_write_too_long :
    (Instr.hostPostedWriteRx { fn := 0, bar := .bar2, off := 0 } (List.replicate 513 0) [] .clean).wf = false := by
  decide +kernel
theorem test_write_enables_short : (Instr.hostPostedWriteRx { fn := 0, bar := .bar2, off := 0 } [1, 2] [true] .clean).wf = false := by decide
theorem test_read_too_long : (Instr.hostMemoryReadRx { fn := 0, bar := .bar2, off := 0 } 4097 .clean).wf = false := by decide
theorem test_atomic_size_two :
    (Instr.hostAtomicopRx { fn := 0, bar := .bar2, off := 0 } .swap 2 [1, 2] .clean).wf = false := by decide
theorem test_atomic_operands_short :
    (Instr.hostAtomicopRx { fn := 0, bar := .bar2, off := 0 } .cas 4 [1, 2, 3, 4] .clean).wf = false := by decide
theorem test_atomic_misaligned :
    (Instr.hostAtomicopRx { fn := 0, bar := .bar2, off := 4 } .swap 8 (toBytes 8 1) .clean).wf = false := by decide
theorem test_illformed_refused :
    exec (.hostPostedWriteRx { fn := 0, bar := .bar2, off := 0 } [] [] .clean) base = .refused .illFormed := by rfl

/-! ### Small checks against the specification's text -/

/-- The table gives its rows no bits, so no word spells a command. -/
theorem test_no_word_is_a_command : decodeTableWord 16 0 = none ∧ base.withFetchWord 16 0 = base := by
  exact ⟨rfl, rfl⟩
/-- An empty queue is a tick of 1 ns; the command in front runs first. -/
theorem test_tick : ∃ t, step up = .next t ∧ t.tick = 1 := ⟨_, rfl, by decide⟩
theorem test_front_first : ∃ t, step { up with pending := [.powerDown, .powerUp] } = .next t ∧ t.pending = [.powerUp] :=
  ⟨_, rfl, by decide⟩
/-- R9: byte 0 of a stored word is its least significant byte. -/
theorem test_little_endian : (base.st8 64 0x0102).ld 64 = 2 := by decide
/-- R11: a W1C bit is cleared by writing 1. -/
theorem test_w1c : ((st [(.IRQ_STS_STORM_NEW, 0, 1)]).regStore .IRQ_STS 0 8 8).flag .IRQ_STS_STORM_NEW = false := by decide
/-- R226: FETCH_ADD wraps at the operand size; CAS stores only on a match. -/
theorem test_fetch_add_wraps : atomResult .fetchAdd 4 [255, 255, 255, 255] [1, 0, 0, 0] = [0, 0, 0, 0] := by decide
theorem test_cas_mismatch : atomResult .cas 4 [1, 0, 0, 0] [2, 0, 0, 0, 9, 9, 9, 9] = [1, 0, 0, 0] := by decide
/-- R154: SEQ wraps from 65,535 to 0. -/
theorem test_seq_wraps : ((st [(.LDG_SEQ_NEXT, 33, 65535)]).entryOpen { port := 1, init := 1, req := rq .write, atom := none } 1 1).seqNext 1 1
    = 0 := by decide
/-- R198: a pre-cursor tap has steps 0 to 7. -/
theorem test_tap_top : (tapStep 1 7 3 8).1 = 7 := by decide
/-- R376: power-down leaves OFF, and powers up to BOOT. -/
theorem test_power_cycle : ∃ t u, exec .powerDown up = .next t ∧ exec .powerUp t = .next u ∧ u.mode = .BOOT :=
  ⟨_, _, rfl, rfl, by decide⟩
/-- R410: POST sets STATE to POSTED (1) and adds 1 to GEN. -/
theorem test_post : (up.mbxPost 1).mbxState 1 = 1 ∧ (up.mbxPost 1).mbxGen 1 = 1 := by decide
/-- R459: LCTL stays on while a lane domain is on. -/
theorem test_lctl_needed : (base.domRequest 13 0 false).dom 13 = .on ∧
    (base.domRequest 13 0 false).fld .PWR_DOM_RESULT_RESULT = 3 := by decide
/-- R486: an error of a datapath takes LEAD to CONTAIN. -/
theorem test_contain : ∃ t, exec (.datapathError true) up = .next t ∧ t.mode = .CONTAIN :=
  ⟨_, rfl, by decide +kernel⟩

end Sys2Proof.Tests
end

section
/-!
SUPPORT. What a register write stores (R11) and what a stored word leaves in memory (R9): the shape of the field tables,
one law for each of `State.fldPut`, `State.regStore` and `State.st8`, and the two statements they give.
-/
namespace Sys2Proof.Machine

/-! ### The field tables -/

/-- Every field lies within the eight bytes of its register, has at least one bit, and resets to a value of its width. -/
theorem fldInfo_fits (f : Fld) :
    (fldInfo f).lo + (fldInfo f).w ≤ 64 ∧ (fldInfo f).w ≠ 0 ∧ (fldInfo f).rst < 2 ^ (fldInfo f).w := by
  cases f <;> decide

/-- The table of a register names each of its fields once. -/
theorem regFlds_nodup (r : Reg) : (regFlds r).Nodup := by
  cases r <;> decide

theorem fieldOf_lt (f : Fld) (v : Nat) : fieldOf f v < 2 ^ (fldInfo f).w := Nat.mod_lt _ (Nat.two_pow_pos _)

/-- The mask of a whole write has every bit of every field. -/
theorem fieldOf_wholeMask (f : Fld) : fieldOf f (2 ^ 64 - 1) = 2 ^ (fldInfo f).w - 1 := by
  obtain ⟨hfit, -, -⟩ := fldInfo_fits f
  refine Nat.eq_of_testBit_eq fun b => ?_
  simp only [fieldOf, Nat.testBit_mod_two_pow, Nat.testBit_div_two_pow, Nat.testBit_two_pow_sub_one]
  by_cases hb : b < (fldInfo f).w
  · have hb64 : b + (fldInfo f).lo < 64 := by omega
    simp [hb, hb64]
  · simp [hb]

theorem fieldOf_wholeMask_ne_zero (f : Fld) : fieldOf f (2 ^ 64 - 1) ≠ 0 := by
  obtain ⟨-, hw, -⟩ := fldInfo_fits f
  have := Nat.one_lt_two_pow hw
  rw [fieldOf_wholeMask]
  omega

/-! ### A field of a well-formed register file -/

theorem smGet_default_or_mem {α : Type} (d : Nat → α) (m : List (Nat × α)) (k : Nat) :
    smGet d m k = d k ∨ (k, smGet d m k) ∈ m := by
  induction m with
  | nil => exact .inl rfl
  | cons e t ih =>
    obtain ⟨a, v⟩ := e
    by_cases h : a = k
    · exact .inr (by simp [smGet, h])
    · simp only [smGet, if_neg h]
      exact ih.imp_right (List.mem_cons_of_mem _)

theorem fkey_div (f : Fld) (i : Nat) : fkey f i / 1048576 = f.ctorIdx := by
  unfold fkey
  omega

/-- LINK_ID is left out: it resets to the number of its link (R211), which `regDefault` does not cut to eight bits. -/
theorem State.fld_lt_of_regsWf {s : State} (h : s.regsWf = true) {f : Fld} (hf : f ≠ .LANE_LINK_CTL_LINK_ID) (i : Nat) :
    s.fld f i < 2 ^ (fldInfo f).w := by
  obtain ⟨-, hwidth⟩ := (State.regsWf_iff s).1 h
  rcases smGet_default_or_mem regDefault s.regs (fkey f i) with hd | hm
  · obtain ⟨-, -, hrst⟩ := fldInfo_fits f
    have hne : f.ctorIdx ≠ Fld.LANE_LINK_CTL_LINK_ID.ctorIdx := fun e => hf (Fld.ctorIdx_inj e)
    rw [State.fld, hd, regDefault, fkey_div, if_neg hne, Fld.ofNat_ctorIdx]
    exact hrst
  · have := hwidth _ hm
    rwa [fkey_div, Fld.ofNat_ctorIdx] at this

/-! ### One field of a write -/

theorem State.fldPut_eq_or_set (s : State) (f : Fld) (i v m : Nat) :
    s.fldPut f i v m = s ∨ ∃ x, s.fldPut f i v m = s.set f i x := by
  unfold State.fldPut
  split
  · exact .inl rfl
  · split
    · exact .inr ⟨_, rfl⟩
    · exact .inr ⟨_, rfl⟩
    · exact .inr ⟨_, rfl⟩
    · exact .inl rfl

theorem State.fld_fldPut_ne (s : State) {f g : Fld} {i j : Nat} (v m : Nat) (h : f ≠ g ∨ i % 1048576 ≠ j % 1048576) :
    (s.fldPut f i v m).fld g j = s.fld g j := by
  rcases s.fldPut_eq_or_set f i v m with e | ⟨x, e⟩
  · rw [e]
  · rw [e, State.fld_set_ne s x h]

/-- What the write of a field leaves in it depends on what it held, and on nothing else of the state. -/
theorem State.fld_fldPut_congr {s t : State} {f : Fld} {i : Nat} (h : s.fld f i = t.fld f i) (v m : Nat) :
    (s.fldPut f i v m).fld f i = (t.fldPut f i v m).fld f i := by
  unfold State.fldPut
  split
  · exact h
  · cases (fldInfo f).ty <;> simp [h]

/-- What a field that held `old` holds after a whole write of `v` (R11). -/
def wholeWrite (f : Fld) (old v : Nat) : Nat :=
  match (fldInfo f).ty with
  | .RW => fieldOf f v
  | .RWP => fieldOf f v
  | .W1C => old - (old &&& fieldOf f v)
  | _ => old

/-- The register file has to be well formed for W1C alone: `State.set` cuts what stays to the field's width. -/
theorem State.fld_fldPut_whole {s : State} (hs : s.regsWf = true) (f : Fld) (i v : Nat) :
    (s.fldPut f i v (2 ^ 64 - 1)).fld f i = wholeWrite f (s.fld f i) v := by
  have htaken : (s.set f i (laidOver f (s.fld f i) v (2 ^ 64 - 1))).fld f i = fieldOf f v := by
    rw [State.fld_set_self, laidOver_full (fieldOf_wholeMask f), Nat.mod_eq_of_lt (fieldOf_lt f v)]
  unfold State.fldPut wholeWrite
  rw [if_neg (fieldOf_wholeMask_ne_zero f)]
  cases hty : (fldInfo f).ty
  case RW => exact htaken
  case RWP => exact htaken
  case W1C =>
    have hmask : fieldOf f v &&& fieldOf f (2 ^ 64 - 1) = fieldOf f v := by
      rw [fieldOf_wholeMask, Nat.and_two_pow_sub_one_of_lt_two_pow (fieldOf_lt f v)]
    have hf : f ≠ .LANE_LINK_CTL_LINK_ID := by rintro rfl; cases hty
    have hold := State.fld_lt_of_regsWf hs hf i
    simp only [State.fld_set_self, hmask]
    exact Nat.mod_eq_of_lt (Nat.lt_of_le_of_lt (Nat.sub_le _ _) hold)
  all_goals rfl

/-! ### All fields of a register -/

/-- A fold of field writes leaves a field that it does not name, and every other instance, alone. -/
theorem State.fld_each_fldPut_other (l : List Fld) {g : Fld} {i j : Nat} (v m : Nat)
    (h : g ∉ l ∨ j % 1048576 ≠ i % 1048576) : ∀ s : State,
    (s.each l fun s f => s.fldPut f i v m).fld g j = s.fld g j := by
  induction l with
  | nil => intro s; rfl
  | cons f t ih =>
    intro s
    have hhead : f ≠ g ∨ i % 1048576 ≠ j % 1048576 :=
      h.imp (fun hg e => hg (e ▸ List.mem_cons_self)) Ne.symm
    have htail : g ∉ t ∨ j % 1048576 ≠ i % 1048576 := h.imp_left fun hg hm => hg (List.mem_cons_of_mem _ hm)
    exact (ih htail (s.fldPut f i v m)).trans (State.fld_fldPut_ne s v m hhead)

/-- A fold over different fields leaves in each what the write of that field alone leaves. -/
theorem State.fld_each_fldPut_mem (l : List Fld) {f : Fld} (i v m : Nat) (hl : l.Nodup) (hf : f ∈ l) : ∀ s : State,
    (s.each l fun s f => s.fldPut f i v m).fld f i = (s.fldPut f i v m).fld f i := by
  induction l with
  | nil => cases hf
  | cons g t ih =>
    intro s
    obtain ⟨hg, ht⟩ := List.nodup_cons.1 hl
    rcases List.mem_cons.1 hf with rfl | hft
    · exact State.fld_each_fldPut_other t v m (.inl hg) _
    · have hne : g ≠ f := fun e => hg (e ▸ hft)
      exact (ih ht hft (s.fldPut g i v m)).trans
        (State.fld_fldPut_congr (State.fld_fldPut_ne s v m (.inl hne)) v m)

/-- Each field of a written register holds what its own write leaves. -/
theorem State.fld_regStore_mem (s : State) {r : Reg} {f : Fld} (hf : f ∈ regFlds r) (i v m : Nat) :
    (s.regStore r i v m).fld f i = (s.fldPut f i v m).fld f i :=
  State.fld_each_fldPut_mem (regFlds r) i v m (regFlds_nodup r) hf s

theorem State.fld_regStore_other (s : State) {r : Reg} {g : Fld} {i j : Nat} (v m : Nat)
    (h : g ∉ regFlds r ∨ j % 1048576 ≠ i % 1048576) : (s.regStore r i v m).fld g j = s.fld g j :=
  State.fld_each_fldPut_other (regFlds r) v m h s

/-! ### Bytes of a stored word -/

/-- Byte `k` of a number is its part at 256 ^ k (R9). -/
theorem toBytes_getElem? (n : Nat) : ∀ (v k : Nat), k < n → (toBytes n v)[k]? = some (BitVec.ofNat 8 (v / 256 ^ k)) := by
  induction n with
  | zero => intro v k hk; omega
  | succ n ih =>
    intro v k hk
    cases k with
    | zero => simp [toBytes]
    | succ k =>
      rw [toBytes, List.getElem?_cons_succ, ih (v / 256) k (by omega), Nat.div_div_eq_div_mul, Nat.pow_succ, Nat.mul_comm]

theorem State.ld_stBytes_of_getElem? (d : List Byte) : ∀ (s : State) (a k : Nat) (b : Byte), d[k]? = some b →
    (s.stBytes a d).ld (a + k) = b := by
  induction d with
  | nil => intro s a k b h; simp at h
  | cons c t ih =>
    intro s a k b h
    cases k with
    | zero =>
      obtain rfl : c = b := by simpa using h
      rw [State.stBytes, Nat.add_zero a, State.ld_stBytes_out t _ _ _ (.inl (by omega)), State.ld_st_self]
    | succ k =>
      rw [State.stBytes, show a + (k + 1) = a + 1 + k by omega]
      exact ih (s.st a c) (a + 1) k b (by simpa using h)

theorem State.ld_st8 (s : State) (a v : Nat) {k : Nat} (hk : k < 8) :
    (s.st8 a v).ld (a + k) = BitVec.ofNat 8 (v / 256 ^ k) :=
  State.ld_stBytes_of_getElem? _ s a k _ (toBytes_getElem? 8 v k hk)

theorem State.ld_st8_out (s : State) {a c : Nat} (v : Nat) (h : c < a ∨ a + 8 ≤ c) : (s.st8 a v).ld c = s.ld c :=
  State.ld_stBytes_out (toBytes 8 v) s a c (by rwa [toBytes_length])

@[simp] theorem State.st8_regs (s : State) (a v : Nat) : (s.st8 a v).regs = s.regs := by
  rw [State.st8, State.stBytes_eq]

@[simp] theorem State.st8_poison (s : State) (a v : Nat) : (s.st8 a v).poison = s.poison := by
  rw [State.st8, State.stBytes_eq]

/-! ### The statements -/

/-- Settles O40: each field of the register holds what its own whole write leaves, and the write sets no other key. -/
theorem registerWrite : Obligations.RegisterWrite := by
  intro s r i v hs
  refine ⟨fun f hf => ?_, fun g j h => State.fld_regStore_other s v _ h⟩
  rw [State.fld_regStore_mem s hf]
  exact State.fld_fldPut_whole hs f i v

/-- Settles O41: the bytes by induction on the run that is stored, the rest because a store changes memory alone. -/
theorem littleEndian : Obligations.LittleEndian := fun s a v =>
  ⟨fun _ hk => s.ld_st8 a v hk, s.ld8_st8 a v, fun _ hc => s.ld_st8_out v hc, s.st8_regs a v, s.st8_poison a v⟩

end Sys2Proof.Machine
end

section
/-!
SUPPORT. The bytes of a write with byte enables (R32, R442) and an access to a register block whose power domain is off
(R38): what the first byte of `State.stMasked` does, what a saturating count leaves in its field, what `State.offAccess`
leaves unchanged, the read and the write of `State.regAccess` at such a block, and the two statements they give.
-/
namespace Sys2Proof.Machine

/-! ### Bytes of a write with byte enables -/

/-- The enables of the bytes after the first one. No enables at all stand for a write of every byte, so the end of a list
that has some is a list that enables nothing. -/
def laterEnables : List Bool → List Bool
  | [] => []
  | _ :: u => if u = [] then [false] else u

/-- The later enables enable byte `k` exactly when the list enables byte `k + 1`. -/
theorem laterEnables_enables (be : List Bool) (k : Nat) :
    (laterEnables be = [] ∨ (laterEnables be)[k]? = some true) ↔ (be = [] ∨ be[k + 1]? = some true) := by
  match be with
  | [] => simp [laterEnables]
  | [e] => cases k <;> simp [laterEnables]
  | e :: e' :: u => simp [laterEnables]

/-- The first byte of a masked write, stored when the first enable takes it in. -/
def State.stEnabled (s : State) (f : Byte → Byte → Byte) (a : Nat) (b : Byte) (be : List Bool) : State :=
  if be = [] ∨ be[0]? = some true then s.st a (f (s.ld a) b) else s

theorem State.ld_stEnabled_self (s : State) (f : Byte → Byte → Byte) (a : Nat) (b : Byte) (be : List Bool) :
    (s.stEnabled f a b be).ld a = if be = [] ∨ be[0]? = some true then f (s.ld a) b else s.ld a := by
  rw [State.stEnabled, apply_ite (State.ld · a), State.ld_st_self]

theorem State.ld_stEnabled_ne (s : State) (f : Byte → Byte → Byte) {a c : Nat} (b : Byte) (be : List Bool) (h : c ≠ a) :
    (s.stEnabled f a b be).ld c = s.ld c := by
  rw [State.stEnabled, apply_ite (State.ld · c), State.ld_st_ne s _ h, ite_self]

/-- A masked write does its first byte by the first enable, then the other bytes by the later ones. -/
theorem State.stMasked_cons (s : State) (f : Byte → Byte → Byte) (a : Nat) (b : Byte) (t : List Byte) (be : List Bool) :
    s.stMasked f a (b :: t) be = (s.stEnabled f a b be).stMasked f (a + 1) t (laterEnables be) := by
  cases be with
  | nil => rfl
  | cons e u => simp [State.stMasked, State.stEnabled, laterEnables]

theorem State.ld_stMasked_out (f : Byte → Byte → Byte) (data : List Byte) : ∀ (s : State) (a : Nat) (be : List Bool)
    (c : Nat), (c < a ∨ a + data.length ≤ c) → (s.stMasked f a data be).ld c = s.ld c := by
  induction data with
  | nil => intro s a be c _; simp [State.stMasked]
  | cons b t ih =>
    intro s a be c h
    simp only [List.length_cons] at h
    rw [State.stMasked_cons, ih _ (a + 1) _ c (by omega), State.ld_stEnabled_ne s f b be (by omega)]

/-- A byte that the write covers: the bytes after it do not reach it, and the bytes before it leave what it is combined
with as it was. -/
theorem State.ld_stMasked_of_getElem? (f : Byte → Byte → Byte) (data : List Byte) : ∀ (s : State) (a : Nat)
    (be : List Bool) (k : Nat) (b : Byte), data[k]? = some b → (s.stMasked f a data be).ld (a + k)
      = if be = [] ∨ be[k]? = some true then f (s.ld (a + k)) b else s.ld (a + k) := by
  induction data with
  | nil => intro s a be k b h; simp at h
  | cons c t ih =>
    intro s a be k b h
    rw [State.stMasked_cons]
    cases k with
    | zero =>
      obtain rfl : c = b := by simpa using h
      rw [Nat.add_zero a, State.ld_stMasked_out f t _ (a + 1) _ a (.inl (by omega)), State.ld_stEnabled_self]
    | succ k =>
      have hrest := ih (s.stEnabled f a c be) (a + 1) (laterEnables be) k b (by simpa using h)
      rw [show a + 1 + k = a + (k + 1) by omega, State.ld_stEnabled_ne s f c be (by omega)] at hrest
      simp only [hrest, laterEnables_enables]

/-! ### Saturating counters and the record of an access to a domain that is off -/

/-- A counter stops at the largest value of its field (R11). -/
theorem State.fld_count_self (s : State) (f : Fld) (i n : Nat) :
    (s.count f i n).fld f i = min (2 ^ (fldInfo f).w - 1) (s.fld f i + n) := by
  have := Nat.two_pow_pos (fldInfo f).w
  rw [State.count, State.fld_set_self]
  exact Nat.mod_eq_of_lt (by omega)

theorem State.fld_count_ne (s : State) {f g : Fld} {i j : Nat} (n : Nat) (h : f ≠ g ∨ i % 1048576 ≠ j % 1048576) :
    (s.count f i n).fld g j = s.fld g j :=
  State.fld_set_ne s _ h

theorem State.fld_offAccess_cnt (s : State) (d : Nat) :
    (s.offAccess d).fld .PWR_OFF_ACCESS_CNT_CNT = min (2 ^ 24 - 1) (s.fld .PWR_OFF_ACCESS_CNT_CNT + 1) := by
  rw [State.offAccess, State.fld_set_ne _ _ (.inl (by decide)), State.fld_count_self]
  rfl

/-- The record of such an access names no field but the two of PWR_OFF_ACCESS_CNT. -/
theorem State.fld_offAccess_other (s : State) (d : Nat) {f : Fld} (i : Nat) (hcnt : f ≠ .PWR_OFF_ACCESS_CNT_CNT)
    (hdom : f ≠ .PWR_OFF_ACCESS_CNT_LAST_DOM) : (s.offAccess d).fld f i = s.fld f i := by
  rw [State.offAccess, State.fld_set_ne _ _ (.inl hdom.symm), State.fld_count_ne _ _ (.inl hcnt.symm)]

/-! ### Accesses to a block whose domain is off -/

theorem beRuns_ne_nil_of_regRun {r : Req} {x : Nat × List Byte} (h : regRun r = some x) : beRuns r.be 0 r.data ≠ [] := by
  intro hnil
  simp [regRun, hnil] at h

section
variable {s : State} {r : Req} {b off : Nat} {blk : Block}

/-- A read of 4 or 8 aligned bytes that the requester may make, in a domain that is off. -/
theorem State.regAccess_read_off (hb : blockAt b = some blk) (hoff : s.domOn (blockDom blk off) = false)
    (hmay : r.view ≠ 2 ∨ s.viewMay r.fn b off = true) (hk : r.kind = .read) (hlen : r.len = 4 ∨ r.len = 8)
    (hal : off % r.len = 0) :
    s.regAccess r b off = (s.offAccess (blockDom blk off)).finish r 0 (List.replicate r.len 0xFF) := by
  have hshape : ((r.len == 4 || r.len == 8) && off % r.len == 0) = true := by simp [hlen, hal]
  have hallowed : (!(r.view == 2) || s.viewMay r.fn b off) = true := by simpa using hmay
  simp [State.regAccess, hb, hk, hshape, hallowed, hoff]

/-- A write of one aligned run of 4 or 8 bytes that the requester may make, in a domain that is off. -/
theorem State.regAccess_write_off (hb : blockAt b = some blk) (hoff : s.domOn (blockDom blk off) = false)
    (hmay : r.view ≠ 2 ∨ s.viewMay r.fn b off = true) (hk : r.kind = .write) {x : Nat × List Byte}
    (hrun : regRun r = some x) : s.regAccess r b off = (s.offAccess (blockDom blk off)).finish r 0 [] := by
  have hallowed : (!(r.view == 2) || s.viewMay r.fn b off) = true := by simpa using hmay
  simp [State.regAccess, hb, hk, beRuns_ne_nil_of_regRun hrun, hrun, hallowed, hoff]

end

/-! ### The statements -/

/-- Settles O42: by induction on the data, each byte first by its own enable and then left alone by the later bytes. -/
theorem enabledBytes : Obligations.EnabledBytes := fun s f a data be =>
  ⟨fun k b h => State.ld_stMasked_of_getElem? f data s a be k b h, fun c h => State.ld_stMasked_out f data s a be c h⟩

/-- Settles O45: the read and the write by the branch of a domain that is off, the rest because the record of the access
sets the two fields of PWR_OFF_ACCESS_CNT alone. -/
theorem offDomainAccess : Obligations.OffDomainAccess := fun s _ _ off blk hb hoff hmay =>
  ⟨fun hk hlen hal => State.regAccess_read_off hb hoff hmay hk hlen hal,
    fun _ _ hk hrun => State.regAccess_write_off hb hoff hmay hk hrun,
    s.fld_offAccess_cnt (blockDom blk off), fun _ i hcnt hdom => s.fld_offAccess_other (blockDom blk off) i hcnt hdom⟩

end Sys2Proof.Machine
end

section
/-!
SUPPORT. The poison marks after a write (R170, R451) and the sequence number of a ledger entry (R154): what one step of
`State.markWrite` leaves at its own granule and at every other, what `State.entryOpen` does when nothing is mirrored, and
the two statements they give.
-/
namespace Sys2Proof.Machine

/-! ### The mark of one granule -/

@[simp] theorem granule_granule_add (a i : Nat) : granule (granule a + 64 * i) = granule a + 64 * i := by
  unfold granule
  omega

@[simp] theorem State.isPoison_setPoison_self (s : State) (a : Nat) (b : Bool) : (s.setPoison a b).isPoison a = b := by
  simp [State.isPoison, State.setPoison]

theorem State.isPoison_setPoison_ne (s : State) {a c : Nat} (b : Bool) (h : granule c ≠ granule a) :
    (s.setPoison a b).isPoison c = s.isPoison c :=
  smGet_smSet_ne _ s.poison b h

/-- The mark a write leaves on granule `g`: its own where it writes the whole granule, else the old one or its own
(R451). -/
def markAfter (g a : Nat) (data : List Byte) (be : List Bool) (own old : Bool) : Bool :=
  if fullGranule g a data be = true then own else own || old

/-- What a write does to the mark of the `i`-th granule it touches. -/
def State.markGranule (a : Nat) (data : List Byte) (be : List Bool) (pois : List Nat) (s : State) (i : Nat) : State :=
  if fullGranule (granule a + 64 * i) a data be then s.setPoison (granule a + 64 * i) (pois.contains i)
  else if pois.contains i then s.setPoison (granule a + 64 * i) true else s

section
variable {a : Nat} {data : List Byte} {be : List Bool} {pois : List Nat}

theorem State.isPoison_markGranule_self (s : State) (i : Nat) :
    (s.markGranule a data be pois i).isPoison (granule a + 64 * i)
      = markAfter (granule a + 64 * i) a data be (pois.contains i) (s.isPoison (granule a + 64 * i)) := by
  unfold State.markGranule markAfter
  split
  · exact s.isPoison_setPoison_self _ _
  · split
    · next hp => rw [State.isPoison_setPoison_self, hp, Bool.true_or]
    · next hp => rw [eq_false_of_ne_true hp, Bool.false_or]

theorem State.isPoison_markGranule_ne (s : State) {i c : Nat} (h : granule c ≠ granule a + 64 * i) :
    (s.markGranule a data be pois i).isPoison c = s.isPoison c := by
  have hput (b : Bool) : (s.setPoison (granule a + 64 * i) b).isPoison c = s.isPoison c :=
    s.isPoison_setPoison_ne b (by rwa [granule_granule_add])
  unfold State.markGranule
  split
  · exact hput _
  · split
    · exact hput _
    · rfl

/-! ### The marks of the first granules of a write -/

theorem State.each_range_succ (s : State) (f : State → Nat → State) (n : Nat) :
    s.each (List.range (n + 1)) f = f (s.each (List.range n) f) n := by
  rw [State.each, List.range_succ, List.foldl_append, List.foldl_cons, List.foldl_nil, State.each]

theorem State.markWrite_eq_each (s : State) :
    s.markWrite a data be pois
      = s.each (List.range (granCount a data.length)) (State.markGranule a data be pois) := rfl

theorem State.isPoison_each_markGranule_ne (s : State) {n c : Nat} (h : ∀ i < n, granule c ≠ granule a + 64 * i) :
    (s.each (List.range n) (State.markGranule a data be pois)).isPoison c = s.isPoison c := by
  induction n with
  | zero => rfl
  | succ n ih =>
    rw [State.each_range_succ, State.isPoison_markGranule_ne _ (h n n.lt_succ_self)]
    exact ih fun i hi => h i (Nat.lt_succ_of_lt hi)

/-- A granule's own step decides its mark: the steps before and after it are at other granules. -/
theorem State.isPoison_each_markGranule_mem (s : State) {n i : Nat} (hi : i < n) :
    (s.each (List.range n) (State.markGranule a data be pois)).isPoison (granule a + 64 * i)
      = markAfter (granule a + 64 * i) a data be (pois.contains i) (s.isPoison (granule a + 64 * i)) := by
  have hother {j : Nat} (hj : i ≠ j) : granule (granule a + 64 * i) ≠ granule a + 64 * j := by
    rw [granule_granule_add]
    omega
  induction n with
  | zero => omega
  | succ n ih =>
    rw [State.each_range_succ]
    rcases Nat.lt_succ_iff_lt_or_eq.1 hi with hlt | rfl
    · rw [State.isPoison_markGranule_ne _ (hother (by omega)), ih hlt]
    · rw [State.isPoison_markGranule_self, State.isPoison_each_markGranule_ne _ fun j hj => hother (by omega)]

end

/-- An address before the first granule of a run, or past its last, lies in none of its granules. -/
theorem granule_ne_of_outside {a c n : Nat} (h : c < granule a ∨ granule a + 64 * n ≤ c) :
    ∀ i < n, granule c ≠ granule a + 64 * i := by
  unfold granule at *
  omega

/-! ### A ledger entry that opens -/

/-- The overflow area of the ledger is memory (R155): what an opening entry leaves there changes nothing else. -/
theorem State.ovfPut_eq (s : State) (e : LEnt) : s.ovfPut e = { s with mem := (s.ovfPut e).mem } := by
  unfold State.ovfPut
  split
  · rfl
  · exact State.stBytes_eq _ s _

theorem State.ovfOpen_eq (s : State) (e : LEnt) : s.ovfOpen e = { s with mem := (s.ovfOpen e).mem } := by
  have hput := s.ovfPut_eq e
  unfold State.ovfOpen
  split
  · have hdata := State.stBytes_eq e.req.data (s.ovfPut e) ((s.ovfPut e).ovfUnit e)
    rw [hput] at hdata ⊢
    exact hdata
  · exact hput

@[simp] theorem State.ovfOpen_ledger (s : State) (e : LEnt) : (s.ovfOpen e).ledger = s.ledger := by
  rw [State.ovfOpen_eq]

@[simp] theorem State.ovfOpen_ldgWait (s : State) (e : LEnt) : (s.ovfOpen e).ldgWait = s.ldgWait := by
  rw [State.ovfOpen_eq]

@[simp] theorem State.ovfOpen_regs (s : State) (e : LEnt) : (s.ovfOpen e).regs = s.regs := by
  rw [State.ovfOpen_eq]

/-- Without a mirror the entry opens as `State.newEnt` forms it, and the one field set is NEXT of its pair. -/
theorem State.entryOpen_of_not_mirrors {s : State} (h : s.mirrors = false) (w : LWait) (p init : Nat) :
    s.entryOpen w p init
      = ({ s with ldgWait := s.ldgWait.erase w, ledger := s.ledger ++ [s.newEnt w p init] }.ovfOpen
          (s.newEnt w p init)).set .LDG_SEQ_NEXT (32 * p + init) ((s.seqNext p init + 1) % 65536) := by
  simp only [State.entryOpen, h, Bool.false_and, Bool.false_eq_true, if_false]
  rfl

section
variable {s : State} (h : s.mirrors = false) (w : LWait) (p init : Nat)
include h

theorem State.ledger_entryOpen : (s.entryOpen w p init).ledger = s.ledger ++ [s.newEnt w p init] := by
  simp [State.entryOpen_of_not_mirrors h]

theorem State.ldgWait_entryOpen : (s.entryOpen w p init).ldgWait = s.ldgWait.erase w := by
  simp [State.entryOpen_of_not_mirrors h]

theorem State.seqNext_entryOpen_self : (s.entryOpen w p init).seqNext p init = (s.seqNext p init + 1) % 65536 := by
  rw [State.entryOpen_of_not_mirrors h, State.seqNext, State.fld_set_self]
  exact Nat.mod_mod _ 65536

/-- NEXT of every other pair stays: the register has 32 indices for each port, so pairs in range do not meet. -/
theorem State.seqNext_entryOpen_ne (hp : p < 32768) (hinit : init < 32) {q i : Nat} (hq : q < 32768) (hi : i < 32)
    (hne : q ≠ p ∨ i ≠ init) : (s.entryOpen w p init).seqNext q i = s.seqNext q i := by
  have hidx : (32 * p + init) % 1048576 ≠ (32 * q + i) % 1048576 := by omega
  rw [State.entryOpen_of_not_mirrors h, State.seqNext, State.fld_set_ne _ _ (.inr hidx)]
  exact State.fld_congr (by simp) _ _

end

/-! ### The statements -/

/-- Settles O43: each granule's mark by its own step, and every other address because the steps name none of its
granule. -/
theorem poisonMarks : Obligations.PoisonMarks := by
  intro s a data be pois
  rw [State.markWrite_eq_each]
  exact ⟨fun i hi => s.isPoison_each_markGranule_mem hi,
    fun c hc => s.isPoison_each_markGranule_ne (granule_ne_of_outside hc)⟩

/-- Settles O58: the entry is `State.newEnt`, put behind those open, and NEXT of its pair is the one field that is set. -/
theorem ledgerSequence : Obligations.LedgerSequence := fun s w p init hp hinit h =>
  ⟨⟨s.newEnt w p init, State.ledger_entryOpen h w p init, rfl, rfl, rfl, rfl, rfl⟩, State.ldgWait_entryOpen h w p init,
    State.seqNext_entryOpen_self h w p init,
    fun _ _ hq hi hne => State.seqNext_entryOpen_ne h w p init hp hinit hq hi hne⟩

end Sys2Proof.Machine
end

section
/-!
SUPPORT. What a lane sends and what its receiver reads (R188, R192, R193, R195) and a tap's answer to a coefficient request
(R198): one pair of bits as a level, 32 bits through the scrambler and back, the fields of a sealed control block, the
first block of a lane in a run of blocks, and the two statements they give.
-/
namespace Sys2Proof.Machine

/-! ### Levels of pairs (R188) -/

/-- The first bits of `k` pairs. -/
def pairMask : Nat → Nat
  | 0 => 0
  | k + 1 => 1 + 4 * pairMask k

/-- The levels of the `k` lowest pairs of a word. -/
def pairLevels (k v : Nat) : Nat := 2 * (v &&& pairMask k) + ((v &&& pairMask k) ^^^ (v / 2 &&& pairMask k))

/-- The `k` pairs that levels spell. -/
def levelPairs (k v : Nat) : Nat := (v / 2 &&& pairMask k) + 2 * ((v / 2 &&& pairMask k) ^^^ (v &&& pairMask k))

/-- A block is 33 pairs: its mask of first bits is the mask of 33. -/
theorem lineLevels_two (v : Nat) : lineLevels 2 v = pairLevels 33 v := rfl

theorem lineBlock_two (v : Nat) : lineBlock 2 v = levelPairs 33 v := rfl

theorem lineLevels_of_ne {rate : Nat} (h : rate ≠ 2) (v : Nat) : lineLevels rate v = v := if_neg h

theorem lineBlock_of_ne {rate : Nat} (h : rate ≠ 2) (v : Nat) : lineBlock rate v = v := if_neg h

/-- The first bit of the lowest pair, and the first bits of the pairs above it. -/
theorem and_pairMask_succ (v k : Nat) : v &&& pairMask (k + 1) = v % 2 + 4 * (v / 4 &&& pairMask k) := by
  have hlow : (v &&& pairMask (k + 1)) % 2 ^ 2 = v % 4 &&& 1 := by
    rw [Nat.and_mod_two_pow, show pairMask (k + 1) % 2 ^ 2 = 1 by simp only [pairMask]; omega]
  have hhigh : (v &&& pairMask (k + 1)) / 2 ^ 2 = v / 4 &&& pairMask k := by
    rw [Nat.and_div_two_pow, show pairMask (k + 1) / 2 ^ 2 = pairMask k by simp only [pairMask]; omega]
  rw [Nat.and_one_is_mod] at hlow
  omega

theorem xor_pairs (x y a b : Nat) : (x % 2 + 4 * a) ^^^ (y % 2 + 4 * b) = (x + y) % 2 + 4 * (a ^^^ b) := by
  have hlow : ((x % 2 + 4 * a) ^^^ (y % 2 + 4 * b)) % 2 ^ 2 = (x + y) % 2 := by
    rw [Nat.xor_mod_two_pow, show (x % 2 + 4 * a) % 2 ^ 2 = x % 2 by omega, show (y % 2 + 4 * b) % 2 ^ 2 = y % 2 by omega]
    rcases Nat.mod_two_eq_zero_or_one x with hx | hx <;> rcases Nat.mod_two_eq_zero_or_one y with hy | hy <;>
      simp [hx, hy, Nat.add_mod]
  have hhigh : ((x % 2 + 4 * a) ^^^ (y % 2 + 4 * b)) / 2 ^ 2 = a ^^^ b := by
    rw [Nat.xor_div_two_pow, show (x % 2 + 4 * a) / 2 ^ 2 = a by omega, show (y % 2 + 4 * b) / 2 ^ 2 = b by omega]
  omega

/-- The lowest pair gives the lowest level, and the pairs above it the levels above it. -/
theorem pairLevels_succ (k v : Nat) :
    pairLevels (k + 1) v = 2 * (v % 2) + (v + v / 2) % 2 + 4 * pairLevels k (v / 4) := by
  have hshift : v / 2 / 4 = v / 4 / 2 := by omega
  simp only [pairLevels, and_pairMask_succ, xor_pairs, hshift]
  omega

theorem levelPairs_succ (k v : Nat) :
    levelPairs (k + 1) v = v / 2 % 2 + 2 * ((v / 2 + v) % 2) + 4 * levelPairs k (v / 4) := by
  have hshift : v / 2 / 4 = v / 4 / 2 := by omega
  simp only [levelPairs, and_pairMask_succ, xor_pairs, hshift]
  omega

/-- The table of R188, with the first bit of a pair as the lower one of the word. -/
theorem pairLevels_low (k v : Nat) :
    v % 4 = 0 ∧ pairLevels (k + 1) v % 4 = 0 ∨ v % 4 = 2 ∧ pairLevels (k + 1) v % 4 = 1 ∨
      v % 4 = 3 ∧ pairLevels (k + 1) v % 4 = 2 ∨ v % 4 = 1 ∧ pairLevels (k + 1) v % 4 = 3 := by
  have hlevels := pairLevels_succ k v
  have hpair : v % 4 = 0 ∨ v % 4 = 1 ∨ v % 4 = 2 ∨ v % 4 = 3 := by omega
  rcases hpair with h | h | h | h <;> omega

theorem pairLevels_above (k v : Nat) : pairLevels (k + 1) v / 4 = pairLevels k (v / 4) := by
  rw [pairLevels_succ]
  omega

/-- The levels of `k` pairs spell the pairs, symbol by symbol. -/
theorem levelPairs_pairLevels (k : Nat) : ∀ v < 4 ^ k, levelPairs k (pairLevels k v) = v := by
  induction k with
  | zero =>
    intro v hv
    obtain rfl : v = 0 := by omega
    rfl
  | succ k ih =>
    intro v hv
    rw [levelPairs_succ, pairLevels_above, ih (v / 4) (by omega)]
    rcases pairLevels_low k v with h | h | h | h <;> omega

theorem lineBlock_lineLevels (rate : Nat) {v : Nat} (hv : v < 2 ^ 66) : lineBlock rate (lineLevels rate v) = v := by
  by_cases h : rate = 2
  · subst h
    exact levelPairs_pairLevels 33 v hv
  · rw [lineBlock_of_ne h, lineLevels_of_ne h]

/-! ### The scrambler (R192) -/

theorem scrambleBits_fst_lt (n h x : Nat) : (scrambleBits n h x).1 < 2 ^ n := Nat.mod_lt _ (Nat.two_pow_pos n)

/-- The descrambler takes the `n` bits it is given and none above them. -/
theorem descrambleBits_mod (n h x : Nat) : descrambleBits n h (x % 2 ^ n) = descrambleBits n h x := by
  simp only [descrambleBits, Nat.xor_mod_two_pow, Nat.mod_mod]

theorem xor_twice (x a b : Nat) : x ^^^ a ^^^ b ^^^ a ^^^ b = x := by
  rw [Nat.xor_assoc x a b, Nat.xor_assoc (x ^^^ (a ^^^ b)) a b, Nat.xor_assoc x, Nat.xor_self, Nat.xor_zero]

/-- The same past bits, XORed a second time, leave the bits that were scrambled, and both ends keep the same past. -/
theorem descrambleBits_scrambleBits (n h x : Nat) :
    descrambleBits n h (scrambleBits n h x).1 = (x % 2 ^ n, (scrambleBits n h x).2) := by
  simp only [descrambleBits, scrambleBits, Nat.mod_mod, Prod.mk.injEq, and_true]
  rw [Nat.xor_mod_two_pow, Nat.xor_mod_two_pow, Nat.mod_mod, ← Nat.xor_mod_two_pow, ← Nat.xor_mod_two_pow, xor_twice]

theorem descramble_scramble (h : Nat) {x : Nat} (hx : x < 2 ^ 64) :
    descramble h (scramble h x).1 = (x, (scramble h x).2) := by
  have hlow := descrambleBits_scrambleBits 32 h x
  have hhigh := descrambleBits_scrambleBits 32 (scrambleBits 32 h x).2 (x / 2 ^ 32)
  have hlt := scrambleBits_fst_lt 32 h x
  have hfirst : descrambleBits 32 h (scramble h x).1 = (x % 2 ^ 32, (scrambleBits 32 h x).2) := by
    rw [← descrambleBits_mod, ← hlow, scramble, Nat.add_mul_mod_self_right, Nat.mod_eq_of_lt hlt]
  have hrest : (scramble h x).1 / 2 ^ 32 = (scrambleBits 32 (scrambleBits 32 h x).2 (x / 2 ^ 32)).1 := by
    simp only [scramble]
    omega
  simp only [descramble, hfirst, hrest, hhigh]
  rw [show x % 2 ^ 32 + x / 2 ^ 32 % 2 ^ 32 * 2 ^ 32 = x by omega]
  rfl

/-! ### Lane control blocks (R193) -/

theorem laneCtl_train {w : Nat} (hgood : laneGood w = true) (htype : w % 256 = 0xC0) :
    laneCtl w = .train
      { lane := fieldAt w 10 8, width := fieldAt w 14 11, rates := fieldAt w 17 15, target := fieldAt w 19 18
        preReq := fieldAt w 21 20, postReq := fieldAt w 23 22, preSts := fieldAt w 25 24, postSts := fieldAt w 27 26
        rxReady := w.testBit 28, readySeen := w.testBit 29, phase := fieldAt w 31 30, linkId := fieldAt w 39 32 } := by
  simp [laneCtl, hgood, htype]

theorem laneCtl_marker {w : Nat} (hgood : laneGood w = true) (htype : w % 256 = 0xC1) :
    laneCtl w = .marker
      { lane := fieldAt w 10 8, active := fieldAt w 18 11, rxok := fieldAt w 26 19, cmd := fieldAt w 30 27
        arg := fieldAt w 38 31, mcount := fieldAt w 46 39 } := by
  simp [laneCtl, hgood, htype]

theorem laneCtl_trainWord {b : TrainBlk} (hb : b.fits) : laneCtl (trainWord b) = .train b := by
  obtain ⟨hlane, hwidth, hrates, htarget, hpreReq, hpostReq, hpreSts, hpostSts, hphase, hlink⟩ := hb
  have hready := bit_lt b.rxReady
  have hseen := bit_lt b.readySeen
  obtain ⟨c, hc, hgood, hw⟩ : ∃ c, c < 256 ∧ laneGood (trainWord b) = true ∧ trainWord b = _ + c * 2 ^ 56 :=
    laneSeal_ctl _
  generalize trainWord b = w at hgood hw ⊢
  simp only [flagPut_bit] at hw
  unfold fieldPut at hw
  rw [laneCtl_train hgood (by omega), testBit_of_flag (b := b.rxReady) (by omega),
    testBit_of_flag (b := b.readySeen) (by omega)]
  unfold fieldAt
  congr <;> omega

theorem laneCtl_markWord {b : MarkBlk} (hb : b.fits) : laneCtl (markWord b) = .marker b := by
  obtain ⟨hlane, hactive, hrxok, hcmd, harg, hmcount⟩ := hb
  obtain ⟨c, hc, hgood, hw⟩ : ∃ c, c < 256 ∧ laneGood (markWord b) = true ∧ markWord b = _ + c * 2 ^ 56 :=
    laneSeal_ctl _
  generalize markWord b = w at hgood hw ⊢
  unfold fieldPut at hw
  rw [laneCtl_marker hgood (by omega)]
  unfold fieldAt
  congr <;> omega

/-! ### The stripe (R195) -/

section
variable {α : Type}

theorem stripeLane_of_ne_nil {act : List Nat} (h : act ≠ []) (n : Nat) : ∃ i, stripeLane act n = some i :=
  ⟨_, List.getElem?_eq_getElem (Nat.mod_lt n (List.length_pos_iff.mpr h))⟩

/-- Taking the first block of a lane leaves the lane's later blocks, and every other lane's, as they came in. -/
theorem takeLane_of_filter {i : Nat} {b : α} {t : List (Nat × α)} : ∀ {got : List (Nat × α)},
    got.filter (·.1 = i) = (i, b) :: t → ∃ rest, takeLane i got = some (b, rest) ∧ rest.filter (·.1 = i) = t ∧
      ∀ j ≠ i, rest.filter (·.1 = j) = got.filter (·.1 = j) := by
  intro got
  induction got with
  | nil => simp
  | cons e got ih =>
    intro h
    by_cases he : e.1 = i
    · simp only [List.filter_cons, he, decide_true, if_true, List.cons.injEq] at h
      obtain ⟨rfl, ht⟩ := h
      exact ⟨got, by simp [takeLane], ht, fun j hj => by simp [Ne.symm hj]⟩
    · obtain ⟨rest, htake, hown, hother⟩ := ih (by simpa [he] using h)
      exact ⟨e :: rest, by simp [takeLane, he, htake], by simpa [he] using hown,
        fun j hj => by simp [List.filter_cons, hother j hj]⟩

/-- The receiver finds each block as the first that is left of its lane. -/
theorem unstripe_of_lanes {act : List Nat} (hact : act ≠ []) (bs : List α) : ∀ (n : Nat) (got : List (Nat × α)),
    (∀ i, got.filter (·.1 = i) = (stripe act n bs).filter (·.1 = i)) → unstripe act bs.length n got = bs := by
  induction bs with
  | nil => exact fun _ _ _ => rfl
  | cons b bs ih =>
    intro n got h
    obtain ⟨i, hi⟩ := stripeLane_of_ne_nil hact n
    simp only [stripe, hi] at h
    obtain ⟨rest, htake, hown, hother⟩ := takeLane_of_filter ((h i).trans (List.filter_cons_of_pos (by simp)))
    have hlanes : ∀ j, rest.filter (·.1 = j) = (stripe act (n + 1) bs).filter (·.1 = j) := by
      intro j
      by_cases hj : j = i
      · rw [hj, hown]
      · rw [hother j hj, h j, List.filter_cons_of_neg (by simpa using Ne.symm hj)]
    simp only [List.length_cons, unstripe, hi, htake, ih (n + 1) rest hlanes]

end

/-! ### A coefficient request (R198) -/

/-- The step a tap takes: up or down where the guard leaves room, the preset, or the old one. -/
theorem tapStep_fst (req cur init n : Nat) : (tapStep req cur init n).1
    = if req = 1 then (if cur + 1 < n then cur + 1 else cur) else if req = 2 then (if 0 < cur then cur - 1 else cur)
      else if req = 3 then init else cur := by
  simp only [tapStep, apply_ite Prod.fst]

theorem tapStep_up (cur init n : Nat) : (tapStep 1 cur init n).1 = if cur + 1 < n then cur + 1 else cur :=
  tapStep_fst 1 cur init n

theorem tapStep_down (cur init n : Nat) : (tapStep 2 cur init n).1 = if 0 < cur then cur - 1 else cur :=
  tapStep_fst 2 cur init n

/-- Every branch keeps the step, takes the preset, or moves by one only where its guard leaves room. -/
theorem tapStep_lt (req : Nat) {cur init n : Nat} (hcur : cur < n) (hinit : init < n) : (tapStep req cur init n).1 < n := by
  rw [tapStep_fst]
  repeat' split
  all_goals omega

/-! ### The statements -/

/-- Settles O57: the tap's range by the guards of `tapStep`, and each request by its own branch. -/
theorem equaliserTap : Obligations.EqualiserTap := by
  intro req cur init n hcur hinit
  refine ⟨tapStep_lt req hcur hinit, rfl, rfl, fun hroom => ?_, fun hlast => ?_, fun hroom => ?_, fun hfirst => ?_⟩
  · rw [tapStep_up, if_pos hroom]
  · rw [tapStep_up, if_neg (by omega)]
  · rw [tapStep_down, if_pos hroom]
  · rw [tapStep_down, if_neg (by omega), hfirst]

/-- Settles O59: the fields of a sealed word, the same past bits at both ends of the scrambler, the pairs of a block one by
one, and each block of a stripe as the first that is left of its lane. Where the CRC-8 stands above the fields is
assumption 73. -/
theorem laneBlockRoundTrip : Obligations.LaneBlockRoundTrip :=
  ⟨fun _ => laneCtl_trainWord, fun _ => laneCtl_markWord, fun h _ => descramble_scramble h,
    fun rate _ => lineBlock_lineLevels rate, fun _ bs n got hact => unstripe_of_lanes hact bs n got⟩

end Sys2Proof.Machine
end

section
/-!
SUPPORT. Packets in blocks and their reading (R218 to R244, R394), the fields of a control block (R213, R214) and the value
an atomic leaves (R226): a run of blocks packet by packet, each packet by the fields of its first words, and the two
statements they give.
-/
namespace Sys2Proof.Machine

/-! ### A run of packets -/

/-- Blocks that are one whole packet to a receiver, and that packet. -/
def ReadsBack (seam : Bool) (base : Nat → Nat) (ws : List Nat) (k : UrPkt) : Prop :=
  ∃ w0 t, ws = w0 :: t ∧ pktBlocks seam base w0 (t.getD 0 0) = t.length + 1 ∧
    (if seam then seamRead (w0 :: t) else urRead base (w0 :: t)) = some k

/-- The first word enters by an equation alone, so that its fields are arithmetic on a variable. -/
theorem ReadsBack.urone {base : Nat → Nat} {w0 : Nat} {t : List Nat} {k : UrPkt}
    (h : ∀ w, w0 = w → pktBlocks false base w (t.getD 0 0) = t.length + 1 ∧ urRead base (w :: t) = some k) :
    ReadsBack false base (w0 :: t) k :=
  ⟨w0, t, rfl, h w0 rfl⟩

theorem ReadsBack.ofSeam {base : Nat → Nat} {w0 : Nat} {t : List Nat} {k : UrPkt}
    (h : ∀ w, w0 = w → pktBlocks true base w (t.getD 0 0) = t.length + 1 ∧ seamRead (w :: t) = some k) :
    ReadsBack true base (w0 :: t) k :=
  ⟨w0, t, rfl, h w0 rfl⟩

/-- Packets that each read back read back in a run, the first of them first. -/
theorem readPkts_flatMap {α : Type} {seam : Bool} {base : Nat → Nat} {words : α → List Nat} {pkt : α → UrPkt}
    {ks : List α} (h : ∀ k ∈ ks, ReadsBack seam base (words k) (pkt k)) :
    readPkts seam base ks.length (ks.flatMap words) = (ks.map pkt, []) := by
  induction ks with
  | nil => rfl
  | cons k ks ih =>
    obtain ⟨⟨w0, t, hw, hlen, hread⟩, hks⟩ := List.forall_mem_cons.1 h
    rw [List.flatMap_cons, hw, List.length_cons, readPkts_front _ _ hlen hread, ih hks, List.map_cons]

/-! ### Data and the poison mask -/

/-- Data lie in the blocks that R224 counts, none for no data. -/
theorem length_blocksFrom (a : Nat) (d : List Byte) : (blocksFrom a d).length = dataBlocks a d.length := by
  by_cases hd : d = []
  · simp [hd, blocksFrom, dataBlocks]
  · exact (blocksFrom_bytes a [] hd).2

theorem bytesFrom_blocksFrom (a : Nat) (d : List Byte) (m : List Nat) :
    bytesFrom a d.length (blocksFrom a d ++ m) = d := by
  by_cases hd : d = []
  · simp [hd, bytesFrom]
  · exact (blocksFrom_bytes a m hd).1

theorem length_mask (mask : Option Nat) : mask.toList.length = bit mask.isSome := by cases mask <;> rfl

/-- The mask block is the one behind the data (R225). -/
theorem mask_behind_data (a : Nat) (d : List Byte) (mask : Option Nat) :
    (if mask.isSome then some ((blocksFrom a d ++ mask.toList)[dataBlocks a d.length]?.getD 0) else none) = mask := by
  rw [← length_blocksFrom]
  cases mask <;> simp

/-! ### Link packets and sideband packets of the Urone link -/

section
variable {base : Nat → Nat}

theorem readsBack_flow {vc h d : Nat} (hk : (UrPkt.flow vc h d).fits base) :
    ReadsBack false base (urWords (.flow vc h d)) (.flow vc h d) := by
  obtain ⟨hvc, hh, hd⟩ := hk
  refine .urone fun w hw => ?_
  unfold fieldPut at hw
  obtain ⟨hkind, hvc', hh', hd'⟩ : w % 32 = 1 ∧ fieldAt w 6 5 = vc ∧ fieldAt w 19 8 = h ∧ fieldAt w 35 20 = d := by
    unfold fieldAt
    omega
  simp [pktBlocks, urRead, hkind, hvc', hh', hd']

theorem readsBack_hello {v sb id : Nat} {at_ sa du dz dp : Bool} (hk : (UrPkt.hello v at_ sa du dz dp sb id).fits base) :
    ReadsBack false base (urWords (.hello v at_ sa du dz dp sb id)) (.hello v at_ sa du dz dp sb id) := by
  obtain ⟨hv, hsb, hid⟩ := hk
  have bat := bit_lt at_
  have bsa := bit_lt sa
  have bdu := bit_lt du
  have bdz := bit_lt dz
  have bdp := bit_lt dp
  refine .urone fun w hw => ?_
  simp only [flagPut_bit] at hw
  unfold fieldPut at hw
  obtain ⟨hkind, hv', hat, hsa, hdu, hdz, hdp, hsb'⟩ : w % 32 = 2 ∧ fieldAt w 15 8 = v ∧ w / 2 ^ 16 % 2 = bit at_ ∧
      w / 2 ^ 17 % 2 = bit sa ∧ w / 2 ^ 18 % 2 = bit du ∧ w / 2 ^ 19 % 2 = bit dz ∧ w / 2 ^ 20 % 2 = bit dp ∧
      fieldAt w 32 21 = sb := by
    unfold fieldAt
    omega
  simp [-Nat.reducePow, pktBlocks, urRead, hkind, hv', testBit_of_flag hat, testBit_of_flag hsa, testBit_of_flag hdu,
    testBit_of_flag hdz, testBit_of_flag hdp, hsb', Nat.mod_eq_of_lt hid]

theorem readsBack_streamSync {init first : Nat} (hk : (UrPkt.streamSync init first).fits base) :
    ReadsBack false base (urWords (.streamSync init first)) (.streamSync init first) := by
  obtain ⟨hinit, hfirst⟩ := hk
  refine .urone fun w hw => ?_
  unfold fieldPut at hw
  obtain ⟨hkind, hinit', hfirst'⟩ : w % 32 = 13 ∧ fieldAt w 9 5 = init ∧ fieldAt w 25 10 = first := by
    unfold fieldAt
    omega
  simp [pktBlocks, urRead, hkind, hinit', hfirst']

theorem readsBack_sbPoll {id : Nat} (hk : (UrPkt.sbPoll id).fits base) :
    ReadsBack false base (urWords (.sbPoll id)) (.sbPoll id) := by
  have hid : id < 256 := hk
  refine .urone fun w hw => ?_
  unfold fieldPut at hw
  obtain ⟨hkind, hid'⟩ : w % 32 = 0x18 ∧ fieldAt w 15 8 = id := by
    unfold fieldAt
    omega
  simp [pktBlocks, urRead, hkind, hid']

theorem readsBack_sbState {id lines : Nat} {unsol : Bool} (hk : (UrPkt.sbState id unsol lines).fits base) :
    ReadsBack false base (urWords (.sbState id unsol lines)) (.sbState id unsol lines) := by
  obtain ⟨hid, hlines⟩ := hk
  have bunsol := bit_lt unsol
  refine .urone fun w hw => ?_
  simp only [flagPut_bit] at hw
  unfold fieldPut at hw
  obtain ⟨hkind, hid', hunsol⟩ : w % 32 = 0x19 ∧ fieldAt w 15 8 = id ∧ w / 2 ^ 16 % 2 = bit unsol := by
    unfold fieldAt
    omega
  simp [-Nat.reducePow, pktBlocks, urRead, hkind, hid', testBit_of_flag hunsol, Nat.mod_eq_of_lt hlines]

theorem readsBack_sbCfg {latch : Nat} (hk : (UrPkt.sbCfg latch).fits base) :
    ReadsBack false base (urWords (.sbCfg latch)) (.sbCfg latch) := by
  have hlatch : latch < 2 ^ 64 := hk
  refine .urone ?_
  rintro w rfl
  simp [-Nat.reducePow, pktBlocks, urRead, Nat.mod_eq_of_lt hlatch]

theorem readsBack_req {line n : Nat} (hk : (UrPkt.req line n).fits base) :
    ReadsBack false base (urWords (.req line n)) (.req line n) := by
  obtain ⟨hline, hn⟩ := hk
  refine .urone fun w hw => ?_
  unfold fieldPut at hw
  obtain ⟨hkind, hline', hn'⟩ : w % 32 = 0x1B ∧ fieldAt w 8 5 = line ∧ fieldAt w 24 9 = n := by
    unfold fieldAt
    omega
  simp [pktBlocks, urRead, hkind, hline', hn']

theorem readsBack_reqDone {line n : Nat} (hk : (UrPkt.reqDone line n).fits base) :
    ReadsBack false base (urWords (.reqDone line n)) (.reqDone line n) := by
  obtain ⟨hline, hn⟩ := hk
  refine .urone fun w hw => ?_
  unfold fieldPut at hw
  obtain ⟨hkind, hline', hn'⟩ : w % 32 = 0x1C ∧ fieldAt w 8 5 = line ∧ fieldAt w 24 9 = n := by
    unfold fieldAt
    omega
  simp [pktBlocks, urRead, hkind, hline', hn']

theorem readsBack_lateError {init seq st : Nat} (hk : (UrPkt.lateError init seq st).fits base) :
    ReadsBack false base (urWords (.lateError init seq st)) (.lateError init seq st) := by
  obtain ⟨hinit, hseq, hst⟩ := hk
  refine .urone fun w hw => ?_
  unfold fieldPut at hw
  obtain ⟨hkind, hinit', hseq', hst'⟩ :
      w % 32 = 0x1E ∧ fieldAt w 9 5 = init ∧ fieldAt w 25 10 = seq ∧ fieldAt w 29 26 = st := by
    unfold fieldAt
    omega
  simp [pktBlocks, urRead, hkind, hinit', hseq', hst']

/-! ### Requests (R223) -/

/-- Word 0 of a request with no mask, no retry and no place in a write stream. -/
theorem reqWord_bare_fields {kind tag len : Nat} (priv exec : Bool) (hkind : kind < 32) (htag : tag < 4096)
    (hpos : 1 ≤ len) (hlen : len ≤ 8192) :
    ∃ w, reqWord kind false false priv exec tag 0 0 len = w ∧ w % 32 = kind ∧ w.testBit 7 = priv ∧ w.testBit 8 = exec ∧
      fieldAt w 21 10 = tag ∧ fieldAt w 55 43 + 1 = len := by
  obtain ⟨w, hw, hk, -, -, hpriv, hexec, htag', -, -, hlen'⟩ :=
    reqWord_fields false false priv exec hkind htag (by decide : 0 < 32) (by decide : 0 < 65536) hpos hlen
  exact ⟨w, hw, hk, hpriv, hexec, htag', hlen'⟩

theorem readsBack_read {tag len addr : Nat} {priv exec : Bool} (hk : (UrPkt.read tag len addr priv exec).fits base) :
    ReadsBack false base (urWords (.read tag len addr priv exec)) (.read tag len addr priv exec) := by
  obtain ⟨htag, hpos, hlen, haddr⟩ := hk
  obtain ⟨w, hw, hkind, hpriv, hexec, htag', hlen'⟩ :=
    reqWord_bare_fields priv exec (by decide : 8 < 32) htag hpos hlen
  rw [urWords, hw]
  refine ⟨w, _, rfl, ?_⟩
  simp [-Nat.reducePow, pktBlocks, urRead, hkind, hpriv, hexec, htag', hlen', Nat.mod_eq_of_lt haddr]

theorem readsBack_lock {tag addr : Nat} {priv exec : Bool} (hk : (UrPkt.lock tag addr priv exec).fits base) :
    ReadsBack false base (urWords (.lock tag addr priv exec)) (.lock tag addr priv exec) := by
  obtain ⟨htag, haddr⟩ := hk
  obtain ⟨w, hw, hkind, hpriv, hexec, htag', -⟩ :=
    reqWord_bare_fields priv exec (by decide : 11 < 32) htag (by decide : 1 ≤ 1) (by decide)
  rw [urWords, hw]
  refine ⟨w, _, rfl, ?_⟩
  simp [-Nat.reducePow, pktBlocks, urRead, hkind, hpriv, hexec, htag', Nat.mod_eq_of_lt haddr]

theorem readsBack_unlock {tag addr : Nat} {priv exec : Bool} (hk : (UrPkt.unlock tag addr priv exec).fits base) :
    ReadsBack false base (urWords (.unlock tag addr priv exec)) (.unlock tag addr priv exec) := by
  obtain ⟨htag, haddr⟩ := hk
  obtain ⟨w, hw, hkind, hpriv, hexec, htag', -⟩ :=
    reqWord_bare_fields priv exec (by decide : 12 < 32) htag (by decide : 1 ≤ 1) (by decide)
  rw [urWords, hw]
  refine ⟨w, _, rfl, ?_⟩
  simp [-Nat.reducePow, pktBlocks, urRead, hkind, hpriv, hexec, htag', Nat.mod_eq_of_lt haddr]

theorem readsBack_write {tag init seq addr : Nat} {retry priv exec : Bool} {d : List Byte} {mask : Option Nat}
    (hk : (UrPkt.write tag init seq addr retry priv exec d mask).fits base) :
    ReadsBack false base (urWords (.write tag init seq addr retry priv exec d mask))
      (.write tag init seq addr retry priv exec d mask) := by
  obtain ⟨htag, hinit, hseq, haddr, hpos, hlen⟩ := hk
  obtain ⟨w, hw, hkind, hpois, hretry, hpriv, hexec, htag', hinit', hseq', hlen'⟩ :=
    reqWord_fields mask.isSome retry priv exec (by decide : 9 < 32) htag hinit hseq hpos hlen
  have haddr' : addr % 2 ^ 40 = addr := Nat.mod_eq_of_lt haddr
  rw [urWords, hw, haddr']
  refine ⟨w, _, rfl, ?_, ?_⟩
  · simp +arith [pktBlocks, hkind, hpois, hlen', length_blocksFrom, length_mask]
  · simp [-Nat.reducePow, urRead, hkind, hpois, hretry, hpriv, hexec, htag', hinit', hseq', hlen', haddr',
      bytesFrom_blocksFrom, mask_behind_data]

/-- Word 1 of an ATOMIC (R223). -/
theorem atomicWord_fields {addr aop asz : Nat} (haddr : addr < 2 ^ 40) (haop : aop < 16) (hasz : asz < 4) :
    ∃ w, addr % 2 ^ 40 + fieldPut aop 4 40 + fieldPut asz 2 44 = w ∧ w % 2 ^ 40 = addr ∧ fieldAt w 43 40 = aop ∧
      fieldAt w 45 44 = asz := by
  refine ⟨_, rfl, ?_⟩
  unfold fieldAt fieldPut
  omega

theorem readsBack_atomic {tag aop asz addr : Nat} {priv exec : Bool} {ops : List Byte}
    (hk : (UrPkt.atomic tag aop asz addr priv exec ops).fits base) :
    ReadsBack false base (urWords (.atomic tag aop asz addr priv exec ops)) (.atomic tag aop asz addr priv exec ops) := by
  obtain ⟨htag, haop, hasz, haddr, hpos, hlen⟩ := hk
  obtain ⟨w, hw, hkind, hpriv, hexec, htag', hlen'⟩ :=
    reqWord_bare_fields priv exec (by decide : 10 < 32) htag hpos hlen
  obtain ⟨w1, hw1, haddr', haop', hasz'⟩ := atomicWord_fields haddr haop hasz
  have hbytes := bytesFrom_blocksFrom 0 ops []
  rw [List.append_nil] at hbytes
  rw [urWords, hw, hw1]
  refine ⟨w, _, rfl, ?_, ?_⟩
  · simp +arith [pktBlocks, hkind, hlen', length_blocksFrom]
  · simp [-Nat.reducePow, urRead, hkind, hpriv, hexec, htag', hlen', haddr', haop', hasz', hbytes]

/-! ### Responses (R229, R230) -/

/-- Word 0 of a RESPONSE: LEN_M1 counts only where DATA is 1. -/
theorem responseWord_fields {tag st : Nat} {d : List Byte} (pois : Bool) (htag : tag < 4096) (hst : st < 16)
    (hd : d.length ≤ 8192) :
    ∃ w, 0x10 + flagPut pois 5 + flagPut (d != []) 6 + fieldPut tag 12 10 + fieldPut st 4 22 + fieldPut (d.length - 1) 13 43
        = w ∧ w % 32 = 16 ∧ w.testBit 5 = pois ∧ fieldAt w 21 10 = tag ∧ fieldAt w 25 22 = st ∧
      (if w.testBit 6 then fieldAt w 55 43 + 1 else 0) = d.length := by
  refine ⟨_, rfl, ?_⟩
  have bpois := bit_lt pois
  have bdata := bit_lt (d != [])
  generalize hw : 0x10 + flagPut pois 5 + flagPut (d != []) 6 + _ + _ + _ = w
  simp only [flagPut_bit] at hw
  unfold fieldPut at hw
  have hdata : w.testBit 6 = (d != []) := testBit_of_flag (by omega)
  refine ⟨by omega, testBit_of_flag (by omega), by unfold fieldAt; omega, by unfold fieldAt; omega, ?_⟩
  by_cases h : d = []
  · simp [hdata, h]
  · have hpos := List.length_pos_iff.2 h
    simp only [hdata, bne_iff_ne, ne_eq, h, not_false_eq_true, if_true]
    unfold fieldAt
    omega

/-- Word 1 of a RESPONSE. -/
theorem responseOffset_fields {off : Nat} (last : Bool) (hoff : off < 8192) :
    ∃ w, fieldPut off 13 0 + flagPut last 13 = w ∧ w % 2 ^ 13 = off ∧ w.testBit 13 = last := by
  have blast := bit_lt last
  refine ⟨_, rfl, ?_⟩
  rw [flagPut_bit]
  unfold fieldPut
  exact ⟨by omega, testBit_of_flag (by omega)⟩

theorem ite_dataBlocks (c : Bool) (a n : Nat) : (if c then dataBlocks a n else 0) = dataBlocks a (if c then n else 0) := by
  cases c <;> rfl

theorem readsBack_response {tag st off b : Nat} {last : Bool} {d : List Byte} {mask : Option Nat}
    (hk : (UrPkt.response tag st off last d mask b).fits base) :
    ReadsBack false base (urWords (.response tag st off last d mask b)) (.response tag st off last d mask b) := by
  obtain ⟨htag, hst, hoff, hlen, rfl⟩ := hk
  obtain ⟨w, hw, hkind, hpois, htag', hst', hlen'⟩ := responseWord_fields mask.isSome htag hst hlen
  obtain ⟨w1, hw1, hoff', hlast⟩ := responseOffset_fields last hoff
  rw [urWords, hw, hw1]
  refine ⟨w, _, rfl, ?_, ?_⟩
  · simp +arith [-Nat.reducePow, pktBlocks, hkind, hpois, htag', hoff', ite_dataBlocks, hlen', length_blocksFrom, length_mask]
  · simp [-Nat.reducePow, urRead, hkind, hpois, htag', hst', hlen', hoff', hlast, bytesFrom_blocksFrom, mask_behind_data]

/-- Every packet of the Urone link, by its own words. -/
theorem readsBack_urWords {k : UrPkt} (hk : k.fits base) : ReadsBack false base (urWords k) k := by
  cases k with
  | flow => exact readsBack_flow hk
  | hello => exact readsBack_hello hk
  | read => exact readsBack_read hk
  | write => exact readsBack_write hk
  | atomic => exact readsBack_atomic hk
  | lock => exact readsBack_lock hk
  | unlock => exact readsBack_unlock hk
  | streamSync => exact readsBack_streamSync hk
  | response => exact readsBack_response hk
  | sbPoll => exact readsBack_sbPoll hk
  | sbState => exact readsBack_sbState hk
  | sbCfg => exact readsBack_sbCfg hk
  | req => exact readsBack_req hk
  | reqDone => exact readsBack_reqDone hk
  | lateError => exact readsBack_lateError hk
  | bad => exact hk.elim
  | seam => exact hk.elim

/-- A packet takes the blocks that its credit counts (R219): the header, and the data and mask blocks where it has them. -/
theorem length_urWords {k : UrPkt} (hk : k.fits base) : (urWords k).length = k.blocks := by
  cases k with
  | write tag init seq addr retry priv exec d mask =>
    simp +arith [urWords, UrPkt.blocks, UrPkt.dataBlks, length_blocksFrom, length_mask, bit]
  | atomic tag aop asz addr priv exec ops =>
    simp +arith [urWords, UrPkt.blocks, UrPkt.dataBlks, length_blocksFrom]
  | response tag st off last d mask b =>
    simp +arith [urWords, UrPkt.blocks, UrPkt.dataBlks, length_blocksFrom, length_mask, bit]
  | bad => exact hk.elim
  | seam => exact hk.elim
  | _ => rfl

/-! ### Packets of the Seam link (R394) -/

theorem readsBack_seamHello {v mv mode fw ser : Nat} {lead : Bool} (hk : (SeamPkt.hello v mv mode lead fw ser).fits) :
    ReadsBack true base (seamWords (.hello v mv mode lead fw ser)) (.seam (.hello v mv mode lead fw ser)) := by
  obtain ⟨hv, hmv, hmode, hfw, hser⟩ := hk
  have blead := bit_lt lead
  refine .ofSeam fun w hw => ?_
  simp only [flagPut_bit] at hw
  unfold fieldPut at hw
  obtain ⟨hkind, hv', hmv', hmode', hlead, hfw'⟩ : w % 32 = 2 ∧ fieldAt w 15 8 = v ∧ fieldAt w 23 16 = mv ∧
      fieldAt w 26 24 = mode ∧ w / 2 ^ 27 % 2 = bit lead ∧ fieldAt w 63 32 = fw := by
    unfold fieldAt
    omega
  simp [-Nat.reducePow, pktBlocks, seamRead, hkind, hv', hmv', hmode', testBit_of_flag hlead, hfw', Nat.mod_eq_of_lt hser]

theorem readsBack_seamHeartbeat {n sync mseq : Nat} {lead cont : Bool} (hk : (SeamPkt.heartbeat n lead cont sync mseq).fits) :
    ReadsBack true base (seamWords (.heartbeat n lead cont sync mseq)) (.seam (.heartbeat n lead cont sync mseq)) := by
  obtain ⟨hn, hsync, hmseq⟩ := hk
  have blead := bit_lt lead
  have bcont := bit_lt cont
  refine .ofSeam fun w hw => ?_
  simp only [flagPut_bit] at hw
  unfold fieldPut at hw
  obtain ⟨hkind, hn', hlead, hcont, hsync', hmseq'⟩ : w % 32 = 3 ∧ fieldAt w 15 8 = n ∧ w / 2 ^ 16 % 2 = bit lead ∧
      w / 2 ^ 17 % 2 = bit cont ∧ fieldAt w 19 18 = sync ∧ fieldAt w 51 20 = mseq := by
    unfold fieldAt
    omega
  simp [pktBlocks, seamRead, hkind, hn', testBit_of_flag hlead, testBit_of_flag hcont, hsync', hmseq']

theorem readsBack_seamMirror {rt mseq arg : Nat} {payload : List Nat} (hk : (SeamPkt.mirror rt mseq arg payload).fits) :
    ReadsBack true base (seamWords (.mirror rt mseq arg payload)) (.seam (.mirror rt mseq arg payload)) := by
  obtain ⟨hrt, hmseq, harg, hlen⟩ := hk
  refine .ofSeam fun w hw => ?_
  unfold fieldPut at hw
  obtain ⟨hkind, hrt', hmseq', hlen'⟩ : w % 32 = 8 ∧ fieldAt w 15 8 = rt ∧ fieldAt w 47 16 = mseq ∧
      fieldAt w 55 48 = payload.length := by
    unfold fieldAt
    omega
  simp +arith [-Nat.reducePow, pktBlocks, seamRead, hkind, hrt', hmseq', hlen', Nat.mod_eq_of_lt harg]

theorem readsBack_seamMirrorAck {mseq : Nat} (hk : (SeamPkt.mirrorAck mseq).fits) :
    ReadsBack true base (seamWords (.mirrorAck mseq)) (.seam (.mirrorAck mseq)) := by
  have hmseq : mseq < 2 ^ 32 := hk
  refine .ofSeam fun w hw => ?_
  unfold fieldPut at hw
  obtain ⟨hkind, hmseq'⟩ : w % 32 = 0x10 ∧ fieldAt w 47 16 = mseq := by
    unfold fieldAt
    omega
  simp [pktBlocks, seamRead, hkind, hmseq']

theorem readsBack_seamHandover {op mseq : Nat} (hk : (SeamPkt.handover op mseq).fits) :
    ReadsBack true base (seamWords (.handover op mseq)) (.seam (.handover op mseq)) := by
  obtain ⟨hop, hmseq⟩ := hk
  refine .ofSeam fun w hw => ?_
  unfold fieldPut at hw
  obtain ⟨hkind, hop', hmseq'⟩ : w % 32 = 0x18 ∧ fieldAt w 10 8 = op ∧ fieldAt w 47 16 = mseq := by
    unfold fieldAt
    omega
  simp [pktBlocks, seamRead, hkind, hop', hmseq']

theorem readsBack_seamPairCtl {op : Nat} (hk : (SeamPkt.pairCtl op).fits) :
    ReadsBack true base (seamWords (.pairCtl op)) (.seam (.pairCtl op)) := by
  have hop : op < 8 := hk
  refine .ofSeam fun w hw => ?_
  unfold fieldPut at hw
  obtain ⟨hkind, hop'⟩ : w % 32 = 0x1A ∧ fieldAt w 10 8 = op := by
    unfold fieldAt
    omega
  simp [pktBlocks, seamRead, hkind, hop']

/-- Every packet of the Seam link, by its own words. -/
theorem readsBack_seamWords {k : SeamPkt} (hk : k.fits) : ReadsBack true base (seamWords k) (.seam k) := by
  cases k with
  | hello => exact readsBack_seamHello hk
  | heartbeat => exact readsBack_seamHeartbeat hk
  | mirror => exact readsBack_seamMirror hk
  | mirrorAck => exact readsBack_seamMirrorAck hk
  | handover => exact readsBack_seamHandover hk
  | pairCtl => exact readsBack_seamPairCtl hk

end

/-! ### Control blocks (R213, R214) -/

/-- The CRC stands above the fields and covers them alone. -/
theorem ctlWord_fields {typ bseq ackseq : Nat} (data : List Nat) (htyp : typ < 256) (hbseq : bseq < 4096)
    (hack : ackseq < 4096) :
    ctlGood (ctlWord typ bseq ackseq data) data = true ∧ fieldAt (ctlWord typ bseq ackseq data) 7 0 = typ ∧
      fieldAt (ctlWord typ bseq ackseq data) 19 8 = bseq ∧ fieldAt (ctlWord typ bseq ackseq data) 31 20 = ackseq := by
  obtain ⟨low, hlow, hw⟩ : ∃ low, fieldPut typ 8 0 + fieldPut bseq 12 8 + fieldPut ackseq 12 20 = low ∧
      ctlWord typ bseq ackseq data = low + bundleCrc data low * 2 ^ 32 := ⟨_, rfl, rfl⟩
  have hcrc := bundleCrc_lt data low
  unfold fieldPut at hlow
  have hcover : (low + bundleCrc data low * 2 ^ 32) % 2 ^ 32 = low := by omega
  rw [ctlGood, hw, hcover, beq_iff_eq]
  generalize bundleCrc data low = crc at hcrc
  unfold fieldAt
  omega

/-! ### The value an atomic leaves (R226) -/

theorem ofBytes_atomResult_fetchAdd (n : Nat) (old opd : List Byte) :
    ofBytes (atomResult .fetchAdd n old opd) = (ofBytes old + ofBytes (opd.take n)) % 2 ^ (8 * n) := by
  rw [atomResult, ofBytes_toBytes, Nat.pow_mul]

theorem length_atomResult_fetchAdd (n : Nat) (old opd : List Byte) : (atomResult .fetchAdd n old opd).length = n :=
  toBytes_length n _

/-- CAS finds the compare value in the first `n` operand bytes and the swap value behind it. -/
theorem atomResult_cas (old : List Byte) {cmp new : List Byte} (h : new.length = cmp.length) :
    atomResult .cas cmp.length old (cmp ++ new) = if old = cmp then new else old := by
  rw [atomResult, List.take_left, List.drop_left, ← h, List.take_length]

/-! ### The statements -/

/-- Settles O56: the bytes of a sum are the sum modulo 2^(8n), and CAS by whether memory held the compare value. -/
theorem atomicValues : Obligations.AtomicValues := by
  intro n old opd _
  refine ⟨fun _ => ⟨ofBytes_atomResult_fetchAdd n old opd, length_atomResult_fetchAdd n old opd⟩,
    fun hopd => List.take_of_length_le (Nat.le_of_eq hopd), ?_⟩
  rintro cmp new rfl hnew
  rw [atomResult_cas old hnew]
  exact ⟨fun heq => if_pos heq, fun hne => if_neg hne⟩

/-- Settles O60: a run reads back packet by packet, each packet by the fields of its first words and the blocks of its data,
and a control block by its fields below a CRC that covers them. -/
theorem packetRoundTrip : Obligations.PacketRoundTrip := by
  refine ⟨fun base ks hks => ?_, fun _ _ => length_urWords,
    fun _ _ hks => readPkts_flatMap fun k hk => readsBack_seamWords (hks k hk), fun _ _ _ => ctlWord_fields⟩
  have hrun := readPkts_flatMap (pkt := id) fun k hk => readsBack_urWords (hks k hk)
  rwa [List.map_id] at hrun

end Sys2Proof.Machine
end

section
/-!
SUPPORT. The source a core takes (R299, R300): the pending sources rise, `State.bestFor` is a fold over those presented to
the core, and a fold over a rising list that lets only a higher priority replace a choice keeps the least of equal ones.
-/
namespace Sys2Proof.Machine

/-! ### The pending sources -/

/-- The sources listed by one byte of the PENDING array are the eight of that byte. -/
theorem div_eight_of_mem_byteSrcs {n i : Nat} {b : Byte}
    (h : i ∈ ((List.range 8).filter fun k => b.toNat.testBit k).map fun k => n * 8 + k) : i / 8 = n := by
  obtain ⟨k, hk, rfl⟩ := List.mem_map.mp h
  have := List.mem_range.mp (List.mem_filter.mp hk).1
  omega

/-- Pending sources are listed in rising order: memory lists its bytes by address, and a byte its bits by place. -/
theorem State.pendSrcs_pairwise_lt {s : State} (h : s.bytesWf = true) : s.pendSrcs.Pairwise (· < ·) := by
  obtain ⟨hmem, -⟩ := (State.bytesWf_iff s).mp h
  obtain ⟨hkeys, -⟩ := (smWf_iff _ _).mp hmem
  refine List.pairwise_flatMap.mpr ⟨fun c _ => ?_, ?_⟩
  · exact (List.pairwise_lt_range.filter _).map _ fun _ _ hlt => Nat.add_lt_add_left hlt _
  · refine (hkeys.filter _).imp_of_mem fun {c e} hc _ hce i hi j hj => ?_
    obtain ⟨-, hbase⟩ := List.mem_filter.mp hc
    have hi8 := div_eight_of_mem_byteSrcs hi
    have hj8 := div_eight_of_mem_byteSrcs hj
    simp only [Bool.and_eq_true, decide_eq_true_eq] at hbase
    omega

/-! ### The sources presented to a core -/

/-- The source is presented to the core (R299, R303). -/
def State.presentedTo (s : State) (c i : Nat) : Bool := (s.presented i).any fun t => t.kind = 3 ∧ t.index = c

theorem State.presentedTo_iff (s : State) (c i : Nat) :
    s.presentedTo c i = true ↔ ∃ t, s.presented i = some t ∧ t.kind = 3 ∧ t.index = c := by
  simp only [State.presentedTo, Option.any_eq_true, decide_eq_true_eq]

theorem State.mem_filter_presentedTo {s : State} {c i : Nat} : i ∈ s.pendSrcs.filter (s.presentedTo c) ↔
    i ∈ s.pendSrcs ∧ ∃ t, s.presented i = some t ∧ t.kind = 3 ∧ t.index = c := by
  rw [List.mem_filter, State.presentedTo_iff]

/-! ### The choice among them -/

/-- The choice after one more source: a source replaces the choice only with a higher priority. -/
def State.higher (s : State) : Option Nat → Nat → Option Nat
  | none, i => some i
  | some j, i => if s.prio j < s.prio i then some i else some j

theorem State.higher_some (s : State) (j i : Nat) :
    s.higher (some j) i = if s.prio j < s.prio i then some i else some j := rfl

/-- The choice among the sources of a list: of the highest priority, and the lowest number of that priority (R300). -/
def State.IsBest (s : State) (l : List Nat) : Option Nat → Prop
  | none => l = []
  | some i => i ∈ l ∧ ∀ j ∈ l, s.prio j < s.prio i ∨ (s.prio j = s.prio i ∧ i ≤ j)

theorem State.bestFor_eq_foldl (s : State) (c : Nat) :
    s.bestFor c = (s.pendSrcs.filter (s.presentedTo c)).foldl s.higher none := by
  rw [List.foldl_filter, State.bestFor]
  congr 1
  funext b i
  unfold State.presentedTo
  cases s.presented i with
  | none => rfl
  | some t =>
    by_cases ht : t.kind = 3 ∧ t.index = c
    · rw [Option.any_some, decide_eq_true ht, if_pos rfl]
      cases b with
      | none => exact if_pos ht
      | some j => exact if_pos ht
    · rw [Option.any_some, decide_eq_false ht, if_neg Bool.false_ne_true]
      exact if_neg ht

/-- A source with a higher number than all before it is the choice only with a higher priority. -/
theorem State.IsBest.higher {s : State} {l : List Nat} {b : Option Nat} (h : s.IsBest l b) {i : Nat}
    (hi : ∀ j ∈ l, j < i) : s.IsBest (l ++ [i]) (s.higher b i) := by
  have hlast : i ∈ l ++ [i] := List.mem_append_right l (List.mem_singleton_self i)
  cases b with
  | none =>
    obtain rfl : l = [] := h
    exact ⟨hlast, fun j hj => .inr (List.eq_of_mem_singleton hj ▸ ⟨rfl, Nat.le_refl _⟩)⟩
  | some k =>
    obtain ⟨hk, hbest⟩ := h
    have hki := hi k hk
    by_cases hp : s.prio k < s.prio i
    · rw [State.higher_some, if_pos hp]
      refine ⟨hlast, fun j hj => ?_⟩
      rcases List.mem_append.mp hj with hj | hj
      · have := hbest j hj
        omega
      · exact .inr (List.eq_of_mem_singleton hj ▸ ⟨rfl, Nat.le_refl _⟩)
    · rw [State.higher_some, if_neg hp]
      refine ⟨List.mem_append_left [i] hk, fun j hj => ?_⟩
      rcases List.mem_append.mp hj with hj | hj
      · exact hbest j hj
      · rw [List.eq_of_mem_singleton hj]
        omega

theorem State.IsBest.foldl {s : State} {m : List Nat} : ∀ {l : List Nat} {b : Option Nat}, s.IsBest l b →
    (l ++ m).Pairwise (· < ·) → s.IsBest (l ++ m) (m.foldl s.higher b) := by
  induction m with
  | nil => intro l b h _; rwa [List.append_nil]
  | cons i t ih =>
    intro l b h hrise
    obtain ⟨-, -, hbefore⟩ := List.pairwise_append.mp hrise
    rw [List.append_cons] at hrise ⊢
    exact ih (h.higher fun j hj => hbefore j hj i List.mem_cons_self) hrise

/-- What a core takes is the choice among the pending sources presented to it. -/
theorem State.isBest_bestFor {s : State} (hs : s.bytesWf = true) (c : Nat) :
    s.IsBest (s.pendSrcs.filter (s.presentedTo c)) (s.bestFor c) := by
  have hempty : s.IsBest [] none := rfl
  rw [State.bestFor_eq_foldl]
  exact hempty.foldl ((State.pendSrcs_pairwise_lt hs).filter _)

/-! ### The statement -/

/-- Settles O49: the source taken is the choice among the pending sources presented to the core, and there is none exactly
when no pending source is presented to it. -/
theorem bestSource : Obligations.BestSource := by
  intro s c hs
  have hbest := State.isBest_bestFor hs c
  refine ⟨fun i hi => ?_, fun hnone j hj hto => ?_⟩
  · rw [hi] at hbest
    obtain ⟨hmem, hfirst⟩ := hbest
    obtain ⟨hpend, hto⟩ := State.mem_filter_presentedTo.mp hmem
    exact ⟨hpend, hto, fun j hj hjto => hfirst j (State.mem_filter_presentedTo.mpr ⟨hj, hjto⟩)⟩
  · rw [hnone] at hbest
    have hempty : s.pendSrcs.filter (s.presentedTo c) = [] := hbest
    exact List.not_mem_nil (hempty ▸ State.mem_filter_presentedTo.mpr ⟨hj, hto⟩)

end Sys2Proof.Machine
end

section
/-!
SUPPORT. The guard (R341 to R351): the check of a DMA beat in HOST space by the HOST bits of set 17, what the check of
any other access depends on, what R36 forbids, the capture of a failed check, and the three statements they give.
-/
namespace Sys2Proof.Machine

/-! ### Permissions needed and given (R344) -/

section
variable {r : Req} (p : Bool × Bool × Bool)

/-- A read that is no instruction fetch needs the read permission alone. -/
theorem covers_needs_read (hk : r.kind = .read) (hexec : r.exec = false) : covers (needs r) p = p.1 := by
  simp [covers, needs, hk, hexec]

theorem covers_needs_write (hk : r.kind = .write) : covers (needs r) p = p.2.1 := by
  simp [covers, needs, hk]

/-- What both reads and writes (an atomic, a lock, an unlock) needs both permissions. -/
theorem covers_needs_both (hread : r.kind ≠ .read) (hwrite : r.kind ≠ .write) : covers (needs r) p = (p.1 && p.2.1) := by
  cases hk : r.kind with
  | read => exact absurd hk hread
  | write => exact absurd hk hwrite
  | atomic op => simp [covers, needs, hk]
  | lock => simp [covers, needs, hk]
  | unlock => simp [covers, needs, hk]

end

/-! ### DMA beats in HOST space (R348) -/

/-- What the HOST bits of a set permit at a privilege level (R348). -/
def State.hostPerm (s : State) (n : Nat) (priv : Bool) : Bool × Bool × Bool :=
  if priv then (s.flag .GRD_SET_CFG_HOST_PR n, s.flag .GRD_SET_CFG_HOST_PW n, false)
  else (s.flag .GRD_SET_CFG_HOST_UR n, s.flag .GRD_SET_CFG_HOST_UW n, false)

/-- The fields of GRD_SET_CFG that R348 names. -/
def hostBits : List Fld :=
  [.GRD_SET_CFG_HOST_PR, .GRD_SET_CFG_HOST_PW, .GRD_SET_CFG_HOST_UR, .GRD_SET_CFG_HOST_UW]

theorem State.hostPerm_set_ne (s : State) {f : Fld} {i n : Nat} (v : Nat) (priv : Bool)
    (h : i % 1048576 ≠ n % 1048576) : (s.set f i v).hostPerm n priv = s.hostPerm n priv := by
  simp only [State.hostPerm, State.flag_set_ne s v (.inr h)]

/-- A beat in HOST space is decided by the HOST bits of its set alone, and fails with cause HOST_ROUTE. -/
theorem State.guardFail_hostSpace (s : State) {r : Req} (h : r.fixed = 5) :
    s.guardFail r = if covers (needs r) (s.hostPerm (guardSet r.who) r.priv) then none else some ⟨6, none⟩ := by
  cases hp : r.priv <;> simp [State.guardFail, State.hostPerm, h, hp]

/-! ### Accesses that are not in HOST space -/

section
variable {s t : State} {r : Req}

theorem State.grdMatch_congr (h : ∀ gv n i, t.grdWordAt gv n i = s.grdWordAt gv n i) (gv n key : Nat) :
    t.grdMatch gv n key = s.grdMatch gv n key := by
  simp only [State.grdMatch, h]

/-- Of the state, the check of any other access reads the regions of its set and two bits of its GRD_SET_CFG. -/
theorem State.guardFail_congr (h5 : r.fixed ≠ 5) (hword : ∀ gv n i, t.grdWordAt gv n i = s.grdWordAt gv n i)
    (hspan : ∀ n, t.flag .GRD_SET_CFG_SPAN_FAULT n = s.flag .GRD_SET_CFG_SPAN_FAULT n)
    (hdef : ∀ n, t.flag .GRD_SET_CFG_DEF_EN n = s.flag .GRD_SET_CFG_DEF_EN n) : t.guardFail r = s.guardFail r := by
  simp only [State.guardFail, if_neg h5, hword, hspan, hdef, State.grdMatch_congr hword]

end

theorem State.grdWordAt_set_ne (s : State) {f : Fld} (i v : Nat) (hf : f ≠ .GRD_REGION_WORD) (gv n k : Nat) :
    (s.set f i v).grdWordAt gv n k = s.grdWordAt gv n k := by
  simp only [State.grdWordAt, State.grdWord, State.set_grdOld, State.fld_set_ne s v (.inl hf)]

/-- The HOST bits of every set are ignored outside HOST space. -/
theorem State.guardFail_set_hostBits (s : State) {r : Req} {f : Fld} (i v : Nat) (hf : f ∈ hostBits) (h5 : r.fixed ≠ 5) :
    (s.set f i v).guardFail r = s.guardFail r := by
  have hother : ∀ g ∈ hostBits,
      g ≠ .GRD_REGION_WORD ∧ g ≠ .GRD_SET_CFG_SPAN_FAULT ∧ g ≠ .GRD_SET_CFG_DEF_EN := by decide
  obtain ⟨hword, hspan, hdef⟩ := hother f hf
  exact State.guardFail_congr h5 (s.grdWordAt_set_ne i v hword) (fun _ => s.flag_set_ne v (.inl hspan))
    fun _ => s.flag_set_ne v (.inl hdef)

/-- R36 comes before the regions (R345). -/
theorem State.guardFail_class (s : State) {r : Req} {key : Nat} (hkey : r.key = some key) (h0 : r.fixed = 0)
    (hmay : classMay r (if r.toHost then Region.host else regionOf key) = false) : s.guardFail r = some ⟨3, none⟩ := by
  simp [State.guardFail, hkey, h0, hmay]

/-! ### Values stored in several fields -/

/-- Stores a value in a field of a register that stands once. -/
def State.setOne (s : State) (p : Fld × Nat) : State := s.set p.1 0 p.2

theorem State.fld_each_setOne_other {f : Fld} : ∀ {l : List (Fld × Nat)} (s : State), f ∉ l.map Prod.fst →
    (s.each l State.setOne).fld f = s.fld f := by
  intro l
  induction l with
  | nil => intro s _; rfl
  | cons p t ih =>
    intro s hf
    rw [List.map_cons, List.mem_cons, not_or] at hf
    obtain ⟨hhead, htail⟩ := hf
    exact (ih (s.setOne p) htail).trans (s.fld_set_ne p.2 (.inl (Ne.symm hhead)))

theorem State.fld_each_setOne_mem {f : Fld} {v : Nat} : ∀ {l : List (Fld × Nat)} (s : State), (l.map Prod.fst).Nodup →
    (f, v) ∈ l → (s.each l State.setOne).fld f = v % 2 ^ (fldInfo f).w := by
  intro l
  induction l with
  | nil => intro s _ hmem; exact absurd hmem List.not_mem_nil
  | cons p t ih =>
    intro s hnodup hmem
    obtain ⟨hhead, htail⟩ := List.nodup_cons.mp hnodup
    rcases List.mem_cons.mp hmem with rfl | hmem
    · exact (State.fld_each_setOne_other _ hhead).trans (s.fld_set_self f 0 v)
    · exact ih (s.setOne p) htail hmem

/-! ### The capture of a failed check (R351) -/

/-- The fields of GRD_FAULT_ADDR and GRD_FAULT_INFO. -/
def grdFlds : List Fld :=
  [.GRD_FAULT_ADDR_ADDR, .GRD_FAULT_INFO_CAUSE, .GRD_FAULT_INFO_CLASS, .GRD_FAULT_INFO_REQ, .GRD_FAULT_INFO_WRITE,
    .GRD_FAULT_INFO_EXEC, .GRD_FAULT_INFO_PRIV, .GRD_FAULT_INFO_SET, .GRD_FAULT_INFO_REGION, .GRD_FAULT_INFO_REGION_HIT,
    .GRD_FAULT_INFO_VALID]

/-- What a captured failure leaves in them. -/
def grdCaptured (r : Req) (g : GFail) : List (Fld × Nat) :=
  [(.GRD_FAULT_ADDR_ADDR, r.key.getD r.dst), (.GRD_FAULT_INFO_CAUSE, g.cause), (.GRD_FAULT_INFO_CLASS, r.who.cls),
    (.GRD_FAULT_INFO_REQ, r.who.index), (.GRD_FAULT_INFO_WRITE, bit (r.kind != .read)), (.GRD_FAULT_INFO_EXEC, bit r.exec),
    (.GRD_FAULT_INFO_PRIV, bit r.priv), (.GRD_FAULT_INFO_SET, guardSet r.who), (.GRD_FAULT_INFO_REGION, g.region.getD 0),
    (.GRD_FAULT_INFO_REGION_HIT, bit g.region.isSome), (.GRD_FAULT_INFO_VALID, 1)]

theorem grdCaptured_map_fst (r : Req) (g : GFail) : (grdCaptured r g).map Prod.fst = grdFlds := rfl

theorem grdFlds_nodup : grdFlds.Nodup := by decide

/-- Raising the source of VALID sets none of the fields that a failed check counts or captures in. -/
theorem not_mem_irqFlds_of_grdFlds : ∀ f ∈ Fld.GRD_FAULT_CNT_FAULTS :: grdFlds, f ∉ irqFlds := by decide

theorem State.flag_count_ne (s : State) {f g : Fld} {i j : Nat} (n : Nat) (h : f ≠ g ∨ i % 1048576 ≠ j % 1048576) :
    (s.count f i n).flag g j = s.flag g j :=
  s.flag_set_ne _ h

section
variable {s : State} (r : Req) (g : GFail)

/-- A failure while VALID is 1 is counted and no more. -/
theorem State.grdCapture_of_valid (h : s.flag .GRD_FAULT_INFO_VALID = true) :
    s.grdCapture r g = s.count .GRD_FAULT_CNT_FAULTS :=
  if_pos ((s.flag_count_ne 1 (.inl (by decide))).trans h)

/-- A failure while VALID is 0 is counted, captured, and raises the source of VALID. -/
theorem State.grdCapture_of_clear (h : s.flag .GRD_FAULT_INFO_VALID = false) :
    IrqFrame ((s.count .GRD_FAULT_CNT_FAULTS).each (grdCaptured r g) State.setOne) (s.grdCapture r g) := by
  have hclear : (s.count .GRD_FAULT_CNT_FAULTS).flag .GRD_FAULT_INFO_VALID ≠ true := by
    rw [State.flag_count_ne s 1 (.inl (by decide)), h]
    decide
  rw [State.grdCapture, if_neg hclear]
  exact IrqFrame.evt _ (by decide) .GRD_FAULT_INFO_VALID 0

theorem State.fld_grdCapture_of_clear (h : s.flag .GRD_FAULT_INFO_VALID = false) {f : Fld} {v : Nat}
    (hmem : (f, v) ∈ grdCaptured r g) : (s.grdCapture r g).fld f = v % 2 ^ (fldInfo f).w := by
  have hf : f ∈ grdFlds := List.mem_map_of_mem (f := Prod.fst) hmem
  rw [(State.grdCapture_of_clear r g h).fld f 0 (not_mem_irqFlds_of_grdFlds f (List.mem_cons_of_mem _ hf))]
  exact State.fld_each_setOne_mem _ grdFlds_nodup hmem

/-- The same of a field of one bit that captures a Bool. -/
theorem State.fld_grdCapture_bit (h : s.flag .GRD_FAULT_INFO_VALID = false) {f : Fld} {b : Bool}
    (hmem : (f, bit b) ∈ grdCaptured r g) (hw : (fldInfo f).w = 1) : (s.grdCapture r g).fld f = bit b := by
  rw [State.fld_grdCapture_of_clear r g h hmem, hw]
  exact Nat.mod_eq_of_lt (bit_lt b)

theorem State.fld_grdCapture_faults (s : State) : (s.grdCapture r g).fld .GRD_FAULT_CNT_FAULTS
    = min (2 ^ (fldInfo .GRD_FAULT_CNT_FAULTS).w - 1) (s.fld .GRD_FAULT_CNT_FAULTS + 1) := by
  cases h : s.flag .GRD_FAULT_INFO_VALID with
  | true => rw [State.grdCapture_of_valid r g h, State.fld_count_self]
  | false =>
    have hnot : Fld.GRD_FAULT_CNT_FAULTS ∉ (grdCaptured r g).map Prod.fst := by
      rw [grdCaptured_map_fst]
      decide
    rw [(State.grdCapture_of_clear r g h).fld _ 0 (not_mem_irqFlds_of_grdFlds _ List.mem_cons_self),
      State.fld_each_setOne_other _ hnot, State.fld_count_self]

end

/-! ### The statements -/

/-- Settles O46: a failure is counted whatever VALID holds; with VALID 1 it does no more, and with VALID 0 each field of
the capture holds what `grdCaptured` lists for it. -/
theorem guardCapture : Obligations.GuardCapture := by
  intro s r g
  refine ⟨State.fld_grdCapture_faults r g s, fun hvalid f hf => ?_, fun hclear => ?_⟩
  · have h : s.flag .GRD_FAULT_INFO_VALID = true := by simp [State.flag, hvalid]
    rw [State.grdCapture_of_valid r g h, State.fld_count_ne s 1 (.inl hf.symm)]
  · have h : s.flag .GRD_FAULT_INFO_VALID = false := by simp [State.flag, hclear]
    have captured {f : Fld} {v : Nat} := State.fld_grdCapture_of_clear r g h (f := f) (v := v)
    have capturedBit {f : Fld} {b : Bool} := State.fld_grdCapture_bit r g h (f := f) (b := b)
    refine ⟨captured (v := 1) ?_, captured ?_, captured ?_, captured ?_, captured ?_, capturedBit ?_ rfl,
      capturedBit ?_ rfl, capturedBit ?_ rfl, captured ?_, capturedBit ?_ rfl, fun n hn => captured ?region⟩
    case region => simp [grdCaptured, hn]
    all_goals simp [grdCaptured]

/-- Settles O47: by the kind of the beat, which says which of the HOST bits of set 17 it needs; the bits of another set,
and those of any set outside HOST space, are not read. -/
theorem hostRouteCheck : Obligations.HostRouteCheck := by
  refine ⟨fun s r c hwho h5 hexec => ?_, fun s r f n v hf hother => ?_⟩
  · have hset : guardSet r.who = 17 := by rw [hwho]; rfl
    rw [State.guardFail_hostSpace s h5, hset]
    cases hk : r.kind with
    | read => rw [covers_needs_read _ hk hexec]; cases r.priv <;> rfl
    | write => rw [covers_needs_write _ hk]; cases r.priv <;> rfl
    | atomic op => rw [covers_needs_both _ (by simp [hk]) (by simp [hk])]; cases r.priv <;> rfl
    | lock => rw [covers_needs_both _ (by simp [hk]) (by simp [hk])]; cases r.priv <;> rfl
    | unlock => rw [covers_needs_both _ (by simp [hk]) (by simp [hk])]; cases r.priv <;> rfl
  · by_cases h5 : r.fixed = 5
    · have hn : n % 1048576 ≠ guardSet r.who % 1048576 := hother.resolve_left (absurd h5)
      rw [State.guardFail_hostSpace _ h5, State.guardFail_hostSpace _ h5, State.hostPerm_set_ne s v r.priv hn]
    · exact State.guardFail_set_hostBits s n v hf h5

/-- Settles O48: R36 is asked before the regions are. -/
theorem classBeforeRegions : Obligations.ClassBeforeRegions := fun s _ _ => s.guardFail_class

end Sys2Proof.Machine
end

section
/-!
SUPPORT. What power-up, the loss of power and a further cause of containment leave behind (R376, R377, R486): where the
lines to the outside differ only in what was sent, the state that stays, and the three statements.
-/
namespace Sys2Proof.Machine

/-! ### Lines to the outside: what driving one leaves alone -/

theorem State.clkreq_eq (s : State) (on : Bool) :
    s.clkreq on = { s with hp.clkreqOn := on, out := (s.clkreq on).out } := by
  unfold State.clkreq
  split
  · next h => rw [← h]
  · rfl

theorem State.aliveLow_eq (s : State) : s.aliveLow = { s with mg.aliveOut := false, out := s.aliveLow.out } := by
  unfold State.aliveLow
  split
  · rfl
  · next h => rw [← Bool.eq_false_iff.2 h]

theorem State.roleLine_eq (s : State) (was : Bool) : s.roleLine was = { s with out := (s.roleLine was).out } := by
  unfold State.roleLine
  split <;> rfl

theorem State.alertSync_eq (s : State) :
    s.alertSync = { s with bt.alertLow := s.alertDue, out := s.alertSync.out } := by
  unfold State.alertSync
  split
  · next h => rw [h]
  · rfl

@[simp] theorem State.overV_alertSync (s : State) : s.alertSync.bt.overV = s.bt.overV := by rw [State.alertSync_eq]
@[simp] theorem State.trip_alertSync (s : State) : s.alertSync.bt.trip = s.bt.trip := by rw [State.alertSync_eq]

/-! ### Power-up, and events in OFF -/

/-- The records of a latched overvoltage and of a trip, and the loader, leave the mode that power-up sets. -/
theorem State.mode_powerUp (s : State) : s.powerUp.mode = .BOOT := by
  unfold State.powerUp
  extract_lets _ _ _ sOverV _ sTrip
  have hOverV : sOverV.mode = .BOOT := by
    unfold sOverV
    split
    · exact State.mode_faultLog _ _
    · rfl
  have hTrip : sTrip.mode = .BOOT := by
    unfold sTrip
    split
    · exact (State.mode_faultLog _ _).trans hOverV
    · exact hOverV
  rw [State.mode_alertSync, State.mode_bootDomains, State.mode_evLoad, State.mode_lifecycleMove, hTrip]

theorem execPowerUp_of_ready {s : State} (hoff : s.mode = .OFF) (htrip : s.bt.trip = none) :
    execPowerUp s = .next s.powerUp := by
  simp [execPowerUp, hoff, htrip]

theorem execPowerUp_of_trip {s : State} {i : Nat} (htrip : s.bt.trip = some i) : execPowerUp s = .next s := by
  simp [execPowerUp, htrip]

theorem execModuleResetEvent_of_cause {c : Fin 9} (hc : 2 ≤ c.val) (s : State) :
    execModuleResetEvent c s = .next (s.moduleReset c) := by
  simp [execModuleResetEvent, Nat.not_lt.2 hc]

theorem State.moduleReset_of_off {s : State} (hoff : s.mode = .OFF) (c : Nat) : s.moduleReset c = s := if_pos hoff

theorem execModuleResetEvent_of_off {s : State} (hoff : s.mode = .OFF) (c : Fin 9) : execModuleResetEvent c s = .next s := by
  simp [execModuleResetEvent, State.moduleReset_of_off hoff]

/-! ### The rails go off (R376) -/

/-- Driving the lines before the rails go changes nothing that stays. -/
theorem State.powerOff_eq {s : State} (h : s.mode ≠ .OFF) : s.powerOff = { s.offKept with out := s.powerOff.out } := by
  unfold State.powerOff
  rw [if_neg h, State.roleLine_eq, State.aliveLow_eq, State.clkreq_eq]
  rfl

/-- What power-down leaves: the kept state, with PWR_ALERT_N following its latches. -/
theorem State.powerOff_alertSync_eq {s : State} (h : s.mode ≠ .OFF) : s.powerOff.alertSync =
    { s.offKept with bt.alertLow := s.offKept.alertDue, out := s.powerOff.alertSync.out } := by
  rw [State.alertSync_eq, State.powerOff_eq h]
  rfl

/-- A register field after the rails went off: as before where it survives OFF, else its reset value. -/
theorem State.fld_offKept (s : State) (f : Fld) (i : Nat) :
    s.offKept.fld f i = if fuseFld f = true then s.fld f i else regDefault (fkey f i) := by
  show smGet regDefault (smKeep _ s.regs) (fkey f i) = _
  rw [smGet_smKeep, fkey_div, Fld.ofNat_ctorIdx]
  rfl

/-! ### Causes of containment (R389, R486) -/

theorem State.contain_of_contained {s : State} (h : s.mode = .CONTAIN) (cause : Nat) :
    s.contain cause = (s.set .HST_CONT_STS_MORE 0 1).faultLog { cls := 5, unit := 1, code := cause } := if_pos h

theorem State.contain_of_idle {s : State} (h : s.mode = .OFF ∨ s.mode = .STANDBY ∨ s.mode = .BOOT) (cause : Nat) :
    s.contain cause = s := by
  unfold State.contain
  rcases h with h | h | h <;> simp [h]

/-- An entry of the fault log keeps every field that is neither the log's own nor the interrupt controller's. -/
theorem State.fld_faultLog (s : State) (e : LogEnt) {f : Fld} (hirq : f ∉ irqFlds) (hlog : f ∉ logFlds) (i : Nat) :
    (s.faultLog e).fld f i = s.fld f i := (LogFrame.faultLog s e).fld f i hirq hlog

/-! ### The statements -/

/-- Settles O50: power-up and a module reset end in BOOT, and the rails that go off in OFF; driving PWR_ALERT_N keeps the
mode and the latches. -/
theorem modeTransitions : Obligations.ModeTransitions := by
  intro s
  refine ⟨fun hoff htrip => ⟨_, execPowerUp_of_ready hoff htrip, s.mode_powerUp⟩, fun i _ htrip => execPowerUp_of_trip htrip,
    ⟨_, rfl, ?powerDown⟩, ⟨_, rfl, ?overvoltage, State.overV_alertSync _⟩, fun i => ⟨_, rfl, ?thermal, State.trip_alertSync _⟩,
    fun c hc hon => ⟨_, execModuleResetEvent_of_cause hc s, s.mode_moduleReset c hon⟩,
    fun c hoff => execModuleResetEvent_of_off hoff c⟩
  all_goals exact (State.mode_alertSync _).trans s.mode_powerOff

/-- Settles O51: the next state is `State.offKept` but for PWR_ALERT_N and what was sent, so that only the register file is
left to look up. -/
theorem powerDownLoses : Obligations.PowerDownLoses := by
  intro s hon
  have heq := State.powerOff_alertSync_eq hon
  have hfld (f : Fld) (i : Nat) := (congrArg (State.fld · f i) heq).trans (s.fld_offKept f i)
  exact ⟨s.powerOff.alertSync, rfl, (State.mode_alertSync _).trans s.mode_powerOff, fun a => congrArg (State.ld · a) heq,
    congrArg State.poison heq, congrArg State.cfg heq, congrArg State.msix heq, congrArg State.ledger heq,
    congrArg State.chans heq, congrArg State.rings heq, congrArg State.ll heq, congrArg State.doms heq,
    congrArg State.fwReady heq, (congrArg State.pending heq).trans rfl, congrArg (·.bt.hdr0) heq, congrArg (·.bt.hdr1) heq,
    congrArg (·.bt.ev0) heq, congrArg (·.bt.ev1) heq, (congrArg State.logFlash heq).trans rfl,
    fun f i hf => (hfld f i).trans (if_pos hf), fun f i hf => (hfld f i).trans (if_neg (Bool.eq_false_iff.1 hf))⟩

/-- Settles O52: in CONTAIN the whole next state is MORE and one entry of the fault log, which sets neither CAUSE nor
CONTAINED; the other three modes have no branch of `State.contain`. -/
theorem containAgain : Obligations.ContainAgain := by
  intro s b
  refine ⟨fun hmode => ⟨_, congrArg Host.Outcome.next (State.contain_of_contained hmode _), ?mode, ?more, ?cause, ?contained,
    rfl⟩, fun hidle => congrArg Host.Outcome.next (State.contain_of_idle hidle _)⟩
  case mode => simp [hmode]
  case more => rw [State.fld_faultLog _ _ (by decide) (by decide), State.fld_set_self]; rfl
  case cause => rw [State.fld_faultLog _ _ (by decide) (by decide), State.fld_set_ne _ _ (.inl (by decide))]
  case contained => rw [State.fld_faultLog _ _ (by decide) (by decide), State.fld_set_ne _ _ (.inl (by decide))]

end Sys2Proof.Machine
end

section
/-!
SUPPORT. The mailbox control unit (R410 to R414): the fields of a control word, what a change of the unit leaves alone when
it drives its sources, the control word and the queue after each move of a mailbox, and the statement they give.
-/
namespace Sys2Proof.Machine

/-! ### The control word (R410) -/

/-- The fields that `State.mbxState`, `State.mbxCancelReq` and `State.mbxGen` read in a control word, and its size. -/
theorem mbxWord_fields {st : Nat} (cancel : Bool) (gen : Nat) (notify : Bool) (hst : st < 4) :
    mbxWord st cancel gen notify < 4096 ∧ mbxWord st cancel gen notify % 4 = st ∧
      (mbxWord st cancel gen notify).testBit 2 = cancel ∧ bits (mbxWord st cancel gen notify) 10 3 = gen % 256 := by
  have bcancel := bit_lt cancel
  have bnotify := bit_lt notify
  unfold mbxWord bits
  exact ⟨by omega, by omega, testBit_of_flag (by omega), by omega⟩

theorem State.mbxGen_lt (s : State) (m : Nat) : s.mbxGen m < 256 := Nat.mod_lt _ (by decide)

/-- Mailbox `m` of `t` stands in state `st` with this CANCEL request and generation. -/
structure State.MbxAt (t : State) (m st : Nat) (cancel : Bool) (gen : Nat) : Prop where
  state : t.mbxState m = st
  cancelReq : t.mbxCancelReq m = cancel
  gen : t.mbxGen m = gen

/-- A mailbox stands where its control word says. -/
theorem State.MbxAt.of_control {t : State} {m st gen : Nat} {cancel notify : Bool} (hst : st < 4)
    (h : t.fld .MBX_MB_CONTROL m = mbxWord st cancel gen notify) : t.MbxAt m st cancel (gen % 256) := by
  obtain ⟨-, hstate, hcancel, hgen⟩ := mbxWord_fields cancel gen notify hst
  rw [← h] at hstate hcancel hgen
  exact ⟨hstate, hcancel, hgen⟩

/-- A mailbox stands where the control word just set says. -/
theorem State.mbxAt_set (s : State) (m : Nat) {st : Nat} (cancel : Bool) (gen : Nat) (notify : Bool) (hst : st < 4) :
    (s.set .MBX_MB_CONTROL m (mbxWord st cancel gen notify)).MbxAt m st cancel (gen % 256) := by
  obtain ⟨hlt, -, -, -⟩ := mbxWord_fields cancel gen notify hst
  refine .of_control (notify := notify) hst ?_
  rw [State.fld_set_self]
  exact Nat.mod_eq_of_lt (Nat.lt_trans hlt (by decide))

theorem State.MbxAt.congr {t u : State} {m st gen : Nat} {cancel : Bool} (ht : t.MbxAt m st cancel gen)
    (h : u.fld .MBX_MB_CONTROL m = t.fld .MBX_MB_CONTROL m) : u.MbxAt m st cancel gen := by
  obtain ⟨hstate, hcancel, hgen⟩ := ht
  unfold State.mbxState at hstate
  unfold State.mbxCancelReq at hcancel
  unfold State.mbxGen at hgen
  rw [← h] at hstate hcancel hgen
  exact ⟨hstate, hcancel, hgen⟩

/-- The queue is apart from the control words. -/
theorem State.MbxAt.withQueue {t : State} {m st gen : Nat} {cancel : Bool} (h : t.MbxAt m st cancel gen) (q : List Nat) :
    State.MbxAt { t with mbxQueue := q } m st cancel gen := h.congr rfl

/-- A control word set with the generation that the mailbox had. -/
theorem State.mbxAt_set_sameGen (s : State) (m : Nat) {st : Nat} (cancel : Bool) (hst : st < 4) :
    (s.set .MBX_MB_CONTROL m (mbxWord st cancel (s.mbxGen m) (s.mbxNotify m))).MbxAt m st cancel (s.mbxGen m) := by
  have hset := s.mbxAt_set m cancel (s.mbxGen m) (s.mbxNotify m) hst
  rwa [Nat.mod_eq_of_lt (s.mbxGen_lt m)] at hset

/-! ### Updates that are not the unit's -/

@[simp] theorem State.fld_countBank (s : State) (n off len : Nat) (viaAlias : Bool) (f : Fld) (i : Nat) :
    (s.countBank n off len viaAlias).fld f i = s.fld f i := rfl

@[simp] theorem State.countBank_mbxQueue (s : State) (n off len : Nat) (viaAlias : Bool) :
    (s.countBank n off len viaAlias).mbxQueue = s.mbxQueue := rfl

@[simp] theorem State.fld_st8 (s : State) (a v : Nat) (f : Fld) (i : Nat) : (s.st8 a v).fld f i = s.fld f i :=
  State.fld_congr (s.st8_regs a v) f i

@[simp] theorem State.st8_mbxQueue (s : State) (a v : Nat) : (s.st8 a v).mbxQueue = s.mbxQueue := by
  rw [State.st8, State.stBytes_eq]

/-! ### A change of the unit and the sources it drives (R415) -/

/-- Sources that follow a change of their level inputs do nothing else. -/
theorem IrqFrame.withLevels (s : State) {srcs : List Nat} (h : ∀ i ∈ srcs, i < 0x4000) (g : State → State) :
    IrqFrame (g s) (s.withLevels srcs g) :=
  IrqFrame.each srcs _ (fun t i hi => IrqFrame.relevel t (h i hi) (s.level i)) (g s)

theorem mbxSource_lt {m i : Nat} (h : mbxSource m = some i) : i < 0x4000 := by
  unfold mbxSource at h
  split at h
  · cases h; omega
  · split at h
    · cases h; omega
    · cases h

theorem IrqFrame.mbxChange (s : State) (m : Nat) (g : State → State) : IrqFrame (g s) (s.mbxChange m g) := by
  refine IrqFrame.withLevels s (fun i hi => ?_) g
  rcases List.mem_cons.mp hi with rfl | hi
  · decide
  · exact mbxSource_lt (Option.mem_toList.mp hi)

/-- The interrupt controller moves no mailbox. -/
theorem IrqFrame.mbxAt {s t : State} (h : IrqFrame s t) {m st gen : Nat} {cancel : Bool} (hs : s.MbxAt m st cancel gen) :
    t.MbxAt m st cancel gen := hs.congr (h.fld .MBX_MB_CONTROL m (by decide))

theorem IrqFrame.mbxQueue {s t : State} (h : IrqFrame s t) : t.mbxQueue = s.mbxQueue := h.field State.mbxQueue fun _ => rfl

/-! ### The moves of a mailbox (R412, R414) -/

/-- What POST changes of the unit, with the NOTIFY bit of the request's header. -/
def State.mbxPosting (m : Nat) (notify : Bool) (s : State) : State :=
  let s := (s.st8 (mbxAddr m + 0x20) s.now).countBank 25 (mbxAddr m + 0x20 - sramBase) 8 false
  let s := s.set .MBX_MB_CONTROL m (mbxWord 1 false (s.mbxGen m + 1) notify)
  { s.count .MBX_POST_CNT_POSTS with mbxQueue := s.mbxQueue ++ [m] }

theorem State.mbxQueue_mbxPosting (s : State) (m : Nat) (notify : Bool) :
    (s.mbxPosting m notify).mbxQueue = s.mbxQueue ++ [m] := by
  unfold State.mbxPosting
  simp only [State.set_mbxQueue, State.countBank_mbxQueue, State.st8_mbxQueue]

theorem State.mbxAt_mbxPosting (s : State) (m : Nat) (notify : Bool) :
    (s.mbxPosting m notify).MbxAt m 1 false ((s.mbxGen m + 1) % 256) := by
  unfold State.mbxPosting
  extract_lets t u
  have hgen : t.mbxGen m = s.mbxGen m := by
    unfold State.mbxGen t
    rw [State.fld_countBank, State.fld_st8]
  have hset : u.MbxAt m 1 false ((s.mbxGen m + 1) % 256) := hgen ▸ t.mbxAt_set m false _ _ (by decide)
  exact (hset.congr (u.fld_count_ne 1 (.inl (by decide)))).withQueue _

/-- What a claim changes of the unit before the core is noted: the queue loses its first mailbox, which becomes BUSY. -/
def State.mbxClaiming (m : Nat) (rest : List Nat) (s : State) : State :=
  { s with mbxQueue := rest }.set .MBX_MB_CONTROL m (mbxWord 2 false (s.mbxGen m) (s.mbxNotify m))

section
variable {s : State} {m : Nat}

theorem State.mbxPost_of_error (h : s.flag .MBX_CFG_EN = false ∨ s.mbxState m = 1 ∨ s.mbxState m = 2) :
    s.mbxPost m = s.mbxErr m := by
  refine if_neg ?_
  rintro ⟨hstate, hen⟩
  rcases h with hoff | hposted
  · exact absurd hen (Bool.eq_false_iff.mp hoff)
  · omega

theorem State.mbxRelease_of_error (h : s.mbxState m ≠ 3) : s.mbxRelease m = s.mbxErr m := if_neg h

theorem State.mbxCancel_of_busy (h : s.mbxState m = 2) :
    s.mbxCancel m = s.set .MBX_MB_CONTROL m (mbxWord 2 true (s.mbxGen m) (s.mbxNotify m)) := by
  simp [State.mbxCancel, h]

theorem State.mbxCancel_of_error (h : s.mbxState m = 0 ∨ s.mbxState m = 3) : s.mbxCancel m = s.mbxErr m := by
  rcases h with h | h <;> simp [State.mbxCancel, h]

/-- A write of ACT that is not by the owner's route is refused. -/
theorem State.mbxAct_of_not_owner {act : Nat} (h : act ≠ 0) : s.mbxAct m act false = s.mbxErr m := if_neg h

/-- POST puts the mailbox at the end of the queue, of the next generation and with no CANCEL request. -/
theorem State.mbxPost_of_free (h : s.mbxState m = 0 ∨ s.mbxState m = 3) (hen : s.flag .MBX_CFG_EN = true) :
    (s.mbxPost m).MbxAt m 1 false ((s.mbxGen m + 1) % 256) ∧ (s.mbxPost m).mbxQueue = s.mbxQueue ++ [m] := by
  obtain ⟨notify, hpost⟩ : ∃ notify, s.mbxPost m = s.mbxChange m (State.mbxPosting m notify) :=
    ⟨_, if_pos ⟨h, hen⟩⟩
  have hframe := IrqFrame.mbxChange s m (State.mbxPosting m notify)
  rw [hpost]
  exact ⟨hframe.mbxAt (s.mbxAt_mbxPosting m notify), hframe.mbxQueue.trans (s.mbxQueue_mbxPosting m notify)⟩

/-- RELEASE leaves the mailbox IDLE, of the same generation. -/
theorem State.mbxAt_mbxRelease (h : s.mbxState m = 3) : (s.mbxRelease m).MbxAt m 0 false (s.mbxGen m) := by
  rw [State.mbxRelease, if_pos h]
  exact (IrqFrame.mbxChange s m _).mbxAt (s.mbxAt_set_sameGen m false (by decide))

/-- CANCEL of a BUSY mailbox leaves it BUSY, with the request. -/
theorem State.mbxAt_mbxCancel (h : s.mbxState m = 2) : (s.mbxCancel m).MbxAt m 2 true (s.mbxGen m) := by
  rw [State.mbxCancel_of_busy h]
  exact s.mbxAt_set_sameGen m true (by decide)

/-- A claim takes the oldest POSTED mailbox from the queue and makes it BUSY. -/
theorem State.mbxClaim_of_posted (c : Nat) {rest : List Nat} (h : s.mbxQueue = m :: rest) : (s.mbxClaim c).1 = m ∧
    (s.mbxClaim c).2.MbxAt m 2 false (s.mbxGen m) ∧ (s.mbxClaim c).2.mbxQueue = rest := by
  have hframe := IrqFrame.mbxChange s m (State.mbxClaiming m rest)
  have hclaim : s.mbxClaim c = (m, (s.mbxChange m (State.mbxClaiming m rest)).set .MBX_MB_CORE m c) := by
    rw [State.mbxClaim, h]
    rfl
  rw [hclaim]
  refine ⟨rfl, (hframe.mbxAt ?_).congr (State.fld_set_ne _ _ (.inl (by decide))), hframe.mbxQueue⟩
  exact State.mbxAt_set_sameGen { s with mbxQueue := rest } m false (by decide)

theorem State.mbxClaim_of_empty (c : Nat) (h : s.mbxQueue = []) : s.mbxClaim c = (0x80000000, s) := by
  rw [State.mbxClaim, h]

end

/-! ### The statement -/

/-- Settles O54: each move by where it leaves the control word, which the sources it drives do not change, and the
attempts that count as errors by the branch they take. -/
theorem mailboxStates : Obligations.MailboxStates := by
  intro s m
  refine ⟨fun hfree hen => ?post, State.mbxPost_of_error, fun hdone => ?release, State.mbxRelease_of_error,
    fun hbusy => ?cancel, State.mbxCancel_of_error, fun _ => State.mbxAct_of_not_owner, fun _ => rfl,
    fun c rest hqueue => ?claim, fun c => State.mbxClaim_of_empty c⟩
  case post =>
    obtain ⟨⟨hstate, hcancel, hgen⟩, hqueue⟩ := State.mbxPost_of_free hfree hen
    exact ⟨hstate, hgen, hcancel, hqueue⟩
  case release =>
    obtain ⟨hstate, -, hgen⟩ := State.mbxAt_mbxRelease hdone
    exact ⟨hstate, hgen⟩
  case cancel =>
    obtain ⟨hstate, hcancel, hgen⟩ := State.mbxAt_mbxCancel hbusy
    exact ⟨hstate, hcancel, hgen⟩
  case claim =>
    obtain ⟨hindex, ⟨hstate, -, hgen⟩, hrest⟩ := State.mbxClaim_of_posted c hqueue
    exact ⟨hindex, hstate, hrest, hgen⟩

end Sys2Proof.Machine
end

section
/-!
SUPPORT. The checks of a command's request (R419): `State.cmdCheck` where the ABI version is not served and where it is, and
the statement they give.
-/
namespace Sys2Proof.Machine

/-! ### The checks -/

section
variable {s : State} {k : CmdRule} {c : Cmd}

theorem State.cmdCheck_of_abi (h0 : s.mbxAbi c.m ≠ 0) (h1 : s.mbxAbi c.m ≠ 0x0100) : s.cmdCheck k c = some (2, 0x0100) :=
  if_pos ⟨h0, h1⟩

/-- The checks behind the ABI's, each with its condition in the words of R418 and R419. -/
theorem State.cmdCheck_of_abi_served (habi : s.mbxAbi c.m = 0 ∨ s.mbxAbi c.m = 0x0100) : s.cmdCheck k c =
    if c.cls ∉ k.who then some (3, c.cls)
    else if s.mbxLen c.m < k.lo then some (4, k.lo)
    else if k.hi < s.mbxLen c.m then some (4, k.hi)
    else if (1 ≤ c.cls ∧ c.cls ≤ 3 ∧ s.fnState c.who = fnCONTAINED ∧ k.free = false) ∨
      (s.mode = .FOLLOW ∧ (k.mir = true ∨ 2 ≤ c.cls)) then some (5, s.modeRole)
    else none := by
  have hserved : ¬(s.mbxAbi c.m ≠ 0 ∧ s.mbxAbi c.m ≠ 0x0100) := by omega
  simp [State.cmdCheck, hserved, and_assoc]

end

/-! ### The statement -/

/-- Settles O55: with an ABI version that is served, each check decides where those before it have passed; the last is of the
mode and of a CONTAINED function, whose two parts answer alike. BAD_LEN reports the bound that the length missed (log entry
53). -/
theorem commandChecks : Obligations.CommandChecks := by
  intro s k c
  refine ⟨State.cmdCheck_of_abi, fun habi => ?_⟩
  rw [State.cmdCheck_of_abi_served habi]
  refine ⟨fun hcls => if_pos hcls, fun hcls => ?_⟩
  rw [if_neg (not_not_intro hcls)]
  refine ⟨fun hshort => if_pos hshort, fun hlo hlong => ?_, fun hlo hhi => ?_⟩
  · rw [if_neg (Nat.not_lt.mpr hlo), if_pos hlong]
  · rw [if_neg (Nat.not_lt.mpr hlo), if_neg (Nat.not_lt.mpr hhi)]
    refine ⟨fun hmode hmir => if_pos (.inr ⟨hmode, hmir⟩),
      fun hmin hmax hcont hfree => if_pos (.inl ⟨hmin, hmax, hcont, hfree⟩), fun hmode hmay => if_neg ?_⟩
    rintro (⟨hmin, hmax, hcont, hfree⟩ | ⟨hfollow, -⟩)
    · rcases hmay with h | h | h | h
      · omega
      · omega
      · exact h hcont
      · exact Bool.eq_false_iff.mp hfree h
    · exact hmode hfollow

end Sys2Proof.Machine
end

section
/-!
SUPPORT. A power request that a dependency forbids (R459): the check that `State.domRequest` makes of it, what the end of a
request leaves alone (R462), and the statement they give.
-/
namespace Sys2Proof.Machine

/-! ### An event of the power unit (R478) -/

@[simp] theorem State.doms_pwrEvt (s : State) (f : Fld) : (s.pwrEvt f).doms = s.doms :=
  (IrqFrame.evt s (by decide) f 0).doms

@[simp] theorem State.bt_pwrEvt (s : State) (f : Fld) : (s.pwrEvt f).bt = s.bt :=
  (IrqFrame.evt s (by decide) f 0).bt

theorem State.fld_pwrEvt_ne (s : State) {f g : Fld} (i : Nat) (hne : f ≠ g) (hirq : g ∉ irqFlds) :
    (s.pwrEvt f).fld g i = s.fld g i :=
  ((IrqFrame.evt s (by decide) f 0).fld g i hirq).trans (State.fld_set_ne s 1 (.inl hne))

/-! ### The end of a power request (R462) -/

@[simp] theorem State.doms_domEnd (s : State) (d res : Nat) : (s.domEnd d res).doms = s.doms := by
  unfold State.domEnd
  split <;> simp only [State.doms_pwrEvt, State.set_doms]

@[simp] theorem State.bt_domEnd (s : State) (d res : Nat) : (s.domEnd d res).bt = { s.bt with domReq := none } := by
  unfold State.domEnd
  split <;> simp only [State.bt_pwrEvt, State.set_bt]

/-- RESULT holds the result: neither LAST nor the event flags touch it. -/
theorem State.fld_domEnd_result (s : State) (d : Nat) {res : Nat} (hres : res < 8) :
    (s.domEnd d res).fld .PWR_DOM_RESULT_RESULT = res := by
  unfold State.domEnd
  extract_lets bt idle recorded done
  have hset : recorded.fld .PWR_DOM_RESULT_RESULT = res := by
    unfold recorded
    rw [State.fld_set_ne _ _ (.inl (by decide)), State.fld_set_self]
    exact Nat.mod_eq_of_lt hres
  have hdone : done.fld .PWR_DOM_RESULT_RESULT = res := (recorded.fld_pwrEvt_ne 0 (by decide) (by decide)).trans hset
  split
  · exact hdone
  · exact (done.fld_pwrEvt_ne 0 (by decide) (by decide)).trans hdone

/-! ### The checks of a request (R458, R459) -/

section
variable {s : State} {d op : Nat} (force : Bool)

/-- A request that R458 lets pass is not refused: the domain switches by request, and RETAIN only where it has retention. -/
theorem domRequest_not_refused (hd : d < 20) (hby : domByReq d = true)
    (hop : op = 0 ∨ op = 1 ∨ (op = 2 ∧ domRetains d = true)) :
    ¬(20 ≤ d ∨ op = 3 ∨ (!domByReq d) = true ∨ (op = 2 ∧ (!domRetains d) = true)) := by
  rintro (hlarge | hreserved | hfixed | ⟨hretain, hnone⟩)
  · omega
  · omega
  · simp [hby] at hfixed
  · rcases hop with h | h | ⟨-, hhas⟩
    · omega
    · omega
    · simp [hhas] at hnone

/-- ON of a domain that requires one that is not on. -/
theorem State.domRequest_on_of_unmet (hidle : s.bt.domReq = none) (hd : d < 20) (hby : domByReq d = true)
    (hoff : s.dom d ≠ .on) (hunmet : ∃ e ∈ domNeeds d, s.dom e ≠ .on) : s.domRequest d 1 force = s.domEnd d 3 := by
  have hany : ((domNeeds d).any fun e => s.dom e != .on) = true := by
    simpa only [List.any_eq_true, bne_iff_ne] using hunmet
  unfold State.domRequest
  rw [hidle]
  dsimp only
  rw [if_neg (domRequest_not_refused hd hby (.inr (.inl rfl))), if_pos rfl, if_neg hoff, if_pos hany]

/-- OFF, or RETAIN where the domain has retention, of a domain that another one that is on requires. -/
theorem State.domRequest_down_of_needed (hidle : s.bt.domReq = none) (hd : d < 20) (hby : domByReq d = true)
    (hop : op = 0 ∨ (op = 2 ∧ domRetains d = true)) (hneeded : s.domNeeded d = true) :
    s.domRequest d op force = s.domEnd d 3 := by
  have hdown : op ≠ 1 := by omega
  unfold State.domRequest
  rw [hidle]
  dsimp only
  rw [if_neg (domRequest_not_refused hd hby (hop.imp_right .inr)), if_neg hdown, if_pos hneeded]

end

/-! ### The statement -/

/-- Settles O53: each request that R459 forbids ends at its check of the dependencies, and the end of a request changes no
domain. RETAIN takes the same check as OFF, though no domain of R458 requires one that has retention. -/
theorem domainDependency : Obligations.DomainDependency := by
  intro s d force hidle hd hby
  exact ⟨State.domRequest_on_of_unmet force hidle hd hby,
    State.domRequest_down_of_needed force hidle hd hby (.inl rfl),
    fun hneeded hretains => State.domRequest_down_of_needed force hidle hd hby (.inr ⟨rfl, hretains⟩) hneeded,
    s.doms_domEnd d 3, s.fld_domEnd_result d (by decide), congrArg (·.domReq) (s.bt_domEnd d 3)⟩

end Sys2Proof.Machine
end

section
/-! SUPPORT. Every command at once: what the primitive updates keep, every command keeps (`keeps_exec`), and so every step;
what setting a register field keeps, a command that stores nothing keeps; which commands are refused; and the statements about
the step, reset and every command. -/
namespace Sys2Proof.Machine

/-! ### What every command keeps -/

/-- What the primitive updates keep, every command keeps: each command by the law of its own meaning. -/
theorem keeps_exec {P : State → Prop} (hP : Keeps P) (c : Instr) {s : State} (hs : P s) : Res.all P (exec c s) := by
  cases c with
  | powerUp => exact keeps_execPowerUp hP hs
  | powerDown => exact keeps_execPowerDown hP hs
  | overvoltage => exact keeps_execOvervoltage hP hs
  | thermalWarning idx => exact keeps_execThermalWarning hP idx hs
  | thermalCritical idx => exact keeps_execThermalCritical hP idx hs
  | thermalTrip idx => exact keeps_execThermalTrip hP idx hs
  | thermalTripClear => exact keeps_execThermalTripClear hP.regs hs
  | imageVerified okA okB ver mirrorVer => exact keeps_execImageVerified hP okA okB ver mirrorVer hs
  | storeTrained => exact keeps_execStoreTrained hP hs
  | fwReady => exact keeps_execFwReady hP hs
  | bootWatchdogExpire => exact keeps_execBootWatchdogExpire hP hs
  | rrsTimeout => exact keeps_execRrsTimeout hP.regs hs
  | moduleResetEvent cause => exact keeps_execModuleResetEvent hP cause hs
  | standbyEntry => exact keeps_execStandbyEntry hP hs
  | standbyLedgerTimeout => exact keeps_execStandbyLedgerTimeout hP hs
  | moduleWake src => exact keeps_execModuleWake hP src hs
  | perstAssert => exact keeps_execPerstAssert hP hs
  | perstDeassert => exact keeps_execPerstDeassert hP hs
  | hotResetRx => exact keeps_execHotResetRx hP hs
  | linkDisableRx => exact keeps_execLinkDisableRx hP hs
  | dlDown => exact keeps_execDlDown hP hs
  | dlUp t flit l0p => exact keeps_execDlUp hP t flit l0p hs
  | refclkLoss => exact keeps_execRefclkLoss hP hs
  | laneErrWindowEnd errs margin replayed => exact keeps_execLaneErrWindowEnd hP errs margin replayed hs
  | recoveryDone t => exact keeps_execRecoveryDone hP t hs
  | autoRewiden => exact keeps_execAutoRewiden hP hs
  | hstRetrain => exact keeps_execHstRetrain hP hs
  | l0pDemandCheck window epoch => exact keeps_execL0pDemandCheck hP.regs window epoch hs
  | l0pWidthChangeDone width => exact keeps_execL0pWidthChangeDone hP width hs
  | aspmL1Entry accepted unacked => exact keeps_execAspmL1Entry hP.regs accepted unacked hs
  | l1Exit => exact keeps_execL1Exit hP hs
  | pmeTurnOffRx => exact keeps_execPmeTurnOffRx hP.regs hs
  | pmeToAckSend expired => exact keeps_execPmeToAckSend hP expired hs
  | hostPostedWriteRx h data be err => exact keeps_execHostPostedWriteRx hP h data be err hs
  | hostMemoryReadRx h len err => exact keeps_execHostMemoryReadRx hP h len err hs
  | hostAtomicopRx h op size data err => exact keeps_execHostAtomicopRx hP h op size data err hs
  | memoryReadLockRx h => exact keeps_execMemoryReadLockRx hP h hs
  | configRead f dw tag => exact keeps_execConfigRead hP f dw tag hs
  | configWrite f rid dw v be tag => exact keeps_execConfigWrite hP f rid dw v be tag hs
  | flr f => exact keeps_execFlr hP f hs
  | vfEnableSet pf => exact keeps_execVfEnableSet hP pf hs
  | vfEnableClear pf => exact keeps_execVfEnableClear hP pf hs
  | bmeClear f => exact keeps_execBmeClear hP f hs
  | bmeSet f => exact keeps_execBmeSet hP f hs
  | pasidEnableClear f => exact keeps_execPasidEnableClear hP f hs
  | resizableBarWrite pf vf size => exact keeps_execResizableBarWrite hP pf vf size hs
  | rinseDrained f => exact keeps_execRinseDrained hP f hs
  | rinseDeadline f => exact keeps_execRinseDeadline hP f hs
  | fnSliceWrite k v => exact keeps_execFnSliceWrite hP k v hs
  | fnResWrite f first count => exact keeps_execFnResWrite hP f first count hs
  | bdtRebuild => exact keeps_execBdtRebuild hP.regs hs
  | walkSlotStart => exact keeps_execWalkSlotStart hP.regs hs
  | windowWalkDone tbl bad => exact keeps_execWindowWalkDone hP tbl bad hs
  | xltUpdWrite core idx => exact keeps_execXltUpdWrite hP core idx hs
  | xltUpdCommit => exact keeps_execXltUpdCommit hP hs
  | xltUpdInvalEntry core idx => exact keeps_execXltUpdInvalEntry hP core idx hs
  | xltUpdInvalTable core idx => exact keeps_execXltUpdInvalTable hP core idx hs
  | xltUpdInvalAll core idx => exact keeps_execXltUpdInvalAll hP core idx hs
  | xltInvalDone => exact keeps_execXltInvalDone hP.regs hs
  | xltTblBaseWrite core base => exact keeps_execXltTblBaseWrite hP core base hs
  | xltEpochAdvance core => exact keeps_execXltEpochAdvance hP core hs
  | xltEpochAdvanceApply => exact keeps_execXltEpochAdvanceApply hP.regs hs
  | xltEpochDrainRead core tag => exact keeps_execXltEpochDrainRead hP core tag hs
  | xltEpochDrainReturn => exact keeps_execXltEpochDrainReturn hP hs
  | xltEpochDrainTimeout => exact keeps_execXltEpochDrainTimeout hP hs
  | ledgerEntryOpen p init => exact keeps_execLedgerEntryOpen hP p init hs
  | ledgerIssue p init tag => exact keeps_execLedgerIssue hP p init tag hs
  | ledgerRetryReissue p init => exact keeps_execLedgerRetryReissue hP p init hs
  | ledgerWriteTimeout p tag => exact keeps_execLedgerWriteTimeout hP p tag hs
  | portReadTimeout p tag => exact keeps_execPortReadTimeout hP p tag hs
  | heldReadRelease => exact keeps_execHeldReadRelease hP hs
  | cplToPortRelease => exact keeps_execCplToPortRelease hP.regs hs
  | basketReadIssue => exact keeps_execBasketReadIssue hP hs
  | portReadIssue p tag => exact keeps_execPortReadIssue hP p tag hs
  | hostCompletionRx tag status data ep last => exact keeps_execHostCompletionRx hP tag status data ep last hs
  | basketTagTimeout tag => exact keeps_execBasketTagTimeout hP tag hs
  | basketQuarantineExpire tag => exact keeps_execBasketQuarantineExpire hP.regs tag hs
  | starchGrant gran hfn => exact keeps_execStarchGrant hP gran hfn hs
  | starchHoldExpire p gran hfn => exact keeps_execStarchHoldExpire hP p gran hfn hs
  | lateErrorRx p init seq status => exact keeps_execLateErrorRx hP p init seq status hs
  | laneEnable l on => exact keeps_execLaneEnable hP l on hs
  | laneRetrain l => exact keeps_execLaneRetrain hP l hs
  | trainBlockRx idx word rx => exact keeps_execTrainBlockRx hP idx word rx hs
  | laneEqTimeout idx => exact keeps_execLaneEqTimeout hP.regs idx hs
  | linkTrainDecide l => exact keeps_execLinkTrainDecide hP l hs
  | detectTimeout l => exact keeps_execDetectTimeout hP l hs
  | trainRestartTimeout l => exact keeps_execTrainRestartTimeout hP l hs
  | trainBeaconTick l on => exact keeps_execTrainBeaconTick hP.regs l on hs
  | laneSignalDetect idx => exact keeps_execLaneSignalDetect hP.regs idx hs
  | laneLockLoss idx w => exact keeps_execLaneLockLoss hP idx w hs
  | laneSyncErrWindow idx errs => exact keeps_execLaneSyncErrWindow hP idx errs hs
  | laneForceDarnWrite idx v => exact keeps_execLaneForceDarnWrite hP idx v hs
  | trialNow idx => exact keeps_execTrialNow hP.regs idx hs
  | trialWindowEnd idx w => exact keeps_execTrialWindowEnd hP idx w hs
  | markerRx idx word skew => exact keeps_execMarkerRx hP idx word skew hs
  | darnReqRx l arg add rxok => exact keeps_execDarnReqRx hP l arg add rxok hs
  | addReqRx l arg rxok darn => exact keeps_execAddReqRx hP l arg rxok darn hs
  | stripeRx l active skew => exact keeps_execStripeRx hP l active skew hs
  | dozeMarkerRx l => exact keeps_execDozeMarkerRx hP l hs
  | deepMarkerRx l => exact keeps_execDeepMarkerRx hP l hs
  | darnReqRepeat l => exact keeps_execDarnReqRepeat hP.regs l hs
  | darnGiveUp l => exact keeps_execDarnGiveUp hP l hs
  | periodicMarkerTx l => exact keeps_execPeriodicMarkerTx hP.regs l hs
  | dozeEntry l far => exact keeps_execDozeEntry hP l far hs
  | deepEntry l far => exact keeps_execDeepEntry hP l far hs
  | lowPowerExit l => exact keeps_execLowPowerExit hP l hs
  | lowPowerExitDone l failed => exact keeps_execLowPowerExitDone hP l failed hs
  | bundleRx l data ctl => exact keeps_execBundleRx hP l data ctl hs
  | ackNakOnlyRx l word => exact keeps_execAckNakOnlyRx hP l word hs
  | replayTimeout l => exact keeps_execReplayTimeout hP l hs
  | nakHoldoffExpire l => exact keeps_execNakHoldoffExpire hP.regs l hs
  | flowRx l vc hdr data => exact keeps_execFlowRx hP l vc hdr data hs
  | flowTx l vc2 => exact keeps_execFlowTx hP.regs l vc2 hs
  | helloRx p version atomic seqAware dual dozeOk deepOk sbMin design twin =>
    exact keeps_execHelloRx hP p version atomic seqAware dual dozeOk deepOk sbMin design twin hs
  | helloTimeout p => exact keeps_execHelloTimeout hP p hs
  | ulkReset p => exact keeps_execUlkReset hP p hs
  | ulkEnWrite p on => exact keeps_execUlkEnWrite hP p on hs
  | urReadRx p tag len addr priv exec err => exact keeps_execUrReadRx hP p tag len addr priv exec err hs
  | urWriteRx p tag init seq addr retry priv exec data mask err =>
    exact keeps_execUrWriteRx hP p tag init seq addr retry priv exec data mask err hs
  | urAtomicRx p tag aop asz addr priv exec ops err => exact keeps_execUrAtomicRx hP p tag aop asz addr priv exec ops err hs
  | urLockRx p tag addr priv exec => exact keeps_execUrLockRx hP p tag addr priv exec hs
  | urUnlockRx p tag addr priv exec => exact keeps_execUrUnlockRx hP p tag addr priv exec hs
  | urResponseRx p tag status off last data mask => exact keeps_execUrResponseRx hP p tag status off last data mask hs
  | sbPollTick p => exact keeps_execSbPollTick hP.regs p hs
  | sbStateRx p id unsol lines => exact keeps_execSbStateRx hP p id unsol lines hs
  | sbOutSend p => exact keeps_execSbOutSend hP.regs p hs
  | ulkSbLatchWrite p v => exact keeps_execUlkSbLatchWrite hP.regs p v hs
  | reqRx p line count => exact keeps_execReqRx hP p line count hs
  | dmaChStart core c => exact keeps_execDmaChStart hP core c hs
  | dmaChAbort core c => exact keeps_execDmaChAbort hP core c hs
  | dmaChResume core c => exact keeps_execDmaChResume hP core c hs
  | dmaChClear core c => exact keeps_execDmaChClear hP core c hs
  | dmaChCfgWrite core c v => exact keeps_execDmaChCfgWrite hP core c v hs
  | dmaGrantWrite core pf j v => exact keeps_execDmaGrantWrite hP core pf j v hs
  | doorbellWrite f k v => exact keeps_execDoorbellWrite hP f k v hs
  | descFetchDone x => exact keeps_execDescFetchDone hP x hs
  | ringDispatch x => exact keeps_execRingDispatch hP x hs
  | dmaBeatIssue half err => exact keeps_execDmaBeatIssue hP half err hs
  | dmaReqTake line => exact keeps_execDmaReqTake hP.regs line hs
  | dmaBeatReadDone c => exact keeps_execDmaBeatReadDone hP c hs
  | dmaBeatArrived c => exact keeps_execDmaBeatArrived hP c hs
  | dmaSoftStopDone c => exact keeps_execDmaSoftStopDone hP c hs
  | dmaHardAbortDone c => exact keeps_execDmaHardAbortDone hP c hs
  | reqDoneSend p line => exact keeps_execReqDoneSend hP.regs p line hs
  | dmaRingResumeWrite core x => exact keeps_execDmaRingResumeWrite hP core x hs
  | dmaRingResetWrite core x => exact keeps_execDmaRingResetWrite hP core x hs
  | irqDoorbellWrite w v => exact keeps_execIrqDoorbellWrite hP w v hs
  | irqRaise idx => exact keeps_execIrqRaise hP idx hs
  | irqLevelFall idx => exact keeps_execIrqLevelFall hP idx hs
  | irqArrayWrite c al off data => exact keeps_execIrqArrayWrite hP c al off data hs
  | irqPendSet core n v => exact keeps_execIrqPendSet hP core n v hs
  | irqPendClr core n v => exact keeps_execIrqPendClr hP core n v hs
  | irqEnSet core n v => exact keeps_execIrqEnSet hP core n v hs
  | irqEnClr core n v => exact keeps_execIrqEnClr hP core n v hs
  | irqRouteWrite core idx v => exact keeps_execIrqRouteWrite hP core idx v hs
  | irqCoreClaim c => exact keeps_execIrqCoreClaim hP c hs
  | irqCoreComplete core c idx => exact keeps_execIrqCoreComplete hP core c idx hs
  | irqCoreThrWrite core c thr => exact keeps_execIrqCoreThrWrite hP core c thr hs
  | msixMessageSend f e => exact keeps_execMsixMessageSend hP f e hs
  | localIrqDelivery idx => exact keeps_execLocalIrqDelivery hP idx hs
  | stormWindowEnd => exact keeps_execStormWindowEnd hP hs
  | irqStormWrite core n v => exact keeps_execIrqStormWrite hP core n v hs
  | govEpoch => exact keeps_execGovEpoch hP hs
  | govWindowEnd => exact keeps_execGovWindowEnd hP.regs hs
  | govStep => exact keeps_execGovStep hP hs
  | shrUpdCmd core acct => exact keeps_execShrUpdCmd hP core acct hs
  | shrUpdDone => exact keeps_execShrUpdDone hP.regs hs
  | shrCtxBindWrite core x v => exact keeps_execShrCtxBindWrite hP core x v hs
  | spillReturn f => exact keeps_execSpillReturn hP f hs
  | grdUpdCmd core set region => exact keeps_execGrdUpdCmd hP core set region hs
  | grdUpdDone => exact keeps_execGrdUpdDone hP hs
  | grdEpochAdvance core => exact keeps_execGrdEpochAdvance hP core hs
  | grdEpochDrainRead core tag => exact keeps_execGrdEpochDrainRead hP core tag hs
  | grdEpochDrainReturn late => exact keeps_execGrdEpochDrainReturn hP late hs
  | debugAccess addr data len err => exact keeps_execDebugAccess hP addr data len err hs
  | relock => exact keeps_execRelock hP hs
  | getVersion => exact keeps_execGetVersion hP.regs hs
  | getCapabilities => exact keeps_execGetCapabilities hP hs
  | negotiateAlgorithms sig hash dhe aead => exact keeps_execNegotiateAlgorithms hP sig hash dhe aead hs
  | getDigests => exact keeps_execGetDigests hP hs
  | getCertificate slot off len => exact keeps_execGetCertificate hP slot off len hs
  | challenge slot => exact keeps_execChallenge hP slot hs
  | getMeasurements index sign => exact keeps_execGetMeasurements hP index sign hs
  | keyExchange slot => exact keeps_execKeyExchange hP slot hs
  | finish id ok => exact keeps_execFinish hP.regs id ok hs
  | spdmHeartbeat id => exact keeps_execSpdmHeartbeat hP.regs id hs
  | keyUpdate id op => exact keeps_execKeyUpdate hP.regs id op hs
  | endSession id => exact keeps_execEndSession hP.regs id hs
  | ideKmQuery id => exact keeps_execIdeKmQuery hP.regs id hs
  | keyProg id stream kset dir sub key => exact keeps_execKeyProg hP.regs id stream kset dir sub key hs
  | kSetGo id stream kset dir sub => exact keeps_execKSetGo hP.regs id stream kset dir sub hs
  | kSetStop id stream kset dir sub => exact keeps_execKSetStop hP id stream kset dir sub hs
  | getTdispVersion id f => exact keeps_execGetTdispVersion hP.regs id f hs
  | getTdispCapabilities id f => exact keeps_execGetTdispCapabilities hP.regs id f hs
  | lockInterface id f stream => exact keeps_execLockInterface hP.regs id f stream hs
  | getDeviceInterfaceReport id f => exact keeps_execGetDeviceInterfaceReport hP.regs id f hs
  | getDeviceInterfaceState id f => exact keeps_execGetDeviceInterfaceState hP.regs id f hs
  | startInterface id f nonce => exact keeps_execStartInterface hP.regs id f nonce hs
  | stopInterface id f => exact keeps_execStopInterface hP id f hs
  | seamHelloRx version mver mode leading fw serial far =>
    exact keeps_execSeamHelloRx hP version mver mode leading fw serial far hs
  | heartbeatTx => exact keeps_execHeartbeatTx hP.regs hs
  | heartbeatRx count leading contained sync mseq => exact keeps_execHeartbeatRx hP count leading contained sync mseq hs
  | heartbeatMiss => exact keeps_execHeartbeatMiss hP hs
  | pairAliveToggle => exact keeps_execPairAliveToggle hP.regs hs
  | aliveWinExpire => exact keeps_execAliveWinExpire hP hs
  | twinPresentChange present => exact keeps_execTwinPresentChange hP present hs
  | mirrorRx rtype mseq arg payload => exact keeps_execMirrorRx hP rtype mseq arg payload hs
  | mirrorAckRx mseq => exact keeps_execMirrorAckRx hP mseq hs
  | handoverRx op mseq => exact keeps_execHandoverRx hP op mseq hs
  | pairCtlRx op => exact keeps_execPairCtlRx hP op hs
  | semCtlHandover core => exact keeps_execSemCtlHandover hP core hs
  | semCtlLeave core => exact keeps_execSemCtlLeave hP core hs
  | semCtlSnap core => exact keeps_execSemCtlSnap hP core hs
  | hoDrainDone => exact keeps_execHoDrainDone hP.regs hs
  | hoDrainTimeout => exact keeps_execHoDrainTimeout hP hs
  | mbxPost m => exact keeps_execMbxPost hP m hs
  | mbxRelease m => exact keeps_execMbxRelease hP m hs
  | mbxCancel m => exact keeps_execMbxCancel hP m hs
  | mbxClaim c => exact keeps_execMbxClaim hP c hs
  | mbxDone m => exact keeps_execMbxDone hP m hs
  | nop m => exact keeps_execNop hP m hs
  | getInfo m => exact keeps_execGetInfo hP m hs
  | fnQuery m => exact keeps_execFnQuery hP m hs
  | fnSetRes m => exact keeps_execFnSetRes hP m hs
  | sliceBind m => exact keeps_execSliceBind hP m hs
  | sliceUnbind m => exact keeps_execSliceUnbind hP m hs
  | fnLock m => exact keeps_execFnLock hP m hs
  | vfTotal m => exact keeps_execVfTotal hP m hs
  | ctxBind m => exact keeps_execCtxBind hP m hs
  | ctxUnbind m => exact keeps_execCtxUnbind hP m hs
  | ctxSetup m => exact keeps_execCtxSetup hP m hs
  | ctxQuery m => exact keeps_execCtxQuery hP m hs
  | ringResume m => exact keeps_execRingResume hP m hs
  | ringReset m => exact keeps_execRingReset hP m hs
  | winWrite m => exact keeps_execWinWrite hP m hs
  | winRead m => exact keeps_execWinRead hP m hs
  | winInval m => exact keeps_execWinInval hP m hs
  | epochSync m late => exact keeps_execEpochSync hP m late hs
  | grdWrite m => exact keeps_execGrdWrite hP m hs
  | grdRead m => exact keeps_execGrdRead hP m hs
  | irqSet m => exact keeps_execIrqSet hP m hs
  | irqGet m => exact keeps_execIrqGet hP m hs
  | irqLtSet m => exact keeps_execIrqLtSet hP m hs
  | dmaGrant m => exact keeps_execDmaGrant hP m hs
  | dmaRevoke m => exact keeps_execDmaRevoke hP m hs
  | dmaAbort m => exact keeps_execDmaAbort hP m hs
  | shareSet m => exact keeps_execShareSet hP m hs
  | shareGet m => exact keeps_execShareGet hP m hs
  | resQuery m => exact keeps_execResQuery hP m hs
  | pairStatus m => exact keeps_execPairStatus hP m hs
  | pairHandover m => exact keeps_execPairHandover hP m hs
  | pairLeave m => exact keeps_execPairLeave hP m hs
  | pairSnap m => exact keeps_execPairSnap hP m hs
  | pairTake m => exact keeps_execPairTake hP m hs
  | fwStageBegin m => exact keeps_execFwStageBegin hP m hs
  | fwStageData m => exact keeps_execFwStageData hP m hs
  | fwStageCommit m good ver => exact keeps_execFwStageCommit hP m good ver hs
  | fwStageAbort m => exact keeps_execFwStageAbort hP m hs
  | moduleReset m => exact keeps_execModuleReset hP m hs
  | moduleResetDelayExpire => exact keeps_execModuleResetDelayExpire hP hs
  | evosetWrite m => exact keeps_execEvosetWrite hP m hs
  | standby m => exact keeps_execStandby hP m hs
  | domainPower m => exact keeps_execDomainPower hP m hs
  | portEnable m => exact keeps_execPortEnable hP m hs
  | logRead m => exact keeps_execLogRead hP m hs
  | logClear m => exact keeps_execLogClear hP m hs
  | wakeSrc m => exact keeps_execWakeSrc hP m hs
  | timeGet m => exact keeps_execTimeGet hP m hs
  | timeSync m => exact keeps_execTimeSync hP m hs
  | nonceGet m => exact keeps_execNonceGet hP m hs
  | lifecycleAdvance m sigOk => exact keeps_execLifecycleAdvance hP m sigOk hs
  | debugUnlock m sigOk => exact keeps_execDebugUnlock hP m sigOk hs
  | mctpMessageRx h opcode abi tag payload => exact keeps_execMctpMessageRx hP h opcode abi tag payload hs
  | setEndpointId h eid owner => exact keeps_execSetEndpointId hP.regs h eid owner hs
  | getEndpointId h => exact keeps_execGetEndpointId hP.regs h hs
  | getEndpointUuid h => exact keeps_execGetEndpointUuid hP.regs h hs
  | getMctpVersionSupport h typ => exact keeps_execGetMctpVersionSupport hP.regs h typ hs
  | getMessageTypeSupport h => exact keeps_execGetMessageTypeSupport hP.regs h hs
  | getVendorDefinedMessageSupport h => exact keeps_execGetVendorDefinedMessageSupport hP.regs h hs
  | getTid h => exact keeps_execGetTid hP.regs h hs
  | setTid h tid => exact keeps_execSetTid hP.regs h tid hs
  | getPldmVersion h typ => exact keeps_execGetPldmVersion hP.regs h typ hs
  | getPldmTypes h => exact keeps_execGetPldmTypes hP.regs h hs
  | getPldmCommands h typ => exact keeps_execGetPldmCommands hP.regs h typ hs
  | getSensorReading h sensor => exact keeps_execGetSensorReading hP.regs h sensor hs
  | getStateSensorReadings h sensor => exact keeps_execGetStateSensorReadings hP.regs h sensor hs
  | setNumericSensorEnable h sensor on => exact keeps_execSetNumericSensorEnable hP.regs h sensor on hs
  | getPdrRepositoryInfo h => exact keeps_execGetPdrRepositoryInfo hP.regs h hs
  | getPdr h handle => exact keeps_execGetPdr hP.regs h handle hs
  | setEventReceiver h eid => exact keeps_execSetEventReceiver hP.regs h eid hs
  | pldmSensorRefresh r1 r2 r3 r4 r5 r6 => exact keeps_execPldmSensorRefresh hP.regs r1 r2 r3 r4 r5 r6 hs
  | patrolScrub store gran held err => exact keeps_execPatrolScrub hP store gran held err hs
  | ceRateWindow => exact keeps_execCeRateWindow hP hs
  | drsZeroGo => exact keeps_execDrsZeroGo hP hs
  | drsZeroAbort => exact keeps_execDrsZeroAbort hP hs
  | zeroComplete => exact keeps_execZeroComplete hP hs
  | memCntSnap => exact keeps_execMemCntSnap hP.regs hs
  | pwrDomReq core dom op force => exact keeps_execPwrDomReq hP core dom op force hs
  | domainDrained d => exact keeps_execDomainDrained hP d hs
  | domainDrainTimeout d => exact keeps_execDomainDrainTimeout hP d hs
  | domainPowered d => exact keeps_execDomainPowered hP d hs
  | coreWait c => exact keeps_execCoreWait hP c hs
  | coreEntryWindowEnd c => exact keeps_execCoreEntryWindowEnd hP c hs
  | coreWake c debug => exact keeps_execCoreWake hP c debug hs
  | pwrCoreWakeWrite core c => exact keeps_execPwrCoreWakeWrite hP core c hs
  | clkCoreSelWrite by_ c pll => exact keeps_execClkCoreSelWrite hP by_ c pll hs
  | wakeTimerFire => exact keeps_execWakeTimerFire hP hs
  | wdogKick core key => exact keeps_execWdogKick hP core key hs
  | wdogWarn => exact keeps_execWdogWarn hP hs
  | wdogExpire => exact keeps_execWdogExpire hP hs
  | pllLossOfLock which => exact keeps_execPllLossOfLock hP which hs
  | lanePllUnlock d => exact keeps_execLanePllUnlock hP d hs
  | rstCtlKey core delay => exact keeps_execRstCtlKey hP core delay hs
  | timStepWrite core delta => exact keeps_execTimStepWrite hP core delta hs
  | ptmDialog good ofs => exact keeps_execPtmDialog hP.regs good ofs hs
  | datapathError sram => exact keeps_execDatapathError hP sram hs
  | hstContEnter core => exact keeps_execHstContEnter hP core hs
  | containRelease core key ledgerFail dmaAbort => exact keeps_execContainRelease hP core key ledgerFail dmaAbort hs
  | fnContRequest core f => exact keeps_execFnContRequest hP core f hs
  | fnContRelease core f => exact keeps_execFnContRelease hP core f hs
  | faultLogCopy => exact keeps_execFaultLogCopy hP.regs hs
  | faultLogFlush => exact keeps_execFaultLogFlush hP.regs hs
  | rawStatus pec => exact keeps_execRawStatus hP.regs pec hs
  | rawWakeLast pec => exact keeps_execRawWakeLast hP.regs pec hs
  | rawLogSeek pec num => exact keeps_execRawLogSeek hP.regs pec num hs
  | rawLogRead pec => exact keeps_execRawLogRead hP.regs pec hs
  | rawWake pec data => exact keeps_execRawWake hP pec data hs
  | rawReset pec data => exact keeps_execRawReset hP pec data hs
  | rawContain pec data => exact keeps_execRawContain hP pec data hs
  | registerWrite core dw wide v => exact keeps_execRegisterWrite hP core dw wide v hs
  | pairAliveEdge => exact keeps_execPairAliveEdge hP.regs hs
  | pairRoleChange high => exact keeps_execPairRoleChange hP.regs high hs
  | linkDisableExit => exact keeps_execLinkDisableExit hP hs
  | recoveryEntry => exact keeps_execRecoveryEntry hP hs
  | l1SubstateEntry ltrMet => exact keeps_execL1SubstateEntry hP.regs ltrMet hs
  | postedCreditGrant n => exact keeps_execPostedCreditGrant hP n hs
  | grdEpochAdvanceApply => exact keeps_execGrdEpochAdvanceApply hP.regs hs
  | doeDiscovery index => exact keeps_execDoeDiscovery hP.regs index hs
  | thermalLimitCleared idx warning => exact keeps_execThermalLimitCleared hP.regs idx warning hs
  | inputPowerWarning high => exact keeps_execInputPowerWarning hP.regs high hs
  | vinOutOfRange outside => exact keeps_execVinOutOfRange hP.regs outside hs
  | refclkReturn => exact keeps_execRefclkReturn hP.regs hs
  | slewComplete => exact keeps_execSlewComplete hP.regs hs

/-- What setting a register field keeps, a command that stores nothing keeps. -/
theorem keeps_exec_of_storesNothing {P : State → Prop} (hP : KeepsRegs P) {c : Instr} (hc : c.storesNothing = true)
    {s : State} (hs : P s) : Res.all P (exec c s) := by
  cases c with
  | thermalTripClear => exact keeps_execThermalTripClear hP hs
  | rrsTimeout => exact keeps_execRrsTimeout hP hs
  | l0pDemandCheck window epoch => exact keeps_execL0pDemandCheck hP window epoch hs
  | aspmL1Entry accepted unacked => exact keeps_execAspmL1Entry hP accepted unacked hs
  | pmeTurnOffRx => exact keeps_execPmeTurnOffRx hP hs
  | bdtRebuild => exact keeps_execBdtRebuild hP hs
  | walkSlotStart => exact keeps_execWalkSlotStart hP hs
  | xltInvalDone => exact keeps_execXltInvalDone hP hs
  | xltEpochAdvanceApply => exact keeps_execXltEpochAdvanceApply hP hs
  | cplToPortRelease => exact keeps_execCplToPortRelease hP hs
  | basketQuarantineExpire tag => exact keeps_execBasketQuarantineExpire hP tag hs
  | laneEqTimeout idx => exact keeps_execLaneEqTimeout hP idx hs
  | trainBeaconTick l on => exact keeps_execTrainBeaconTick hP l on hs
  | laneSignalDetect idx => exact keeps_execLaneSignalDetect hP idx hs
  | trialNow idx => exact keeps_execTrialNow hP idx hs
  | darnReqRepeat l => exact keeps_execDarnReqRepeat hP l hs
  | periodicMarkerTx l => exact keeps_execPeriodicMarkerTx hP l hs
  | nakHoldoffExpire l => exact keeps_execNakHoldoffExpire hP l hs
  | flowTx l vc2 => exact keeps_execFlowTx hP l vc2 hs
  | sbPollTick p => exact keeps_execSbPollTick hP p hs
  | sbOutSend p => exact keeps_execSbOutSend hP p hs
  | ulkSbLatchWrite p v => exact keeps_execUlkSbLatchWrite hP p v hs
  | dmaReqTake line => exact keeps_execDmaReqTake hP line hs
  | reqDoneSend p line => exact keeps_execReqDoneSend hP p line hs
  | govWindowEnd => exact keeps_execGovWindowEnd hP hs
  | shrUpdDone => exact keeps_execShrUpdDone hP hs
  | getVersion => exact keeps_execGetVersion hP hs
  | finish id ok => exact keeps_execFinish hP id ok hs
  | spdmHeartbeat id => exact keeps_execSpdmHeartbeat hP id hs
  | keyUpdate id op => exact keeps_execKeyUpdate hP id op hs
  | endSession id => exact keeps_execEndSession hP id hs
  | ideKmQuery id => exact keeps_execIdeKmQuery hP id hs
  | keyProg id stream kset dir sub key => exact keeps_execKeyProg hP id stream kset dir sub key hs
  | kSetGo id stream kset dir sub => exact keeps_execKSetGo hP id stream kset dir sub hs
  | getTdispVersion id f => exact keeps_execGetTdispVersion hP id f hs
  | getTdispCapabilities id f => exact keeps_execGetTdispCapabilities hP id f hs
  | lockInterface id f stream => exact keeps_execLockInterface hP id f stream hs
  | getDeviceInterfaceReport id f => exact keeps_execGetDeviceInterfaceReport hP id f hs
  | getDeviceInterfaceState id f => exact keeps_execGetDeviceInterfaceState hP id f hs
  | startInterface id f nonce => exact keeps_execStartInterface hP id f nonce hs
  | heartbeatTx => exact keeps_execHeartbeatTx hP hs
  | pairAliveToggle => exact keeps_execPairAliveToggle hP hs
  | hoDrainDone => exact keeps_execHoDrainDone hP hs
  | setEndpointId h eid owner => exact keeps_execSetEndpointId hP h eid owner hs
  | getEndpointId h => exact keeps_execGetEndpointId hP h hs
  | getEndpointUuid h => exact keeps_execGetEndpointUuid hP h hs
  | getMctpVersionSupport h typ => exact keeps_execGetMctpVersionSupport hP h typ hs
  | getMessageTypeSupport h => exact keeps_execGetMessageTypeSupport hP h hs
  | getVendorDefinedMessageSupport h => exact keeps_execGetVendorDefinedMessageSupport hP h hs
  | getTid h => exact keeps_execGetTid hP h hs
  | setTid h tid => exact keeps_execSetTid hP h tid hs
  | getPldmVersion h typ => exact keeps_execGetPldmVersion hP h typ hs
  | getPldmTypes h => exact keeps_execGetPldmTypes hP h hs
  | getPldmCommands h typ => exact keeps_execGetPldmCommands hP h typ hs
  | getSensorReading h sensor => exact keeps_execGetSensorReading hP h sensor hs
  | getStateSensorReadings h sensor => exact keeps_execGetStateSensorReadings hP h sensor hs
  | setNumericSensorEnable h sensor on => exact keeps_execSetNumericSensorEnable hP h sensor on hs
  | getPdrRepositoryInfo h => exact keeps_execGetPdrRepositoryInfo hP h hs
  | getPdr h handle => exact keeps_execGetPdr hP h handle hs
  | setEventReceiver h eid => exact keeps_execSetEventReceiver hP h eid hs
  | pldmSensorRefresh r1 r2 r3 r4 r5 r6 => exact keeps_execPldmSensorRefresh hP r1 r2 r3 r4 r5 r6 hs
  | memCntSnap => exact keeps_execMemCntSnap hP hs
  | ptmDialog good ofs => exact keeps_execPtmDialog hP good ofs hs
  | faultLogCopy => exact keeps_execFaultLogCopy hP hs
  | faultLogFlush => exact keeps_execFaultLogFlush hP hs
  | rawStatus pec => exact keeps_execRawStatus hP pec hs
  | rawWakeLast pec => exact keeps_execRawWakeLast hP pec hs
  | rawLogSeek pec num => exact keeps_execRawLogSeek hP pec num hs
  | rawLogRead pec => exact keeps_execRawLogRead hP pec hs
  | pairAliveEdge => exact keeps_execPairAliveEdge hP hs
  | pairRoleChange high => exact keeps_execPairRoleChange hP high hs
  | l1SubstateEntry ltrMet => exact keeps_execL1SubstateEntry hP ltrMet hs
  | grdEpochAdvanceApply => exact keeps_execGrdEpochAdvanceApply hP hs
  | doeDiscovery index => exact keeps_execDoeDiscovery hP index hs
  | thermalLimitCleared idx warning => exact keeps_execThermalLimitCleared hP idx warning hs
  | inputPowerWarning high => exact keeps_execInputPowerWarning hP high hs
  | vinOutOfRange outside => exact keeps_execVinOutOfRange hP outside hs
  | refclkReturn => exact keeps_execRefclkReturn hP hs
  | slewComplete => exact keeps_execSlewComplete hP hs
  | _ => nomatch hc

/-- A property of the outcome, where that is the next state `t`. -/
theorem Res.of_all_next {P : State → Prop} {o : Res} {t : State} (ho : o = .next t) (h : Res.all P o) : P t := by
  rw [ho] at h
  exact h

/-- What the primitive updates keep, every step keeps: a command acts on the state with the queue's rest, and without one a
nanosecond passes. -/
theorem keeps_step {P : State → Prop} (hP : Keeps P) (hqueue : ∀ (s : State) q, P s → P { s with pending := q })
    {s t : State} (hs : P s) (ht : step s = .next t) : P t := by
  unfold step at ht
  split at ht
  · rw [Host.Outcome.next.injEq] at ht
    exact ht ▸ keeps_idle hP.regs hs
  · next c rest _ => exact Res.of_all_next ht (keeps_exec hP c (hqueue s rest hs))

/-! ### Which commands are refused -/

/-- A command that is refused exactly where a check of its operands fails. -/
theorem Res.next_or_refused {ok : Bool} {t : State} {o : Res} (ho : o = if !ok then .refused .illFormed else .next t) :
    (ok = true → ∃ t, o = .next t) ∧ (ok = false → o = .refused .illFormed) := by
  subst ho
  cases ok
  · exact ⟨nofun, fun _ => rfl⟩
  · exact ⟨fun _ => ⟨t, rfl⟩, nofun⟩

/-! ### The statements -/

/-- Settles O36: both forms are kept by every primitive update, and neither looks at the queue. -/
theorem everyStepKeepsForms : Obligations.EveryStepKeepsForms := by
  intro s t hregs hbytes ht
  exact ⟨keeps_step Keeps.regsWf (fun _ _ h => h) hregs ht, keeps_step Keeps.bytesWf (fun _ _ h => h) hbytes ht⟩

/-- Settles O37: to have a given queue is a property that every primitive update keeps. -/
theorem commandsLeaveQueue : Obligations.CommandsLeaveQueue := by
  intro c s t ht
  exact Res.of_all_next ht (keeps_exec (Keeps.pending s.pending) c rfl)

/-- Settles O38: to have the memories and tables of `s` is a property that setting a register field keeps. -/
theorem storesNothingFrame : Obligations.StoresNothingFrame := by
  intro c s t hc ht
  obtain ⟨hmem, hpoison, hcfg, hmsix⟩ :=
    Res.of_all_next ht (keeps_exec_of_storesNothing (KeepsRegs.stores s) hc ⟨rfl, rfl, rfl, rfl⟩)
  exact ⟨fun a => by rw [State.ld, hmem, State.ld], fun a => by rw [State.isPoison, hpoison, State.isPoison], hcfg, hmsix⟩

/-- Settles O33: that is the second case of `step`. -/
theorem stepRunsFront : Obligations.StepRunsFront := by
  intro c rest s hs
  rw [step, hs]

/-- Settles O34: that is the first case of `step`, and the nanosecond leaves the queue alone. -/
theorem stepIdleTicks : Obligations.StepIdleTicks := by
  intro s hs
  refine ⟨by rw [step, hs], keeps_idle (Keeps.pending []).regs hs, fun hoff => ?_⟩
  rw [State.idle, if_pos hoff]

/-- Settles O35: the register file and every map of the reset state are empty, so that each reads as its default. -/
theorem resetState : Obligations.ResetState := by
  refine ⟨rfl, rfl, rfl, fun f i hf => ?_, fun i hi => ?_, fun a => rfl, rfl, rfl⟩
  · have hne : f.ctorIdx ≠ Fld.LANE_LINK_CTL_LINK_ID.ctorIdx := fun h => hf (Fld.ctorIdx_inj h)
    change regDefault (fkey f i) = _
    rw [regDefault, fkey_div, if_neg hne, Fld.ofNat_ctorIdx]
  · change regDefault (fkey .LANE_LINK_CTL_LINK_ID i) = i
    rw [regDefault, fkey_div, if_pos rfl]
    unfold fkey
    omega

/-- Settles O39: the four commands of host memory requests by their own checks, and every other by its meaning, which answers a
next state whatever its operands. -/
theorem wellFormedRuns : Obligations.WellFormedRuns := by
  intro c s
  cases c with
  | hostPostedWriteRx h data be err => exact Res.next_or_refused rfl
  | hostMemoryReadRx h len err => exact Res.next_or_refused rfl
  | hostAtomicopRx h op size data err => exact Res.next_or_refused rfl
  | memoryReadLockRx h => exact Res.next_or_refused rfl
  | _ => exact ⟨fun _ => ⟨_, rfl⟩, nofun⟩

end Sys2Proof.Machine
end

section
/-! SUPPORT. A range cut at multiples of `w` (R97, R136, R144, R176): its pieces and the statement about them. -/
namespace Sys2Proof.Machine

variable {w a : Nat}

/-- A piece that ends at or before the next multiple of `w` crosses none. -/
theorem div_eq_of_within_multiple (hw : 0 < w) {x l : Nat} (hpos : 0 < l) (hl : l ≤ w - x % w) :
    x / w = (x + l - 1) / w := by
  have hx := Nat.div_add_mod x w
  have hr := Nat.mod_lt x hw
  have hsplit : x + l - 1 = w * (x / w) + (x % w + l - 1) := by omega
  rw [hsplit, Nat.mul_add_div hw, Nat.div_eq_of_lt (show x % w + l - 1 < w by omega), Nat.add_zero]

/-- Each piece is not empty, lies within the range and crosses no multiple of `w`. -/
theorem mem_cutAt (hw : 0 < w) (n : Nat) : ∀ (off len : Nat), ∀ p ∈ cutAt w a n off len,
    0 < p.2 ∧ off ≤ p.1 ∧ p.1 + p.2 ≤ off + len ∧ (a + p.1) / w = (a + p.1 + p.2 - 1) / w := by
  induction n with
  | zero => exact fun _ _ _ hp => nomatch hp
  | succ n ih =>
    intro off len p hp
    rw [cutAt] at hp
    split at hp
    · nomatch hp
    · next hlen =>
      have hr := Nat.mod_lt (a + off) hw
      rcases List.mem_cons.1 hp with rfl | hp
      · refine ⟨?_, ?_, ?_, div_eq_of_within_multiple hw ?_ (Nat.min_le_right _ _)⟩ <;> dsimp only <;> omega
      · obtain ⟨hpos, hlo, hhi, hdiv⟩ := ih _ _ p hp
        exact ⟨hpos, by omega, by omega, hdiv⟩

/-- The pieces follow one another. -/
theorem cutAt_pairwise (hw : 0 < w) (n : Nat) : ∀ off len : Nat,
    (cutAt w a n off len).Pairwise fun p q => p.1 + p.2 ≤ q.1 := by
  induction n with
  | zero => exact fun _ _ => .nil
  | succ n ih =>
    intro off len
    rw [cutAt]
    split
    · exact .nil
    · refine .cons (fun q hq => ?_) (ih _ _)
      obtain ⟨-, hlo, -⟩ := mem_cutAt hw n _ _ q hq
      exact hlo

/-- With enough pieces the whole range is cut: every piece but the first starts at a multiple of `w`. -/
theorem cutAt_sum (hw : 0 < w) (n : Nat) : ∀ off len : Nat, (len = 0 ∨ len + (a + off) % w ≤ w * n) →
    ((cutAt w a n off len).map (·.2)).sum = len := by
  induction n with
  | zero =>
    intro off len h
    have : len = 0 := by omega
    simp [cutAt, this]
  | succ n ih =>
    intro off len h
    rw [cutAt]
    split
    · next hlen => simp [hlen]
    · next hlen =>
      have hr := Nat.mod_lt (a + off) hw
      have hx := Nat.div_add_mod (a + off) w
      rw [Nat.mul_succ] at h
      have hrest : len - min len (w - (a + off) % w) = 0 ∨ len - min len (w - (a + off) % w)
          + (a + (off + min len (w - (a + off) % w))) % w ≤ w * n := by
        rcases Nat.le_total len (w - (a + off) % w) with hle | hle
        · exact .inl (by omega)
        · have hnext : a + (off + (w - (a + off) % w)) = w * ((a + off) / w + 1) := by
            rw [Nat.mul_succ]
            omega
          rw [Nat.min_eq_right hle, hnext, Nat.mul_mod_right]
          exact .inr (by omega)
      rw [List.map_cons, List.sum_cons, ih _ _ hrest]
      omega

/-- Settles O44: with a piece to spare for the first cut, the bound on the length is that of `cutAt_sum`. -/
theorem piecesOfRange : Obligations.PiecesOfRange := by
  intro w a n off len hw hlen
  refine ⟨cutAt_sum hw n off len ?_, mem_cutAt hw n off len, cutAt_pairwise hw n off len⟩
  have hr := Nat.mod_lt (a + off) hw
  cases n with
  | zero => exact .inl (by omega)
  | succ n =>
    rw [Nat.add_sub_cancel] at hlen
    rw [Nat.mul_succ]
    exact .inr (by omega)

end Sys2Proof.Machine
end

section
/-! SUPPORT. The shapes in which meanings answer a next state, and the statements on the module's life and the host link. -/
namespace Sys2Proof.Machine

/-! ### Answers under a condition -/

/-- A change that waits for a condition is made where the condition holds. -/
theorem State.when_pos {s : State} {c : Bool} {f : State → State} (hc : c = true) : s.when c f = f s := by
  rw [hc, State.when_true]

/-- A command that acts under a condition answers what it does where the condition holds. -/
theorem next_when {s : State} {c : Bool} {f : State → State} (hc : c = true) :
    (.next (s.when c f) : Res) = .next (f s) :=
  congrArg _ (State.when_pos hc)

/-- A command that acts unless a condition holds answers what it does where it fails. -/
theorem next_neg {p : Prop} [Decidable p] {s t : State} (hp : ¬ p) : (.next (if p then s else t) : Res) = .next t :=
  congrArg _ (if_neg hp)

/-- A command that acts if a condition holds answers what it does where it holds. -/
theorem next_pos {p : Prop} [Decidable p] {s t : State} (hp : p) : (.next (if p then s else t) : Res) = .next s :=
  congrArg _ (if_pos hp)

/-! ### The module's life -/

/-- With no image on trial and no expiry of the boot watchdog recorded, the boot ROM chooses the active image (R384). -/
theorem State.imageChoice_active {s : State} (hattempt : s.hdr.attempt = 0) (hactive : s.hdr.active = 0)
    (hfailed : s.bt.wdogFailed = 0) : s.imageChoice = (0, s) := by
  simp [State.imageChoice, hattempt, hactive, hfailed]

/-- Image A starts where it is active, verifies and neither image is on trial (R379 step 3, R384). -/
theorem execImageVerified_active {s : State} (hmode : s.mode = .BOOT) (h1 : s.domOn 1 = true) (h16 : s.domOn 16 = true)
    (h2 : s.domOn 2 = true) (ver : BitVec 32) (mv : BitVec 8) (himage : s.bt.image = none) (hfail : s.bt.bootFail = false)
    (hattempt : s.hdr.attempt = 0) (hactive : s.hdr.active = 0) (hwdog : s.bt.wdogFailed = 0) :
    execImageVerified true false ver mv s = .next (s.imageStart 0 false ver mv) := by
  have hboots : ¬ (s.mode ≠ .BOOT ∨ s.bt.image.isSome = true ∨ s.bt.bootFail = true ∨ s.domOn 1 = false ∨ s.domOn 16 = false
      ∨ s.domOn 2 = false) := by simp [hmode, himage, hfail, h1, h16, h2]
  rw [execImageVerified, if_neg hboots, State.imageChoice_active hattempt hactive hwdog]
  simp [hattempt, hwdog]

/-- Settles O1: each command by its own condition, and IMAGE_VERIFIED by the choice of the image. -/
theorem lifeComplete : Obligations.LifeComplete := by
  intro s
  refine ⟨fun hmode htrip => next_neg (by simp [hmode, htrip]), rfl, rfl, fun _ => rfl, fun hmode => next_pos hmode,
    fun i hmode => next_when (by simp [hmode]), fun i hmode => next_when (by simp [hmode]),
    fun i hmode => next_when (by simp [hmode]), fun b hmode => next_when (by simp [hmode]),
    fun b hmode => next_when (by simp [hmode]), fun c hc => next_neg (by omega), ?bootWatchdog,
    fun hmode hface hperst hctl => next_pos ⟨hmode, hface, hperst, hctl⟩, ?standbyEntry, ?ledgerTimeout,
    fun henabled => next_pos henabled, rfl, ?delayExpire,
    fun hmode h1 h16 h2 ver mv => execImageVerified_active hmode h1 h16 h2 ver mv,
    fun hmode h17 h18 htrained => next_neg (by simp [hmode, h17, h18, htrained]),
    fun hdue hready => next_neg (by simp [hdue, hready])⟩
  case bootWatchdog =>
    intro hmode hready i himage
    simp [exec, execBootWatchdogExpire, himage, hmode, hready]
  case standbyEntry =>
    intro b hstandby hmode
    simp [exec, execStandbyEntry, hstandby, hmode]
  case ledgerTimeout =>
    intro b hstandby hmode hstep
    simp [exec, execStandbyLedgerTimeout, hstandby, hmode, hstep]
  case delayExpire =>
    intro n harmed
    simp [exec, execModuleResetDelayExpire, harmed]

/-! ### The host link -/

/-- Settles O2: each command by its own condition, those of PERST# by the branches of the pin and of HCTL's power. -/
theorem hostFaceComplete : Obligations.HostFaceComplete := by
  intro s
  refine ⟨?perstAssert, ?perstDeassert, fun hctl hup => next_when (by simp [hctl, hup]),
    fun hctl hup => next_when (by simp [hctl, hup]), fun hctl hdis => next_when (by simp [hctl, hdis]),
    fun hctl hup => next_when (by simpa [hctl] using hup),
    fun train flit l0p hctl hperst hdis hup hrate hwidth => next_when (by simp [hctl, hperst, hdis, hup, hrate, hwidth]),
    ?refclkLoss, rfl⟩
  case perstAssert =>
    intro hperst hctl hresets
    have hctl' : State.hctlOn { s with perst := true } = true := hctl
    have hresets' : State.perstResets { s with perst := true } = false := hresets
    simp [exec, execPerstAssert, hperst, hctl', hresets']
  case perstDeassert =>
    intro hperst hctl
    simp [exec, execPerstDeassert, hperst, hctl]
  case refclkLoss =>
    intro hctl hactive hup
    have hactive' : (s.set .HST_CLK_CFG_REFCLK_OK 0 0).fld .HST_CLK_CFG_ACTIVE = 1 := by
      rw [State.fld_set_ne s 0 (.inl (by decide)), hactive]
    have hup' : (s.set .HST_CLK_CFG_REFCLK_OK 0 0).flag .HST_LINK_STS_DL_UP = true := by
      rw [State.flag_set_ne s 0 (.inl (by decide)), hup]
    have hctl' : (s.set .HST_CLK_CFG_REFCLK_OK 0 0).hctlOn = true := hctl
    exact next_when (by simp [hctl', hactive', hup'])

/-- The L1 substate that is entered: L1.2 with its enable and the LTR threshold met, else L1.1 with its enable (R56). -/
theorem execL1SubstateEntry_enters {s : State} {ltrMet : Bool} {n c : Nat} (hctl : s.hctlOn = true) (hl1 : s.ltssm = ltL1)
    (hc : c = s.cfgD 0 0x2A8 / (if s.hp.l1Pm then 1 else 4)) (hn : n = 2 ∧ ltrMet = true ∧ c.testBit 0 = true ∨
      n = 1 ∧ (ltrMet = false ∨ c.testBit 0 = false) ∧ c.testBit 1 = true) :
    execL1SubstateEntry ltrMet s
      = .next (((s.set .HST_LINK_STS_LTSSM 0 (ltL1 + n)).clkreq false).send (.msg (.l1Substate n))) := by
  have hchoice : (if ltrMet && c.testBit 0 then 2 else if c.testBit 1 then 1 else 0) = n := by
    rcases hn with ⟨rfl, hmet, h0⟩ | ⟨rfl, h0, h1⟩
    · simp [hmet, h0]
    · rw [if_neg (by rcases h0 with h0 | h0 <;> simp [h0]), if_pos h1]
  have hn0 : n ≠ 0 := by omega
  refine (next_when (by simp [hctl, hl1])).trans ?_
  dsimp only
  rw [← hc, hchoice, if_neg hn0]

/-- Settles O3: each command by its own condition; the width of L0p by which of the two demands holds, and the end of an error
window by LANE_ACT after the counts are taken. -/
theorem hostLaneComplete : Obligations.HostLaneComplete := by
  intro s
  refine ⟨?errWindow, ?recoveryEntry,
    fun train hctl hrec hrate hwidth => next_when (by simp [hctl, hrec, hrate, hwidth]),
    fun hctl hauto hexcl hhawd => next_when (by simp [hctl, hauto, hexcl, hhawd]), ?retrain, ?demand, ?widthChange, ?aspm,
    fun ltrMet n hctl hl1 hn => execL1SubstateEntry_enters hctl hl1 rfl hn,
    fun hctl hlo hhi => next_when (by simp [hctl, hlo, hhi]), fun hctl hup => next_when (by simp [hctl, hup]), ?pmeToAck,
    fun n hctl hup => next_when (by simp [hctl, hup])⟩
  case errWindow =>
    intro errs margin replayed hctl hup
    have hopen : (s.hctlOn && s.flag .HST_LINK_STS_DL_UP) = true := by simp [hctl, hup]
    exact ⟨_, rfl, fun hact => (next_when hopen).trans (next_neg (by simp [hact])),
      fun hact => (next_when hopen).trans (next_pos hact)⟩
  case recoveryEntry =>
    exact fun hctl hl0 => (next_when hctl).trans (next_pos hl0)
  case retrain =>
    exact fun hctl hl0 => (next_when hctl).trans (next_pos hl0)
  case demand =>
    rintro window epoch w hctl hl0p hlink rfl
    have hopen : (s.hctlOn && s.l0pOn && s.linkOpen) = true := by simp [hctl, hl0p, hlink]
    exact ⟨fun hhigh hwide hfree => (next_when hopen).trans ((next_pos hhigh).trans (next_pos ⟨hwide, hfree⟩)),
      fun hlow hauto hmin hwindow hguar =>
        (next_when hopen).trans ((next_neg (Nat.not_lt.2 hlow)).trans (next_pos ⟨hauto, hmin, hwindow, hguar⟩))⟩
  case widthChange =>
    intro width hctl hl0p hup hwidth hle hfree
    exact ⟨_, rfl, next_when (by simpa [hctl, hl0p, hup, hwidth, hle] using hfree)⟩
  case aspm =>
    intro hctl hlink haspm hauto hidle0 hidle
    have hopen : (s.hctlOn && s.linkOpen && s.aspmL1 && s.flag .HST_LINK_CTL_L1_AUTO && s.fld .HST_PM_CTL_L1_IDLE != 0
        && !false && s.l1Idle) = true := by simp [hctl, hlink, haspm, hauto, hidle0, hidle]
    exact ⟨next_when hopen, next_when hopen⟩
  case pmeToAck =>
    intro expired hctl hpme hup hdone
    exact ⟨_, next_when (by simpa [hctl, hpme, hup] using hdone), rfl⟩

end Sys2Proof.Machine
end

section
/-! SUPPORT. Requests of the host and writes of control registers where they reach the module, and the statements on host
memory requests, translation and functions. -/
namespace Sys2Proof.Machine

/-! ### What reaches the module -/

/-- A TLP that its link carries, on no stream or on a Secure one, acts (R365). -/
theorem State.tlpRx_open {s : State} {h : HostTlp} (hctl : s.hctlOn = true) (hlink : s.linkOpen = true) (hide : h.ideCause = 0)
    (hstream : h.stream = 0 ∨ s.fld .SEC_IDE_STS_STATE (h.stream - 1) = 2) (g : State → State) :
    s.tlpRx h g = (g s).starchSettle := by
  have hsecure : ¬ (h.stream ≠ 0 ∧ s.fld .SEC_IDE_STS_STATE (h.stream - 1) ≠ 2) :=
    fun hboth => hstream.elim hboth.1 hboth.2
  rw [State.tlpRx, if_neg (by simp [hctl, hlink]), if_neg (not_not_intro hide), if_neg hsecure]

/-- A host request whose form its link can carry, taken from the link. -/
theorem next_tlpRx {ok : Bool} {s : State} {h : HostTlp} (hok : ok = true) (hctl : s.hctlOn = true) (hlink : s.linkOpen = true)
    (hide : h.ideCause = 0) (hstream : h.stream = 0 ∨ s.fld .SEC_IDE_STS_STATE (h.stream - 1) = 2) (g : State → State) :
    (if !ok then .refused .illFormed else .next (s.tlpRx h g) : Res) = .next (g s).starchSettle := by
  rw [hok, if_neg (by decide), State.tlpRx_open hctl hlink hide hstream]

/-- A bit of a configuration dword changes by a write of the dword, where the face serves the function (R381). -/
theorem State.cfgBit_served {s : State} {f : Nat} (hctl : s.hctlOn = true) (hserved : s.cfgAnswer f = 0) (off n : Nat)
    (on : Bool) : s.cfgBit f off n on
      = s.cfgWrite f off (if on then s.cfgD f off ||| 2 ^ n else s.cfgD f off - (s.cfgD f off &&& 2 ^ n)) 15 := by
  rw [State.cfgBit, if_neg (by simp [hctl, hserved])]

/-- The full face serves the functions that configuration requests reach (R381). -/
theorem State.cfgAnswer_full {s : State} {f : Nat} (hface : s.bt.face = .full) (hreach : s.cfgReach f = true) :
    s.cfgAnswer f = 0 := by
  simp [State.cfgAnswer, hface, hreach]

/-- A write of XLT_UPD_CMD with GO, while the unit is idle, is the command it names (R139). -/
theorem State.updCmd_on {s : State} {op i : Nat} (hon : s.regOn .XLT_UPD_CMD 0 = true)
    (hidle : s.flag .XLT_UPD_STS_BUSY = false) (hop : op < 4) (hi : i < 524288) (core : Option Core) :
    s.updCmd core op i = ((s.set .XLT_UPD_CMD_INDEX 0 i).set .XLT_UPD_CMD_OP 0 op).xltCmd op i := by
  have hindex : (i + op * 1048576 + 2147483648) % 524288 = i := by omega
  have hop' : (i + op * 1048576 + 2147483648) / 1048576 % 4 = op := by omega
  have hgo : ((i + op * 1048576) / 2147483648 + 1) % 2 = 1 := by omega
  rw [State.updCmd, State.ctlWrite_on hon, State.regDo_XLT_UPD_CMD]
  simp (disch := decide) [State.xltWriteReg, hidle, State.regPlain_XLT_UPD_CMD, laidOver_full, hindex, hop', hgo, State.fld_set,
    Nat.mod_eq_of_lt hop, Nat.mod_eq_of_lt hi]

/-! ### The statements -/

/-- Settles O4: the TLP is carried, and its meaning is that of its form. -/
theorem hostMemoryComplete : Obligations.HostMemoryComplete := by
  intro s h hctl hlink hide hstream
  exact ⟨fun _ _ _ hok => next_tlpRx hok hctl hlink hide hstream _, fun _ _ hok => next_tlpRx hok hctl hlink hide hstream _,
    fun _ _ _ _ hok => next_tlpRx hok hctl hlink hide hstream _, fun hok => next_tlpRx hok hctl hlink hide hstream _⟩

/-- Settles O5: each command of the update unit is a write of its register, and the others act under their own conditions. -/
theorem translationComplete : Obligations.TranslationComplete := by
  intro s
  refine ⟨?walkSlot, fun _ _ => rfl,
    fun core i hon hidle => congrArg _ (State.updCmd_on hon hidle (by decide) i.isLt core),
    fun core i hon hidle => congrArg _ (State.updCmd_on hon hidle (by decide) i.isLt core),
    fun core i hon hidle => congrArg _ (State.updCmd_on hon hidle (by decide) i.isLt core),
    fun core i hon hidle => congrArg _ (State.updCmd_on hon hidle (by decide) i.isLt core),
    next_when, next_when, ?tableBase, ?epoch, fun _ _ => rfl, next_when, rfl, rfl⟩
  case walkSlot =>
    intro w hw hfree
    simp [exec, execWalkSlotStart, hw, hfree]
  case tableBase =>
    intro core base hon
    rw [exec, execXltTblBaseWrite, State.ctlWrite_on hon, State.regDo_XLT_TBL_BASE]
    simp (disch := decide) [State.xltWriteReg, State.would, laidOver_full, Nat.mod_eq_of_lt base.isLt]
  case epoch =>
    intro core hon
    rw [exec, execXltEpochAdvance, State.ctlWrite_on hon, State.regDo_XLT_EPOCH]
    simp [State.xltWriteReg]

/-- Settles O6: configuration requests by the face that serves them, and the register writes as writes of their registers. -/
theorem functionComplete : Obligations.FunctionComplete := by
  intro s
  refine ⟨?configRead, ?configWrite, ?flr,
    fun pf hpf hctl hserved => (next_when (by simpa using hpf)).trans (congrArg _ (State.cfgBit_served hctl hserved ..)),
    fun pf hpf hctl hserved => (next_when (by simpa using hpf)).trans (congrArg _ (State.cfgBit_served hctl hserved ..)),
    fun f hctl hserved => congrArg _ (State.cfgBit_served hctl hserved ..),
    fun f hctl hserved => congrArg _ (State.cfgBit_served hctl hserved ..),
    fun f hctl hserved => congrArg _ (State.cfgBit_served hctl hserved ..),
    fun pf vf size hpf hctl hserved => next_when (by simp [hpf, hctl, hserved]), fun f hdone => next_when hdone,
    fun _ => rfl, ?slice, ?res, fun hready => congrArg _ (if_pos hready)⟩
  case configRead =>
    intro f dw tag hctl hlink hface hreach
    refine (next_when (by simp [hctl, hlink])).trans ?_
    simp [State.cfgAnswer_full hface hreach, hface]
  case configWrite =>
    intro f rid dw v be tag hf hctl hlink hserved
    refine (next_when (by simp [hctl, hlink])).trans ?_
    simp [hf, hserved]
  case flr =>
    intro f hctl hface hreach
    refine (next_when (by simp [hctl, State.cfgAnswer_full hface hreach])).trans ?_
    simp [State.flrAt, hface]
  case slice =>
    intro k v hon
    rw [exec, execFnSliceWrite, State.ctlWrite_on hon, State.regDo_FN_SLICE]
    rfl
  case res =>
    intro f first count hon hcount hend
    have hfirst : (first.val + 4096 * count.val) % 4096 = first.val := by omega
    have hcount' : (first.val + 4096 * count.val) / 4096 % 2048 = count.val := by omega
    have hlimits : ¬ ((if f.val < 4 then 1024 else 8) < count.val ∨ 4096 < first.val + count.val) := by
      split <;> omega
    rw [exec, execFnResWrite, State.ctlWrite_on hon, State.regDo_FN_RES]
    simp (disch := decide) [State.fnWrite, State.fnResWrite, State.would, laneMask, laidOver_full, hfirst, hcount', hlimits,
      State.regPlain_FN_RES]

end Sys2Proof.Machine
end

section
/-! SUPPORT. The statements on the ledger, the Basket and Starch. -/
namespace Sys2Proof.Machine

/-- A write whose granule is not locked opens its entry before the later ones of its stream (R172). -/
theorem State.nextOpen_unlocked {s : State} {p init : Nat} {w : LWait} {t : List LWait}
    (hmine : (s.ldgWait.filter fun w => w.port == p && w.init == init) = w :: t) (hfree : s.lockHolds w.req = false) :
    s.nextOpen p init = some w := by
  simp [State.nextOpen, hmine, hfree]

/-- The atomic or explicit lock that alone waits for a granule is granted with no run of host atomics (R171). -/
theorem execStarchGrant_alone {s : State} {gran hfn : Nat} {r : Req}
    (hmine : s.lockWait.filter (fun r => granKey r == (gran, hfn) && r.kind != .read && r.kind != .write) = [r])
    (hlocked : s.lockedFor r = false) (hbehind : s.lockBehind r = false) (hroom : s.locks.length < 1024) :
    execStarchGrant gran hfn s = .next (State.grant
      { s with lockWait := s.lockWait.erase r
               starchRun := s.starchRun.filter fun (e : Nat × Nat × Nat) => !(e.1 == gran && e.2.1 == hfn) } r).starchSettle := by
  have hroom' : ¬ 1024 ≤ s.locks.length := by omega
  cases hhost : r.who.isHost <;>
    simp [execStarchGrant, hmine, hhost, hlocked, hbehind, hroom']

/-- Settles O7: each command by what its search finds, and the two that send by the conditions on the link and the stream. -/
theorem ledgerComplete : Obligations.LedgerComplete := by
  intro s
  refine ⟨?open_, ?issue, ?reissue, ?writeTimeout, ?readTimeout, ?release, ?cplRelease⟩
  case open_ =>
    intro p init w t hmine hlock hfree hpair _
    have hpair' : ¬ s.pairMax ≤ (s.stream p init).length := by omega
    simp [exec, execLedgerEntryOpen, State.nextOpen_unlocked hmine hlock, hfree, hpair']
  case issue =>
    intro p init tag e hmode hretry hfind hmirror hlocked hport htag hissue hovf
    refine (next_when (by simp [hmode])).trans ?_
    simp [hretry, hfind, hmirror, hlocked, hport, htag, hissue, State.entSend, hovf]
  case reissue =>
    intro p init e t hmode hdue hissued hcan hfits
    refine (next_when (by simp [hmode])).trans ?_
    simp only [hdue, hissued, hcan, hfits]
    rfl
  case writeTimeout =>
    intro p tag e hfind
    simp only [exec, execLedgerWriteTimeout, hfind]
  case readTimeout =>
    intro p tag r hfind
    simp only [exec, execPortReadTimeout, hfind]
  case release =>
    intro e hmode hfind
    refine ⟨_, rfl, fun hread hlock hbehind => ?_, fun hread hlock => ?_, fun hread => ?_⟩ <;>
      refine (next_when (by simp [hmode])).trans ?_
    · simp [hfind, hread, hlock, hbehind]
    · simp [hfind, hread, hlock]
    · simp [hfind, hread]
  case cplRelease =>
    intro h hfind
    refine ⟨fun hnotLast => ?_, fun a b c d e f hlast => ?_⟩
    · simp only [exec, execCplToPortRelease, hfind]
    · simp only [exec, execCplToPortRelease, hfind, hlast]

/-- Settles O8: each command by what its search finds; a completion of an issued tag by its EP. -/
theorem basketComplete : Obligations.BasketComplete := by
  intro s
  refine ⟨rfl, ?readIssue, ?completion, ?timeout, fun _ => rfl,
    fun gran hfn r hmine hlocked hbehind hroom => execStarchGrant_alone hmine hlocked hbehind hroom,
    fun p gran hfn hheld => next_when hheld⟩
  case readIssue =>
    intro p tag r emul k hmode hfind hport hpkt htag hissue hroom
    refine (next_when (by simp [hmode])).trans ?_
    simp [hfind, hport, hpkt, htag, hissue, hroom]
  case completion =>
    intro tag status data last b hfind hissued
    constructor <;> simp [exec, execHostCompletionRx, hfind, hissued]
  case timeout =>
    intro tag b hfind hissued
    simp [exec, execBasketTagTimeout, hfind, hissued]

end Sys2Proof.Machine
end

section
/-! SUPPORT. The statements on the lane layer: training, lane lock, darning, markers, remaps and low power. -/
namespace Sys2Proof.Machine

/-! ### What the fields of a lane leave alone -/

/-- The state of a lane is a field of its own. -/
theorem State.lane_set {s : State} {f : Fld} (hf : f ≠ .LANE_STS_STATE) (i v j : Nat) : (s.set f i v).lane j = s.lane j :=
  State.fld_set_ne s v (.inl hf)

/-- The three locks of a lane as its receiver finds them: signal detect, clock recovery lock and block lock. -/
def State.setLocks (s : State) (i : Nat) (sig cdr blk : Bool) : State :=
  ((s.set .LANE_STS_SIG i (bit sig)).set .LANE_STS_CDR_LOCK i (bit cdr)).set .LANE_STS_BLOCK_LOCK i (bit blk)

theorem State.lane_setLocks (s : State) (i : Nat) (sig cdr blk : Bool) (j : Nat) : (s.setLocks i sig cdr blk).lane j = s.lane j := by
  rw [State.setLocks, State.lane_set (by decide), State.lane_set (by decide), State.lane_set (by decide)]

theorem State.fld_setLocks_clean (s : State) (i : Nat) (sig cdr blk : Bool) (j : Nat) :
    (s.setLocks i sig cdr blk).fld .LANE_STS_CLEAN j = s.fld .LANE_STS_CLEAN j := by
  rw [State.setLocks, State.fld_set_ne _ _ (.inl (by decide)), State.fld_set_ne _ _ (.inl (by decide)),
    State.fld_set_ne _ _ (.inl (by decide))]

/-! ### Commands with a branch of their own -/

/-- Signal detect outside training is recorded and starts nothing (R196, R200). -/
theorem execLaneSignalDetect_untrained {s : State} {i : Lane} (hon : s.linkOn (linkOf i) = true)
    (hstate : s.fld .LANE_LINK_STS_STATE (linkOf i) ≠ 1) : execLaneSignalDetect i s = .next (s.set .LANE_STS_SIG i 1) := by
  have hstate' : (s.set .LANE_STS_SIG i 1).fld .LANE_LINK_STS_STATE (linkOf i) ≠ 1 := by
    rwa [State.fld_set_ne s 1 (.inl (by decide))]
  refine (next_when hon).trans ?_
  simp [hstate']

/-- An ACTIVE lane that has lost any of its locks is darned (R196, R205). -/
theorem execLaneLockLoss_darns {s : State} {i : Lane} {w : LaneLoss} {sig cdr blk : Bool} (hon : s.linkOn (linkOf i) = true)
    (hactive : s.lane i = lnACTIVE) (hsig : (s.flag .LANE_STS_SIG i && decide (w.dark < 100)) = sig)
    (hcdr : (s.flag .LANE_STS_CDR_LOCK i && !(decide (300 < w.ppm) && decide (100 ≤ w.ppmTime))) = cdr)
    (hblk : (s.flag .LANE_STS_BLOCK_LOCK i && decide (w.headerErrs < 16)) = blk) (hlost : (sig && cdr && blk) = false) :
    execLaneLockLoss i w s = .next ((s.setLocks i sig cdr blk).darn i) := by
  subst hsig hcdr hblk
  refine (next_when hon).trans ((next_neg (Bool.eq_false_iff.1 hlost)).trans (congrArg _ ?_))
  exact if_pos ((State.lane_setLocks ..).trans hactive)

/-- The link becomes ACTIVE at rate code 0 with as many lanes READY as DARN_MIN asks for (R199). -/
theorem execLinkTrainDecide_active {s : State} {l : Link} (hon : s.linkOn l = true) (hstate : s.fld .LANE_LINK_STS_STATE l = 1)
    (htarget : (s.lk l).target = 0) (hready : s.darnMin l ≤ (s.lanesIn l lnREADY).length) :
    execLinkTrainDecide l s = .next (s.linkActive l) := by
  have hneed : s.darnMin l ≤ (s.lanesIn l lnREADY).length + s.activeRx l := Nat.le_add_right_of_le hready
  refine (next_when (by simp [hon, hstate])).trans ?_
  simp [htarget, hneed]

/-- An ACTIVE lane with as many sync header errors in a window as its threshold is darned (R208). -/
theorem execLaneSyncErrWindow_darns {s : State} {i : Lane} {errs : Nat} (hon : s.linkOn (linkOf i) = true)
    (hactive : s.lane i = lnACTIVE) (hthr0 : s.fld .LANE_CTL_ERR_THR i ≠ 0) (hthr : s.fld .LANE_CTL_ERR_THR i ≤ errs) :
    execLaneSyncErrWindow i errs s = .next ((s.count .LANE_ERR_CNT_SYNC_ERR i errs).darn i) := by
  have hactive' : (s.count .LANE_ERR_CNT_SYNC_ERR i errs).lane i = lnACTIVE :=
    (State.lane_set (by decide) ..).trans hactive
  have hthr' : (s.count .LANE_ERR_CNT_SYNC_ERR i errs).fld .LANE_CTL_ERR_THR i = s.fld .LANE_CTL_ERR_THR i :=
    State.fld_set_ne s _ (.inl (by decide))
  refine (next_when hon).trans ?_
  dsimp only
  rw [hthr', if_pos ⟨hactive', hthr0, hthr⟩]

/-- A clean window of a trial that no ADD_REQ names counts, or with the third asks for the lane (R206). -/
theorem execTrialWindowEnd_clean {s : State} {i : Lane} {w : TrialWin}
    (hopen : (s.linkOn (linkOf i) && s.linkUp (linkOf i) && (s.port (linkOf i)).rxLp == 0) = true)
    (htrial : s.lane i = lnTRIAL) (hadding : ((s.lk (linkOf i)).adding &&& s.farBit i) = 0) (hclean : s.winClean i w = true) :
    execTrialWindowEnd i w s = .next (if s.fld .LANE_STS_CLEAN i < 2
      then ((s.setLocks i true true true).set .LANE_STS_CLEAN i (s.fld .LANE_STS_CLEAN i + 1)).trialStart i
      else let t := s.setLocks i true true true
        ((t.setLk (linkOf i) { t.lk (linkOf i) with adding := (t.lk (linkOf i)).adding ||| t.farBit i }).lpExit
          (linkOf i)).sendMarker (linkOf i) 3 (t.farBit i)) := by
  have hdarned : s.lane i ≠ lnDARNED := by rw [htrial]; decide
  refine (next_when hopen).trans ((next_neg hdarned).trans ((next_neg (by simp [htrial, hadding])).trans
    ((next_neg (by simp [hclean])).trans ?_)))
  rw [← State.fld_setLocks_clean s i true true true i]
  rfl

/-- A marker of the far end asks for the transmit set that is answered (R205, R206). -/
theorem State.stripeWanted_less {s : State} {l arg : Nat}
    (hless : s.fld .LANE_LINK_STS_TX_ACTIVE l - (s.fld .LANE_LINK_STS_TX_ACTIVE l &&& arg) ≠ 0) (harg : arg ≠ 0) :
    s.stripeWanted l arg 0 0
      = some (s.fld .LANE_LINK_STS_TX_ACTIVE l - (s.fld .LANE_LINK_STS_TX_ACTIVE l &&& arg)) := by
  simp [State.stripeWanted, hless, harg]

theorem State.stripeWanted_more {s : State} {l arg rxok : Nat} (hmore : (arg &&& rxok) % 2 ^ linkWidth l ≠ 0) :
    s.stripeWanted l 0 arg rxok
      = some (s.fld .LANE_LINK_STS_TX_ACTIVE l ||| ((arg &&& rxok) % 2 ^ linkWidth l)) := by
  simp [State.stripeWanted, hmore]

/-! ### The statements -/

/-- Settles O9: each command by its own condition, and by the branch of the lane's or the link's state. -/
theorem laneTrainComplete : Obligations.LaneTrainComplete := by
  intro s
  refine ⟨fun l on => next_when, fun l => next_when, ?trainBlock, ?badBlock,
    fun i hequalise => next_when (beq_iff_eq.2 hequalise),
    fun l hon hstate htarget hready => execLinkTrainDecide_active hon hstate htarget hready, ?allDetect, ?someDetect,
    fun l hon hfailed => next_when (by simp [hon, hfailed]), ?beacon,
    fun i hon hstate => execLaneSignalDetect_untrained hon hstate, ?lockLoss,
    fun i errs hon hactive hthr0 hthr => execLaneSyncErrWindow_darns hon hactive hthr0 hthr, fun i v => next_when,
    fun i => next_when, ?trial⟩
  case trainBlock =>
    intro i word b rx hon hoff hword hlocked
    refine (next_when (by simp [hon, hoff])).trans ?_
    simp only [hword, hlocked]
    rfl
  case badBlock =>
    intro i word rx hon hoff hword
    refine (next_when (by simp [hon, hoff])).trans ?_
    simp only [hword]
  case allDetect =>
    intro l hon hstate hstill hall
    refine (next_when (by simp [hon, hstate])).trans ((next_neg hstill).trans (next_pos ?_))
    simpa using hall
  case someDetect =>
    intro l hon hstate hstill hsome
    refine (next_when (by simp [hon, hstate])).trans ((next_neg hstill).trans (next_neg ?_))
    simpa using hsome
  case beacon =>
    intro l hon hstate hdark
    have hopen : (s.linkOn l && s.fld .LANE_LINK_STS_STATE l == 1 && !((lanesOf l).any fun i => s.flag .LANE_STS_SIG i))
        = true := by
      simp only [hon, hstate, Bool.and_eq_true, Bool.not_eq_true', List.any_eq_false]
      exact ⟨by decide, fun i hi => by simp [hdark i hi]⟩
    exact ⟨next_when hopen, next_when hopen⟩
  case lockLoss =>
    intro i w hon hactive
    exact ⟨fun hdark => execLaneLockLoss_darns (sig := false) hon hactive (by simp; omega) rfl rfl (by simp),
      fun herrs => execLaneLockLoss_darns (blk := false) hon hactive rfl rfl (by simp; omega) (by simp),
      fun hppm htime => execLaneLockLoss_darns (cdr := false) hon hactive rfl (by simp [hppm, htime]) rfl (by simp)⟩
  case trial =>
    intro i w hon hup hawake
    have hopen : (s.linkOn (linkOf i) && s.linkUp (linkOf i) && (s.port (linkOf i)).rxLp == 0) = true := by
      simp [hon, hup, hawake]
    exact ⟨fun hdarned hmay => (next_when hopen).trans ((next_pos hdarned).trans (next_pos hmay)),
      fun htrial hadding hclean hfew =>
        ⟨_, rfl, (execTrialWindowEnd_clean hopen htrial hadding hclean).trans (next_pos hfew)⟩,
      fun htrial hadding hclean hmany =>
        ⟨_, rfl, (execTrialWindowEnd_clean hopen htrial hadding hclean).trans (next_neg (Nat.not_lt.2 hmany))⟩⟩

/-- Settles O10: each command by its own condition on a link that is up; a marker's place by what came in it. -/
theorem laneMarkerComplete : Obligations.LaneMarkerComplete := by
  intro s l hon hup
  refine ⟨?marker, ?darnReq, ?addReq, fun arg => State.stripeWanted_less, fun arg rxok => State.stripeWanted_more,
    fun active skew => next_when (by simp [hon, hup]), fun hen hawake => next_when (by simp [hon, hup, hen, hawake]),
    fun hok hawake => next_when (by simp [hon, hup, hok, hawake]), fun hreq => next_when (by simp [hon, hup, hreq]),
    fun hreq => next_when (by simp [hon, hup, hreq]), fun hawake => next_when (by simp [hon, hup, hawake]), ?doze, ?deep,
    fun hwork => next_when (by simp [hon, hwork]), fun failed => next_when (by simp [hon, hup])⟩
  case marker =>
    intro i word skew b hlink hoff
    rw [← hlink] at hon hup ⊢
    have hopen : (s.linkOn (linkOf i) && s.lane i != lnOFF) = true := by simp [hon, hoff]
    refine ⟨fun hword hskew => ?_, fun hword hskew => ?_, fun hword => ⟨_, rfl, fun hup' => ?_⟩, ?_⟩ <;>
      refine (next_when hopen).trans ?_
    · simp [hword, hup, hskew]
    · simp [hword, hup, Nat.not_le.2 hskew]
    · simp [hword, hup']
    · simp [hup]
  case darnReq =>
    intro arg add rxok tx hwanted
    refine (next_when (by simp [hon, hup])).trans ?_
    simp only [hwanted]
  case addReq =>
    intro arg rxok darn tx hwanted
    refine (next_when (by simp [hon, hup])).trans ?_
    simp only [hwanted]
  case doze =>
    rintro far hidle hawake hen (⟨hl, hfar⟩ | ⟨hl, hok, hcfg⟩)
    · exact next_when (by rw [if_pos hl]; simp [hon, hidle, hawake, hen, hfar])
    · exact next_when (by simp [hon, hidle, hawake, hen, hl, hok, hcfg])
  case deep =>
    rintro far hidle hawake hok (⟨hl, hfar⟩ | ⟨hl, hfarOk, hcfg⟩)
    · exact next_when (by rw [if_pos hl]; simp [hon, hidle, hawake, hok, hfar])
    · exact next_when (by simp [hon, hidle, hawake, hok, hl, hfarOk, hcfg])

end Sys2Proof.Machine
end

section
/-! SUPPORT. The statements on the Urone link layer, on the packets of a port and on the requests of a design. -/
namespace Sys2Proof.Machine

/-! ### Packets that their link gives -/

/-- What the state that gives a packet reads in its registers. -/
theorem State.rxGives_fld {s t : State} {l : Nat} {k : UrPkt} (h : s.rxGives l k = some t) (f : Fld) (i : Nat) :
    t.fld f i = s.fld f i := by
  rw [(State.rxGives_same h).1]
  rfl

/-- A HELLO of major version 1 that comes while the port is not UP is taken (R243, R244). -/
theorem execHelloRx_taken {s t : State} {p : Port} {version sbMin design : Nat} {atomic seqAware dual dozeOk deepOk : Bool}
    {twin : Option Nat} (hruns : s.urRuns p = true)
    (hgives : s.rxGives p (.hello version atomic seqAware dual dozeOk deepOk sbMin design) = some t)
    (hstate : s.fld .ULK_STS_STATE p ≠ 2) (hversion : version / 16 % 16 = 1) :
    execHelloRx p version atomic seqAware dual dozeOk deepOk sbMin design twin s
      = .next (((t.twinShows p twin).helloTake p version atomic seqAware dual dozeOk deepOk sbMin design).heldServe p) := by
  have hstate' : (t.twinShows p twin).fld .ULK_STS_STATE p ≠ 2 :=
    fun heq => hstate ((State.rxGives_fld hgives .ULK_STS_STATE p).symm.trans heq)
  refine (next_when hruns).trans ?_
  dsimp only
  rw [State.rxServe_gives hgives, if_neg hstate', if_neg (not_not_intro hversion)]

/-! ### The statements -/

/-- Settles O11: each command by its own condition; a bundle by its check and its BSEQ, a packet by the state that gives it. -/
theorem uroneLinkComplete : Obligations.UroneLinkComplete := by
  intro s
  refine ⟨?bundle, ?control, fun l => next_when, fun l => next_when, ?flow, ?flowTx,
    fun p version atomic seqAware dual dozeOk deepOk sbMin design twin t hruns hgives hstate hversion =>
      execHelloRx_taken hruns hgives hstate hversion,
    fun p hstate => next_when (beq_iff_eq.2 hstate), fun p => next_when, fun p on => next_when⟩
  case bundle =>
    intro l data ctl hopen
    refine ⟨fun hbad => (next_when hopen).trans (next_pos (by simp [hbad])), fun hgood => ⟨_, rfl, fun hruns hbseq => ?_⟩⟩
    refine (next_when hopen).trans ((next_neg (by simp [hgood])).trans ?_)
    dsimp only
    rw [if_neg (by simp [hruns]), if_pos hbseq]
  case control =>
    intro l word hopen hgood htyp
    exact (next_when hopen).trans ((next_pos htyp).trans (next_pos hgood))
  case flow =>
    intro l vc hdr data t hruns hgives
    have htaken := State.rxServe_gives hgives
    constructor <;> intro hl <;> refine (next_when hruns).trans ?_ <;> dsimp only
    · rw [htaken, if_pos hl]
    · rw [htaken, if_neg hl]
  case flowTx =>
    intro l hruns
    exact ⟨next_when (by simp [hruns]), fun hmode => next_when (by simpa [hruns, or_comm] using hmode)⟩

/-- Settles O12: each packet by the state that gives it and what it says, the rest by their own conditions. -/
theorem uronePortComplete : Obligations.UronePortComplete := by
  intro s p
  refine ⟨?response, ?pollNow, ?pollSkip, ?sbState, fun hup hdirty => next_when (by simp [hup, hdirty]),
    fun v => next_when, ?req, ?lateError, ?reqDone⟩
  case response =>
    intro tag status off last data mask t hruns hgives
    refine (next_when hruns).trans ?_
    rw [State.rxServe_gives hgives]
  case pollNow =>
    intro hup hen htx hrx hout
    exact (next_when (by simp [hup, hen, htx, hrx])).trans (next_neg (by simp [hout]))
  case pollSkip =>
    intro hup hen htx hrx hout
    exact (next_when (by simp [hup, hen, htx, hrx])).trans (next_pos hout)
  case sbState =>
    intro id lines unsol t hruns hstate hheld hgives
    exact congrArg _ (State.pktRx_gives hruns hstate (.inr (by simp [UrPkt.vc])) hheld hgives .clean)
  case req =>
    intro line count t hruns hstate hheld hgives
    refine (congrArg _ (State.pktRx_gives hruns hstate (.inr (by simp [UrPkt.vc])) hheld hgives .clean)).trans ?_
    simp [State.pktDo, reqOf, Nat.mod_eq_of_lt line.isLt]
  case lateError =>
    intro init seq status t hruns hstate hheld hgives
    exact congrArg _ (State.pktRx_gives hruns hstate (.inr (by simp [UrPkt.vc])) hheld hgives .clean)
  case reqDone =>
    intro line hup hserved
    exact next_when (by rw [hup, Bool.true_and]; exact bne_iff_ne.2 hserved)

/-- Settles O13: a request that follows its format enters the module as the request that `reqOf` reads in its packet. -/
theorem designRequestComplete : Obligations.DesignRequestComplete := by
  intro s t p tag hruns hstate hmode hheld htag
  refine ⟨fun len addr priv x err hspan hgives => ?_, fun init seq addr retry priv x data mask err hspan hgives => ?_,
    fun op asz addr priv x ops err aop haop hatom hgives => ?_, fun addr priv x hgives => ?_, fun addr priv x hgives => ?_⟩
  · exact congrArg _ (State.pktRx_enter hruns hstate hmode hheld hgives htag (by rw [reqOf, hspan]))
  · exact congrArg _ (State.pktRx_enter hruns hstate hmode hheld hgives htag (by rw [reqOf, hspan]))
  · have hop : AtomOp.ofCode aop = some op := by
      rw [haop]
      cases op <;> rfl
    exact congrArg _ (State.pktRx_enter hruns hstate hmode hheld hgives htag (by rw [reqOf, hatom, hop]; rfl))
  · exact congrArg _ (State.pktRx_enter hruns hstate hmode hheld hgives htag rfl)
  · exact congrArg _ (State.pktRx_enter hruns hstate hmode hheld hgives htag rfl)

end Sys2Proof.Machine
end

section
/-! SUPPORT. The statements on the DMA registers and the DMA engine. -/
namespace Sys2Proof.Machine

/-- The oldest result of a channel or ring that is sought goes to what takes it. -/
theorem State.takeDone_found {s : State} {ch : Nat} {p : BeatDone → Bool} {e : BeatDone}
    (hfind : (s.dropRecDone ch).dmaDone.find? (fun e => e.ch == ch && p e) = some e) (g : State → BeatDone → State) :
    s.takeDone ch p g = g { s.dropRecDone ch with dmaDone := (s.dropRecDone ch).dmaDone.erase e } e := by
  simp only [State.takeDone, hfind]

/-- A stop ends by the command of its kind. -/
theorem State.stopEnd_of_kind {s : State} {c : Nat} {r : ChRun} {hard : Bool} (hrun : s.chan c = some r)
    (hkind : (r.stop == .hard) = hard) : s.stopEnd c hard = (s.chStopEnd c).stopSettle := by
  simp only [State.stopEnd, hrun]
  exact State.when_pos (by rw [hkind, beq_self_eq_true])

/-- A write of an action bit of DMA_CH_CTL is that action. -/
theorem State.chCtl_on {s : State} {c : Chan} (hon : s.regOn .DMA_CH_CTL c = true) (core : Option Core) (f : Fld) :
    s.chCtl core c f = s.dmaCtl c (2 ^ (fldInfo f).lo) := by
  rw [State.chCtl, State.ctlWrite_on hon, State.regDo_DMA_CH_CTL, State.dmaWrite]

/-- Settles O14: each command is the write of its register, in which it sets the one action bit or the whole word. -/
theorem dmaRegisterComplete : Obligations.DmaRegisterComplete := by
  intro s
  refine ⟨?start, ?abort, ?resume, ?clear, ?cfg, ?grant, ?ringResume, ?ringReset, ?doorbell⟩
  case start =>
    intro core c hon
    rw [exec, execDmaChStart, State.chCtl_on hon]
    simp [State.dmaCtl]
  case abort =>
    intro core c hon
    rw [exec, execDmaChAbort, State.chCtl_on hon]
    simp [State.dmaCtl]
  case resume =>
    intro core c hon
    rw [exec, execDmaChResume, State.chCtl_on hon]
    simp [State.dmaCtl]
  case clear =>
    intro core c hon
    rw [exec, execDmaChClear, State.chCtl_on hon]
    simp [State.dmaCtl]
  case cfg =>
    intro core c v hon
    exact congrArg _ ((State.ctlWrite_on hon ..).trans (State.regDo_DMA_CH_CFG ..))
  case grant =>
    intro core pf j v hon
    exact congrArg _ ((State.ctlWrite_on hon ..).trans (State.regDo_DMA_GRANT ..))
  case ringResume =>
    intro core x hon
    rw [exec, execDmaRingResumeWrite, State.ctlWrite_on hon, State.regDo_DMA_RING_CTL]
    simp [State.dmaWrite, State.dmaRing]
  case ringReset =>
    intro core x hon hidle
    rw [exec, execDmaRingResetWrite, State.ctlWrite_on hon, State.regDo_DMA_RING_CTL]
    simp [State.dmaWrite, State.dmaRing, hidle]
  case doorbell =>
    intro f k v hf hk hctl hlink
    refine (next_when (by simpa using ⟨Fin.val_ne_zero_iff.1 hf, hk⟩)).trans ?_
    exact congrArg _ (State.tlpRx_open hctl hlink rfl (.inl rfl) _)

/-- Settles O15: results by what the search finds, the two stops by their kind, the rest by its own condition. -/
theorem dmaEngineComplete : Obligations.DmaEngineComplete := by
  intro s
  refine ⟨fun x e hfind => congrArg _ (State.takeDone_found hfind _), fun x hho => next_when (by simp [hho]), fun _ _ => rfl,
    ?reqTake, fun c e hfind => congrArg _ (State.takeDone_found hfind _), fun c e hfind => congrArg _ (State.takeDone_found hfind _),
    fun c r hrun hkind => congrArg _ (State.stopEnd_of_kind hrun (beq_eq_false_iff_ne.2 hkind)),
    fun c r hrun hkind => congrArg _ (State.stopEnd_of_kind hrun (beq_iff_eq.2 hkind))⟩
  case reqTake =>
    intro line e hon halone
    simp [exec, execDmaReqTake, halone, hon, -List.find?_filter]

end Sys2Proof.Machine
end

section
/-! SUPPORT. The statements on interrupts, on the governor, and on the guard and debug access. -/
namespace Sys2Proof.Machine

/-- Settles O16: register commands as writes of their registers, deliveries by what they find. -/
theorem interruptComplete : Obligations.InterruptComplete := by
  intro s
  refine ⟨?doorbell, fun i hon => next_when hon, fun i hon hsoft => (next_when hon).trans (next_pos hsoft),
    fun _ _ _ _ => rfl, ?pendSet, ?pendClr, ?enSet, ?enClr, ?storm, ?route, fun _ => rfl, ?complete, ?threshold, ?msix, ?localIrq,
    fun hon => next_when hon⟩
  case doorbell =>
    intro c v hon
    rw [exec, execIrqDoorbellWrite, State.ctlWrite_on hon, State.regDo_IRQ_DOORBELL]
    simp [State.irqWrite, Nat.mod_eq_of_lt v.isLt]
  case pendSet =>
    intro core n v hon
    rw [exec, execIrqPendSet, State.irqMask, State.ctlWrite_on hon, State.regDo_IRQ_PEND_SET]
    rfl
  case pendClr =>
    intro core n v hon
    rw [exec, execIrqPendClr, State.irqMask, State.ctlWrite_on hon, State.regDo_IRQ_PEND_CLR]
    rfl
  case enSet =>
    intro core n v hon
    rw [exec, execIrqEnSet, State.irqMask, State.ctlWrite_on hon, State.regDo_IRQ_EN_SET]
    rfl
  case enClr =>
    intro core n v hon
    rw [exec, execIrqEnClr, State.irqMask, State.ctlWrite_on hon, State.regDo_IRQ_EN_CLR]
    rfl
  case storm =>
    intro core n v hon
    rw [exec, execIrqStormWrite, State.irqMask, State.ctlWrite_on hon, State.regDo_IRQ_STORM]
    rfl
  case route =>
    intro core i v hon
    rw [exec, execIrqRouteWrite, State.ctlWrite_on hon, State.regDo_IRQ_ROUTE]
    rfl
  case complete =>
    intro core c i hon
    have hi : i.val % 16384 = i.val := Nat.mod_eq_of_lt (Nat.lt_of_lt_of_le i.isLt (by decide))
    rw [exec, execIrqCoreComplete, State.ctlWrite_on hon, State.regDo_IRQ_CORE_COMPLETE]
    simp [State.irqWrite, hi]
  case threshold =>
    intro core c thr hon
    rw [exec, execIrqCoreThrWrite, State.ctlWrite_on hon, State.regDo_IRQ_CORE_CTL]
    simp (disch := decide) [State.irqWrite, State.regPlain_IRQ_CORE_CTL, laidOver_full, Nat.mod_eq_of_lt thr.isLt]
  case msix =>
    intro f e i t hsrcs
    simp only [exec, execMsixMessageSend, hsrcs]
  case localIrq =>
    intro i t hpresented hkind hfirst
    simp [exec, execLocalIrqDelivery, hpresented, hkind, hfirst]

/-- Settles O17: the periodic commands while the controller is powered, the two writes as writes of their registers. -/
theorem governorComplete : Obligations.GovernorComplete := by
  intro s
  refine ⟨fun hon => next_when hon, fun hon => next_when hon, fun hon => next_when hon, ?update, fun hon => next_when hon, ?bind,
    ?spill⟩
  case update =>
    intro core acct hon hidle
    have hacct : (acct.val + 2147483648) % 8192 = acct.val := by omega
    have hgo : (acct.val / 2147483648 + 1) % 2 = 1 := by omega
    rw [exec, execShrUpdCmd, State.ctlWrite_on hon, State.regDo_SHR_UPD_CMD]
    simp (disch := decide) [State.shrWrite, hidle, State.regPlain_SHR_UPD_CMD, laidOver_full, hacct, hgo, State.fld_set,
      Nat.mod_eq_of_lt acct.isLt]
  case bind =>
    intro core x v hon
    rw [exec, execShrCtxBindWrite, State.ctlWrite_on hon, State.regDo_SHR_CTX_BIND]
    simp (disch := decide) [State.shrWrite, State.would, laidOver_full]
  case spill =>
    intro f r hfind hempty
    simp [exec, execSpillReturn, hfind, hempty]

/-- Settles O18: register commands as writes of their registers, the others by their own conditions. -/
theorem guardDebugComplete : Obligations.GuardDebugComplete := by
  intro s
  refine ⟨?update, fun hon => next_when hon, ?advance, fun hon => next_when hon, fun _ _ => rfl, fun _ => rfl, ?access, ?relock⟩
  case update =>
    intro core set region hon hidle
    have hregion : (region.val + set.val * 32 + 2147483648) % 32 = region.val := by omega
    have hset : (region.val + set.val * 32 + 2147483648) / 32 % 32 = set.val := by omega
    have hgo : ((region.val + set.val * 32) / 2147483648 + 1) % 2 = 1 := by omega
    rw [exec, execGrdUpdCmd, State.ctlWrite_on hon, State.regDo_GRD_UPD_CMD]
    simp (disch := decide) [State.grdWriteReg, hidle, State.regPlain_GRD_UPD_CMD, laidOver_full, hregion, hset, hgo,
      State.fld_set, Nat.mod_eq_of_lt region.isLt, Nat.mod_eq_of_lt set.isLt]
    cases core with
    | none => rfl
    | some c =>
      have hcore : (c.val != jtag) = true := bne_iff_ne.2 (Nat.ne_of_lt c.isLt)
      simp [byWho, hcore]
  case advance =>
    intro core hon
    rw [exec, execGrdEpochAdvance, State.ctlWrite_on hon, State.regDo_GRD_EPOCH]
    simp [State.grdWriteReg]
  case access =>
    intro addr len err hon hmode hstate
    refine (next_when (by simp [hon, hmode])).trans ?_
    simp [hstate]
  case relock =>
    intro hon
    rw [exec, execRelock, State.ctlWrite_on hon, State.regDo_DBG_CTL]
    simp [State.sysWrite]

end Sys2Proof.Machine
end

section
/-! SUPPORT. The statements on link security: SPDM, IDE key management and TDISP. -/
namespace Sys2Proof.Machine

/-- With algorithms agreed and the lifecycle permitting them, every SPDM request is served (R355, R359). -/
theorem State.spdmAt_agreed {s : State} {stage : Nat} (hready : s.fwReady = true) (hfull : s.spdmFull = true)
    (hagreed : s.sc.spdmStage = 3) (hstage : stage ≤ 3) (g : State → State) : s.spdmAt stage g = g s := by
  have hstage' : stage ≤ s.sc.spdmStage := by omega
  rw [State.spdmAt, State.doeServes, State.when_pos hready, if_neg (by simp [hfull]), if_pos hstage']

/-- Measurements are served where every SPDM request is. -/
theorem State.measureAt_agreed {s : State} (hready : s.fwReady = true) (hfull : s.spdmFull = true)
    (hagreed : s.sc.spdmStage = 3) (sign : Bool) (g : State → State) : s.measureAt sign g = g s := by
  have hstate : s.fld .SEC_LIFECYCLE_STATE ≠ 3 := by
    simp only [State.spdmFull, Bool.or_eq_true, beq_iff_eq] at hfull
    omega
  rw [State.measureAt, if_neg (by simp [hstate]), State.spdmAt_agreed hready hfull hagreed (by decide)]

/-- A request inside an open session is served. -/
theorem State.inSession_open {s : State} {id : Nat} {e : SpdmSession} (hready : s.fwReady = true)
    (hsession : s.session id = some e) (hopen : e.open_ = true) (g : State → State) : s.inSession id g = g s := by
  rw [State.inSession, State.doeServes, State.when_pos hready]
  simp only [hsession, hopen, if_true]

/-- Settles O19: with algorithms agreed, and in an open session, a request is served, and its meaning is that of its
parameters. -/
theorem spdmComplete : Obligations.SpdmComplete := by
  intro s hready
  refine ⟨fun hfull hagreed => ?connection, fun id e hsession hopen => ?session⟩
  case connection =>
    have serve {stage : Nat} (hstage : stage ≤ 3) (g : State → State) : (.next (s.spdmAt stage g) : Res) = .next (g s) :=
      congrArg _ (State.spdmAt_agreed hready hfull hagreed hstage g)
    have measure (g : State → State) : (.next (s.measureAt false g) : Res) = .next (g s) :=
      congrArg _ (State.measureAt_agreed hready hfull hagreed false g)
    refine ⟨fun index hindex => (next_when hready).trans (next_pos hindex), next_when hready, ?capabilities,
      fun _ _ _ _ => serve (by decide) _, serve (by decide) _,
      fun slot off len hslot => (serve (by decide) _).trans (next_neg (by omega)),
      fun slot hslot => (serve (by decide) _).trans (next_neg (by omega)), measure _, ?debugState,
      ?exchange⟩
    case exchange =>
      intro slot hslot hroom
      refine (serve (by decide) _).trans ?_
      rw [if_neg (by omega), if_neg (by omega)]
    case debugState =>
      refine (measure _).trans ?_
      rfl
    case capabilities =>
      exact (serve (by decide) _).trans (by rw [hagreed]; rfl)
  case session =>
    have serve (g : State → State) : (.next (s.inSession id g) : Res) = .next (g s) :=
      congrArg _ (State.inSession_open hready hsession hopen g)
    refine ⟨?finish, serve _, ?keyUpdate, serve _, serve _,
      fun stream kset dir sub key hvalid hfree => (serve _).trans (next_neg (by simp [hvalid, hfree])),
      fun stream kset dir sub hvalid hkey => (serve _).trans (next_neg (by simp [hvalid, hkey])), ?stop⟩
    case finish =>
      refine (next_when hready).trans ?_
      simp only [hsession, if_true]
    case keyUpdate =>
      intro op hop
      have hop3 : op ≠ 3 := by omega
      refine (serve _).trans ((next_neg (by omega)).trans ?_)
      simp only [hsession, if_neg hop3]
    case stop =>
      intro stream kset dir sub hvalid hgo
      refine (serve _).trans ((next_neg (by simp [hvalid])).trans ?_)
      simp only [hgo, if_true]

/-- Settles O20: the request is served, and its meaning is that of the TDI's state. -/
theorem tdispComplete : Obligations.TdispComplete := by
  intro s id e f hready hsession hopen hf hstate
  have serve (g : State → State) : (.next (s.onTdi id f g) : Res) = .next (g s) :=
    congrArg _ (State.onTdi_ok hready hsession hopen hf hstate g)
  refine ⟨serve _, serve _, ?lock, fun hheld => (serve _).trans (next_pos hheld), serve _, ?start, ?stop⟩
  case lock =>
    intro stream hunlocked hstream hle hsecure _
    exact (serve _).trans ((next_neg (not_not_intro hunlocked)).trans (next_neg (by rw [hsecure]; omega)))
  case start =>
    intro nonce hlocked hnonce
    exact (serve _).trans ((next_neg (not_not_intro hlocked)).trans (next_neg (by simp [hnonce])))
  case stop =>
    intro herror
    refine (serve _).trans ?_
    simp only [if_neg herror]

end Sys2Proof.Machine
end

section
/-! SUPPORT. The statements on the pair and on the mailbox control unit. -/
namespace Sys2Proof.Machine

/-- A Seam packet that the link layer gives acts in the state that gives it, its credit freed. -/
theorem State.seamRx_gives {s t : State} {k : SeamPkt} (hup : s.urUp 16 = true) (hgives : s.rxGives 16 (.seam k) = some t)
    (g : State → State) : s.seamRx k g = (g (t.rxFree 16 (.seam k))).starchSettle := by
  rw [State.seamRx, State.when_pos hup, State.rxServe_gives hgives]

/-- SEAM powering up leaves the fields of every register. -/
theorem State.flag_seamPower (s : State) (f : Fld) (i : Nat) : s.seamPower.flag f i = s.flag f i := by
  unfold State.seamPower
  split <;> rfl

/-- A write of an action bit of SEM_CTL is that action. -/
theorem State.semCtl_on {s : State} (hon : s.regOn .SEM_CTL 0 = true) (core : Option Core) (f : Fld) :
    s.semCtl core f = s.semWrite .SEM_CTL 0 (2 ^ (fldInfo f).lo) (2 ^ (fldInfo f).lo) := by
  rw [State.semCtl, State.ctlWrite_on hon, State.regDo_SEM_CTL]

/-- Settles O21: Seam packets as the link layer gives them, SEM_CTL as writes of its action bits. -/
theorem pairComplete : Obligations.PairComplete := by
  intro s
  refine ⟨?hello, fun hup => next_when hup,
    fun _ _ _ _ _ _ hup hgives => congrArg _ (State.seamRx_gives hup hgives _),
    fun _ _ _ _ _ hup hgives => congrArg _ (State.seamRx_gives hup hgives _),
    fun _ _ hup hgives => congrArg _ (State.seamRx_gives hup hgives _), ?offer, ?leavePacket, rfl, ?aliveToggle,
    fun hmode => next_when (by simp [hmode]), fun hmode => next_when (by simp [hmode]), ?present, fun _ => rfl, ?handover,
    ?leave, ?snap, fun hho hmode hdrained => next_when (by simp [hho, hmode, hdrained]), fun hho => next_when (by simp [hho])⟩
  case hello =>
    intro version mver mode leading fw serial far t hup hgives
    have htaken := State.seamRx_gives hup hgives fun u =>
      (State.seamHello { u with twinFar := far } mver mode leading fw serial).hoFlush
    exact congrArg Host.Outcome.next htaken
  case offer =>
    intro mseq t hup hgives
    exact congrArg _ (State.seamRx_gives hup hgives _)
  case leavePacket =>
    intro t hup hgives
    have hgives' : s.rxGives 16 (.seam (.pairCtl ((2 : Fin 8) : Nat))) = some t := hgives
    rw [exec, execPairCtlRx, State.seamRx_gives hup hgives', if_neg (by decide), if_pos (by decide)]
    rfl
  case aliveToggle =>
    intro hmode
    exact next_when (by simpa [or_assoc] using hmode)
  case present =>
    intro hmode hwake
    have hwake' : (s.set .SEM_STS_TWIN_PRESENT 0 1).seamPower.flag .PWR_WAKE_EN_TWIN = false := by
      rw [State.flag_seamPower, State.flag_set_ne s 1 (.inl (by decide)), hwake]
    simp [exec, execTwinPresentChange, hmode, hwake', show bit true = 1 from rfl]
  case handover =>
    intro core hon
    rw [exec, execSemCtlHandover, State.semCtl_on hon]
    simp [State.semWrite, State.regPlain_SEM_CTL]
  case leave =>
    intro core hon
    rw [exec, execSemCtlLeave, State.semCtl_on hon]
    simp [State.semWrite, State.regPlain_SEM_CTL]
  case snap =>
    intro core hon
    rw [exec, execSemCtlSnap, State.semCtl_on hon]
    simp [State.semWrite, State.regPlain_SEM_CTL]

/-- ACT by the owner's route, where the mailbox unit is powered. -/
theorem State.actBy_owner {s : State} {m : Nat} (hon : s.domOn 1 = true) (hm : m ≠ 0) (act : Nat) :
    s.actBy m act = s.mbxAct m act true := by
  rw [State.actBy, State.when_pos hon, bne_iff_ne.2 hm]

/-- Settles O22: ACT by the owner's route, and MBX_DONE of an opcode that is served. -/
theorem mailboxUnitComplete : Obligations.MailboxUnitComplete := by
  intro s hon
  refine ⟨fun m hm _ _ => congrArg _ (State.actBy_owner hon hm 1), ?release, ?cancel, fun _ => rfl, ?done⟩
  case release =>
    intro m hm hdone
    refine (congrArg _ (State.actBy_owner hon hm 2)).trans ?_
    exact next_pos hdone
  case cancel =>
    intro m hm hbusy
    refine (congrArg _ (State.actBy_owner hon hm 3)).trans ?_
    simp [State.mbxAct, State.mbxCancel, hbusy]
  case done =>
    intro m hbusy hserved
    have hm : m.val < mbxCount := m.isLt
    refine (next_when hon).trans ?_
    simp [hserved, State.mbxDone, hbusy, hm, -List.contains_eq_mem]

end Sys2Proof.Machine
end

section
/-! SUPPORT. Mailbox commands whose action ends at once, and the statements on the general commands, on contexts and rings. -/
namespace Sys2Proof.Machine

/-- A command that begins and whose action ends is done, with what the action answers. -/
theorem State.command_done {s t : State} {m : Nat} {k : CmdRule} {act : Act} {c : Cmd} {tx st de : Nat} {rsp : List Byte}
    (hc : c = s.cmdAt m) (htx : tx = s.fld .SEM_MSEQ_TX) (hbegins : s.begins m k)
    (hact : act c 0 s = (.done st de rsp, t)) : s.command m k act = t.cmdDone k m tx st de rsp := by
  subst hc htx
  rw [State.command_begins hbegins, State.cmdAct]
  simp only [hact]

/-- A mailbox command answers what it is done with. -/
theorem next_command {s t : State} {m : Nat} {k : CmdRule} {act : Act} {c : Cmd} {tx st de : Nat} {rsp : List Byte}
    (hc : c = s.cmdAt m) (htx : tx = s.fld .SEM_MSEQ_TX) (hbegins : s.begins m k)
    (hact : act c 0 s = (.done st de rsp, t)) :
    (.next (s.command m k act) : Res) = .next (t.cmdDone k m tx st de rsp) :=
  congrArg _ (State.command_done hc htx hbegins hact)

/-- Settles O23: with good parameters none of the action's checks fails. -/
theorem generalCommandComplete : Obligations.GeneralCommandComplete := by
  intro s m c tx hc htx
  refine ⟨fun hbegins => next_command hc htx hbegins rfl, fun hbegins => next_command hc htx hbegins rfl, ?fnQuery, ?fnSetRes,
    ?sliceBind, ?sliceUnbind, ?fnLock, ?vfTotal⟩
  case fnQuery =>
    intro hbegins hself hwho
    refine next_command hc htx hbegins ?_
    simp only [hself, if_true]
    rw [if_neg (by omega)]
    rfl
  case fnSetRes =>
    intro f a n hbegins hf ha hn hfn hend hoverlap hfew hnone
    refine next_command hc htx hbegins ?_
    have hlimit : ¬ (if f < 4 then 1024 else 8) < n := by split <;> omega
    simp only [hf, ha, hn]
    rw [if_neg (by omega), if_neg (by simp [hoverlap, hend]), if_neg hlimit, if_neg (by simp [hnone])]
    rfl
  case sliceBind =>
    intro k f pasid hbegins hk hf hpasid hf0 hfn hsmall hnone hfree hheld
    refine next_command hc htx hbegins ?_
    simp only [hk, hf, hpasid, hnone, hfree, hheld]
    rw [if_neg (by omega), if_neg (by simpa using hsmall), if_neg (by simp), if_neg (by simp)]
    rfl
  case sliceUnbind =>
    intro k hbegins hk hheld
    refine next_command hc htx hbegins ?_
    simp only [hk, hheld, Bool.and_false]
    rfl
  case fnLock =>
    intro f hbegins hf hfn hlock
    refine next_command hc htx hbegins ?_
    simp only [hf, hlock]
    rw [if_neg (by omega), if_neg (by decide), if_neg (by simp)]
    rfl
  case vfTotal =>
    intro hbegins hok
    have hlimits := hok
    simp only [vfTotalsOk, Bool.and_eq_true, decide_eq_true_eq] at hlimits
    refine next_command hc htx hbegins ?_
    simp only [hok]
    rw [if_neg (by omega), if_neg (by omega), if_neg (by decide)]
    rfl

/-- A write of SHR_CTX_BIND that breaks no limit is made. -/
theorem State.cmdBind_ok {s : State} {c : Cmd} {x slice f : Nat} {valid sliceEn chargeIn : Bool}
    (hok : s.bindBad x valid sliceEn slice f chargeIn = false) : s.cmdBind c x valid sliceEn slice f chargeIn
      = (.ok [], (s.cmdPut c .SHR_CTX_BIND x [(.SHR_CTX_BIND_VALID, bit valid), (.SHR_CTX_BIND_SLICE_EN, bit sliceEn),
          (.SHR_CTX_BIND_SLICE, slice), (.SHR_CTX_BIND_FUNC, f), (.SHR_CTX_BIND_CHARGE_IN, bit chargeIn)]).bdtRefresh) := by
  simp only [State.cmdBind, hok, Bool.false_eq_true, if_false]

/-- Settles O24: the context is named, and none of the action's checks fails. -/
theorem contextCommandComplete : Obligations.ContextCommandComplete := by
  intro s m c tx x hc htx
  refine ⟨?bind, ?unbind, ?setup, ?query, ?resume, ?reset⟩
  case bind =>
    intro hbegins hx hlt hfn hok
    refine next_command hc htx hbegins ?_
    simp only [hx]
    rw [if_neg (by omega), if_neg (by omega), State.cmdBind_ok hok]
    rfl
  case unbind =>
    intro hbegins hx hlt hok
    refine next_command hc htx hbegins ?_
    simp only [hx]
    rw [if_neg (by omega), State.cmdBind_ok hok]
    rfl
  case setup =>
    intro hbegins hx hvalid howner hgood hidle
    have hnamed : (!s.flag .SHR_CTX_BIND_VALID x || (decide (2 ≤ c.cls) && s.fld .SHR_CTX_BIND_FUNC x != c.who)) = false := by
      rcases howner with hcls | howner
      · have hcls2 : ¬ 2 ≤ c.cls := by omega
        simp [hvalid, hcls2]
      · simp [hvalid, howner]
    refine next_command hc htx hbegins ?_
    simp only [hx, hnamed, hgood, hidle]
    rfl
  case query =>
    intro hbegins hx
    refine next_command hc htx hbegins ?_
    simp only [hx]
    rfl
  case resume =>
    intro hbegins hx hstate
    refine next_command hc htx hbegins ?_
    simp only [hx]
    rw [if_neg (not_not_intro hstate)]
    rfl
  case reset =>
    intro hbegins hx hidle
    refine next_command hc htx hbegins ?_
    simp only [hx, hidle]
    rfl

end Sys2Proof.Machine
end

section
/-! SUPPORT. The statements on the mailbox commands of windows, the guard, interrupts, channels and shares. -/
namespace Sys2Proof.Machine

/-- A command that the window unit accepts ends at once where the unit can finish it. -/
theorem State.winStart_done {t u : State} (hbusy : t.flag .XLT_UPD_STS_BUSY = true) (hrun : t.xltCommit.xltInvalDone = u)
    (hend : u.flag .XLT_UPD_STS_BUSY = false) : t.winStart = (unitOk (u.flag .XLT_UPD_STS_UNMIRRORED), u) := by
  rw [State.winStart, if_pos hbusy, State.winGo]
  simp only [hrun, hend, Bool.false_eq_true, if_false]

/-- A read of the drain register returns at once where the older epochs have retired. -/
theorem syncRead_drained {cur thr : Nat} {live : List (Nat × Nat)} (hdrained : drained live cur thr = true) (late : Bool) :
    syncRead cur thr live late = syncRsp cur live true := by
  rw [syncRead, hdrained, Bool.true_or, if_pos rfl]

/-- Settles O25: a command to a unit by the unit's end, the reads by their bounds. -/
theorem windowCommandComplete : Obligations.WindowCommandComplete := by
  intro s m c tx hc htx
  refine ⟨?winWrite, ?winRead, ?winInval, ?epochSync, ?grdWrite, ?grdRead⟩
  case winWrite =>
    rintro k t u rfl hbegins hindex hidle rfl hbusy hrun hend
    refine next_command hc htx hbegins ?_
    simp only [hidle]
    rw [if_neg (by decide), if_neg (by omega), if_neg (by decide), State.winStart_done hbusy hrun hend]
    rfl
  case winRead =>
    rintro k rfl hbegins hindex
    refine next_command hc htx hbegins ?_
    rw [if_neg (by omega)]
    rfl
  case winInval =>
    rintro k op t u rfl hbegins hindex hop hlo hhi hidle rfl hbusy hrun hend
    refine next_command hc htx hbegins ?_
    simp only [hidle, hop]
    rw [if_neg (by decide), if_neg (by omega), if_neg (by omega), if_neg (by decide), State.winStart_done hbusy hrun hend]
    rfl
  case epochSync =>
    rintro k t rfl hbegins hwhich rfl hdrained
    refine next_command hc htx hbegins ?_
    simp only [hwhich, if_true, syncRead_drained hdrained]
    rfl
  case grdWrite =>
    rintro k t u rfl hbegins hset hregion hidle rfl hbusy hrun hend
    refine next_command hc htx hbegins ?_
    simp only [hidle, hbusy, State.grdGo, hrun, hend]
    rw [if_neg (by decide), if_neg (by omega), if_neg (by omega)]
    rfl
  case grdRead =>
    rintro k rfl hbegins hset hregion
    refine next_command hc htx hbegins ?_
    rw [if_neg (by omega), if_neg (by omega)]
    rfl

/-- Settles O26: with good parameters none of the action's checks fails; a channel that is not busy is not aborted. -/
theorem itemCommandComplete : Obligations.ItemCommandComplete := by
  intro s m c tx hc htx
  refine ⟨?irqSet, ?irqGet, ?irqLtSet, ?dmaGrant, ?dmaRevoke, ?dmaAbort, ?shareSet, ?shareGet, ?resQuery⟩
  case irqSet =>
    rintro k i rfl hbegins hi hmay hprio hen hroute
    refine next_command hc htx hbegins ?_
    simp only [hi, hmay, hprio, hen, hroute]
    rfl
  case irqGet =>
    rintro k i rfl hbegins hi hmay
    refine next_command hc htx hbegins ?_
    simp only [hi, hmay]
    rfl
  case irqLtSet =>
    rintro k rfl hbegins hline
    refine next_command hc htx hbegins ?_
    rw [if_neg (by omega)]
    rfl
  case dmaGrant =>
    rintro k pf j ch rfl hbegins hpf hlo hhi hj hlt hfree hch hslice hidle
    refine next_command hc htx hbegins ?_
    simp only [hpf, hj, hch, hslice, hfree]
    rw [if_neg (by omega), if_neg (by simpa using hlt), if_neg (by simp), if_neg (not_not_intro hidle)]
    rfl
  case dmaRevoke =>
    rintro k pf j ch t rfl hbegins hpf hlo hhi hj hlt hvalid hch hquiet rfl hidle
    refine next_command hc htx hbegins ?_
    simp only [hpf, hj, hch, hvalid, hquiet]
    rw [if_neg (by omega), if_neg (by simpa using hlt)]
    simp only [Bool.and_false, Bool.false_eq_true, if_false, hquiet, hidle]
    rfl
  case dmaAbort =>
    rintro k ch rfl hbegins hcls hch hquiet
    have hcls2 : c.cls ≠ 2 := by omega
    refine next_command hc htx hbegins ?_
    simp [hcls2, hch, hquiet, Ans.ok]
  case shareSet =>
    rintro k t u rfl hbegins hacct hidle rfl hbusy hrun hend
    refine next_command hc htx hbegins ?_
    simp only [hidle, hbusy, State.shareGo, hrun, hend]
    rw [if_neg (by decide), if_neg (by omega)]
    rfl
  case shareGet =>
    rintro k a rfl hbegins hcls ha hctx
    refine next_command hc htx hbegins ?_
    have hacct : a < 4112 := by omega
    simp only [ha, if_pos hcls, if_pos hacct, if_pos hctx]
    rfl
  case resQuery =>
    rintro k r rfl hbegins hr hlt
    refine next_command hc htx hbegins ?_
    simp only [hr]
    rw [if_neg (by omega)]
    rfl

end Sys2Proof.Machine
end

section
/-! SUPPORT. The statements on the mailbox commands of the pair, firmware, power, the log, time, lifecycle and debug. -/
namespace Sys2Proof.Machine

/-- A command that begins and whose action goes on keeps a note of it. -/
theorem State.command_waits {s t : State} {m n : Nat} {k : CmdRule} {act : Act} {c : Cmd} (hc : c = s.cmdAt m)
    (hbegins : s.begins m k) (hact : act c 0 s = (.wait n, t)) :
    s.command m k act = { t with mg.cmdRun := nSet t.mg.cmdRun m (2 * n + 1) } := by
  subst hc
  rw [State.command_begins hbegins, State.cmdAct]
  simp only [hact]

/-- Settles O27: with good parameters none of the action's checks fails; the handover goes on. -/
theorem pairCommandComplete : Obligations.PairCommandComplete := by
  intro s m c tx hc htx
  refine ⟨?status, ?handover, ?leave, ?snap, ?take, ?stageBegin, ?stageData, ?stageCommit, ?stageAbort, ?reset, ?evoset⟩
  case status =>
    rintro k rfl hbegins
    exact next_command hc htx hbegins rfl
  case handover =>
    rintro k t rfl hbegins hmode hrole hidle rfl hstarted
    refine congrArg (fun t => Host.Outcome.next (State.hoFlush t)) (State.command_waits (n := 0) hc hbegins ?_)
    rw [if_neg (by decide), if_neg (by simp [hmode, hrole]), if_neg (not_not_intro hidle)]
    simp only [if_neg hstarted]
  case leave =>
    rintro k rfl hbegins
    exact congrArg (fun t => Host.Outcome.next (State.hoFlush t)) (State.command_done hc htx hbegins rfl)
  case snap =>
    rintro k rfl hbegins hrole hsync
    exact next_command hc htx hbegins (if_pos ⟨hrole, hsync⟩)
  case take =>
    rintro k rfl hbegins hmode halive hsync hpaired
    refine congrArg (fun t => Host.Outcome.next (State.hoFlush t)) (State.command_done hc htx hbegins ?_)
    rw [if_neg (by simp [hmode, halive]), hsync, hpaired]
    rfl
  case stageBegin =>
    rintro k rfl hbegins hsource hlo hhi hsize hnone hattempt
    refine next_command hc htx hbegins ?_
    simp only [hsource, hnone, hattempt, if_true]
    rw [if_neg (by decide), if_neg (by omega), if_neg (by omega), if_neg (by simp), if_neg (by decide)]
    rfl
  case stageData =>
    rintro k g rfl hbegins hstaging hsource hoff hfits
    refine next_command hc htx hbegins ?_
    simp only [hstaging]
    rw [if_neg (not_not_intro hsource), if_neg (by omega)]
    rfl
  case stageCommit =>
    rintro k g ver rfl hbegins hstaging hwhole
    refine next_command hc htx hbegins ?_
    simp only [hstaging]
    rw [if_neg (by simp [hwhole]), if_neg (by decide)]
    rfl
  case stageAbort =>
    rintro k rfl hbegins
    exact next_command hc htx hbegins rfl
  case reset =>
    rintro k rfl hbegins hdelay
    exact next_command hc htx hbegins (if_neg (by omega))
  case evoset =>
    rintro k rfl hbegins hfits hplain
    refine next_command hc htx hbegins ?_
    rw [if_neg (by omega), if_neg (by simp [hplain])]
    rfl

/-- Settles O28: with good parameters none of the action's checks fails; a request of a domain ends at once. -/
theorem systemCommandComplete : Obligations.SystemCommandComplete := by
  intro s m c tx hc htx
  refine ⟨?standby, ?domainPower, ?portEnable, ?logRead, ?logClear, ?wakeSrc, ?timeGet, ?timeSync, ?nonceGet, ?lifecycle, ?unlock⟩
  case standby =>
    rintro k rfl hbegins hmode hnone
    refine next_command hc htx hbegins ?_
    rw [if_neg (by rcases hmode with hmode | hmode <;> simp [hmode]), hnone]
    rfl
  case domainPower =>
    rintro k d t rfl hbegins hd hreq hown hop hidle rfl hended hresult
    refine congrArg (fun t => Host.Outcome.next (State.starchSettle t)) (State.command_done hc htx hbegins ?_)
    simp only [hd, hidle, hended, hresult]
    rw [if_neg (by decide), if_neg (by simp [hreq, hown]), if_neg (by omega), if_neg (by decide), if_neg (by decide)]
    rfl
  case portEnable =>
    rintro k rfl hbegins hen
    exact congrArg (fun t => Host.Outcome.next (State.starchSettle t))
      (State.command_done hc htx hbegins (if_neg (by omega)))
  case logRead =>
    rintro k rfl hbegins
    exact next_command hc htx hbegins rfl
  case logClear =>
    rintro k rfl hbegins
    exact next_command hc htx hbegins rfl
  case wakeSrc =>
    rintro k rfl hbegins
    exact next_command hc htx hbegins rfl
  case timeGet =>
    rintro k rfl hbegins
    exact next_command hc htx hbegins rfl
  case timeSync =>
    rintro k d rfl hbegins rfl
    exact next_command hc htx hbegins rfl
  case nonceGet =>
    rintro k rfl hbegins
    refine next_command hc htx hbegins ?_
    rcases s.drawBytes 32 with ⟨b, t⟩
    rfl
  case lifecycle =>
    rintro k n t rfl hbegins hmagic hn hle hlater hauth
    refine next_command hc htx hbegins ?_
    simp only [hn, hauth]
    rw [if_neg (not_not_intro hmagic), if_neg (by omega)]
    rfl
  case unlock =>
    rintro k t rfl hbegins hmagic hzero hauth hstate
    refine next_command hc htx hbegins ?_
    simp only [hauth, if_pos hstate]
    rw [if_neg (not_not_intro hmagic), if_neg (not_not_intro hzero)]
    rfl

end Sys2Proof.Machine
end

section
/-! SUPPORT. The statements on management and on the memories. -/
namespace Sys2Proof.Machine

/-- A message over SMBus with a good PEC, to a module that is on and serves the binding, is taken. -/
theorem State.mctpServe_smbus {s : State} {h : MctpHdr} (hmode : s.mode ≠ .OFF) (hbinding : h.binding = 0) (hpec : h.pec = true)
    (hic : h.ic = false) (hen : s.flag .MGT_CFG_SMB_MCTP_EN = true) (g : State → State) : s.mctpServe h g = g s := by
  rw [State.mctpServe, if_neg hmode, if_pos hbinding, hen, hpec, hic]
  rfl

/-- Settles O29: the message is taken, firmware runs, and the answer is that of the request's parameters. -/
theorem managementComplete : Obligations.ManagementComplete := by
  intro s h hmode hbinding hpec hic hen hready
  have serve (g : State → State) : (.next (s.mctpServe h g) : Res) = .next (g s) :=
    congrArg _ (State.mctpServe_smbus hmode hbinding hpec hic hen g)
  have pldm (g : State → State) : (.next (s.pldmServe h g) : Res) = .next (g s) :=
    (serve _).trans (next_when hready)
  have served (i : Nat) : s.sensServed i = true := by rw [State.sensServed, hready, Bool.true_or]
  refine ⟨?message, fun _ _ => serve _, serve _, serve _, fun _ => serve _, serve _, serve _, fun _ => pldm _, pldm _,
    (pldm _).trans rfl, pldm _, (pldm _).trans rfl, ?reading, ?stateReading, ?enable, pldm _, (pldm _).trans rfl,
    fun _ => pldm _, fun _ _ _ _ _ _ => next_neg hmode⟩
  case message =>
    intro opcode abi tag payload hlen hbox hnow hheld hstate
    have hlen' : ¬ 4032 < payload.length := by omega
    refine (serve _).trans ?_
    simp [hready, hlen', hbox, hnow, hheld, hstate, hbinding]
  case reading =>
    intro sensor h0 h6
    refine (serve _).trans ?_
    simp only [served]
    rw [if_neg (by omega), if_neg (by decide)]
  case stateReading =>
    intro sensor h7 h9
    refine (serve _).trans ?_
    simp only [served]
    rw [if_neg (by omega), if_neg (by decide)]
  case enable =>
    intro sensor on h0 h6
    exact (pldm _).trans (next_neg (by omega))

/-- Settles O30: each command by its own condition. -/
theorem memoryComplete : Obligations.MemoryComplete := by
  intro s
  refine ⟨fun hon => next_when hon, fun hon => next_when hon, rfl, fun hon => next_when hon, ?sram, ?store, ?storm⟩
  case sram =>
    intro gran err hen hon
    simp [exec, execPatrolScrub, hen, hon]
  case store =>
    intro gran err hen hon hawake htrained hwrap
    simp [exec, execPatrolScrub, hen, hon, hawake, htrained, hwrap]
  case storm =>
    intro hthr hreached
    exact next_pos ⟨hthr, hreached⟩

end Sys2Proof.Machine
end

section
/-! SUPPORT. The statements on power, clocks and time, and on containment and the fault log. -/
namespace Sys2Proof.Machine

/-- A bit vector read as signed is the signed number of its value. -/
theorem signedOf_toNat (v : BitVec 64) : signedOf 64 v.toNat = v.toInt := by
  rw [signedOf, BitVec.toInt_eq_toNat_cond]
  by_cases h : v.toNat < 2 ^ 63
  · rw [if_pos h, if_pos (by omega)]
  · rw [if_neg h, if_neg (by omega)]
    rfl

/-- The bit of a truth value is not 0 where it holds. -/
theorem bit_bne_zero (b : Bool) : (bit b != 0) = b := by cases b <;> rfl

/-- Settles O31: register commands as writes of their registers, the others by their own conditions. -/
theorem powerComplete : Obligations.PowerComplete := by
  intro s
  refine ⟨?domReq, fun d hdraining hdrained => next_pos (.inl ⟨hdraining, hdrained⟩), ?drainTimeout, fun d hpowering =>
    next_pos hpowering, fun _ => rfl, fun _ => rfl, fun _ => rfl, ?coreWake, ?coreSel, ?wakeTimer, ?kick,
    fun hruns hhalf => next_when (by simp [hruns, hhalf]), fun hruns hhalf => next_when (by simp [hruns, hhalf]), ?pll,
    ?laneUnlock, ?resetKey, ?timeStep, fun ofs hon hlink hptm hperiod => next_when (by simp [hon, hlink, hptm, hperiod]), rfl⟩
  case domReq =>
    intro core dom op force hon
    have hforce := bit_lt force
    have hdom : (dom.val + 32 * op.val + 128 * bit force + 2147483648) % 32 = dom.val := by omega
    have hop : (dom.val + 32 * op.val + 128 * bit force + 2147483648) / 32 % 4 = op.val := by omega
    have hforce' : (dom.val + 32 * op.val + 128 * bit force + 2147483648) / 128 % 2 = bit force := by omega
    have hgo : ((dom.val + 32 * op.val + 128 * bit force) / 2147483648 + 1) % 2 = 1 := by omega
    rw [exec, execPwrDomReq, State.ctlWrite_on hon, State.regDo_PWR_DOM_REQ]
    simp (disch := decide) [State.sysWrite, State.regPlain_PWR_DOM_REQ, laidOver_full, hdom, hop, hforce', hgo, State.fld_set,
      State.flag, Nat.mod_eq_of_lt hforce, Nat.mod_eq_of_lt dom.isLt, Nat.mod_eq_of_lt op.isLt, bit_bne_zero]
  case drainTimeout =>
    intro d hdraining hdrained
    refine ⟨_, rfl, (next_pos ⟨hdraining, hdrained⟩).trans ?_⟩
    dsimp only
    cases hreq : (((s.setDom d .on).setGoal d 0).domResume d).bt.domReq with
    | none => rfl
    | some e => simp only [Option.any_some, beq_iff_eq]
  case coreWake =>
    intro core c hon
    rw [exec, execPwrCoreWakeWrite, State.ctlWrite_on hon, State.regDo_PWR_CORE_CTL]
    simp [State.sysWrite, State.regPlain_PWR_CORE_CTL]
  case coreSel =>
    intro by_ c pll hon
    have hpll := Nat.mod_eq_of_lt (bit_lt pll)
    rw [exec, execClkCoreSelWrite, State.ctlWrite_on hon, State.regDo_CLK_CORE_SEL]
    simp (disch := decide) [State.sysWrite, State.regPlain_CLK_CORE_SEL, laidOver_full, hpll]
  case wakeTimer =>
    intro hmode harmed hdue htarget
    have htarget' : (s.set .PWR_WAKE_TIMER_ARMED 0 0).fld .PWR_WAKE_TIMER_TARGET = s.fld .PWR_WAKE_TIMER_TARGET :=
      State.fld_set_ne s 0 (.inl (by decide))
    refine (next_neg ?_).trans ?_
    · simp [hmode, harmed, hdue]
    · simp only [htarget', if_pos htarget]
  case kick =>
    intro core hon
    rw [exec, execWdogKick, State.ctlWrite_on hon, State.regDo_PWR_WDOG_KICK]
    rfl
  case pll =>
    intro which hmode hon hwhich
    have hwhich' : which.val ≠ 3 := by omega
    refine (next_neg (by simp [hmode, hon])).trans ?_
    simp only [if_neg hwhich']
  case laneUnlock =>
    intro hon hup
    exact (next_neg (by rw [show s.domOn ((8 : Fin 20) : Nat) = true from hon]; decide)).trans (next_pos rfl)
  case resetKey =>
    intro core delay hon
    have hdelay : (delay.val + 5898240) % 1024 = delay.val := by omega
    have hkey : (delay.val + 5898240) / 65536 % 256 = 90 := by omega
    rw [exec, execRstCtlKey, State.ctlWrite_on hon, State.regDo_RST_CTL]
    simp (disch := decide) [State.sysWrite, State.regPlain_RST_CTL, laidOver_full, hdelay, hkey]
  case timeStep =>
    intro core delta hon
    rw [exec, execTimStepWrite, State.ctlWrite_on hon, State.regDo_TIM_STEP]
    simp [State.sysWrite, laneMask, Nat.mod_eq_of_lt delta.isLt, signedOf_toNat]

/-- SMBus raw mode answers a packet with a good PEC in every mode but OFF. -/
theorem State.rawServe_good {s : State} (hmode : s.mode ≠ .OFF) (g : State → State) : s.rawServe true g = g s := by
  rw [State.rawServe, if_neg hmode, if_pos rfl]

/-- Settles O32: register commands as writes of their registers, raw mode by a good PEC and what is selected. -/
theorem containComplete : Obligations.ContainComplete := by
  intro s
  have raw (hmode : s.mode ≠ .OFF) (g : State → State) : (.next (s.rawServe true g) : Res) = .next (g s) :=
    congrArg _ (State.rawServe_good hmode g)
  refine ⟨fun _ => rfl, ?enter, ?release, ?fnRequest, ?fnRelease, fun hready => next_when hready, fun hready => next_when hready,
    fun hmode => raw hmode _, fun hmode => raw hmode _, fun num hmode hheld => (raw hmode _).trans (next_pos hheld), ?logRead,
    fun hmode hen => (raw hmode _).trans (next_pos hen), fun hmode => (raw hmode _).trans rfl, ?rawContain, fun _ _ _ => rfl⟩
  case enter =>
    intro core hon
    rw [exec, execHstContEnter, State.ctlWrite_on hon, State.regDo_HST_CONT_REL]
    simp [State.hstWrite, State.regPlain_HST_CONT_REL]
  case release =>
    intro core key ledgerFail dmaAbort hon
    have hfail := bit_lt ledgerFail
    have habort := bit_lt dmaAbort
    have hkeyLt := key.isLt
    have hkey : (key.toNat + 256 * bit ledgerFail + 512 * bit dmaAbort) % 256 = key.toNat := by omega
    have hfail' : (key.toNat + 256 * bit ledgerFail + 512 * bit dmaAbort) / 256 % 2 = bit ledgerFail := by omega
    have habort' : (key.toNat + 256 * bit ledgerFail + 512 * bit dmaAbort) / 512 % 2 = bit dmaAbort := by omega
    have henter : (key.toNat + 256 * bit ledgerFail + 512 * bit dmaAbort) / 1024 % 2 = 0 := by omega
    rw [exec, execContainRelease, State.ctlWrite_on hon, State.regDo_HST_CONT_REL]
    simp (disch := decide) [State.hstWrite, State.regPlain_HST_CONT_REL, laidOver_full, hkey, hfail', habort', henter]
  case fnRequest =>
    intro core f hon
    rw [exec, execFnContRequest, State.ctlWrite_on hon, State.regDo_FN_CONT]
    simp [State.fnWrite]
  case fnRelease =>
    intro core f hon
    rw [exec, execFnContRelease, State.ctlWrite_on hon, State.regDo_FN_CONT]
    simp [State.fnWrite]
  case logRead =>
    intro e hmode hfind
    refine (raw hmode _).trans ?_
    simp only [hfind]
  case rawContain =>
    intro hmode
    have hon : s.mode ≠ .OFF := by rcases hmode with hmode | hmode <;> simp [hmode]
    exact (raw hon _).trans (next_pos hmode)

end Sys2Proof.Machine
end
